-- ==== Sys2Proof/Word.lean ====
section
/-!
DEFINITION. The word types of the device and the plain map that every sparse store is held in.
Every multi-byte value is little-endian (R4) and bit 0 is the least significant bit (R5).
-/
namespace Sys2Proof

/-- One byte of any memory of the device or of the host. -/
abbrev Byte := BitVec 8
/-- A 16-bit field: status codes (R6), epochs, source numbers. -/
abbrev W16 := BitVec 16
/-- A 32-bit word: one register, one FP32 value. -/
abbrev W32 := BitVec 32
/-- A 64-bit word: one instruction, one 64-bit register, one address. -/
abbrev W64 := BitVec 64
/-- A 128-bit value: a Spore key or counter, a job seed. -/
abbrev W128 := BitVec 128

/-- A sparse store: (key, value) pairs, keys strictly rising, no pair equal to what an unlisted key
reads as. `Map.get` and `Map.set` (Sys2Proof/Machine/Bits.lean) are its only read and write. -/
abbrev Map (α : Type) := List (Nat × α)

/-- A byte-addressed memory: a `Map` of bytes (Host.Cell), an unlisted byte reads as zero. -/
abbrev Memory := List (Nat × BitVec 8)

end Sys2Proof
end

