-- ==== Sys2Proof/Fields.lean ====
section
/-!
DEFINITION. The fields of the core instructions, bits [51:0] of the 64-bit word, most significant field
first (R125, R133, R135, R137, R139, R141). Bits that no field uses stand in `rsv` or `rest`.
-/
namespace Sys2Proof

/-- MMA (R125). -/
structure MmaFields where
  td : BitVec 4
  fmta : BitVec 5
  fmtb : BitVec 5
  tfmt : BitVec 2
  ovw : BitVec 1
  sa : BitVec 5
  sb : BitVec 5
  sk : BitVec 5
  rsv : BitVec 20
  deriving DecidableEq, Repr

/-- ZERO (R125). -/
structure ZeroFields where
  td : BitVec 4
  rsvHi : BitVec 10
  tfmt : BitVec 2
  rsvLo : BitVec 36
  deriving DecidableEq, Repr

/-- TLD (R125). -/
structure TldFields where
  td : BitVec 4
  rsvHi : BitVec 10
  tfmt : BitVec 2
  rsvMid : BitVec 1
  sa : BitVec 5
  rsvLo : BitVec 30
  deriving DecidableEq, Repr

/-- OUT (R125). -/
structure OutFields where
  ts : BitVec 4
  tfmt : BitVec 2
  act : BitVec 4
  samp : BitVec 4
  rm : BitVec 2
  scl : BitVec 1
  bias : BitVec 1
  pcol : BitVec 1
  dfmt : BitVec 5
  sd : BitVec 5
  se : BitVec 5
  sp : BitVec 5
  sq : BitVec 5
  rsv : BitVec 8
  deriving DecidableEq, Repr

/-- The VE class (R133). -/
structure VeFields where
  vd : BitVec 5
  va : BitVec 5
  vb : BitVec 5
  vc : BitVec 5
  ss : BitVec 5
  fmt : BitVec 5
  rm : BitVec 2
  fn : BitVec 4
  imm : BitVec 16
  deriving DecidableEq, Repr

/-- The SU class (R135). -/
structure SuFields where
  dst : BitVec 5
  va : BitVec 5
  sq : BitVec 5
  se : BitVec 5
  st : BitVec 5
  n : BitVec 7
  rsv : BitVec 20
  deriving DecidableEq, Repr

/-- The XB class (R137). -/
structure XbFields where
  sl : BitVec 5
  sm : BitVec 5
  slot : BitVec 12
  rop : BitVec 4
  rsv : BitVec 26
  deriving DecidableEq, Repr

/-- WAIT (R139). -/
structure WaitFields where
  mask : BitVec 5
  rest : BitVec 47
  deriving DecidableEq, Repr

/-- BAR (R139). -/
structure BarFields where
  id : BitVec 12
  scope : BitVec 2
  rest : BitVec 38
  deriving DecidableEq, Repr

/-- The CTL class (R141). -/
structure CtlFields where
  sdst : BitVec 5
  sa : BitVec 5
  sb : BitVec 5
  cond : BitVec 5
  imm : BitVec 32
  deriving DecidableEq, Repr

/-! ## Operands of the other commands -/

/-- What a fetched host command carries besides its operands (R464, R475): its ring set, its running ring
index, and its TAG. -/
structure Head where
  set : Nat
  seq : Nat
  tag : W32
  deriving DecidableEq, Repr

/-- What ECC finds in the words that a step touches (R627, R628): nothing, a corrected error, an uncorrectable
error at a word or line, or an uncorrectable error in control logic. -/
inductive Ecc where
  | clean
  | corrected (at_ : Nat)
  | uncorrectable (at_ : Nat)
  | control
  deriving DecidableEq, Repr

/-- A dispatch header (R274): sender rank, layer, record count and the sender's epoch. -/
structure DispHeader where
  rank : Nat
  layer : Nat
  count : Nat
  epoch : Nat
  deriving DecidableEq, Repr

/-- A dispatch record (R275) or an expert output (R279). -/
structure DispRecord where
  origin : Nat
  layer : Nat
  expert : Nat
  rank : Nat
  fmt : Nat
  row : Nat
  epoch : Nat
  vector : List Byte
  deriving DecidableEq, Repr

/-- A part's set-up for an extended Moss run (R387, R388), with the sweep from which a resume goes on (R392). -/
structure MossSetupMsg where
  extId : Nat
  parts : Nat
  part : Nat
  stale : Nat
  xOffset : Nat
  xTotal : Nat
  lead : Nat
  sweep : Nat
  width : Nat
  wy : Nat
  ty0 : Nat
  ej : Int
  eh : Int
  replicas : Nat
  runDigest : List Byte
  chainDigest : List Byte
  deriving DecidableEq, Repr

/-- A face of a neighbouring part (R391, R393): the sender's part and half-sweep, whether it belongs to a
snapshot and whether to the closing exchange, one packed column of spins per replica (bit z * Wy + y), and the
Jx couplings that join the column to the receiver when the sender owns them. -/
structure MossFaceMsg where
  extId : Nat
  part : Nat
  halfSweep : Nat
  snapshot : Bool
  closing : Bool
  spins : List (List Byte)
  jx : List Int
  deriving DecidableEq, Repr

/-- One replica's partials at a sample point (R393, R394): CJ, CH, the constraint sums, per chain P, M and the
lowest member's global site with its spin, and equality of the vector share with each reservoir entry and with
each earlier replica of the same sample point. -/
structure MossPartial where
  cj : Int
  ch : Int
  sums : List Int
  chains : List (Nat × Nat × Nat × Bool)
  equalRes : List Bool
  equalRep : List Bool
  deriving DecidableEq, Repr

/-- The partials of one part at the sample point of run sweep `sweep` (R393). -/
structure MossPartialsMsg where
  extId : Nat
  part : Nat
  sweep : Nat
  replicas : List MossPartial
  deriving DecidableEq, Repr

/-- A candidate as a decision carries it: energy, sweep, replica, flags, counts, and the vote bits when a chain map
is given. -/
structure MossCand where
  e : Int
  sweep : Nat
  replica : Nat
  vec : List Byte
  feasible : Bool
  closed : Bool
  violated : Nat
  firstViol : Nat
  broken : Nat
  deriving DecidableEq, Repr

/-- The lead part's decisions (R388, R394, R395). Beside each candidate of a sample, `same` names the stored entry with an equal vector by
its sweep and replica. -/
inductive MossDecisionMsg where
  | start (extId : Nat)
  | mismatch (extId : Nat)
  | sample (extId sweep : Nat) (cands : List MossCand) (same : List (Option (Nat × Nat)))
  | swaps (extId exchange : Nat) (rungs : List Nat)
  | cut (extId sweep : Nat)
  | stop (extId sweep : Nat)
  deriving DecidableEq, Repr

/-- The JTAG instructions of R689: IDCODE and BYPASS, boundary scan, Ialon's test instructions by number. -/
inductive JtagIr where
  | idcode
  | bypass
  | boundaryScan
  | test (code : Nat)
  deriving DecidableEq, Repr

/-- The SPDM requests of R554 other than GET_MEASUREMENTS. -/
inductive SpdmReq where
  | getVersion
  | getCapabilities
  | negotiateAlgorithms
  | getDigests
  | getCertificate (slot offset length : Nat)
  | challenge
  | keyExchange
  | finish
  | endSession
  | other (code : Nat)
  deriving DecidableEq, Repr

end Sys2Proof
end

