-- ==== Sys2Proof/Syntax.lean ====
section
/-!
DEFINITION. The commands of the device: one constructor for each row of the opcode table. The table gives
its rows no operand fields, so each constructor has the operands that the rule of its row names: a host
command its head and the operands of R468, a core instruction its physical core and its fields, a host access
what the host sends, and an event of the device or of its surroundings what distinguishes one happening of it
from another (log entries 2 and 12).
-/
namespace Sys2Proof

/-- The commands, one per row of the opcode table (R468 for the host commands; the rule of each row stands
in its docstring). -/
inductive Instr where
  /-- NOP (R468): Job-group no-operation command completes with RESULT 0. -/
  | nop (h : Head)
  /-- JOB_OPEN (R469): Checks the job parameter block and opens a job on the context, possibly waiting for a
  device-generated seed. -/
  | jobOpen (h : Head) (params paramSize : Nat)
  /-- JOB_CLOSE (R705): At the next step boundary stops every Moss run, clears regions and ends the job. -/
  | jobClose (h : Head)
  /-- JOB_END (R474): Ends the named context's job with HOST_END and retains its state for regrow. -/
  | jobEnd (h : Head) (ctx : Nat)
  /-- JOB_DISCARD (R474): Releases an ended job's retained state and skips pending ring entries. -/
  | jobDiscard (h : Head) (ctx : Nat)
  /-- OPEN (R241): Takes a FREE tray entry as a TOKEN stream and fetches its prompt. -/
  | open_ (h : Head) (index count tokens params : Nat)
  /-- SCORE (R241): Takes a FREE tray entry as a SCORE stream with the tokens to score. -/
  | score (h : Head) (index count tokens params : Nat)
  /-- FORK (R252): Creates 1 to 256 child streams that share the parent's sealed pages. -/
  | fork (h : Head) (parent gen mode count children seeds : Nat)
  /-- APPEND (R241): Adds tokens from host memory to a PARKED stream's pending list. -/
  | append (h : Head) (index gen count tokens : Nat)
  /-- RESUME (R241): Moves a PARKED stream to READY. -/
  | resume (h : Head) (index gen : Nat)
  /-- CLOSE (R244): Releases a stream's or chain's pages and chunks and returns the entry to FREE. -/
  | close (h : Head) (index gen : Nat)
  /-- SET_LOAD (R250): Replaces one stop or park set. -/
  | setLoad (h : Head) (set count tokens : Nat)
  /-- BED_STAGE (R283): Puts a bed into LOADING with the named epoch. -/
  | bedStage (h : Head) (bed flags epoch : Nat)
  /-- BED_LOAD (R283): Copies bytes from host memory into a LOADING bed. -/
  | bedLoad (h : Head) (bed host offset length : Nat)
  /-- BED_COMMIT (R283): Starts verification of a LOADING bed with a flip step. -/
  | bedCommit (h : Head) (bed flipStep digest : Nat)
  /-- BED_DROP (R283): Returns a bed to EMPTY. -/
  | bedDrop (h : Head) (bed : Nat)
  /-- GIBBS_MODEL_LOAD (R308): Checks a Gibbs model descriptor, copies its weights both ways and returns a handle. -/
  | gibbsModelLoad (h : Head) (desc work workSize : Nat)
  /-- GIBBS_MODEL_DROP (R320): Frees a Gibbs model handle that no open chain names. -/
  | gibbsModelDrop (h : Head) (handle : Nat)
  /-- CHAIN_OPEN (R319): Takes a FREE entry as a CHAIN and initialises its state. -/
  | chainOpen (h : Head) (index handle init seedMode seed temp clampLayers cflags clampPtr host user : Nat)
  /-- CHAIN_SET (R320): Replaces selected parameters of a READY chain. -/
  | chainSet (h : Head) (index gen select temp clampLayers cflags clampPtr : Nat)
  /-- CHAIN_WRITE (R320): Replaces named layers of a READY chain's current state copy. -/
  | chainWrite (h : Head) (index gen layers host : Nat)
  /-- CHAIN_READ (R320): Copies named layers of a chain's current state to host memory. -/
  | chainRead (h : Head) (index gen layers host : Nat)
  /-- GIBBS_RUN (R323): Starts a run of sweeps over a list of chains. -/
  | gibbsRun (h : Head) (chains layers output list sweeps burn interval progressEvery result resultSize : Nat)
  /-- MOSS_REGION (R367): Defines or frees a Moss region over a rectangle of tiles. -/
  | mossRegion (h : Head) (region action tx0 tx1 ty0 ty1 : Nat)
  /-- MOSS_LOAD (R339): Loads couplings and fields into a region, scaling and reporting quantisation. -/
  | mossLoad (h : Head) (region format flags ej eh source : Nat)
  /-- MOSS_RUN (R351): Starts an anneal run over its replica regions. -/
  | mossRun (h : Head) (params : Nat)
  /-- MOSS_STOP (R359): Stops a run at the next sweep boundary with an anneal cutting. -/
  | mossStop (h : Head) (run : Nat)
  /-- MOSS_RESUME (R363): Checks an anneal cutting slot and continues the run from it. -/
  | mossResume (h : Head) (params slot : Nat)
  /-- MOSS_READ (R367): Copies a region's state image to host memory. -/
  | mossRead (h : Head) (region host : Nat)
  /-- CUT_NOW (R412): Requests a cutting capture at the step boundary. -/
  | cutNow (h : Head)
  /-- REGROW (R430): Restarts the job from common cutting c through the regrow stages. -/
  | regrow (h : Head) (cutStep source replace ctx regrowNo replayStep replayIndex replayPos replaySample : Nat)
  /-- CTX_REGISTER (R528): Registers a context with a partition, generation and unwrapped secret. -/
  | ctxRegister (h : Head) (ctx block : Nat)
  /-- CTX_DESTROY (R532): Retires a context's generation and starts zeroing its partition. -/
  | ctxDestroy (h : Head) (ctx : Nat)
  /-- CTX_RUN (R534): Requests that a context run on the named halves. -/
  | ctxRun (h : Head) (ctx halves : Nat)
  /-- KERNEL_LOAD (R702): Checks and loads a kernel image, its phase table and its KERNEL_AREA copy. -/
  | kernelLoad (h : Head) (host size : Nat)
  /-- KERNEL_UNLOAD (R702): Removes a resident kernel image's code and phase table. -/
  | kernelUnload (h : Head) (handle : Nat)
  /-- STEP_BIND (R473): Binds the step program of model kernels and copies their argument blocks. -/
  | stepBind (h : Head) (count list : Nat)
  /-- RAND_STOCH (R585): Requests raw stochastic bytes from the entropy source. -/
  | randStoch (h : Head) (length flags host : Nat)
  /-- RAND_DRBG (R582): Requests DRBG output bytes, optionally with prediction resistance. -/
  | randDrbg (h : Head) (length flags host : Nat)
  /-- RAND_RAW (R586): Requests raw records of whole oscillator blocks. -/
  | randRaw (h : Head) (length flags host : Nat)
  /-- CMD_FETCH (R465): Fetches and checks command descriptors once the doorbell is observed and completion-ring
  room exists. -/
  | cmdFetch (set : Nat)
  /-- DOORBELL_SNOOP (R457): An invalidating snoop of the doorbell line makes the device re-read the line. -/
  | doorbellSnoop (set : Nat) (cmdPi tokCi cplCi evtCi : W32)
  /-- DOORBELL_OBSERVE (R457): The re-read doorbell data arrives and the new indices are observed. -/
  | doorbellObserve (set : Nat)
  /-- DB_CMD_PI (R458): BAR2 write of the command producer index. -/
  | dbCmdPi (set : Nat) (v : W32)
  /-- DB_TOK_CI (R458): BAR2 write of the token consumer index. -/
  | dbTokCi (set : Nat) (v : W32)
  /-- DB_CPL_CI (R458): BAR2 write of the completion consumer index. -/
  | dbCplCi (set : Nat) (v : W32)
  /-- DB_EVT_CI (R458): BAR2 write of the event consumer index. -/
  | dbEvtCi (set : Nat) (v : W32)
  /-- HOST_ACCESS_TIMEOUT (R699): A host read exceeds its completion timeout, or a pending write waits out of L0
  beyond 10 ms. -/
  | hostAccessTimeout (set : Nat) (isWrite : Bool)
  /-- QUE_ENABLE (R462): Setting QUE_CTRL.ENABLE negotiates the version and enables the ring set. -/
  | queEnable (set : Nat) (v : W32)
  /-- QUE_DISABLE (R463): Clearing QUE_CTRL.ENABLE disables the ring set when allowed. -/
  | queDisable (set : Nat) (v : W32)
  /-- EVENT_RELEASE (R480): A held event is written once every source has reported a TSC beyond it plus 1,024. -/
  | eventRelease (reported : Nat)
  /-- IRQ_DELAY_EXPIRE (R487): The interrupt moderation delay ends and the ring's MSI-X vector is signalled. -/
  | irqDelayExpire (vec : Nat)
  /-- HDM_WRITE (R450): A CXL.mem write into the staging window lands in its aperture target or is discarded. -/
  | hdmWrite (offset : Nat) (data : List Byte) (poison : Bool)
  /-- HDM_READ (R450): A CXL.mem read of the staging window returns aperture data or zeros. -/
  | hdmRead (offset size : Nat) (e : Ecc)
  /-- MMA (R126): Accumulates exact products into an accumulator tile in canonical blocks. -/
  | mma (p : Nat) (f : MmaFields)
  /-- ZERO (R129): Fills a tile with zeros and sets its format tag. -/
  | zero (p : Nat) (f : ZeroFields)
  /-- TLD (R129): Loads a tile from local scratch and sets its tag. -/
  | tld (p : Nat) (f : TldFields)
  /-- OUT (R130): Passes a tile through the output path to local scratch. -/
  | out (p : Nat) (f : OutFields)
  /-- VADD (R133): Vector addition in FP32 or INT32. -/
  | vadd (p : Nat) (f : VeFields)
  /-- VSUB (R133): Vector subtraction in FP32 or INT32. -/
  | vsub (p : Nat) (f : VeFields)
  /-- VMUL (R133): Vector multiplication in FP32 or INT32. -/
  | vmul (p : Nat) (f : VeFields)
  /-- VFMA (R133): Vector fused multiply-add in FP32. -/
  | vfma (p : Nat) (f : VeFields)
  /-- VMAX (R133): Elementwise maximum in the order of R104. -/
  | vmax (p : Nat) (f : VeFields)
  /-- VMIN (R133): Elementwise minimum in the order of R104. -/
  | vmin (p : Nat) (f : VeFields)
  /-- VADDS (R133): Adds a broadcast scalar to a vector. -/
  | vadds (p : Nat) (f : VeFields)
  /-- VMULS (R133): Multiplies a vector by a broadcast scalar. -/
  | vmuls (p : Nat) (f : VeFields)
  /-- VLD (R133): Loads 64 elements from local scratch into a vector register. -/
  | vld (p : Nat) (f : VeFields)
  /-- VST (R133): Stores a vector register to local scratch. -/
  | vst (p : Nat) (f : VeFields)
  /-- VCVT (R134): Converts a vector between FP32 or INT32 and a packed format. -/
  | vcvt (p : Nat) (f : VeFields)
  /-- VACT (R133): Applies an activation function to a vector. -/
  | vact (p : Nat) (f : VeFields)
  /-- VLOG (R133): Applies log2_k or ln_k to a vector. -/
  | vlog (p : Nat) (f : VeFields)
  /-- VRSUM (R133): Sums n FP32 elements from local scratch canonically. -/
  | vrsum (p : Nat) (f : VeFields)
  /-- VRMAXI (R133): Finds the maximum with index over n elements. -/
  | vrmaxi (p : Nat) (f : VeFields)
  /-- VSORT (R133): Sorts 64 value-index pairs best first. -/
  | vsort (p : Nat) (f : VeFields)
  /-- VMERGE (R133): Merges two sorted lists keeping the best 64 pairs. -/
  | vmerge (p : Nat) (f : VeFields)
  /-- VTACC (R133): Combines a vector into a tile row by add, max or min. -/
  | vtacc (p : Nat) (f : VeFields)
  /-- SUNIF (R135): Draws 24-bit Spore uniforms into a vector. -/
  | sunif (p : Nat) (f : SuFields)
  /-- SBERNF (R135): Draws Bernoulli bits from fields and inverse temperature. -/
  | sbernf (p : Nat) (f : SuFields)
  /-- SBERNP (R135): Draws Bernoulli bits from FP32 probabilities. -/
  | sbernp (p : Nat) (f : SuFields)
  /-- SBERNQ (R219): Draws Bernoulli mask bits from 0.16 fixed-point probabilities. -/
  | sbernq (p : Nat) (f : SuFields)
  /-- SGUMB (R135): Adds Gumbel noise to scaled fields. -/
  | sgumb (p : Nat) (f : SuFields)
  /-- SCAT (R135): Makes Gumbel-max categorical draws per group. -/
  | scat (p : Nat) (f : SuFields)
  /-- XRD (R137): Queues a slice-to-local-scratch transfer at a phase-table slot. -/
  | xrd (p : Nat) (f : XbFields)
  /-- XWR (R137): Queues a local-scratch-to-slice write at a phase-table slot. -/
  | xwr (p : Nat) (f : XbFields)
  /-- XRED (R177): Queues a reduce-on-write transfer at a phase-table slot. -/
  | xred (p : Nat) (f : XbFields)
  /-- WAIT (R139): Stops issue until earlier instructions of the named queues complete. -/
  | wait (p : Nat) (f : WaitFields)
  /-- BAR (R139): Stops issue until every core of the scope reaches a BAR with the same ID. -/
  | bar (p : Nat) (f : BarFields)
  /-- XFENCE (R139): Stops issue until earlier XB writes are applied at their slices. -/
  | xfence (p : Nat) (rest : BitVec 52)
  /-- CTL_NOP (R141): Scalar no-operation instruction. -/
  | ctlNop (p : Nat) (f : CtlFields)
  /-- ADD (R141): Scalar addition modulo 2^64. -/
  | add (p : Nat) (f : CtlFields)
  /-- SUB (R141): Scalar subtraction modulo 2^64. -/
  | sub (p : Nat) (f : CtlFields)
  /-- AND (R141): Scalar bitwise AND. -/
  | and_ (p : Nat) (f : CtlFields)
  /-- OR (R141): Scalar bitwise OR. -/
  | or_ (p : Nat) (f : CtlFields)
  /-- XOR (R141): Scalar bitwise XOR. -/
  | xor_ (p : Nat) (f : CtlFields)
  /-- SHL (R141): Scalar shift left. -/
  | shl (p : Nat) (f : CtlFields)
  /-- SHR (R141): Scalar logical shift right. -/
  | shr (p : Nat) (f : CtlFields)
  /-- SAR (R141): Scalar arithmetic shift right. -/
  | sar (p : Nat) (f : CtlFields)
  /-- MUL (R141): Low 64 bits of a scalar product. -/
  | mul (p : Nat) (f : CtlFields)
  /-- ADDI (R141): Adds a sign-extended immediate. -/
  | addi (p : Nat) (f : CtlFields)
  /-- LI (R141): Loads a sign-extended immediate. -/
  | li (p : Nat) (f : CtlFields)
  /-- LIH (R141): Loads the high 32 bits of a scalar register. -/
  | lih (p : Nat) (f : CtlFields)
  /-- LDS (R141): Loads 8 bytes from local scratch into a scalar register. -/
  | lds (p : Nat) (f : CtlFields)
  /-- STS (R141): Stores a scalar register to local scratch. -/
  | sts (p : Nat) (f : CtlFields)
  /-- BR (R145): Conditional branch with a 2 cc issue delay. -/
  | br (p : Nat) (f : CtlFields)
  /-- GETID (R141): Reads a logical id, row, half or column. -/
  | getid (p : Nat) (f : CtlFields)
  /-- END (R141): Ends the kernel on this core. -/
  | end_ (p : Nat) (f : CtlFields)
  /-- INSTR_COMPLETE (R146): An instruction's latency ends and its result is delivered. -/
  | instrComplete (p queue : Nat) (e : Ecc)
  /-- WAIT_RELEASE (R139): The queues that a WAIT names have drained and issue resumes. -/
  | waitRelease (p : Nat)
  /-- XFENCE_RELEASE (R139): The last acknowledgement arrives and issue resumes after XFENCE. -/
  | xfenceRelease (p : Nat)
  /-- BAR_RELEASE (R140): The runners release a barrier a fixed time after its last arrival. -/
  | barRelease (p : Nat) (e : Ecc)
  /-- CORE_DRAINED (R156): After END every queue has drained and the core becomes IDLE. -/
  | coreDrained (p : Nat)
  /-- XB_SLOT_EXECUTE (R167): The phase counter reaches an XB instruction's slot and its transfer runs. -/
  | xbSlotExecute (p : Nat)
  /-- XB_SLICE_ACCESS (R172): A transfer slot reaches the slice bank and reads, writes or reduces. -/
  | xbSliceAccess (p : Nat) (e : Ecc)
  /-- XB_DATA_LAND (R168): Read data of a slot lands in local scratch. -/
  | xbDataLand (p : Nat)
  /-- XB_ACK (R168): A write or reduction slot is acknowledged to the core. -/
  | xbAck (p : Nat)
  /-- STEP_START (R29): Starts a token or Gibbs step once ring room, verification and power allow. -/
  | stepStart (ctx : Nat)
  /-- STEP_BOUNDARY (R290): At the end of a step performs the flip, applies commands, releases beds and forms the
  batch. -/
  | stepBoundary (ctx : Nat) (logits : List (Nat × Nat × List W32))
  /-- PROMPT_FETCH_DONE (R237): A stream's prompt fetch completes and it becomes ready for the next boundary. -/
  | promptFetchDone (ctx index : Nat)
  /-- LPX_TRANSFER_DONE (R194): A memory streamer transfer between LPDDR5X and slices completes. -/
  | lpxTransferDone (ctx id : Nat) (e : Ecc)
  /-- LPX_REFRESH (R193): A controller refreshes its device at the standard interval. -/
  | lpxRefresh (ctrl rate : Nat)
  /-- DISPATCH_HEADER (R274): A dispatch header arrives announcing a sender's record count and epoch. -/
  | dispatchHeader (ctx : Nat) (h : DispHeader)
  /-- DISPATCH_RECORD (R275): A token's dispatch record arrives at its home device. -/
  | dispatchRecord (ctx : Nat) (r : DispRecord) (mseq : Nat) (auth : Bool)
  /-- EXPERT_LAYER_RUN (R276): With all inputs present, runs the layer's capacity-slot passes. -/
  | expertLayerRun (ctx layer : Nat)
  /-- EXPERT_OUTPUT (R279): An expert output returns and is combined into exact accumulators. -/
  | expertOutput (ctx : Nat) (r : DispRecord) (mseq : Nat) (auth : Bool)
  /-- RAW_PARTIALS (R182): Raw images of partial sums arrive and are added exactly. -/
  | rawPartials (slice acc : Nat) (images : List (List Byte))
  /-- MESSAGE_FORWARD (R505): A DATA message for another rank is forwarded cut-through. -/
  | messageForward (port : Nat) (msg : List Byte)
  /-- NAK_RECEIVE (R496): A NAK makes the sender resend held flits of the named spaces. -/
  | nakReceive (port : Nat) (msg : List Byte)
  /-- NAK_TIMEOUT (R495): 400 nc pass without progress and a further NAK may be sent. -/
  | nakTimeout (port : Nat)
  /-- CREDIT_RECEIVE (R500): A CREDIT flit returns virtual-channel credits. -/
  | creditReceive (port : Nat) (msg : List Byte)
  /-- TRAIN_RECEIVE (R514): A TRAIN payload arrives with versions, serial, nonce and job tag. -/
  | trainReceive (port : Nat) (msg : List Byte)
  /-- KEY_CHAIN_FRAGMENT (R546): A KEY flit carries a fragment of the peer's certificate chain. -/
  | keyChainFragment (port : Nat) (msg : List Byte)
  /-- KEY_JOB_SECRET (R515): A wrapped job secret arrives, is forwarded and yields the traffic key. -/
  | keyJobSecret (port : Nat) (msg : List Byte)
  /-- LINK_TRAINING_DONE (R519): A training attempt succeeds and the port becomes UP. -/
  | linkTrainingDone (port : Nat)
  /-- TRAINING_ATTEMPT_TIMEOUT (R519): A 500 ms training attempt fails and retries after 100 ms. -/
  | trainingAttemptTimeout (port : Nat)
  /-- LINK_LOCK_LOSS (R497): A port loses FEC lock or sees repeated NAKs and enters RECOVERY. -/
  | linkLockLoss (port : Nat)
  /-- LINK_RECOVERED (R497): Recovery re-acquires lock and the port resumes. -/
  | linkRecovered (port : Nat)
  /-- RECOVERY_TIMEOUT (R497): Recovery exceeds 1 ms and the port enters FAILED. -/
  | recoveryTimeout (port : Nat)
  /-- PORT_EN_WRITE (R519): A write of RZL_CTRL.PORT_EN enables or disables ports and their domain. -/
  | portEnWrite (v : W32)
  /-- CUTTING_WRITE_START (R416): Starts writing a captured cutting once the previous is common and the one before
  flushed. -/
  | cuttingWriteStart (ctx : Nat)
  /-- CUTTING_WRITE_DONE (R414): A cutting image lies complete in the host slot. -/
  | cuttingWriteDone (ctx : Nat)
  /-- COMMIT_NOTICE (R415): A peer's commit notice arrives. -/
  | commitNotice (ctx rank step : Nat)
  /-- CUTTING_FLUSH (R417): Writes a common cutting's values into the durable tables and buddy mirrors. -/
  | cuttingFlush (ctx : Nat)
  /-- SEALED_PAGE_MIRROR (R425): A sealed page arrives at the buddy and is stored. -/
  | sealedPageMirror (ctx page : Nat) (data : List Byte)
  /-- OPEN_PAGE_LINES (R425): Open-page lines arrive at the buddy and are stored. -/
  | openPageLines (ctx page line : Nat) (data : List Byte)
  /-- CUTTING_IMAGE_MIRROR (R416): A cutting image arrives at the buddy slot. -/
  | cuttingImageMirror (ctx slot offset : Nat) (data : List Byte)
  /-- CHAIN_STATE_COPY (R324): A mirrored chain state copy arrives at the buddy. -/
  | chainStateCopy (ctx : Nat) (data : List Byte)
  /-- BED_COPY (R425): A mirrored bed arrives at the buddy. -/
  | bedCopy (ctx bed offset : Nat) (data : List Byte)
  /-- MIRROR_ACK (R414): The buddy acknowledges a mirrored copy. -/
  | mirrorAck (ctx kind id : Nat)
  /-- MIRROR_SET_UP (R424): A partner's sizes arrive and the holder checks its mirror area. -/
  | mirrorSetUp (ctx : Nat) (data : List Byte)
  /-- PAGE_FETCH_REQUEST (R432): A replacement device asks its buddy for a sealed page. -/
  | pageFetchRequest (ctx page : Nat)
  /-- PAGE_FETCH_RESPONSE (R432): The buddy's page copy arrives and is checked against its tag. -/
  | pageFetchResponse (ctx page : Nat) (data : List Byte)
  /-- JOB_END_NOTICE (R427): A peer's job-end notice ends the job with PEER_FAULT. -/
  | jobEndNotice (ctx rank : Nat)
  /-- REGROW_READY (R430): Rank 0 receives a device's ready notice during ALIGN. -/
  | regrowReady (ctx rank number : Nat)
  /-- REGROW_RELEASE (R430): Rank 0's release arrives and stage REPLAY begins. -/
  | regrowRelease (ctx number : Nat)
  /-- MOSS_HALF_SWEEP (R347): A 64 xc half-sweep of a run's regions completes. -/
  | mossHalfSweep (ctx run : Nat) (e : Ecc)
  /-- ANNEAL_CUT_WRITE_DONE (R361): Streamers finish writing an anneal cutting slot. -/
  | annealCutWriteDone (ctx run : Nat)
  /-- RESULT_VECTOR_WRITE_DONE (R383): Streamers finish writing result vectors into RES_AREA. -/
  | resultVectorWriteDone (ctx run : Nat)
  /-- MOSS_SETUP (R388): The lead part receives a part's set-up and checks consistency. -/
  | mossSetup (ctx : Nat) (m : MossSetupMsg)
  /-- MOSS_FACE (R391): A neighbour part's face spins arrive. -/
  | mossFace (ctx : Nat) (m : MossFaceMsg)
  /-- MOSS_EXT_HALF_SWEEP_START (R391): A part starts a half-sweep once faces are no staler than L. -/
  | mossExtHalfSweepStart (ctx run : Nat)
  /-- MOSS_PARTIALS (R393): The lead part receives partial energies, sums and votes. -/
  | mossPartials (ctx : Nat) (m : MossPartialsMsg)
  /-- MOSS_DECISION (R395): A part receives the lead's reservoir, swap, cutting or stop decision. -/
  | mossDecision (ctx : Nat) (m : MossDecisionMsg)
  /-- CTX_SWITCH (R535): At the half's step boundary switches owner through cutting, scrub and restore. -/
  | ctxSwitch (half : Nat)
  /-- SCRUB_COMPLETE (R538): A scrub's 67,036 xc end and held writes, requests and events proceed. -/
  | scrubComplete
  /-- PARTITION_ZERO_DONE (R532): Zeroing of a destroyed partition completes and the context becomes FREE. -/
  | partitionZeroDone (ctx : Nat)
  /-- MGT_MODE_REQ_WRITE (R38): A write of MODE_REQ requests, replaces or cancels a mode change. -/
  | mgtModeReqWrite (v : W32)
  /-- MODE_CHANGE_START (R37): Once no job remains, stops doorbells and scrubs for the pending mode change. -/
  | modeChangeStart
  /-- SPG_KAT_GO (R226): GO latches the inputs and starts a known-answer evaluation. -/
  | spgKatGo
  /-- SPG_KAT_DONE (R226): The evaluation writes its outputs, clears BUSY and sets DONE. -/
  | spgKatDone
  /-- SEC_VIEW_WRITE (R542): A write of SEC_VIEW sets the view if the key matches. -/
  | secViewWrite (v : W32)
  /-- SEC_LC_GO (R548): Submits a lifecycle transition request with its authorisation. -/
  | secLcGo (v : W32)
  /-- SEC_FW_STAGE (R551): ACTION STAGE starts copying a firmware image into the inactive slot. -/
  | secFwStage
  /-- SEC_FW_ACTIVATE (R552): ACTION ACTIVATE switches the boot record and restarts the controllers. -/
  | secFwActivate
  /-- SEC_FW_ABORT (R551): ACTION ABORT returns a staging or pending update to IDLE. -/
  | secFwAbort
  /-- SEC_FW_COMMIT_SVN (R553): ACTION COMMIT_SVN blows SVN fuses up to the running SVN. -/
  | secFwCommitSvn
  /-- FW_STAGING_DONE (R551): The image copy completes and verification begins. -/
  | fwStagingDone
  /-- FW_VERIFY_DONE (R551): Verification of the staged image passes or fails. -/
  | fwVerifyDone
  /-- FW_READY (R551): The new firmware reports ready after activation. -/
  | fwReady
  /-- FW_ACTIVATE_TIMEOUT (R552): The new image is not ready within 1 s and the previous image restarts. -/
  | fwActivateTimeout
  /-- MGT_PLAN_WRITE (R623): WRITE copies a new planting plan into flash when allowed. -/
  | mgtPlanWrite (v : W32)
  /-- PLAN_WRITE_DONE (R623): The flash write of a plan completes. -/
  | planWriteDone
  /-- GLB_LOCK_WRITE (R655): A write of LOCK sets SETUP_LOCK. -/
  | glbLockWrite (v : W32)
  /-- RAS_RETIRE_CMD (R639): Requests restoration of a threshold-retired core or tile. -/
  | rasRetireCmd (v : W32)
  /-- DMP_GO (R640): GO with ARM set starts a manual state dump. -/
  | dmpGo (v : W32)
  /-- DUMP_WRITE_COMPLETE (R641): A state dump finishes or is abandoned. -/
  | dumpWriteComplete
  /-- CKP_THR_REQ_WRITE (R599): A host throttle request enters the level computation. -/
  | ckpThrReqWrite (v : W32)
  /-- ENS_TEST_WRITE (R587): A change of the entropy test pattern forces an immediate restart. -/
  | ensTestWrite (v : W32)
  /-- RST_CMD_CORE (R606): KIND 3 resets one physical core into STALE. -/
  | rstCmdCore (v : W32)
  /-- RST_CMD_HALF (R606): KIND 2 resets one half's logic. -/
  | rstCmdHalf (v : W32)
  /-- RST_CMD_DEVICE (R606): KIND 4 performs a device reset. -/
  | rstCmdDevice (v : W32)
  /-- RW1C_WRITE (R8): A write of 1 clears RW1C bits. -/
  | rw1cWrite (offset : Nat) (size : Nat) (v : W64)
  /-- REG_WRITE (R8): A write to a register field that has no behaviour row of its own. -/
  | regWrite (offset : Nat) (size : Nat) (v : W64)
  /-- REG_READ_LOW_LATCH (R12): A read of a 64-bit register's low half latches its high half. -/
  | regReadLowLatch (offset size : Nat)
  /-- PWRGOOD_FALL (R692): A PWRGOOD input falls and a cold reset begins. -/
  | pwrgoodFall
  /-- POWER_UP (R612): The last PWRGOOD input rises and boot begins. -/
  | powerUp (selWest selEast bootSrc kat : Bool)
  /-- ROOT_PLL_LOCK (R592): The root PLL locks and alignment can run. -/
  | rootPllLock
  /-- FIRMWARE_VERIFY (R550): The ROM finishes reading and verifying a firmware slot. -/
  | firmwareVerify (slot : Nat)
  /-- PRIMACY_CLAIM (R615): A half's primacy claim arrives over the seam sideband. -/
  | primacyClaim (half : Nat)
  /-- PRIMACY_TIMEOUT (R616): No claim arrives within 10 ms and the device halts. -/
  | primacyTimeout
  /-- LPX_TRAINING_DONE (R612): An LPDDR5X controller finishes training. -/
  | lpxTrainingDone (ctrl : Nat) (passed : Bool)
  /-- LPX_ZERO_DONE (R530): Zeroing of every LPDDR5X line after a cold reset completes. -/
  | lpxZeroDone
  /-- PERST_N_ASSERT (R683): PERST_N asserts, holding PD19 or causing a device reset. -/
  | perstNAssert (ts : Nat)
  /-- PERST_N_DEASSERT (R614): PERST_N deasserts and the CXL link begins to train. -/
  | perstNDeassert
  /-- FLR (R606): A function-level reset of the host interface and jobs. -/
  | flr
  /-- REFCLK_LOSS (R685): REFCLK stops and the device halts until cold reset. -/
  | refclkLoss
  /-- LREFCLK_LOSS (R685): LREFCLK stops and every Rhizome port loses lock. -/
  | lrefclkLoss
  /-- THERMTRIP_SENSE (R695): A sensor reaches 115 °C and the thermal trip halts the device. -/
  | thermtripSense (sensor temp : Nat)
  /-- THROTTLE_N_EDGE (R696): An accepted edge of THROTTLE_N changes the pin request. -/
  | throttleNEdge (asserted : Bool)
  /-- THERMAL_THROTTLE_TICK (R599): The thermal request rises or falls on its 100 µs or 1 ms timer. -/
  | thermalThrottleTick (half : Nat) (temps : List Nat)
  /-- POWER_THROTTLE_TICK (R599): The power request rises or falls on its 1 ms or 10 ms timer. -/
  | powerThrottleTick (half watts : Nat)
  /-- THROTTLE_LEVEL_APPLY (R600): A new throttle level takes effect at a frame boundary. -/
  | throttleLevelApply (half : Nat)
  /-- ALIGNMENT_RELEASE (R595): The alignment sequence releases the dividers and crossing FIFOs. -/
  | alignmentRelease
  /-- RESET_COMPLETE (R606): A reset of any scope finishes. -/
  | resetComplete (failed : List Nat)
  /-- DOMAIN_POWER_ON (R602): A power domain reaches ON and its units enter a rejoin round. -/
  | domainPowerOn (pd : Nat)
  /-- DOMAIN_IDLE_OFF (R602): After 100 ms without a job an idle domain switches off. -/
  | domainIdleOff (pd : Nat)
  /-- REJOIN_ROUND_DONE (R605): A rejoin round ends; units pass to IDLE or fail to RETIRED. -/
  | rejoinRoundDone (failed : List (Nat × Nat)) (lanes : List Nat)
  /-- HEARTBEAT_SEND (R617): A management controller sends a heartbeat every 7,500 nc. -/
  | heartbeatSend (half : Nat)
  /-- HEARTBEAT_MISS (R617): Four heartbeats in a row are missed and the device becomes fatal. -/
  | heartbeatMiss (half : Nat)
  /-- TEL_UPDATE (R661): Every 100 ms temperature and power telemetry update together. -/
  | telUpdate (temps : List Nat) (device west east : Nat)
  /-- ENS_WINDOW_END (R567): A 1,024 ES window ends; blocks are tested, delivered or discarded. -/
  | ensWindowEnd (blocks : List (List Byte))
  /-- ENS_RESTART_SETTLE (R568): 128 ES after a restart the start-up window begins. -/
  | ensRestartSettle
  /-- DRBG_INSTANTIATE (R579): The first security block instantiates the DRBG. -/
  | drbgInstantiate (kat : Bool)
  /-- DRBG_RESEED (R581): The DRBG reseeds once a block is ready and no request waits. -/
  | drbgReseed
  /-- PEER_WAIT_LIMIT (R644): A wait on one peer reaches RAS_PEER_TO and the job ends. -/
  | peerWaitLimit (ctx rank : Nat)
  /-- STEP_WATCHDOG_EXPIRE (R645): A step's nominal xc exceed the watchdog limit. -/
  | stepWatchdogExpire (ctx : Nat)
  /-- SMB_STATUS (R687): SMBus read of the status byte. -/
  | smbStatus
  /-- SMB_TEMP (R687): SMBus read of the hottest temperature. -/
  | smbTemp
  /-- SMB_POWER (R687): SMBus read of device power. -/
  | smbPower
  /-- SMB_THROTTLE (R687): SMBus read of the throttle level. -/
  | smbThrottle
  /-- SMB_ALERT (R688): SMBus read that returns and clears the alert byte. -/
  | smbAlert
  /-- SMB_SERIAL (R687): SMBus block read of the serial number. -/
  | smbSerial
  /-- SMB_ALERT_RESPONSE (R688): Answers the SMBus alert response address. -/
  | smbAlertResponse
  /-- JTAG_INSTRUCTION (R689): A JTAG instruction acts according to the lifecycle state. -/
  | jtagInstruction (ir : JtagIr)
  /-- SPDM_GET_MEASUREMENTS (R555): Returns the measurement blocks over the DOE mailbox. -/
  | spdmGetMeasurements (index : Nat)
  /-- SPDM_REQUEST (R554): Another SPDM request is answered by the island. -/
  | spdmRequest (r : SpdmReq)
  /-- BED_VERIFY_DONE (R288): Verification of a VERIFYING bed ends: on success the shards are copied and the bed
  enters ARMED with BED_VERIFIED; on failure it returns to LOADING with BED_VERIFY_FAIL. -/
  | bedVerifyDone (ctx bed : Nat)
  /-- ILLEGAL_INSTRUCTION (R122): The sequencer decodes an instruction word with an illegal class or an unlisted
  opcode and raises the precise fault ILLEGAL_CLASS or ILLEGAL_OPCODE. -/
  | illegalInstruction (p : Nat) (w : W64)
  /-- HOST_LINK_TRAINED (R445): The host link finishes training, as CXL or as the PCIe 5.0 fallback, and QUE_LINK
  records the width, rate and protocols in force. -/
  | hostLinkTrained (cxl : Bool) (width rate : Nat) (cacheEn memEn ideIo ideCm busMaster : Bool)
  deriving DecidableEq, Repr

end Sys2Proof
end

