-- ==== Sys2Proof/Decode.lean ====
section
/-!
DEFINITION. The command that a table word spells, and the 64-bit words of the core instructions (R121 to R141).
-/
namespace Sys2Proof

/-- The command that a word of the opcode table spells. The table gives no row any bits, so no word spells one. -/
def decodeTableWord (_nbits _w : Nat) : Option Instr := none

namespace Machine

/-! ## The fields of each encoding, most significant first, and their reading from bits [51:0] -/

/-- Bits [51:0] of an MMA (R125). -/
def mmaBody (f : MmaFields) : BitVec 52 := f.td ++ f.fmta ++ f.fmtb ++ f.tfmt ++ f.ovw ++ f.sa ++ f.sb ++ f.sk ++ f.rsv

/-- The fields of an MMA (R125). -/
def mmaFields (b : BitVec 52) : MmaFields :=
  { td := b.extractLsb' 48 4, fmta := b.extractLsb' 43 5, fmtb := b.extractLsb' 38 5, tfmt := b.extractLsb' 36 2,
    ovw := b.extractLsb' 35 1, sa := b.extractLsb' 30 5, sb := b.extractLsb' 25 5, sk := b.extractLsb' 20 5,
    rsv := b.extractLsb' 0 20 }

/-- Bits [51:0] of a ZERO (R125). -/
def zeroBody (f : ZeroFields) : BitVec 52 := f.td ++ f.rsvHi ++ f.tfmt ++ f.rsvLo

/-- The fields of a ZERO (R125). -/
def zeroFields (b : BitVec 52) : ZeroFields :=
  { td := b.extractLsb' 48 4, rsvHi := b.extractLsb' 38 10, tfmt := b.extractLsb' 36 2, rsvLo := b.extractLsb' 0 36 }

/-- Bits [51:0] of a TLD (R125). -/
def tldBody (f : TldFields) : BitVec 52 := f.td ++ f.rsvHi ++ f.tfmt ++ f.rsvMid ++ f.sa ++ f.rsvLo

/-- The fields of a TLD (R125). -/
def tldFields (b : BitVec 52) : TldFields :=
  { td := b.extractLsb' 48 4, rsvHi := b.extractLsb' 38 10, tfmt := b.extractLsb' 36 2, rsvMid := b.extractLsb' 35 1,
    sa := b.extractLsb' 30 5, rsvLo := b.extractLsb' 0 30 }

/-- Bits [51:0] of an OUT (R125). -/
def outBody (f : OutFields) : BitVec 52 :=
  f.ts ++ f.tfmt ++ f.act ++ f.samp ++ f.rm ++ f.scl ++ f.bias ++ f.pcol ++ f.dfmt ++ f.sd ++ f.se ++ f.sp ++ f.sq ++ f.rsv

/-- The fields of an OUT (R125). -/
def outFields (b : BitVec 52) : OutFields :=
  { ts := b.extractLsb' 48 4, tfmt := b.extractLsb' 46 2, act := b.extractLsb' 42 4, samp := b.extractLsb' 38 4,
    rm := b.extractLsb' 36 2, scl := b.extractLsb' 35 1, bias := b.extractLsb' 34 1, pcol := b.extractLsb' 33 1,
    dfmt := b.extractLsb' 28 5, sd := b.extractLsb' 23 5, se := b.extractLsb' 18 5, sp := b.extractLsb' 13 5,
    sq := b.extractLsb' 8 5, rsv := b.extractLsb' 0 8 }

/-- Bits [51:0] of a VE instruction (R133). -/
def veBody (f : VeFields) : BitVec 52 := f.vd ++ f.va ++ f.vb ++ f.vc ++ f.ss ++ f.fmt ++ f.rm ++ f.fn ++ f.imm

/-- The fields of a VE instruction (R133). -/
def veFields (b : BitVec 52) : VeFields :=
  { vd := b.extractLsb' 47 5, va := b.extractLsb' 42 5, vb := b.extractLsb' 37 5, vc := b.extractLsb' 32 5,
    ss := b.extractLsb' 27 5, fmt := b.extractLsb' 22 5, rm := b.extractLsb' 20 2, fn := b.extractLsb' 16 4,
    imm := b.extractLsb' 0 16 }

/-- Bits [51:0] of an SU instruction (R135). -/
def suBody (f : SuFields) : BitVec 52 := f.dst ++ f.va ++ f.sq ++ f.se ++ f.st ++ f.n ++ f.rsv

/-- The fields of an SU instruction (R135): N is seven bits, [26:20]. -/
def suFields (b : BitVec 52) : SuFields :=
  { dst := b.extractLsb' 47 5, va := b.extractLsb' 42 5, sq := b.extractLsb' 37 5, se := b.extractLsb' 32 5,
    st := b.extractLsb' 27 5, n := b.extractLsb' 20 7, rsv := b.extractLsb' 0 20 }

/-- Bits [51:0] of an XB instruction (R137). -/
def xbBody (f : XbFields) : BitVec 52 := f.sl ++ f.sm ++ f.slot ++ f.rop ++ f.rsv

/-- The fields of an XB instruction (R137). -/
def xbFields (b : BitVec 52) : XbFields :=
  { sl := b.extractLsb' 47 5, sm := b.extractLsb' 42 5, slot := b.extractLsb' 30 12, rop := b.extractLsb' 26 4,
    rsv := b.extractLsb' 0 26 }

/-- Bits [51:0] of a WAIT (R139). -/
def waitBody (f : WaitFields) : BitVec 52 := f.mask ++ f.rest

/-- The fields of a WAIT (R139). -/
def waitFields (b : BitVec 52) : WaitFields := { mask := b.extractLsb' 47 5, rest := b.extractLsb' 0 47 }

/-- Bits [51:0] of a BAR (R139). -/
def barBody (f : BarFields) : BitVec 52 := f.id ++ f.scope ++ f.rest

/-- The fields of a BAR (R139). -/
def barFields (b : BitVec 52) : BarFields :=
  { id := b.extractLsb' 40 12, scope := b.extractLsb' 38 2, rest := b.extractLsb' 0 38 }

/-- Bits [51:0] of a CTL instruction (R141). -/
def ctlBody (f : CtlFields) : BitVec 52 := f.sdst ++ f.sa ++ f.sb ++ f.cond ++ f.imm

/-- The fields of a CTL instruction (R141). -/
def ctlFields (b : BitVec 52) : CtlFields :=
  { sdst := b.extractLsb' 47 5, sa := b.extractLsb' 42 5, sb := b.extractLsb' 37 5, cond := b.extractLsb' 32 5,
    imm := b.extractLsb' 0 32 }

/-! ## The 64-bit words: class in [63:60], opcode in [59:52] (R121) -/

/-- A word from its class, opcode and bits [51:0]. -/
def isaCode (cls : BitVec 4) (op : BitVec 8) (b : BitVec 52) : W64 := cls ++ op ++ b

/-- The core and the word of a core instruction, none for every other command. -/
def isaWord (i : Instr) : Option (Nat × W64) :=
  match i with
  | .mma p f => some (p, isaCode 1 0x01 (mmaBody f))
  | .zero p f => some (p, isaCode 1 0x02 (zeroBody f))
  | .tld p f => some (p, isaCode 1 0x03 (tldBody f))
  | .out p f => some (p, isaCode 1 0x10 (outBody f))
  | .vadd p f => some (p, isaCode 2 0x01 (veBody f))
  | .vsub p f => some (p, isaCode 2 0x02 (veBody f))
  | .vmul p f => some (p, isaCode 2 0x03 (veBody f))
  | .vfma p f => some (p, isaCode 2 0x04 (veBody f))
  | .vmax p f => some (p, isaCode 2 0x05 (veBody f))
  | .vmin p f => some (p, isaCode 2 0x06 (veBody f))
  | .vadds p f => some (p, isaCode 2 0x08 (veBody f))
  | .vmuls p f => some (p, isaCode 2 0x09 (veBody f))
  | .vld p f => some (p, isaCode 2 0x10 (veBody f))
  | .vst p f => some (p, isaCode 2 0x11 (veBody f))
  | .vcvt p f => some (p, isaCode 2 0x12 (veBody f))
  | .vact p f => some (p, isaCode 2 0x13 (veBody f))
  | .vlog p f => some (p, isaCode 2 0x14 (veBody f))
  | .vrsum p f => some (p, isaCode 2 0x20 (veBody f))
  | .vrmaxi p f => some (p, isaCode 2 0x21 (veBody f))
  | .vsort p f => some (p, isaCode 2 0x22 (veBody f))
  | .vmerge p f => some (p, isaCode 2 0x23 (veBody f))
  | .vtacc p f => some (p, isaCode 2 0x24 (veBody f))
  | .sunif p f => some (p, isaCode 3 0x01 (suBody f))
  | .sbernf p f => some (p, isaCode 3 0x02 (suBody f))
  | .sbernp p f => some (p, isaCode 3 0x03 (suBody f))
  | .sbernq p f => some (p, isaCode 3 0x04 (suBody f))
  | .sgumb p f => some (p, isaCode 3 0x05 (suBody f))
  | .scat p f => some (p, isaCode 3 0x06 (suBody f))
  | .xrd p f => some (p, isaCode 4 0x01 (xbBody f))
  | .xwr p f => some (p, isaCode 4 0x02 (xbBody f))
  | .xred p f => some (p, isaCode 4 0x03 (xbBody f))
  | .wait p f => some (p, isaCode 5 0x01 (waitBody f))
  | .bar p f => some (p, isaCode 5 0x02 (barBody f))
  | .xfence p r => some (p, isaCode 5 0x03 r)
  | .ctlNop p f => some (p, isaCode 6 0x00 (ctlBody f))
  | .add p f => some (p, isaCode 6 0x01 (ctlBody f))
  | .sub p f => some (p, isaCode 6 0x02 (ctlBody f))
  | .and_ p f => some (p, isaCode 6 0x03 (ctlBody f))
  | .or_ p f => some (p, isaCode 6 0x04 (ctlBody f))
  | .xor_ p f => some (p, isaCode 6 0x05 (ctlBody f))
  | .shl p f => some (p, isaCode 6 0x06 (ctlBody f))
  | .shr p f => some (p, isaCode 6 0x07 (ctlBody f))
  | .sar p f => some (p, isaCode 6 0x08 (ctlBody f))
  | .mul p f => some (p, isaCode 6 0x09 (ctlBody f))
  | .addi p f => some (p, isaCode 6 0x10 (ctlBody f))
  | .li p f => some (p, isaCode 6 0x11 (ctlBody f))
  | .lih p f => some (p, isaCode 6 0x12 (ctlBody f))
  | .lds p f => some (p, isaCode 6 0x18 (ctlBody f))
  | .sts p f => some (p, isaCode 6 0x19 (ctlBody f))
  | .br p f => some (p, isaCode 6 0x20 (ctlBody f))
  | .getid p f => some (p, isaCode 6 0x30 (ctlBody f))
  | .end_ p f => some (p, isaCode 6 0x3F (ctlBody f))
  | _ => none

/-- The MX class (R125). -/
def decodeMx (p op : Nat) (b : BitVec 52) : Option Instr :=
  match op with
  | 0x01 => some (.mma p (mmaFields b))
  | 0x02 => some (.zero p (zeroFields b))
  | 0x03 => some (.tld p (tldFields b))
  | 0x10 => some (.out p (outFields b))
  | _ => none

/-- The VE class (R133). -/
def decodeVe (p op : Nat) (b : BitVec 52) : Option Instr :=
  match op with
  | 0x01 => some (.vadd p (veFields b))
  | 0x02 => some (.vsub p (veFields b))
  | 0x03 => some (.vmul p (veFields b))
  | 0x04 => some (.vfma p (veFields b))
  | 0x05 => some (.vmax p (veFields b))
  | 0x06 => some (.vmin p (veFields b))
  | 0x08 => some (.vadds p (veFields b))
  | 0x09 => some (.vmuls p (veFields b))
  | 0x10 => some (.vld p (veFields b))
  | 0x11 => some (.vst p (veFields b))
  | 0x12 => some (.vcvt p (veFields b))
  | 0x13 => some (.vact p (veFields b))
  | 0x14 => some (.vlog p (veFields b))
  | 0x20 => some (.vrsum p (veFields b))
  | 0x21 => some (.vrmaxi p (veFields b))
  | 0x22 => some (.vsort p (veFields b))
  | 0x23 => some (.vmerge p (veFields b))
  | 0x24 => some (.vtacc p (veFields b))
  | _ => none

/-- The SU class (R135). -/
def decodeSu (p op : Nat) (b : BitVec 52) : Option Instr :=
  match op with
  | 0x01 => some (.sunif p (suFields b))
  | 0x02 => some (.sbernf p (suFields b))
  | 0x03 => some (.sbernp p (suFields b))
  | 0x04 => some (.sbernq p (suFields b))
  | 0x05 => some (.sgumb p (suFields b))
  | 0x06 => some (.scat p (suFields b))
  | _ => none

/-- The XB class (R137). -/
def decodeXb (p op : Nat) (b : BitVec 52) : Option Instr :=
  match op with
  | 0x01 => some (.xrd p (xbFields b))
  | 0x02 => some (.xwr p (xbFields b))
  | 0x03 => some (.xred p (xbFields b))
  | _ => none

/-- The SYNC class (R139). -/
def decodeSync (p op : Nat) (b : BitVec 52) : Option Instr :=
  match op with
  | 0x01 => some (.wait p (waitFields b))
  | 0x02 => some (.bar p (barFields b))
  | 0x03 => some (.xfence p b)
  | _ => none

/-- The CTL class (R141). -/
def decodeCtl (p op : Nat) (b : BitVec 52) : Option Instr :=
  match op with
  | 0x00 => some (.ctlNop p (ctlFields b))
  | 0x01 => some (.add p (ctlFields b))
  | 0x02 => some (.sub p (ctlFields b))
  | 0x03 => some (.and_ p (ctlFields b))
  | 0x04 => some (.or_ p (ctlFields b))
  | 0x05 => some (.xor_ p (ctlFields b))
  | 0x06 => some (.shl p (ctlFields b))
  | 0x07 => some (.shr p (ctlFields b))
  | 0x08 => some (.sar p (ctlFields b))
  | 0x09 => some (.mul p (ctlFields b))
  | 0x10 => some (.addi p (ctlFields b))
  | 0x11 => some (.li p (ctlFields b))
  | 0x12 => some (.lih p (ctlFields b))
  | 0x18 => some (.lds p (ctlFields b))
  | 0x19 => some (.sts p (ctlFields b))
  | 0x20 => some (.br p (ctlFields b))
  | 0x30 => some (.getid p (ctlFields b))
  | 0x3F => some (.end_ p (ctlFields b))
  | _ => none

/-- The instruction of core p that a 64-bit word spells (R121, R122): none for a class or an opcode that no table
lists. -/
def decodeIsa (p : Nat) (w : W64) : Option Instr :=
  let op := (w.extractLsb' 52 8).toNat
  let b := w.extractLsb' 0 52
  match (w.extractLsb' 60 4).toNat with
  | 1 => decodeMx p op b
  | 2 => decodeVe p op b
  | 3 => decodeSu p op b
  | 4 => decodeXb p op b
  | 5 => decodeSync p op b
  | 6 => decodeCtl p op b
  | _ => none

/-- Does a table list the class (R122)? -/
def classListed (w : W64) : Bool :=
  let c := (w.extractLsb' 60 4).toNat
  decide (1 ≤ c) && decide (c ≤ 6)

end Machine
end Sys2Proof
end

