-- ==== Sys2Proof/Config.lean ====
section
/-!
DEFINITION. The free values: what the specification leaves open and the device nonetheless produces
(log entry 6). Each is a constant without a body, so that no proof can see its value; the argument is the
counter `freeCtr` of the state, or the operands on which the value may depend.
-/
namespace Sys2Proof.Config

/-- The uniform of a VCVT that rounds stochastically: the instruction names no Spore quad (R68, R133). -/
opaque vcvtUniform : Nat → Nat → BitVec 24
/-- Value and index of VRMAXI over no element (R133). -/
opaque emptyMax : Nat → BitVec 32
/-- Lanes of SCAT between the number of groups and N (R135, R136). -/
opaque scatLane : Nat → Nat → BitVec 32
/-- GETID with an IMM above 3 (R141). -/
opaque getIdOther : Nat → BitVec 64

/-- Where in slice storage firmware places the KV page of a context: context, page (the specification leaves the placement to firmware and
kernels, R190). -/
opaque kvPlace : Nat → Nat → Nat

/-- A byte of an LPDDR5X line read under a generation other than the one it was written under (R192): DPA, the
line's generation, the reader's. -/
opaque otherGeneration : Nat → Nat → Nat → BitVec 8
/-- The logits of a stream for the position it computes, where the boundary's operand gives none: job context,
stream, position, token (the kernels' output place is not specified). -/
opaque logit : Nat → Nat → Nat → Nat → BitVec 32
/-- The 8 data bytes and the digest of a measurement-log entry (R557 names the kinds and no contents): entry
sequence number, byte. -/
opaque measurement : Nat → Nat → BitVec 8

/-- LP_BASE of a given token at or beyond the vocabulary, which has no logit (R265, R268): the logits, the token. -/
opaque lpBaseBeyond : (logits : List (BitVec 32)) → Nat → BitVec 32

/-- The router's logit of an expert: job context, step, layer, row, expert (where the kernels leave it is not specified, R273). -/
opaque routerLogit : Nat → Nat → Nat → Nat → Nat → BitVec 32
/-- Byte k of the vector that a token's dispatch record carries: job context, step, layer, row, byte. -/
opaque activation : Nat → Nat → Nat → Nat → Nat → BitVec 8
/-- Element k of an expert's output: it depends on the shard, by its digest, and the record's vector (R278); the network is not specified. -/
opaque expertElement : (shard vector : List (BitVec 8)) → Nat → BitVec 32

/-- Byte i of the SHA-384 of the boot ROM, which the specification does not give (R555). -/
opaque romDigest : Nat → BitVec 8
/-- Byte i of a message that only the island's private key, or a standard the specification does not restate, determines
(R554): SPDM signatures, key shares and certificates' digests; counter, byte. -/
opaque spdmByte : Nat → Nat → BitVec 8

/-- Does an SPDM certificate chain verify to the root with a digest, and carry a serial number in its device certificate
(R546)? X.509 decides; the specification does not restate it. -/
opaque chainVerifies : (root chain : List Byte) → Nat → Bool
/-- The identity public key that a chain's device certificate carries (R513, R546). -/
opaque chainKey : List Byte → Nat × Nat

/-- MiB of a DESTROYING context's partition that are zeroed so far (R533 gives no rate): context, root edges. -/
opaque zeroedMiB : Nat → Nat → Nat
/-- MiB of a VERIFYING bed that are hashed and copied so far (R299 gives no rate): the bed's DPA, root edges. -/
opaque verifiedMiB : Nat → Nat → Nat

/-- A coupling term J * s across a part's border before the neighbour's first face has come (R391 gives no value): context, run,
half-sweep, side (0 previous, 1 next), site. -/
opaque mossUnseen : Nat → Nat → Nat → Nat → Nat → Int

/-- Byte of what the buddy holds for this device's job (R428 SOURCE 1, R430 stage COPY): context, object (0 and 1 the cutting slots, 2 tray,
3 page directory, 4 chunk map, 5 page map, 6 and 7 the beds), offset. -/
opaque buddyByte : Nat → Nat → Nat → BitVec 8
/-- What section 8 of a cutting does not record of a GIBBS_RUN that a regrow continues (R421): context, step, item (0 the command's index, 1
chains that FAULTED, 2 CFLAGS of its completion, 3 whether a write of records failed, 4 whether the step was a Gibbs step). -/
opaque regrowRun : Nat → Nat → Nat → Nat

end Sys2Proof.Config
end

