-- ==== Sys2Proof/Machine/Bits.lean ====
section
/-!
DEFINITION. Bit fields, byte order, and the read and write of a sparse map.
-/
namespace Sys2Proof.Machine

/-! ## Maps -/

/-- What key `k` holds, `d` when it is not listed. -/
def Map.get {α : Type} (d : α) : Map α → Nat → α
  | [], _ => d
  | (k', v) :: r, k => if k = k' then v else Map.get d r k

/-- The map without the keys that `drop` names (they read as the default again). -/
def Map.erase {α : Type} (m : Map α) (drop : Nat → Bool) : Map α :=
  m.filter fun kv => !drop kv.1

/-- The map without `k`. -/
def Map.del {α : Type} (m : Map α) (k : Nat) : Map α := Map.erase m (· == k)

/-- The map with an entry for `k`, which it does not list, before the first larger key. -/
def Map.insert {α : Type} : Map α → Nat → α → Map α
  | [], k, v => [(k, v)]
  | (k', v') :: r, k, v => if k < k' then (k, v) :: (k', v') :: r else (k', v') :: Map.insert r k v

/-- The map with `k` holding `v`; the canonical form is kept (a value equal to `d` is not listed). -/
def Map.set {α : Type} [DecidableEq α] (d : α) (m : Map α) (k : Nat) (v : α) : Map α :=
  if v = d then Map.del m k else Map.insert (Map.del m k) k v

/-- The canonical form: keys strictly rising from `lo`, no value equal to `d`. -/
def Map.wfFrom {α : Type} [DecidableEq α] (d : α) : Nat → Map α → Bool
  | _, [] => true
  | lo, (k, v) :: r => decide (lo ≤ k) && decide (v ≠ d) && Map.wfFrom d (k + 1) r

/-- The canonical form of a sparse map. -/
def Map.wf {α : Type} [DecidableEq α] (d : α) (m : Map α) : Bool := Map.wfFrom d 0 m

/-- What an optional entry holds. -/
def Map.find {α : Type} : Map α → Nat → Option α
  | [], _ => none
  | (k', v') :: r, k => if k = k' then some v' else Map.find r k

/-- The map with `k` holding `v`, listed whatever `v` is (for maps of optional entries). -/
def Map.put {α : Type} (m : Map α) (k : Nat) (v : α) : Map α := Map.insert (Map.del m k) k v

/-- Every entry changed by `f`, keys kept (for maps of optional entries). -/
def Map.mapVals {α β : Type} (f : Nat → α → β) (m : Map α) : Map β :=
  m.map fun kv => (kv.1, f kv.1 kv.2)

/-! ## Memory: one byte at a time, wider accesses built here once (R4) -/

/-- One byte of a memory; a byte nothing has written reads as zero. -/
def Memory.read (m : Memory) (a : Nat) : Byte := Map.get 0#8 m a

/-- One byte written. -/
def Memory.write (m : Memory) (a : Nat) (v : Byte) : Memory := Map.set 0#8 m a v

/-- The canonical form of a memory. -/
def Memory.wf (m : Memory) : Bool := Map.wf 0#8 m

/-- `n` bytes from `a`. -/
def Memory.readBytes (m : Memory) (a : Nat) : Nat → List Byte
  | 0 => []
  | n + 1 => Memory.read m a :: Memory.readBytes m (a + 1) n

/-- The bytes written from `a` on. -/
def Memory.writeBytes (m : Memory) (a : Nat) : List Byte → Memory
  | [] => m
  | b :: bs => Memory.writeBytes (Memory.write m a b) (a + 1) bs

/-- The bytes from `a` to `a + n - 1` made zero again (not listed). -/
def Memory.zeroRange (m : Memory) (a n : Nat) : Memory :=
  Map.erase m fun k => decide (a ≤ k) && decide (k < a + n)

/-! ## Byte order (R4) -/

/-- The number that little-endian bytes spell. -/
def ofLe : List Byte → Nat
  | [] => 0
  | b :: bs => b.toNat + 256 * ofLe bs

/-- The `n` low bytes of `v`, least significant first. -/
def toLe : Nat → Nat → List Byte
  | 0, _ => []
  | n + 1, v => BitVec.ofNat 8 v :: toLe n (v / 256)

/-- The number that big-endian bytes spell (cryptographic standards). -/
def ofBe (bs : List Byte) : Nat := bs.foldl (fun acc b => acc * 256 + b.toNat) 0

/-- The `n` low bytes of `v`, most significant first. -/
def toBe (n v : Nat) : List Byte := (toLe n v).reverse

/-- `n` bytes at offset `off` of a byte list, zero beyond its end. -/
def bytesAt (bs : List Byte) (off n : Nat) : List Byte :=
  let got := (bs.drop off).take n
  got ++ List.replicate (n - got.length) 0#8

/-- The little-endian field of `n` bytes at offset `off`. -/
def leAt (bs : List Byte) (off n : Nat) : Nat := ofLe (bytesAt bs off n)

/-- Are the `n` bytes at `off` all zero? -/
def zeroAt (bs : List Byte) (off n : Nat) : Bool := (bytesAt bs off n).all (· == 0#8)

/-- The little-endian number of `n` bytes of memory at `a`. -/
def Memory.readLe (m : Memory) (a n : Nat) : Nat := ofLe (Memory.readBytes m a n)

/-- `n` bytes of `v` written little-endian at `a`. -/
def Memory.writeLe (m : Memory) (a n v : Nat) : Memory := Memory.writeBytes m a (toLe n v)

/-! ## Bit fields (R5) -/

/-- Bits [hi:lo] of a number. -/
def bits (v hi lo : Nat) : Nat := (v >>> lo) % 2 ^ (hi + 1 - lo)

/-- Bit `i` of a number. -/
def bit (v i : Nat) : Bool := v.testBit i

/-- 1 for true, 0 for false. -/
def b2n (b : Bool) : Nat := if b then 1 else 0

/-- A number read as two's complement of `w` bits. -/
def signed (w v : Nat) : Int :=
  let u := v % 2 ^ w
  if u < 2 ^ (w - 1) then (u : Int) else (u : Int) - (2 : Int) ^ w

/-- The two's-complement pattern of `w` bits of an integer. -/
def unsigned (w : Nat) (v : Int) : Nat := (v % (2 : Int) ^ w).toNat

/-- Saturating count of `w` bits (the word 'saturating' of the register tables). -/
def satAdd (w a b : Nat) : Nat := Nat.min (a + b) (2 ^ w - 1)

/-- Quotient rounded up. -/
def ceilDiv (a b : Nat) : Nat := (a + b - 1) / b

/-- `a` rounded up to a multiple of `b`. -/
def roundUp (a b : Nat) : Nat := ceilDiv a b * b

/-- Is it a power of two? -/
def isPow2 (n : Nat) : Bool := n != 0 && 2 ^ Nat.log2 n == n

/-- Groups of `n` consecutive elements; the last may be shorter. `fuel` bounds the recursion. -/
def chunksFuel {α : Type} (n : Nat) : Nat → List α → List (List α)
  | 0, _ => []
  | _, [] => []
  | fuel + 1, xs => xs.take n :: chunksFuel n fuel (xs.drop n)

/-- Groups of `n` consecutive elements; the last may be shorter. -/
def chunks {α : Type} (n : Nat) (xs : List α) : List (List α) := chunksFuel n xs.length xs

/-- Bits packed into bytes, bit `i` in bit (i mod 8) of byte i / 8 (the packing of R114 and R317
seen in bytes). -/
def packBits (bs : List Bool) : List Byte :=
  (chunks 8 bs).map fun g => BitVec.ofNat 8 (g.foldr (fun b acc => b2n b + 2 * acc) 0)

/-- Bit `i` of a packed byte list. -/
def packedBit (bs : List Byte) (i : Nat) : Bool := ((bs.drop (i / 8)).headD 0#8).toNat.testBit (i % 8)

/-- Zero bytes up to a multiple of `n`. -/
def padTo (n : Nat) (bs : List Byte) : List Byte :=
  bs ++ List.replicate (roundUp bs.length n - bs.length) 0#8

end Sys2Proof.Machine
end

