-- ==== Sys2Proof/Machine/Float.lean ====
section
/-!
DEFINITION. Exact binary floating point: FP32 arithmetic with round to nearest even (R14), and the
unpacking and rounding of every floating-point element format (R41 to R47).
A finite value is held exactly as sign, magnitude and power of two; every rounding happens once.
-/
namespace Sys2Proof.Machine

/-- A floating-point value: a finite one is (-1)^neg * m * 2^e exactly. -/
inductive FVal where
  | nan
  | inf (neg : Bool)
  | fin (neg : Bool) (m : Nat) (e : Int)
  deriving DecidableEq, Repr

/-- How a format spends its all-ones exponent (R42, R45). -/
inductive FSpecial where
  | ieee      -- infinities and NaN
  | e4m3      -- one NaN pattern, no infinity
  | none      -- finite values only
  deriving DecidableEq, Repr

/-- A floating-point element format (R41). -/
structure FFormat where
  eb : Nat
  mb : Nat
  bias : Int
  special : FSpecial
  deriving DecidableEq, Repr

/-- FP32 (R41 code 0x00). -/
def fmtF32 : FFormat := ⟨8, 23, 127, .ieee⟩

/-- The value a pattern of the format holds (R42). -/
def FFormat.unpack (f : FFormat) (w : Nat) : FVal :=
  let m := w % 2 ^ f.mb
  let e := (w >>> f.mb) % 2 ^ f.eb
  let neg := w.testBit (f.eb + f.mb)
  if f.special = .ieee ∧ e = 2 ^ f.eb - 1 then (if m = 0 then .inf neg else .nan)
  else if f.special = .e4m3 ∧ e = 2 ^ f.eb - 1 ∧ m = 2 ^ f.mb - 1 then .nan
  else if e = 0 then .fin neg m (1 - f.bias - f.mb)
  else .fin neg (m + 2 ^ f.mb) ((e : Int) - f.bias - f.mb)

/-- The largest finite magnitude's pattern (without sign). -/
def FFormat.maxMag (f : FFormat) : Nat :=
  match f.special with
  | .ieee => 2 ^ (f.eb + f.mb) - 2 ^ f.mb - 1
  | .e4m3 => 2 ^ (f.eb + f.mb) - 2
  | .none => 2 ^ (f.eb + f.mb) - 1

/-- The canonical NaN of the format (R45, R46); formats without NaN have none, and 0 stands there. -/
def FFormat.nanBits (f : FFormat) : Nat :=
  match f.special with
  | .ieee => 2 ^ (f.eb + f.mb) - 2 ^ f.mb + 2 ^ (f.mb - 1)
  | .e4m3 => 2 ^ (f.eb + f.mb) - 1
  | .none => 0

/-- The sign bit of the format. -/
def FFormat.signBit (f : FFormat) (neg : Bool) : Nat := if neg then 2 ^ (f.eb + f.mb) else 0

/-- The magnitude pattern of infinity (formats of kind ieee). -/
def FFormat.infMag (f : FFormat) : Nat := 2 ^ (f.eb + f.mb) - 2 ^ f.mb

/-- A magnitude m * 2^e split at the format's spacing: the pattern of the truncated magnitude, and
the discarded part as a numerator over 2^sh (R67: q and (|x| - q)/ulp). -/
structure Truncated where
  mag : Nat
  rem : Nat
  sh : Nat
  deriving DecidableEq, Repr

/-- Truncation of m * 2^e toward zero to a representable magnitude of the format; subnormal spacing
below the smallest normal (R43, R67). The pattern is not bounded by the largest finite value. -/
def FFormat.truncate (f : FFormat) (m : Nat) (e : Int) : Truncated :=
  if m = 0 then ⟨0, 0, 0⟩ else
  let emin : Int := 1 - f.bias - f.mb
  let top : Int := (Nat.log2 m : Int) + e
  let lsb : Int := max (top - f.mb) emin
  let base := (lsb - emin).toNat * 2 ^ f.mb
  if lsb ≤ e then ⟨base + m * 2 ^ (e - lsb).toNat, 0, 0⟩
  else
    let sh := (lsb - e).toNat
    ⟨base + m / 2 ^ sh, m % 2 ^ sh, sh⟩

/-- The rounding modes of R65; SR carries the 24-bit uniform of R67. -/
inductive RMode where
  | rne
  | rz
  | sr (u : Nat)
  deriving DecidableEq, Repr

/-- Does the truncated magnitude step up by one unit? -/
def Truncated.up (t : Truncated) : RMode → Bool
  | .rne => decide (2 * t.rem > 2 ^ t.sh) || (decide (2 * t.rem = 2 ^ t.sh) && t.sh != 0 && t.mag % 2 == 1)
  | .rz => false
  | .sr u => decide (u < t.rem * 2 ^ 24 / 2 ^ t.sh)

/-- The magnitude pattern m * 2^e rounds to, not yet bounded by the largest finite value (R65, R66). -/
def FFormat.roundMag (f : FFormat) (mode : RMode) (m : Nat) (e : Int) : Nat :=
  let t := f.truncate m e
  t.mag + b2n (t.up mode)

/-! ## FP32 -/

/-- The canonical NaN of FP32 (R45). -/
def f32NaN : W32 := 0x7FC00000#32
/-- +infinity. -/
def f32Inf : W32 := 0x7F800000#32
/-- -infinity. -/
def f32NegInf : W32 := 0xFF800000#32
/-- 1.0. -/
def f32One : W32 := 0x3F800000#32
/-- The largest finite value. -/
def f32Max : W32 := 0x7F7FFFFF#32
/-- -(the largest finite value). -/
def f32NegMax : W32 := 0xFF7FFFFF#32

/-- The value of an FP32 pattern. -/
def f32Val (x : W32) : FVal := fmtF32.unpack x.toNat

/-- Is it a NaN? -/
def f32IsNaN (x : W32) : Bool := f32Val x == .nan

/-- (-1)^neg * m * 2^e rounded once to FP32 by round to nearest even; overflow gives the infinity of
the sign (R47). -/
def f32Round (neg : Bool) (m : Nat) (e : Int) : W32 :=
  BitVec.ofNat 32 (fmtF32.signBit neg + Nat.min (fmtF32.roundMag .rne m e) fmtF32.infMag)

/-- An integer times 2^e rounded once to FP32; zero gives +0. -/
def f32OfInt (v : Int) (e : Int) : W32 := f32Round (decide (v < 0)) v.natAbs e

/-- The FP32 pattern of a value that FP32 holds or that one rounding brings there. -/
def f32Of : FVal → W32
  | .nan => f32NaN
  | .inf false => f32Inf
  | .inf true => f32NegInf
  | .fin neg m e => f32Round neg m e

/-- The sum of two finite values on their common scale, exactly. -/
def addExact (n1 : Bool) (m1 : Nat) (e1 : Int) (n2 : Bool) (m2 : Nat) (e2 : Int) : Int × Int :=
  let e := min e1 e2
  let s (n : Bool) (m : Nat) (k : Int) : Int := (if n then -1 else 1) * ((m * 2 ^ (k - e).toNat : Nat) : Int)
  (s n1 m1 e1 + s n2 m2 e2, e)

/-- IEEE 754 binary32 addition, round to nearest even; a zero sum of two negative zeros is -0. -/
def f32AddV : FVal → FVal → W32
  | .nan, _ => f32NaN
  | _, .nan => f32NaN
  | .inf a, .inf b => if a = b then f32Of (.inf a) else f32NaN
  | .inf a, _ => f32Of (.inf a)
  | _, .inf b => f32Of (.inf b)
  | .fin n1 m1 e1, .fin n2 m2 e2 =>
    let (s, e) := addExact n1 m1 e1 n2 m2 e2
    if s = 0 then (if n1 && n2 then 0x80000000#32 else 0#32) else f32OfInt s e

/-- x + y. -/
def f32Add (x y : W32) : W32 := f32AddV (f32Val x) (f32Val y)

/-- The sign changed. -/
def f32Neg (x : W32) : W32 := x ^^^ 0x80000000#32

/-- x - y. -/
def f32Sub (x y : W32) : W32 := f32Add x (f32Neg y)

/-- |x|. -/
def f32Abs (x : W32) : W32 := x &&& 0x7FFFFFFF#32

/-- The magnitude of `r` with the sign of `x`. -/
def f32CopySign (r x : W32) : W32 := (r &&& 0x7FFFFFFF#32) ||| (x &&& 0x80000000#32)

/-- The exact product of two values (R77): NaN for zero times infinity. -/
def mulExact : FVal → FVal → FVal
  | .nan, _ => .nan
  | _, .nan => .nan
  | .inf a, .inf b => .inf (a != b)
  | .inf a, .fin n m _ => if m = 0 then .nan else .inf (a != n)
  | .fin n m _, .inf b => if m = 0 then .nan else .inf (n != b)
  | .fin n1 m1 e1, .fin n2 m2 e2 => .fin (n1 != n2) (m1 * m2) (e1 + e2)

/-- x * y. -/
def f32Mul (x y : W32) : W32 := f32Of (mulExact (f32Val x) (f32Val y))

/-- fma(a, b, c): one rounding (R14). -/
def f32Fma (a b c : W32) : W32 := f32AddV (mulExact (f32Val a) (f32Val b)) (f32Val c)

/-- The quotient of two magnitudes, with enough bits below the FP32 spacing and a sticky last bit, so
that one rounding of it is the rounding of the exact quotient. -/
def divExact (m1 : Nat) (e1 : Int) (m2 : Nat) (e2 : Int) : Nat × Int :=
  let k := 64 + Nat.log2 m2
  let n := m1 * 2 ^ k
  (2 * (n / m2) + b2n (n % m2 != 0), e1 - e2 - k - 1)

/-- x / y, round to nearest even. -/
def f32Div (x y : W32) : W32 :=
  match f32Val x, f32Val y with
  | .nan, _ => f32NaN
  | _, .nan => f32NaN
  | .inf _, .inf _ => f32NaN
  | .inf a, .fin n _ _ => f32Of (.inf (a != n))
  | .fin a _ _, .inf b => BitVec.ofNat 32 (fmtF32.signBit (a != b))
  | .fin n1 m1 e1, .fin n2 m2 e2 =>
    if m2 = 0 then (if m1 = 0 then f32NaN else f32Of (.inf (n1 != n2)))
    else if m1 = 0 then BitVec.ofNat 32 (fmtF32.signBit (n1 != n2))
    else let (q, e) := divExact m1 e1 m2 e2; f32Round (n1 != n2) q e

/-- The exact order of two values that are not NaN; +0 and -0 are equal. -/
def ltVal : FVal → FVal → Bool
  | .nan, _ => false
  | _, .nan => false
  | .inf true, .inf b => !b
  | .inf true, _ => true
  | .inf false, _ => false
  | _, .inf b => !b
  | .fin n1 m1 e1, .fin n2 m2 e2 => decide ((addExact n1 m1 e1 (!n2) m2 e2).1 < 0)

/-- x < y; false when either is NaN. -/
def f32Lt (x y : W32) : Bool := ltVal (f32Val x) (f32Val y)

/-- x ≤ y; false when either is NaN. -/
def f32Le (x y : W32) : Bool := !f32IsNaN x && !f32IsNaN y && !f32Lt y x

/-- x = y as numbers; false when either is NaN. -/
def f32Eq (x y : W32) : Bool := f32Le x y && f32Le y x

/-- Is it finite? -/
def f32Finite (x : W32) : Bool := match f32Val x with | .fin _ _ _ => true | _ => false

/-- floor of a finite value. -/
def floorVal : FVal → Int
  | .fin neg m e =>
    let v : Int := (if neg then -1 else 1) * (m : Int)
    if 0 ≤ e then v * 2 ^ e.toNat else v / ((2 ^ (-e).toNat : Nat) : Int)
  | _ => 0

/-- y * 2^k rounded once (scale2 of R108); NaN and infinities stay. -/
def f32Scale (y : W32) (k : Int) : W32 :=
  match f32Val y with
  | .fin neg m e => f32Round neg m (e + k)
  | v => f32Of v

/-- A natural number times 2^k that FP32 holds exactly, or rounded once. -/
def f32OfNat (n : Nat) (k : Int) : W32 := f32Round false n k

/-- A finite FP32 value as an integer multiple of 2^-149 (R98); infinities and NaN give 0. -/
def f32ToFixed (x : W32) : Int :=
  match f32Val x with
  | .fin neg m e => (if neg then -1 else 1) * ((m * 2 ^ (e + 149).toNat : Nat) : Int)
  | _ => 0

/-- floor(p * 2^24) for p in [0, 1] (R112, R312). -/
def f32Thresh (p : W32) : Nat :=
  match f32Val p with
  | .fin neg m e => (floorVal (.fin neg m (e + 24))).toNat
  | .inf false => 2 ^ 24
  | _ => 0

end Sys2Proof.Machine
end

