-- ==== Sys2Proof/Machine/Formats.lean ====
section
/-!
DEFINITION. The number formats of chapter 2: format codes (R41), packing (R48, R49), block scaling
(R51 to R58), integer and coupling formats (R59 to R64), rounding (R65 to R70) and the conversion
table (R71) with the two conversion flags (R72).
-/
namespace Sys2Proof.Machine

/-- The kinds of element that a format code names (R41). -/
inductive FKind where
  | fp (f : FFormat)
  | mx (f : FFormat) (emax : Nat)
  | mxint
  | int (w : Nat)
  | cpl16
  | cpl4
  deriving DecidableEq, Repr

/-- FP16, code 0x01. -/
def fmtF16 : FFormat := ⟨5, 10, 15, .ieee⟩
/-- BF16, code 0x02. -/
def fmtBF16 : FFormat := ⟨8, 7, 127, .ieee⟩
/-- FP8 E4M3, code 0x03. -/
def fmtE4M3 : FFormat := ⟨4, 3, 7, .e4m3⟩
/-- FP8 E5M2, code 0x04. -/
def fmtE5M2 : FFormat := ⟨5, 2, 15, .ieee⟩
/-- FP6 E3M2, code 0x05. -/
def fmtE3M2 : FFormat := ⟨3, 2, 3, .none⟩
/-- FP6 E2M3, code 0x06. -/
def fmtE2M3 : FFormat := ⟨2, 3, 1, .none⟩
/-- FP4 E2M1, code 0x07. -/
def fmtE2M1 : FFormat := ⟨2, 1, 1, .none⟩

/-- The format of a code; none for the invalid codes 0x11 to 0xFF (R41). -/
def formatOf : Nat → Option FKind
  | 0x00 => some (.fp fmtF32)
  | 0x01 => some (.fp fmtF16)
  | 0x02 => some (.fp fmtBF16)
  | 0x03 => some (.fp fmtE4M3)
  | 0x04 => some (.fp fmtE5M2)
  | 0x05 => some (.fp fmtE3M2)
  | 0x06 => some (.fp fmtE2M3)
  | 0x07 => some (.fp fmtE2M1)
  | 0x08 => some (.mx fmtE4M3 8)
  | 0x09 => some (.mx fmtE2M3 2)
  | 0x0A => some (.mx fmtE2M1 2)
  | 0x0B => some .mxint
  | 0x0C => some (.int 8)
  | 0x0D => some (.int 4)
  | 0x0E => some (.int 32)
  | 0x0F => some .cpl16
  | 0x10 => some .cpl4
  | _ => none

/-- Bits per packed element (R41). -/
def FKind.bits : FKind → Nat
  | .fp f => 1 + f.eb + f.mb
  | .mx f _ => 1 + f.eb + f.mb
  | .mxint => 8
  | .int w => w
  | .cpl16 => 16
  | .cpl4 => 4

/-- Bits per element of a format code; 0 for an invalid code. -/
def formatBits (code : Nat) : Nat := match formatOf code with | some k => k.bits | none => 0

/-- The four block-scaled formats. -/
def isMx (code : Nat) : Bool := decide (0x08 ≤ code) && decide (code ≤ 0x0B)

/-- INT8 and INT4, the integer operand formats of the MXE (R75). -/
def isIntOperand (code : Nat) : Bool := code == 0x0C || code == 0x0D

/-- The formats that the MXE takes as operands (R74, R76). -/
def isMxeFormat (code : Nat) : Bool := decide (0x01 ≤ code) && decide (code ≤ 0x0D)

/-! ## Packing (R48, R49): element i at bits [n*i + n - 1 : n*i] of the little-endian stream -/

/-- Element codes of `nb` bits packed densely; padding bits of the last byte are zero (R50). -/
def packCodes (nb : Nat) (codes : List Nat) : List Byte :=
  toLe (ceilDiv (nb * codes.length) 8) (codes.foldr (fun c acc => acc * 2 ^ nb + c % 2 ^ nb) 0)

/-- `n` element codes of `nb` bits from a packed byte list, zero beyond its end. -/
def unpackCodes (nb n : Nat) (bs : List Byte) : List Nat :=
  let v := ofLe bs
  (List.range n).map fun i => (v >>> (nb * i)) % 2 ^ nb

/-- Bytes that `n` elements of a format occupy. -/
def packedBytes (code n : Nat) : Nat := ceilDiv (formatBits code * n) 8

/-! ## Element values -/

/-- A value multiplied by 2^k. -/
def scaleVal (k : Int) : FVal → FVal
  | .fin n m e => .fin n m (e + k)
  | v => v

/-- An integer times 2^e as a value; zero is +0. -/
def intVal (v : Int) (e : Int) : FVal := .fin (decide (v < 0)) v.natAbs e

/-- The value of an element code; `scale` is the block's E8M0 byte for the MX formats (R42, R51 to
R54, R59). CPL formats are storage only (R61, R63) and read as their integers. -/
def elemVal (code : Nat) (raw scale : Nat) : FVal :=
  match formatOf code with
  | some (.fp f) => f.unpack raw
  | some (.mx f _) => if scale = 0xFF then .nan else scaleVal (scale - 127) (f.unpack raw)
  | some .mxint => if scale = 0xFF then .nan else scaleVal ((scale : Int) - 127 - 6) (intVal (signed 8 raw) 0)
  | some (.int w) => intVal (signed w raw) 0
  | some .cpl16 => intVal (signed 16 raw) 0
  | some .cpl4 => intVal (signed 4 raw) 0
  | none => .nan

/-! ## Conversion flags (R72) and results -/

/-- SAT and NAN_LOST of one conversion. -/
structure CFlags where
  sat : Bool := false
  nanLost : Bool := false
  deriving DecidableEq, Repr

/-- The flags of two conversions together (sticky). -/
def CFlags.or (a b : CFlags) : CFlags := ⟨a.sat || b.sat, a.nanLost || b.nanLost⟩

/-- A value rounded to the integers, not yet bounded (R65, R67 with the integers' spacing 1). -/
def roundInt (mode : RMode) : FVal → Int
  | .fin neg m e =>
    let t : Truncated := if 0 ≤ e then ⟨m * 2 ^ e.toNat, 0, 0⟩ else
      ⟨m / 2 ^ (-e).toNat, m % 2 ^ (-e).toNat, (-e).toNat⟩
    let q : Int := ((t.mag + b2n (t.up mode) : Nat) : Int)
    if neg then -q else q
  | _ => 0

/-- Saturation of an integer to w-bit two's complement; true when it saturated. -/
def satSigned (w : Nat) (v : Int) : Int × Bool :=
  let hi : Int := 2 ^ (w - 1) - 1
  let lo : Int := -(2 ^ (w - 1))
  if v > hi then (hi, true) else if v < lo then (lo, true) else (v, false)

/-- FP32 into INT8, INT4 or INT32 (R60, R71). -/
def toInt (w : Nat) (mode : RMode) : FVal → Nat × CFlags
  | .nan => (0, ⟨false, true⟩)
  | .inf neg => (unsigned w (if neg then -(2 ^ (w - 1)) else 2 ^ (w - 1) - 1), ⟨true, false⟩)
  | v => let (r, s) := satSigned w (roundInt mode v); (unsigned w r, ⟨s, false⟩)

/-- A value into a floating-point format (R71): finite overflow saturates and sets SAT; a format without
infinity saturates an infinity; a format without NaN takes +0 and sets NAN_LOST. FP32 as destination
keeps an infinity that a value above its largest finite becomes only for exact sources (R71, row 1),
which `toF32` serves. -/
def toFp (f : FFormat) (mode : RMode) : FVal → Nat × CFlags
  | .nan => if f.special = .none then (0, ⟨false, true⟩) else (f.nanBits, {})
  | .inf neg =>
    if f.special = .ieee then (f.signBit neg + f.infMag, {}) else (f.signBit neg + f.maxMag, ⟨true, false⟩)
  | .fin neg m e =>
    let r := f.roundMag mode m e
    if r > f.maxMag then (f.signBit neg + f.maxMag, ⟨true, false⟩) else (f.signBit neg + r, {})

/-- Any floating-point, MX, INT8 or INT4 value into FP32: exact, but an MX value above the largest
finite becomes infinity and one below the smallest subnormal rounds by RNE (R71). -/
def toF32 (v : FVal) : W32 := f32Of v

/-- INT32 into FP32 under the instruction's mode (R71). -/
def i32ToF32 (mode : RMode) (v : W32) : W32 :=
  let i := v.toInt
  BitVec.ofNat 32 (fmtF32.signBit (decide (i < 0)) + fmtF32.roundMag mode i.natAbs 0)

/-- INT32 into INT8 or INT4: saturated; sets SAT (R71). -/
def i32ToInt (w : Nat) (v : W32) : Nat × CFlags :=
  let (r, s) := satSigned w v.toInt
  (unsigned w r, ⟨s, false⟩)

/-! ## MX blocks (R56 to R58, R70) -/

/-- The exponent of the largest magnitude: floor(log2 |v|) of a nonzero finite FP32 pattern. -/
def f32Log2Floor (x : W32) : Int :=
  match f32Val x with
  | .fin _ m e => if m = 0 then 0 else (Nat.log2 m : Int) + e
  | _ => 0

/-- emax of R56. -/
def mxEmax (code : Nat) : Nat :=
  match formatOf code with
  | some (.mx _ e) => e
  | _ => 0

/-- The scale byte of a block (R56). -/
def mxScale (code : Nat) (vs : List W32) : Nat :=
  if vs.any (fun v => !f32Finite v) then 0xFF else
  let amax := (vs.map fun v => (f32Abs v).toNat).foldl Nat.max 0
  if amax = 0 then 0 else
  let x := f32Log2Floor (BitVec.ofNat 32 amax) - mxEmax code
  (max (-127) (min 127 x) + 127).toNat

/-- One element of an MX block after scaling by 2^-X: it saturates without setting SAT (R57, R58). -/
def mxCode (code : Nat) (mode : RMode) (v : FVal) : Nat :=
  match formatOf code with
  | some (.mx f _) => (toFp f mode v).1
  | some .mxint =>
    let r := roundInt mode (scaleVal 6 v)
    unsigned 8 (max (-127) (min 127 r))
  | _ => 0

/-- One MX block: the scale byte and the element codes; `mode i` is the rounding of element i. -/
def mxBlock (code : Nat) (mode : Nat → RMode) (vs : List W32) : Nat × List Nat :=
  let s := mxScale code vs
  if s = 0xFF then (s, vs.map fun _ => 0)
  else (s, vs.mapIdx fun i v => mxCode code (mode i) (scaleVal (127 - (s : Int)) (f32Val v)))

/-! ## Conversion of one element between FP32 or INT32 and a format that is not MX (R71) -/

/-- FP32 into the element code of a format that is not MX; CPL formats are the Moss loader's (R64). -/
def f32ToElem (code : Nat) (mode : RMode) (x : W32) : Nat × CFlags :=
  match formatOf code with
  | some (.fp f) =>
    if code = 0 then ((if f32IsNaN x then f32NaN else x).toNat, {}) else toFp f mode (f32Val x)
  | some (.int w) => toInt w mode (f32Val x)
  | _ => (0, {})

/-- INT32 into the element code of a format that is not MX: integers saturate; FP32 is rounded under
the mode; the rest is the exact integer rounded once (R66, R71). -/
def i32ToElem (code : Nat) (mode : RMode) (x : W32) : Nat × CFlags :=
  match formatOf code with
  | some (.int 32) => (x.toNat, {})
  | some (.int w) => i32ToInt w x
  | some (.fp f) => if code = 0 then ((i32ToF32 mode x).toNat, {}) else toFp f mode (intVal x.toInt 0)
  | _ => (0, {})

/-- The exact integer of a value that an INT32 destination takes (VCVT towards INT32, R71). -/
def valToI32 (mode : RMode) (v : FVal) : W32 × CFlags :=
  let (r, f) := toInt 32 mode v
  (BitVec.ofNat 32 r, f)

/-! ## Coupling formats (R61 to R64) -/

/-- v * 2^-e to the nearest integer, ties to even, saturated to ±lim (R64). -/
def toCpl (lim : Int) (e : Int) (v : FVal) : Int :=
  match v with
  | .inf neg => if neg then -lim else lim
  | _ => max (-lim) (min lim (roundInt .rne (scaleVal (-e) v)))

/-- The rounding mode of a 2-bit field; none for the reserved 0b11 (R65). `u` is the element's uniform. -/
def rmodeOf (field u : Nat) : Option RMode :=
  match field with
  | 0 => some .rne
  | 1 => some .rz
  | 2 => some (.sr u)
  | _ => none

end Sys2Proof.Machine
end

