-- ==== Sys2Proof/Machine/Spore.lean ====
section
/-!
DEFINITION. The Spore generator: key (R204), counter (R209, R210), mixing function (R211), uniform
(R218) and mask (R219). The Gumbel noise of R221 stands in Machine/Transc.lean.
-/
namespace Sys2Proof.Machine

/-- Word j of a 128-bit value, bits [32j + 31 : 32j]. -/
def word32 (v : W128) (j : Nat) : W32 := BitVec.ofNat 32 (v.toNat >>> (32 * j))

/-- A 128-bit value from four words, word 0 lowest. -/
def ofWords32 (w0 w1 w2 w3 : W32) : W128 := w3 ++ w2 ++ w1 ++ w0

/-- The Spore key: job seed XOR (object seed << 64) (R204). -/
def sporeKey (jobSeed : W128) (objectSeed : W64) : W128 := jobSeed ^^^ (objectSeed ++ 0#64)

/-- The Spore counter of R209. -/
def sporeCtr (domain : Nat) (object : Nat) (step : Nat) (element : Nat) : W128 :=
  BitVec.ofNat 8 domain ++ BitVec.ofNat 32 object ++ BitVec.ofNat 40 step ++ BitVec.ofNat 48 element

/-- The four words that a round works on. -/
structure SporeX where
  x0 : W32
  x1 : W32
  x2 : W32
  x3 : W32
  deriving DecidableEq, Repr

/-- A[i & 3] of R211. -/
def sporeA (i : Nat) : Nat := match i % 4 with | 0 => 7 | 1 => 13 | 2 => 19 | _ => 25
/-- B[i & 3] of R211. -/
def sporeB (i : Nat) : Nat := match i % 4 with | 0 => 11 | 1 => 17 | 2 => 23 | _ => 29

/-- Round i of R211, the injection after odd rounds included. -/
def sporeRound (k : W128) (x : SporeX) (i : Nat) : SporeX :=
  let x0 := x.x0 + x.x1
  let x3 := (x.x3 ^^^ x0).rotateLeft (sporeA i)
  let x2 := x.x2 + x3
  let x1 := (x.x1 ^^^ x2).rotateLeft (sporeB i)
  if i % 2 = 1 then
    let j := i / 2
    ⟨x0 + (word32 k (j % 4) ^^^ (0x9E3779B9#32 * BitVec.ofNat 32 (j + 1))), x1,
      x2 + (word32 k ((j + 2) % 4) + BitVec.ofNat 32 j), x3⟩
  else ⟨x0, x1, x2, x3⟩

/-- spore_block of R211: word j of the output is out[j]. -/
def sporeBlock (k c : W128) : W128 :=
  let r := (List.range 12).foldl (sporeRound k) ⟨word32 c 0, word32 c 1, word32 c 2, word32 c 3⟩
  ofWords32 (r.x0 + word32 c 0) (r.x1 + word32 c 1) (r.x2 + word32 c 2) (r.x3 + word32 c 3)

/-- The 24-bit uniform u = out[0] >> 8 (R218). -/
def sporeU24 (k c : W128) : Nat := (word32 (sporeBlock k c) 0).toNat >>> 8

/-- The uniform of a domain, object, step and element under a key. -/
def sporeDraw (key : W128) (domain object step element : Nat) : Nat :=
  sporeU24 key (sporeCtr domain object step element)

/-- The Bernoulli mask bit of a 0.16 fixed-point probability (R219). -/
def sporeMask (u p16 : Nat) : Bool := decide (u < p16 <<< 8)

/-- The counter that a quad's third and fourth registers and the SE register give element i (R210). -/
def quadCtr (third fourth se : W64) (i : Nat) : W128 :=
  sporeCtr (bits fourth.toNat 39 32) (bits fourth.toNat 31 0) (bits third.toNat 39 0)
    ((se.toNat + i) % 2 ^ 48)

end Sys2Proof.Machine
end

