-- ==== Sys2Proof/Machine/Accum.lean ====
section
/-!
DEFINITION. Accumulation and reduction (chapter 3): canonical block sums (R77 to R83), integer
accumulation (R88), the exact accumulators and their raw images (R97 to R101), and the order of
maximum and minimum with index (R104).
-/
namespace Sys2Proof.Machine

/-- An FP32 value with its 32-bit logical index (R91). -/
structure IdxPair where
  value : W32
  index : W32
  deriving DecidableEq, Repr

/-- A 640-bit exact accumulator (R97): value A * 2^-149 and three flags. -/
structure ExactAcc where
  acc : Int
  pinf : Bool
  ninf : Bool
  nan : Bool
  deriving DecidableEq, Repr

/-- A cleared accumulator (R97). -/
def ExactAcc.zero : ExactAcc := ⟨0, false, false, false⟩

/-- floor(log2 |m * 2^e|) of a nonzero magnitude. -/
def magLog2 (m : Nat) (e : Int) : Int := (Nat.log2 m : Int) + e

/-- The largest exponent among the nonzero finite products. -/
def blockEmax : List FVal → Option Int
  | [] => none
  | .fin _ m e :: r =>
    if m = 0 then blockEmax r else
    match blockEmax r with
    | none => some (magLog2 m e)
    | some x => some (max (magLog2 m e) x)
  | _ :: r => blockEmax r

/-- sign * floor(|p| * 2^(60 - emax)) (R80). -/
def blockTerm (emax : Int) : FVal → Int
  | .fin neg m e =>
    let k := e + 60 - emax
    let q : Int := if 0 ≤ k then ((m * 2 ^ k.toNat : Nat) : Int) else ((m / 2 ^ (-k).toNat : Nat) : Int)
    if neg then -q else q
  | _ => 0

/-- block_sum of R80 over one block of exact products. -/
def blockSum (p : List FVal) : W32 :=
  if p.contains .nan then f32NaN
  else if p.contains (.inf false) && p.contains (.inf true) then f32NaN
  else if p.contains (.inf false) then f32Inf
  else if p.contains (.inf true) then f32NegInf
  else match blockEmax p with
    | none => 0#32
    | some emax =>
      let s := (p.map (blockTerm emax)).foldl (· + ·) 0
      if s = 0 then 0#32 else f32OfInt s (emax - 60)

/-- The block sums of a list of products added to `init` in ascending order (R78, R81). -/
def canonicalSum (init : W32) (ps : List FVal) : W32 :=
  (chunks 32 ps).foldl (fun acc b => f32Add acc (blockSum b)) init

/-- INT32 accumulation of exact integer products: the sum modulo 2^32, and whether the exact running
sum, taken block by block, left the INT32 range (R88). -/
def intSum (init : W32) (ps : List Int) : W32 × Bool :=
  (chunks 32 ps).foldl (fun st b =>
    let exact := st.1.toInt + b.foldl (· + ·) 0
    (BitVec.ofInt 32 exact, st.2 || decide (exact > 2 ^ 31 - 1) || decide (exact < -(2 ^ 31)))) (init, false)

/-! ## Order with index (R104) -/

/-- The rank class of a value: NaN first, then the side's own infinity, finite values, the other infinity. -/
def rankBefore (isMax : Bool) (v w : W32) : Bool :=
  if f32IsNaN v then !f32IsNaN w
  else if f32IsNaN w then false
  else if isMax then f32Lt w v else f32Lt v w

/-- Does pair `a` beat pair `b`? (R104) -/
def beats (isMax : Bool) (a b : IdxPair) : Bool :=
  rankBefore isMax a.value b.value || (!rankBefore isMax b.value a.value && decide (a.index < b.index))

/-- A pair with a NaN value made canonical (R104). -/
def canonPair (p : IdxPair) : IdxPair := if f32IsNaN p.value then ⟨f32NaN, p.index⟩ else p

/-- The winner of two pairs (R104); `stored` stays when neither beats. -/
def winner (isMax : Bool) (stored new : IdxPair) : IdxPair :=
  canonPair (if beats isMax new stored then new else stored)

/-- What a clear sets a pair to (R105). -/
def clearedPair (isMax : Bool) : IdxPair := ⟨if isMax then f32NegInf else f32Inf, 0xFFFFFFFF#32⟩

/-! ## Exact accumulators -/

/-- 640-bit two's-complement wrap of an exact integer. -/
def wrap640 (v : Int) : Int := signed 640 (unsigned 640 v)

/-- ADD_F32 of one FP32 value (R98). -/
def ExactAcc.addF32 (a : ExactAcc) (x : W32) : ExactAcc :=
  match f32Val x with
  | .nan => { a with nan := true }
  | .inf false => { a with pinf := true }
  | .inf true => { a with ninf := true }
  | .fin _ _ _ => { a with acc := wrap640 (a.acc + f32ToFixed x) }

/-- ADD_F32 with a raw image as its operand (R101). -/
def ExactAcc.addRaw (a : ExactAcc) (img : List Byte) : ExactAcc :=
  let f := leAt img 80 1
  ⟨wrap640 (a.acc + signed 640 (leAt img 0 80)), a.pinf || bit f 0, a.ninf || bit f 1, a.nan || bit f 2⟩

/-- The 128-byte raw image (R101). -/
def ExactAcc.raw (a : ExactAcc) : List Byte :=
  toLe 80 (unsigned 640 a.acc) ++
    [BitVec.ofNat 8 (b2n a.pinf + 2 * b2n a.ninf + 4 * b2n a.nan)] ++ List.replicate 47 0#8

/-- The rounded read (R99). -/
def ExactAcc.rounded (a : ExactAcc) : W32 :=
  if a.nan || (a.pinf && a.ninf) then f32NaN
  else if a.pinf then f32Inf
  else if a.ninf then f32NegInf
  else f32OfInt a.acc (-149)

end Sys2Proof.Machine
end

