-- ==== Sys2Proof/Machine/StCore.lean ====
section
/-!
DEFINITION. The state of one physical core, kernel images and phase tables (chapters 4 and 5).
-/
namespace Sys2Proof.Machine
/-! ## Cores (chapter 4) -/

/-- The states of a physical core (R156). -/
inductive CoreSt where
  | off | stale | idle | running | faulted | retired
  deriving DecidableEq, Repr

/-- Why the sequencer does not issue (R139, R145). -/
inductive Stall where
  | none
  | wait (mask : Nat)
  | bar (id scope : Nat) (arrived : Nat)
  | xfence
  deriving DecidableEq, Repr

/-- An XB transfer between issue and completion (R137, R138, R167, R168). `data` holds the local-scratch
bytes that a write or reduction carries, `got` the bytes that slots of a read have fetched. -/
structure Xfer where
  slice : Nat
  dir : Nat
  space : Nat
  view : Nat
  clr : Bool
  rot : Nat
  rop : Nat
  slot : Nat
  run : Nat
  len : Nat
  ls : Nat
  sm : Nat
  data : List Byte
  executed : Bool
  accessed : Nat
  landed : Nat
  got : List Byte
  deriving DecidableEq, Repr

/-- An issued instruction that has not completed: its queue (1 MXE, 2 VE, 3 SU, 4 XB, 5 CTL), the cc left
of its occupancy and latency (R146), and its transfer for the XB queue. -/
structure InFlight where
  queue : Nat
  left : Nat
  xfer : Option Xfer
  deriving DecidableEq, Repr

/-- One physical core: registers, stores, tiles, flags, fault record and counters (R116 to R119, R156 to
R160). Scalar register r is `sregs` key r, lane l of vector register v is `vregs` key 64 v + l; tile tags
read 3 (NONE) when not listed. `images` are the handles whose code the instruction store holds (R155). -/
structure Core where
  st : CoreSt
  logical : Nat
  sregs : Map W64
  vregs : Map W32
  ls : Memory
  acc : Memory
  tags : Map Nat
  blocks : Map Nat
  sat : Bool
  nanLost : Bool
  accBound : Bool
  intWrap : Bool
  faultCause : Nat
  faultTile : Nat
  faultUnit : Nat
  faultOfs : Nat
  pc : Nat
  ended : Bool
  stall : Stall
  flight : List InFlight
  handle : Nat
  cycles : Nat
  issued : Nat
  stallQ : Nat
  stallH : Nat
  images : List Nat
  deriving DecidableEq, Repr

/-- A core as power-on leaves it (R158 to R160; log entry 5 for the stores without a reset value). -/
def Core.init : Core :=
  { st := .off, logical := 0xFFFF, sregs := [], vregs := [], ls := [], acc := [], tags := [], blocks := [],
    sat := false, nanLost := false, accBound := false, intWrap := false, faultCause := 0, faultTile := 0,
    faultUnit := 0, faultOfs := 0, pc := 0, ended := false, stall := .none, flight := [], handle := 0,
    cycles := 0, issued := 0, stallQ := 0, stallH := 0, images := [] }

/-- A phase table (R161): its period and its entries as stored words (R162). -/
structure PhaseTable where
  period : Nat
  entries : List W64
  deriving DecidableEq, Repr

/-- A resident kernel image after its load (R152 to R155): the sections the device keeps. -/
structure KImage where
  handle : Nat
  ctx : Nat
  size : Nat
  codeOfs : Nat
  code : List W64
  entry : Nat
  consts : List Byte
  constLs : Nat
  argSize : Nat
  tileMap : List W32
  table : Option PhaseTable
  deriving DecidableEq, Repr
end Sys2Proof.Machine
end

