-- ==== Sys2Proof/Machine/Operands.lean ====
section
/-!
DEFINITION. Operand access of a core: scalar and vector registers (R117, R118), local scratch, accumulator
tiles (R89 to R93), packed elements in local scratch, and the shape of one instruction's check and effect.
-/
namespace Sys2Proof.Machine

/-! ## Registers -/

/-- Scalar register r; s0 reads as zero (R117). -/
def Core.sreg (c : Core) (r : Nat) : W64 := if r = 0 then 0#64 else Map.get 0#64 c.sregs r

/-- Scalar register r written; a write to s0 has no effect (R117). -/
def Core.setSreg (c : Core) (r : Nat) (v : W64) : Core :=
  if r = 0 then c else { c with sregs := Map.set 0#64 c.sregs r v }

/-- Lane l of vector register v. -/
def Core.lane (c : Core) (v l : Nat) : W32 := Map.get 0#32 c.vregs (64 * v + l)

/-- The 64 elements of vector register v. -/
def Core.vec (c : Core) (v : Nat) : List W32 := (List.range 64).map (c.lane v)

/-- The vector register map with elements written from lane l on. -/
def setLanes (m : Map W32) (v l : Nat) : List W32 → Map W32
  | [] => m
  | x :: xs => setLanes (Map.set 0#32 m (64 * v + l) x) v (l + 1) xs

/-- Vector register v written; elements beyond the list become zero. -/
def Core.setVec (c : Core) (v : Nat) (xs : List W32) : Core :=
  { c with vregs := setLanes c.vregs v 0 (xs.take 64 ++ List.replicate (64 - xs.length) 0#32) }

/-- The 256 bytes of a vector register. -/
def vecBytes (xs : List W32) : List Byte := (xs.map fun x => toLe 4 x.toNat).flatten

/-- A vector register's elements from bytes. -/
def bytesVec (bs : List Byte) : List W32 :=
  (List.range 64).map fun i => BitVec.ofNat 32 (leAt bs (4 * i) 4)

/-- An even register from s2 to s30 (R118). -/
def pairOk (r : Nat) : Bool := r % 2 == 0 && decide (2 ≤ r)

/-- One of s4, s8, ... s28 (R118). -/
def quadOk (r : Nat) : Bool := r % 4 == 0 && decide (4 ≤ r)

/-- Bits [hi:lo] of a scalar register. -/
def Core.sbits (c : Core) (r hi lo : Nat) : Nat := bits (c.sreg r).toNat hi lo

/-! ## Local scratch -/

/-- Bytes of local scratch (R116). -/
def lsBytes : Nat := 0x100000

/-- The raw code of `nb` bits at bit position `pos` counted from byte `a` of local scratch (R48, R49). -/
def rawAt (m : Memory) (a pos nb : Nat) : Nat :=
  ((Memory.readLe m (a + pos / 8) (ceilDiv (pos % 8 + nb) 8)) >>> (pos % 8)) % 2 ^ nb

/-- `n` FP32 or INT32 words from address `a`. -/
def wordsAt (m : Memory) (a n : Nat) : List W32 :=
  (List.range n).map fun i => BitVec.ofNat 32 (Memory.readLe m (a + 4 * i) 4)

/-! ## Tiles -/

/-- One entry of a tile map (R153). -/
structure Tile where
  rows : Nat
  cols : Nat
  idx : Bool
  base : Nat
  deriving DecidableEq, Repr

/-- 32, 64 or 128; 0 for the invalid code (R153). -/
def tileDim (code : Nat) : Nat := match code with | 0 => 32 | 1 => 64 | 2 => 128 | _ => 0

/-- The tile that an entry of the map declares, none when VALID is 0 (R153). -/
def tileOfEntry (e : W32) : Option Tile :=
  let v := e.toNat
  if bit v 5 then some ⟨tileDim (bits v 1 0), tileDim (bits v 3 2), bit v 4, bits v 31 16 * 256⟩ else none

/-- Tile t of an image's map. -/
def KImage.tile (k : KImage) (t : Nat) : Option Tile := tileOfEntry (k.tileMap.getD t 0#32)

/-- Element size of a tile (R89). -/
def Tile.esize (t : Tile) : Nat := if t.idx then 8 else 4

/-- Extent in bytes (R89). -/
def Tile.extent (t : Tile) : Nat := t.rows * t.cols * t.esize

/-- Byte of the accumulator store at which element (r, c) starts (R91). -/
def Tile.addr (t : Tile) (r c : Nat) : Nat := t.base + (r * t.cols + c) * t.esize

/-- The 4-byte value of element (r, c). -/
def Core.tileVal (c : Core) (t : Tile) (r k : Nat) : W32 := BitVec.ofNat 32 (Memory.readLe c.acc (t.addr r k) 4)

/-- The (value, index) pair of element (r, c) (R91). -/
def Core.tilePair (c : Core) (t : Tile) (r k : Nat) : IdxPair :=
  ⟨c.tileVal t r k, BitVec.ofNat 32 (Memory.readLe c.acc (t.addr r k + 4) 4)⟩

/-- The accumulator store with the value of element (r, c) written. -/
def setTileVal (m : Memory) (t : Tile) (r k : Nat) (v : W32) : Memory := Memory.writeLe m (t.addr r k) 4 v.toNat

/-- The accumulator store with the pair of element (r, c) written. -/
def setTilePair (m : Memory) (t : Tile) (r k : Nat) (p : IdxPair) : Memory :=
  Memory.writeLe (setTileVal m t r k p.value) (t.addr r k + 4) 4 p.index.toNat

/-- The tag of tile t: 0 FP32, 1 INT32, 2 FP32_IDX, 3 NONE (R93, R119, R160). -/
def Core.tag (c : Core) (t : Nat) : Nat := Map.get 3 c.tags t

/-- The tag set. -/
def Core.setTag (c : Core) (t v : Nat) : Core := { c with tags := Map.set 3 c.tags t v }

/-- The block count of tile t (R85). -/
def Core.blockCount (c : Core) (t : Nat) : Nat := Map.get 0 c.blocks t

/-- A new chain: the block count restarts (R85). -/
def Core.newChain (c : Core) (t : Nat) : Core := { c with blocks := Map.set 0 c.blocks t 0 }

/-! ## One instruction: checks, ranges, effect -/

/-- A cause of R148 with its condition. -/
structure FaultCheck where
  bad : Bool
  cause : Nat
  deriving DecidableEq, Repr

/-- What the sequencer knows of one instruction before it issues: the queue, the fault checks (R144), the
local-scratch ranges it reads or writes (R143, R149), its occupancy and latency in cc (R146), the tile it
names, and its effect; the effect's first argument is the free-value counter. -/
structure IsaOp where
  queue : Nat
  checks : List FaultCheck
  ranges : List (Nat × Nat)
  cc : Nat
  tile : Nat
  effect : Nat → Core → Core

/-- LS_BOUNDS over the ranges (R149). -/
def rangesBad (rs : List (Nat × Nat)) : Bool := rs.any fun r => decide (0 < r.2) && decide (r.1 + r.2 > lsBytes)

/-- The fault an instruction raises: of the causes whose condition holds, the lowest code (log entry 11). -/
def IsaOp.fault (o : IsaOp) : Option Nat :=
  let cs := (o.checks ++ [FaultCheck.mk (rangesBad o.ranges) 0x0D]).filterMap fun (k : FaultCheck) => if k.bad then some k.cause else none
  cs.foldl (fun m k => match m with | none => some k | some x => some (Nat.min x k)) none

/-- TILE_UNMAPPED for a tile absent from the map (R132). -/
def unmapped (k : KImage) (t : Nat) : FaultCheck := ⟨(k.tile t).isNone, 0x0B⟩

/-- Tile t of the map, an empty tile when it is absent (the check `unmapped` has refused that). -/
def KImage.tileD (k : KImage) (t : Nat) : Tile := (k.tile t).getD ⟨0, 0, false, 0⟩

/-- FP32_IDX named on a tile that the map does not declare index-capable (R92, R132). -/
def idxCheck (k : KImage) (t tfmt : Nat) : FaultCheck := ⟨tfmt == 2 && !(k.tileD t).idx, 0x0B⟩

end Sys2Proof.Machine
end

