-- ==== Sys2Proof/Machine/Flags.lean ====
section
/-!
DEFINITION. The four sticky flags of a core: SAT and NAN_LOST (R72), ACC_BOUND_EXCEEDED (R86) and
INT_WRAP (R88), and the words in which registers and completion records carry them.
-/
namespace Sys2Proof.Machine

/-- The conversion flags of one instruction ORed into the core's (R72). -/
def Core.orConv (c : Core) (f : CFlags) : Core :=
  { c with sat := c.sat || f.sat, nanLost := c.nanLost || f.nanLost }

/-- `n` block sums added to tile t's chain: the count saturates at 2^20 - 1 (R85), and passing 2^19 sets
ACC_BOUND_EXCEEDED (R86). -/
def Core.addBlocks (c : Core) (t n : Nat) : Core :=
  let b := satAdd 20 (c.blockCount t) n
  { c with blocks := Map.set 0 c.blocks t b, accBound := c.accBound || decide (b > 2 ^ 19) }

/-- INT_WRAP set when the running sum left the INT32 range (R88). -/
def Core.orWrap (c : Core) (w : Bool) : Core := { c with intWrap := c.intWrap || w }

/-- COR_FLAGS (R158). -/
def Core.flagWord (c : Core) : Nat :=
  b2n c.sat + 2 * b2n c.nanLost + 4 * b2n c.accBound + 8 * b2n c.intWrap

/-- The flags cleared, as at the beginning of a command (R72, R87). -/
def Core.clearFlags (c : Core) : Core := { c with sat := false, nanLost := false, accBound := false, intWrap := false }

/-- The flags of two list results together. -/
def flagsOf (fs : List CFlags) : CFlags := fs.foldl CFlags.or {}

end Sys2Proof.Machine
end

