-- ==== Sys2Proof/Machine/Transc.lean ====
section
/-!
DEFINITION. The transcendental functions, bit for bit (R106 to R108), the activation codes (R111),
the sample codes (R112) and the Gumbel noise (R221). The tables are the FP32 values nearest to the
real numbers that R107 names (log entry 9).
-/
namespace Sys2Proof.Machine

/-- Entries 0 to 15 of EXT[i], the FP32 value nearest to 2^(i/256). -/
def tabEXTPart0 : List W32 := [0x3F800000, 0x3F8058D8, 0x3F80B1ED, 0x3F810B41, 0x3F8164D2, 0x3F81BEA1, 0x3F8218AF, 0x3F8272FC, 0x3F82CD87, 0x3F832850, 0x3F838359, 0x3F83DEA1, 0x3F843A29, 0x3F8495F0, 0x3F84F1F6, 0x3F854E3D]
/-- Entries 16 to 31 of EXT[i], the FP32 value nearest to 2^(i/256). -/
def tabEXTPart1 : List W32 := [0x3F85AAC3, 0x3F86078A, 0x3F866491, 0x3F86C1D9, 0x3F871F62, 0x3F877D2B, 0x3F87DB35, 0x3F883981, 0x3F88980F, 0x3F88F6DD, 0x3F8955EE, 0x3F89B541, 0x3F8A14D5, 0x3F8A74AD, 0x3F8AD4C6, 0x3F8B3523]
/-- Entries 32 to 47 of EXT[i], the FP32 value nearest to 2^(i/256). -/
def tabEXTPart2 : List W32 := [0x3F8B95C2, 0x3F8BF6A4, 0x3F8C57CA, 0x3F8CB933, 0x3F8D1ADF, 0x3F8D7CD0, 0x3F8DDF04, 0x3F8E417D, 0x3F8EA43A, 0x3F8F073B, 0x3F8F6A81, 0x3F8FCE0C, 0x3F9031DC, 0x3F9095F2, 0x3F90FA4D, 0x3F915EED]
/-- Entries 48 to 63 of EXT[i], the FP32 value nearest to 2^(i/256). -/
def tabEXTPart3 : List W32 := [0x3F91C3D3, 0x3F922900, 0x3F928E72, 0x3F92F42C, 0x3F935A2B, 0x3F93C072, 0x3F9426FF, 0x3F948DD4, 0x3F94F4F0, 0x3F955C53, 0x3F95C3FF, 0x3F962BF2, 0x3F96942D, 0x3F96FCB1, 0x3F97657D, 0x3F97CE92]
/-- Entries 64 to 79 of EXT[i], the FP32 value nearest to 2^(i/256). -/
def tabEXTPart4 : List W32 := [0x3F9837F0, 0x3F98A197, 0x3F990B88, 0x3F9975C2, 0x3F99E046, 0x3F9A4B13, 0x3F9AB62B, 0x3F9B218D, 0x3F9B8D3A, 0x3F9BF931, 0x3F9C6573, 0x3F9CD201, 0x3F9D3EDA, 0x3F9DABFE, 0x3F9E196E, 0x3F9E872A]
/-- Entries 80 to 95 of EXT[i], the FP32 value nearest to 2^(i/256). -/
def tabEXTPart5 : List W32 := [0x3F9EF532, 0x3F9F6387, 0x3F9FD228, 0x3FA04116, 0x3FA0B051, 0x3FA11FD9, 0x3FA18FAF, 0x3FA1FFD2, 0x3FA27043, 0x3FA2E102, 0x3FA3520F, 0x3FA3C36B, 0x3FA43516, 0x3FA4A70F, 0x3FA51958, 0x3FA58BEF]
/-- Entries 96 to 111 of EXT[i], the FP32 value nearest to 2^(i/256). -/
def tabEXTPart6 : List W32 := [0x3FA5FED7, 0x3FA6720E, 0x3FA6E595, 0x3FA7596C, 0x3FA7CD94, 0x3FA8420C, 0x3FA8B6D5, 0x3FA92BEF, 0x3FA9A15B, 0x3FAA1718, 0x3FAA8D26, 0x3FAB0387, 0x3FAB7A3A, 0x3FABF13F, 0x3FAC6897, 0x3FACE041]
/-- Entries 112 to 127 of EXT[i], the FP32 value nearest to 2^(i/256). -/
def tabEXTPart7 : List W32 := [0x3FAD583F, 0x3FADD090, 0x3FAE4934, 0x3FAEC22D, 0x3FAF3B79, 0x3FAFB519, 0x3FB02F0E, 0x3FB0A957, 0x3FB123F6, 0x3FB19EE9, 0x3FB21A32, 0x3FB295D0, 0x3FB311C4, 0x3FB38E0E, 0x3FB40AAF, 0x3FB487A6]
/-- Entries 128 to 143 of EXT[i], the FP32 value nearest to 2^(i/256). -/
def tabEXTPart8 : List W32 := [0x3FB504F3, 0x3FB58298, 0x3FB60094, 0x3FB67EE7, 0x3FB6FD92, 0x3FB77C95, 0x3FB7FBF0, 0x3FB87BA3, 0x3FB8FBAF, 0x3FB97C14, 0x3FB9FCD2, 0x3FBA7DEA, 0x3FBAFF5B, 0x3FBB8126, 0x3FBC034A, 0x3FBC85CA]
/-- Entries 144 to 159 of EXT[i], the FP32 value nearest to 2^(i/256). -/
def tabEXTPart9 : List W32 := [0x3FBD08A4, 0x3FBD8BD8, 0x3FBE0F68, 0x3FBE9353, 0x3FBF179A, 0x3FBF9C3C, 0x3FC0213B, 0x3FC0A695, 0x3FC12C4D, 0x3FC1B261, 0x3FC238D2, 0x3FC2BFA1, 0x3FC346CD, 0x3FC3CE57, 0x3FC4563F, 0x3FC4DE85]
/-- Entries 160 to 175 of EXT[i], the FP32 value nearest to 2^(i/256). -/
def tabEXTPart10 : List W32 := [0x3FC5672A, 0x3FC5F02E, 0x3FC67991, 0x3FC70353, 0x3FC78D75, 0x3FC817F7, 0x3FC8A2D8, 0x3FC92E1B, 0x3FC9B9BE, 0x3FCA45C1, 0x3FCAD226, 0x3FCB5EED, 0x3FCBEC15, 0x3FCC799F, 0x3FCD078C, 0x3FCD95DA]
/-- Entries 176 to 191 of EXT[i], the FP32 value nearest to 2^(i/256). -/
def tabEXTPart11 : List W32 := [0x3FCE248C, 0x3FCEB3A1, 0x3FCF4319, 0x3FCFD2F4, 0x3FD06334, 0x3FD0F3D7, 0x3FD184DF, 0x3FD2164C, 0x3FD2A81E, 0x3FD33A54, 0x3FD3CCF1, 0x3FD45FF3, 0x3FD4F35B, 0x3FD58729, 0x3FD61B5E, 0x3FD6AFFA]
/-- Entries 192 to 207 of EXT[i], the FP32 value nearest to 2^(i/256). -/
def tabEXTPart12 : List W32 := [0x3FD744FD, 0x3FD7DA67, 0x3FD87039, 0x3FD90673, 0x3FD99D16, 0x3FDA3421, 0x3FDACB94, 0x3FDB6371, 0x3FDBFBB8, 0x3FDC9468, 0x3FDD2D82, 0x3FDDC706, 0x3FDE60F5, 0x3FDEFB4E, 0x3FDF9613, 0x3FE03143]
/-- Entries 208 to 223 of EXT[i], the FP32 value nearest to 2^(i/256). -/
def tabEXTPart13 : List W32 := [0x3FE0CCDF, 0x3FE168E7, 0x3FE2055B, 0x3FE2A23C, 0x3FE33F89, 0x3FE3DD44, 0x3FE47B6D, 0x3FE51A03, 0x3FE5B907, 0x3FE65879, 0x3FE6F85B, 0x3FE798AB, 0x3FE8396A, 0x3FE8DA99, 0x3FE97C38, 0x3FEA1E47]
/-- Entries 224 to 239 of EXT[i], the FP32 value nearest to 2^(i/256). -/
def tabEXTPart14 : List W32 := [0x3FEAC0C7, 0x3FEB63B7, 0x3FEC0719, 0x3FECAAEC, 0x3FED4F30, 0x3FEDF3E7, 0x3FEE9910, 0x3FEF3EAB, 0x3FEFE4BA, 0x3FF08B3B, 0x3FF13231, 0x3FF1D99A, 0x3FF28177, 0x3FF329C9, 0x3FF3D290, 0x3FF47BCC]
/-- Entries 240 to 255 of EXT[i], the FP32 value nearest to 2^(i/256). -/
def tabEXTPart15 : List W32 := [0x3FF5257D, 0x3FF5CFA4, 0x3FF67A41, 0x3FF72555, 0x3FF7D0DF, 0x3FF87CE1, 0x3FF9295A, 0x3FF9D64A, 0x3FFA83B3, 0x3FFB3194, 0x3FFBDFED, 0x3FFC8EC0, 0x3FFD3E0C, 0x3FFDEDD2, 0x3FFE9E11, 0x3FFF4ECB]
/-- EXT[i], the FP32 value nearest to 2^(i/256) (R107). -/
def tabEXT : List W32 :=
  tabEXTPart0 ++ tabEXTPart1 ++ tabEXTPart2 ++ tabEXTPart3 ++ tabEXTPart4 ++ tabEXTPart5 ++ tabEXTPart6 ++ tabEXTPart7 ++ tabEXTPart8 ++ tabEXTPart9 ++ tabEXTPart10 ++ tabEXTPart11 ++ tabEXTPart12 ++ tabEXTPart13 ++ tabEXTPart14 ++ tabEXTPart15
/-- Entries 0 to 15 of LGI[j], the FP32 value nearest to -log2 of the stored INV[j]. -/
def tabLGIPart0 : List W32 := [0x00000000, 0x3C37F28B, 0x3CB73CB3, 0x3D08E68D, 0x3D35D690, 0x3D626FCC, 0x3D8759C9, 0x3D9D5182, 0x3DB31FB7, 0x3DC8C50D, 0x3DDE420E, 0x3DF3975C, 0x3E0462C4, 0x3E0EE690, 0x3E195751, 0x3E23B551]
/-- Entries 16 to 31 of LGI[j], the FP32 value nearest to -log2 of the stored INV[j]. -/
def tabLGIPart1 : List W32 := [0x3E2E00D1, 0x3E383A17, 0x3E42615F, 0x3E4C76EA, 0x3E567AEF, 0x3E606DB6, 0x3E6A4F70, 0x3E74205F, 0x3E7DE0B5, 0x3E83C856, 0x3E88983F, 0x3E8D602E, 0x3E92203D, 0x3E96D887, 0x3E9B8925, 0x3EA03234]
/-- Entries 32 to 47 of LGI[j], the FP32 value nearest to -log2 of the stored INV[j]. -/
def tabLGIPart2 : List W32 := [0x3EA4D3C2, 0x3EA96DEF, 0x3EAE00D1, 0x3EB28C80, 0x3EB71110, 0x3EBB8E97, 0x3EC0052D, 0x3EC474E2, 0x3EC8DDD3, 0x3ECD4011, 0x3ED19BAF, 0x3ED5F0C3, 0x3EDA3F60, 0x3EDE8798, 0x3EE2C97E, 0x3EE70525]
/-- Entries 48 to 63 of LGI[j], the FP32 value nearest to -log2 of the stored INV[j]. -/
def tabLGIPart3 : List W32 := [0x3EEB3A9E, 0x3EEF69FF, 0x3EF39355, 0x3EF7B6B5, 0x3EFBD42A, 0x3EFFEBCB, 0x3F01FED4, 0x3F0404E8, 0x3F060828, 0x3F08089D, 0x3F0A0650, 0x3F0C0146, 0x3F0DF98A, 0x3F0FEF1F, 0x3F11E20E, 0x3F13D260]
/-- Entries 64 to 79 of LGI[j], the FP32 value nearest to -log2 of the stored INV[j]. -/
def tabLGIPart4 : List W32 := [0x3F15C01A, 0x3F17AB44, 0x3F1993E4, 0x3F1B79FF, 0x3F1D5DA0, 0x3F1F3ECA, 0x3F211D84, 0x3F22F9D5, 0x3F24D3C3, 0x3F26AB53, 0x3F28808D, 0x3F2A5375, 0x3F2C2410, 0x3F2DF268, 0x3F2FBE7F, 0x3F31885D]
/-- Entries 80 to 95 of LGI[j], the FP32 value nearest to -log2 of the stored INV[j]. -/
def tabLGIPart5 : List W32 := [0x3F335004, 0x3F35157E, 0x3F36D8CA, 0x3F3899F4, 0x3F3A58FE, 0x3F3C15EE, 0x3F3DD0C9, 0x3F3F8991, 0x3F41404E, 0x3F42F506, 0x3F44A7BB, 0x3F465873, 0x3F480731, 0x3F49B3FA, 0x3F4B5ED6, 0x3F4D07C5]
/-- Entries 96 to 111 of LGI[j], the FP32 value nearest to -log2 of the stored INV[j]. -/
def tabLGIPart6 : List W32 := [0x3F4EAECF, 0x3F5053F6, 0x3F51F740, 0x3F5398AF, 0x3F553847, 0x3F56D60F, 0x3F58720A, 0x3F5A0C3A, 0x3F5BA4A5, 0x3F5D3B4E, 0x3F5ED038, 0x3F60636B, 0x3F61F4E5, 0x3F6384AF, 0x3F6512C6, 0x3F669F36]
/-- Entries 112 to 127 of LGI[j], the FP32 value nearest to -log2 of the stored INV[j]. -/
def tabLGIPart7 : List W32 := [0x3F6829FA, 0x3F69B31C, 0x3F6B3AA0, 0x3F6CC084, 0x3F6E44CF, 0x3F6FC782, 0x3F7148A2, 0x3F72C831, 0x3F744636, 0x3F75C2B1, 0x3F773DA2, 0x3F78B713, 0x3F7A2F03, 0x3F7BA577, 0x3F7D1A71, 0x3F7E8DF1]
/-- Entries 128 to 128 of LGI[j], the FP32 value nearest to -log2 of the stored INV[j]. -/
def tabLGIPart8 : List W32 := [0x3F800000]
/-- LGI[j], the FP32 value nearest to -log2 of the stored INV[j] (R107). -/
def tabLGI : List W32 :=
  tabLGIPart0 ++ tabLGIPart1 ++ tabLGIPart2 ++ tabLGIPart3 ++ tabLGIPart4 ++ tabLGIPart5 ++ tabLGIPart6 ++ tabLGIPart7 ++ tabLGIPart8
/-- E1 of R107. -/
def cE1 : W32 := 0x3F317218#32
/-- E2 of R107. -/
def cE2 : W32 := 0x3E75FDF0#32
/-- E3 of R107. -/
def cE3 : W32 := 0x3D635847#32
/-- D1 of R107. -/
def cD1 : W32 := 0x3FB8AA3B#32
/-- D2 of R107. -/
def cD2 : W32 := 0xBF38AA3B#32
/-- D3 of R107. -/
def cD3 : W32 := 0x3EF6384F#32
/-- D4 of R107. -/
def cD4 : W32 := 0xBEB8AA3B#32
/-- LOG2E of R107. -/
def cLOG2E : W32 := 0x3FB8AA3B#32
/-- LOG2E2 of R107. -/
def cLOG2E2 : W32 := 0x4038AA3B#32
/-- H3 of R107. -/
def cH3 : W32 := 0xBEAAAAAB#32
/-- H5 of R107. -/
def cH5 : W32 := 0x3E088889#32
/-- H7 of R107. -/
def cH7 : W32 := 0xBD5D0DD1#32
/-- G1 of R107. -/
def cG1 : W32 := 0x3D372713#32
/-- G2 of R107. -/
def cG2 : W32 := 0x3F4C422A#32

/-- INV[j]: the FP32 value nearest to 1 / (1 + j/128), which one correctly rounded division gives. -/
def tabINV (j : Nat) : W32 := f32Div f32One (f32OfNat (128 + j) (-7))

/-- RCP[k]: the FP32 value nearest to 1 / (1 + (2k + 1)/256). -/
def tabRCP (k : Nat) : W32 := f32Div f32One (f32OfNat (257 + 2 * k) (-8))

/-- exp2_k of R108. -/
def exp2K (x : W32) : W32 :=
  if f32IsNaN x then f32NaN
  else if f32Le (f32OfNat 128 0) x then f32Inf
  else if f32Le x (f32OfInt (-160) 0) then 0#32
  else
    let t := f32Mul x (f32OfNat 256 0)
    let n := floorVal (f32Val t)
    let r := f32Mul (f32Sub t (f32OfInt n 0)) (f32OfNat 1 (-8))
    let i := (n % 256).toNat
    let m := n / 256
    let q := f32Fma r cE3 cE2
    let q := f32Fma r q cE1
    let q := f32Mul q r
    let ei := tabEXT.getD i f32One
    f32Scale (f32Fma ei q ei) m

/-- exponent and significand of a finite positive value (R108). -/
def splitPos (x : W32) : Int × W32 :=
  match f32Val x with
  | .fin _ m e => let k := Nat.log2 m; ((k : Int) + e, f32OfNat m (-(k : Int)))
  | _ => (0, f32One)

/-- log2_k of R108. -/
def log2K (x : W32) : W32 :=
  if f32IsNaN x || f32Lt x 0#32 then f32NaN
  else if f32Eq x 0#32 then f32NegInf
  else if x = f32Inf then f32Inf
  else
    let (e, mt) := splitPos x
    let j := (bits mt.toNat 22 0 + 0x8000) >>> 16
    let z := f32Fma mt (tabINV j) (f32Neg f32One)
    let q := f32Fma z cD4 cD3
    let q := f32Fma z q cD2
    let q := f32Fma z q cD1
    let p := f32Mul q z
    let h := f32Add (f32OfInt e 0) (tabLGI.getD j 0#32)
    f32Add h p

/-- recip_k of R108, for 1 ≤ d ≤ 2. -/
def recipK (d : W32) : W32 :=
  if d = f32One then f32One
  else if d = 0x40000000#32 then 0x3F000000#32
  else
    let y := tabRCP (bits d.toNat 22 0 >>> 16)
    let c := f32Fma (f32Neg d) y f32One
    let y := f32Fma y c y
    let c := f32Fma (f32Neg d) y f32One
    f32Fma y c y

/-- sigmoid_k of R108. -/
def sigmoidK (x : W32) : W32 :=
  if f32IsNaN x then f32NaN else
  let a := f32Abs x
  let e := exp2K (f32Neg (f32Mul a cLOG2E))
  let s := recipK (f32Add f32One e)
  if f32Lt x 0#32 then f32Mul e s else s

/-- tanh_k of R108. -/
def tanhK (x : W32) : W32 :=
  if f32IsNaN x then f32NaN else
  let a := f32Abs x
  let r :=
    if f32Lt a 0x3E000000#32 then
      let a2 := f32Mul a a
      let q := f32Fma a2 cH7 cH5
      let q := f32Fma a2 q cH3
      let q := f32Mul q a2
      f32Fma a q a
    else
      let e := exp2K (f32Neg (f32Mul a cLOG2E2))
      f32Mul (f32Sub f32One e) (recipK (f32Add f32One e))
  f32CopySign r x

/-- exp_k of R108. -/
def expK (x : W32) : W32 := exp2K (f32Mul x cLOG2E)

/-- ln_k of R108. -/
def lnK (x : W32) : W32 := f32Mul (log2K x) cE1

/-- The activation codes of R111; none for the reserved codes 0x8 to 0xF. -/
def activation (code : Nat) (y : W32) : Option W32 :=
  match code with
  | 0 => some y
  | 1 => some (if f32IsNaN y then f32NaN else if f32Lt 0#32 y then y else 0#32)
  | 2 => some (sigmoidK y)
  | 3 => some (tanhK y)
  | 4 => some (f32Mul y (sigmoidK y))
  | 5 =>
    let a := f32Mul y y
    let b := f32Fma a cG1 f32One
    let c := f32Mul b y
    let d := f32Mul c cG2
    let h := f32Mul y 0x3F000000#32
    some (f32Fma (tanhK d) h h)
  | 6 => some (expK y)
  | 7 => some (exp2K y)
  | _ => none

/-- The Gumbel noise of a uniform (R221). -/
def sporeGumbel (u : Nat) : W32 :=
  let uf := if u < 0x800000 then f32OfNat (2 * u + 1) (-25) else f32OfNat u (-24)
  let w := f32Mul (f32Neg (log2K uf)) cE1
  f32Neg (lnK w)

/-- BERNOULLI_FIELD of R112: the bit, and whether the probability was NaN (R114). -/
def bernField (y invT : W32) (u : Nat) : Bool × Bool :=
  let p := sigmoidK (f32Mul y invT)
  if f32IsNaN p then (false, true) else (decide (u < f32Thresh p), false)

/-- BERNOULLI_PROB of R112: p clamped to [0, 1]; the bit, and whether it was NaN (R114). -/
def bernProb (p : W32) (u : Nat) : Bool × Bool :=
  if f32IsNaN p then (false, true) else
  let c := if f32Lt p 0#32 then 0#32 else if f32Lt f32One p then f32One else p
  (decide (u < f32Thresh c), false)

/-- GUMBEL_ADD of R112. -/
def gumbelAdd (y invT : W32) (u : Nat) : W32 := f32Add (f32Mul y invT) (sporeGumbel u)

end Sys2Proof.Machine
end

