-- ==== Sys2Proof/Machine/OpsMx.lean ====
section
/-!
DEFINITION. The MX class: MMA, ZERO, TLD and OUT (R125 to R132) as checks, ranges and effect.
-/
namespace Sys2Proof.Machine

/-! ## MMA -/

/-- The MAC rate of an operand format (R74). -/
def macRate (code : Nat) : Nat :=
  if code == 0x07 || code == 0x0A || code == 0x0D then 4096
  else if code == 0x01 || code == 0x02 then 1024 else 2048

/-- The three fields of an MMA operand register (R127). -/
structure MmaOperand where
  data : Nat
  scale : Nat
  stride : Nat
  deriving DecidableEq, Repr

/-- The operand register's fields; bits [63:60] are ignored (R127). -/
def Core.mmaOperand (c : Core) (r : Nat) : MmaOperand := ⟨c.sbits r 19 0, c.sbits r 39 20, c.sbits r 59 40⟩

/-- Local-scratch ranges of an operand of `rows` rows and K positions: its rows, and for an MX format the
scale array, one byte per block, row after row (R52; log entry 13). -/
def mmaRanges (o : MmaOperand) (code rows k : Nat) : List (Nat × Nat) :=
  (o.data, (rows - 1) * o.stride + packedBytes code k) ::
    (if isMx code then [(o.scale, rows * ceilDiv k 32)] else [])

/-- Row r of an operand as exact element values (R53). -/
def mmaRow (ls : Memory) (o : MmaOperand) (code k r : Nat) : List FVal :=
  let nb := formatBits code
  (List.range k).map fun i =>
    let sc := if isMx code then (Memory.read ls (o.scale + r * ceilDiv k 32 + i / 32)).toNat else 0
    elemVal code (rawAt ls (o.data + r * o.stride) (nb * i) nb) sc

/-- Row r of an INT8 or INT4 operand as integers (R59). -/
def mmaRowInt (ls : Memory) (o : MmaOperand) (code k r : Nat) : List Int :=
  let nb := formatBits code
  (List.range k).map fun i => signed nb (rawAt ls (o.data + r * o.stride) (nb * i) nb)

/-- One element of an FP32 tile after the instruction (R77 to R81). -/
def mmaElem (init : W32) (a b : List FVal) : W32 := canonicalSum init (List.zipWith mulExact a b)

/-- One element of an INT32 tile after the instruction, and whether it left the range (R88). -/
def mmaElemInt (init : W32) (a b : List Int) : W32 × Bool := intSum init (List.zipWith (· * ·) a b)

/-- The accumulator store after an MMA with floating-point operands. -/
def mmaFloat (acc : Memory) (t : Tile) (prior : Nat → Nat → W32) (as bs : List (List FVal)) : Memory :=
  (as.zipIdx.foldl (fun m ar => bs.zipIdx.foldl (fun m bc =>
    setTileVal m t ar.2 bc.2 (mmaElem (prior ar.2 bc.2) ar.1 bc.1)) m) acc)

/-- The accumulator store after an MMA with integer operands, and INT_WRAP. -/
def mmaInt (acc : Memory) (t : Tile) (prior : Nat → Nat → W32) (as bs : List (List Int)) : Memory × Bool :=
  (as.zipIdx.foldl (fun m ar => bs.zipIdx.foldl (fun m bc =>
    let r := mmaElemInt (prior ar.2 bc.2) ar.1 bc.1
    (setTileVal m.1 t ar.2 bc.2 r.1, m.2 || r.2)) m) (acc, false))

/-- MMA (R126 to R128): TD[r][c] += sum over k of A[r][k] * B[c][k]. -/
def opMma (c : Core) (k : KImage) (f : MmaFields) : IsaOp :=
  let fa := f.fmta.toNat
  let fb := f.fmtb.toNat
  let td := f.td.toNat
  let t := k.tileD td
  let n := c.sbits f.sk.toNat 23 0
  let k0 := c.sbits f.sk.toNat 55 24
  let oa := c.mmaOperand f.sa.toNat
  let ob := c.mmaOperand f.sb.toNat
  let isInt := isIntOperand fa
  let nb := ceilDiv n 32
  { queue := 1
    checks := [⟨f.rsv != 0#20 || n == 0, 0x03⟩, ⟨!isMxeFormat fa || !isMxeFormat fb, 0x04⟩,
      ⟨f.tfmt == 3#2, 0x06⟩,
      ⟨isInt != isIntOperand fb || f.tfmt.toNat != (if isInt then 1 else 0), 0x09⟩,
      ⟨(isMx fa || isMx fb) && k0 % 32 != 0, 0x0A⟩, unmapped k td,
      ⟨f.ovw == 0#1 && c.tag td != f.tfmt.toNat, 0x10⟩]
    ranges := mmaRanges oa fa t.rows n ++ mmaRanges ob fb t.cols n
    cc := ceilDiv (t.rows * t.cols * 32 * nb) (Nat.min (macRate fa) (macRate fb)) + 20
    tile := td
    effect := fun _ c =>
      let prior := fun r k => if f.ovw == 1#1 then 0#32 else c.tileVal t r k
      let c1 := (if f.ovw == 1#1 then c.newChain td else c).setTag td f.tfmt.toNat |>.addBlocks td nb
      if isInt then
        let r := mmaInt c.acc t prior ((List.range t.rows).map (mmaRowInt c.ls oa fa n))
          ((List.range t.cols).map (mmaRowInt c.ls ob fb n))
        { c1.orWrap r.2 with acc := r.1 }
      else
        let rowsA := (List.range t.rows).map (mmaRow c.ls oa fa n)
        let rowsB := (List.range t.cols).map (mmaRow c.ls ob fb n)
        { c1 with acc := mmaFloat c.acc t prior rowsA rowsB } }

/-! ## ZERO and TLD -/

/-- ZERO (R129). -/
def opZero (_c : Core) (k : KImage) (f : ZeroFields) : IsaOp :=
  let td := f.td.toNat
  let t := k.tileD td
  { queue := 1
    checks := [⟨f.rsvHi != 0#10 || f.rsvLo != 0#36, 0x03⟩, ⟨f.tfmt == 3#2, 0x06⟩, unmapped k td,
      idxCheck k td f.tfmt.toNat]
    ranges := []
    cc := ceilDiv (t.rows * t.cols) 512 + 2
    tile := td
    effect := fun _ c => (({ c with acc := Memory.zeroRange c.acc t.base t.extent }).newChain td).setTag td f.tfmt.toNat }

/-- TLD (R129): the tile's extent from local scratch, row by row. -/
def opTld (c : Core) (k : KImage) (f : TldFields) : IsaOp :=
  let td := f.td.toNat
  let t := k.tileD td
  let a := c.sbits f.sa.toNat 19 0
  let stride := c.sbits f.sa.toNat 59 40
  let rowBytes := t.cols * t.esize
  { queue := 1
    checks := [⟨f.rsvHi != 0#10 || f.rsvMid != 0#1 || f.rsvLo != 0#30, 0x03⟩, ⟨f.tfmt == 3#2, 0x06⟩,
      unmapped k td, idxCheck k td f.tfmt.toNat]
    ranges := [(a, (t.rows - 1) * stride + rowBytes)]
    cc := ceilDiv t.extent 512 + 4
    tile := td
    effect := fun _ c =>
      let acc := (List.range t.rows).foldl (fun m r =>
        Memory.writeBytes m (t.base + r * rowBytes) (Memory.readBytes c.ls (a + r * stride) rowBytes)) c.acc
      (({ c with acc := acc }).newChain td).setTag td f.tfmt.toNat }

/-! ## OUT -/

/-- The Spore key and counter fields of a quad (R130, R210). -/
structure Quad where
  key : W128
  third : W64
  fourth : W64
  deriving DecidableEq, Repr

/-- The quad that starts at register q: the key low half first, then step, then object and domain. -/
def Core.quad (c : Core) (q : Nat) : Quad := ⟨c.sreg (q + 1) ++ c.sreg q, c.sreg (q + 2), c.sreg (q + 3)⟩

/-- The uniform of element e in the quad's own domain (stage 4 of R130, R210). -/
def Quad.u (q : Quad) (se : W64) (i : Nat) : Nat := sporeU24 q.key (quadCtr q.third q.fourth se i)

/-- The uniform of element e in the domain of stochastic rounding, same object and step (R130). -/
def Quad.uSr (q : Quad) (e : Nat) : Nat :=
  sporeDraw q.key 0x11 (bits q.fourth.toNat 31 0) (bits q.third.toNat 39 0) e

/-- Does stage 4 yield bits? (R112) -/
def sampBits (f : OutFields) : Bool := f.samp == 1#4 || f.samp == 2#4

/-- Is stage 2, 3 or 4 on? -/
def outStages (f : OutFields) : Bool := f.scl == 1#1 || f.bias == 1#1 || f.act != 0#4 || f.samp != 0#4

/-- The format code in which an element reaches stage 5 (R109). -/
def outIncoming (f : OutFields) : Nat := if f.tfmt == 1#2 && !outStages f then 0x0E else 0x00

/-- Is stage 5 on? A destination equal to the incoming format passes unchanged. -/
def outConvOn (f : OutFields) : Bool := !sampBits f && f.dfmt.toNat != outIncoming f

/-- Does OUT read the Spore quad and the element base? (R118, R130) -/
def outNeedsSpore (f : OutFields) : Bool := f.samp != 0#4 || (outConvOn f && f.rm == 2#2)

/-- Does OUT read the pair SP? -/
def outNeedsPair (f : OutFields) : Bool := f.scl == 1#1 || f.bias == 1#1 || f.samp == 1#4 || f.samp == 3#4

/-- Stage 1 to 3 on the element's word: FP32 bits, or INT32 bits when every stage is off (R109, R111). -/
def outStage3 (f : OutFields) (scale bias : W32) (x : W32) : W32 :=
  if !outStages f then x else
  let y := if f.tfmt == 1#2 then i32ToF32 .rne x else x
  let y := if f.scl == 1#1 then (if f.bias == 1#1 then f32Fma y scale bias else f32Mul y scale)
    else if f.bias == 1#1 then f32Add y bias else y
  (activation f.act.toNat y).getD y

/-- Stage 5 on one element (R71, R109). -/
def outConvert (f : OutFields) (u : Nat) (x : W32) : Nat × CFlags :=
  if !outConvOn f then (x.toNat, {}) else
  let mode := (rmodeOf f.rm.toNat u).getD .rne
  if outIncoming f = 0x0E then i32ToElem f.dfmt.toNat mode x else f32ToElem f.dfmt.toNat mode x

/-- Bytes of one destination row. -/
def outRowBytes (f : OutFields) (t : Tile) : Nat :=
  if sampBits f then t.cols / 8
  else if f.tfmt == 2#2 then t.cols * 8 else packedBytes f.dfmt.toNat t.cols

/-- The operands of one OUT, read from the core once. -/
structure OutArgs where
  dst : Nat
  stride : Nat
  ldE : Nat
  base : W64
  quad : Quad
  pair : W64
  invT : W32
  deriving DecidableEq, Repr

/-- The operand registers of an OUT (R130). -/
def Core.outArgs (c : Core) (f : OutFields) : OutArgs :=
  ⟨c.sbits f.sd.toNat 19 0, c.sbits f.sd.toNat 39 20, c.sbits f.sd.toNat 63 40, c.sreg f.se.toNat,
    c.quad f.sq.toNat, c.sreg f.sp.toNat, BitVec.ofNat 32 (c.sbits (f.sp.toNat + 1) 31 0)⟩

/-- The scale of column k (R130). -/
def outScale (c : Core) (f : OutFields) (a : OutArgs) (k : Nat) : W32 :=
  if f.pcol == 1#1 then BitVec.ofNat 32 (Memory.readLe c.ls (bits a.pair.toNat 19 0 + 4 * k) 4)
  else BitVec.ofNat 32 (bits a.pair.toNat 31 0)

/-- The bias of column k (R130). -/
def outBias (c : Core) (f : OutFields) (a : OutArgs) (k : Nat) : W32 :=
  if f.pcol == 1#1 then BitVec.ofNat 32 (Memory.readLe c.ls (bits a.pair.toNat 39 20 + 4 * k) 4)
  else BitVec.ofNat 32 (bits a.pair.toNat 63 32)

/-- Element (r, k) through stages 1 to 3. -/
def outElem3 (c : Core) (f : OutFields) (a : OutArgs) (t : Tile) (r k : Nat) : W32 :=
  outStage3 f (outScale c f a k) (outBias c f a k) (c.tileVal t r k)

/-- Element (r, k) as a bit of stage 4 (R112, R114): the bit and its conversion flags. -/
def outBit (c : Core) (f : OutFields) (a : OutArgs) (t : Tile) (r k : Nat) : Bool × CFlags :=
  let y := outElem3 c f a t r k
  let u := a.quad.u a.base (r * a.ldE + k)
  let b := if f.samp == 1#4 then bernField y a.invT u else bernProb y u
  (b.1, ⟨false, b.2⟩)

/-- Element (r, k) as the code that stage 5 gives. -/
def outCode (c : Core) (f : OutFields) (a : OutArgs) (t : Tile) (r k : Nat) : Nat × CFlags :=
  let y := outElem3 c f a t r k
  let e := (a.base.toNat % 2 ^ 48 + r * a.ldE + k) % 2 ^ 48
  let y := if f.samp == 3#4 then gumbelAdd y a.invT (a.quad.u a.base (r * a.ldE + k)) else y
  outConvert f (if outNeedsSpore f then a.quad.uSr e else 0) y

/-- One destination row: its bytes and its flags. -/
def outRow (c : Core) (f : OutFields) (a : OutArgs) (t : Tile) (r : Nat) : List Byte × CFlags :=
  if sampBits f then
    let bs := (List.range t.cols).map (outBit c f a t r)
    (packBits (bs.map (·.1)), flagsOf (bs.map (·.2)))
  else if f.tfmt == 2#2 then (Memory.readBytes c.acc (t.addr r 0) (t.cols * 8), {})
  else
    let es := (List.range t.cols).map (outCode c f a t r)
    (packCodes (formatBits f.dfmt.toNat) (es.map (·.1)), flagsOf (es.map (·.2)))

/-- The destination formats of stage 5: any code 0x00 to 0x0E but the block-scaled ones, for which OUT has
no scale address (log entry 14). -/
def outFormatOk (code : Nat) : Bool := decide (code ≤ 0x0E) && !isMx code

/-- OUT (R130 to R132). -/
def opOut (c : Core) (k : KImage) (f : OutFields) : IsaOp :=
  let ts := f.ts.toNat
  let t := k.tileD ts
  let a := c.outArgs f
  let stage25 := outStages f || f.dfmt != 0#5
  { queue := 1
    checks := [⟨f.rsv != 0#8, 0x03⟩, ⟨!outFormatOk f.dfmt.toNat, 0x04⟩, ⟨f.rm == 3#2, 0x05⟩,
      ⟨f.tfmt == 3#2, 0x06⟩, ⟨decide (8 ≤ f.act.toNat), 0x07⟩, ⟨decide (4 ≤ f.samp.toNat), 0x08⟩,
      unmapped k ts, idxCheck k ts f.tfmt.toNat, idxCheck k ts (c.tag ts),
      ⟨(outNeedsPair f && !pairOk f.sp.toNat) || (outNeedsSpore f && !quadOk f.sq.toNat), 0x0C⟩,
      ⟨c.tag ts != f.tfmt.toNat, 0x10⟩, ⟨c.tag ts == 2 && stage25, 0x11⟩,
      ⟨sampBits f && (a.base.toNat % 2 ^ 48 % 32 != 0 || a.ldE % 32 != 0), 0x12⟩]
    ranges := (a.dst, (t.rows - 1) * a.stride + outRowBytes f t) ::
      ((if f.pcol == 1#1 && f.scl == 1#1 then [(bits a.pair.toNat 19 0, 4 * t.cols)] else []) ++
       (if f.pcol == 1#1 && f.bias == 1#1 then [(bits a.pair.toNat 39 20, 4 * t.cols)] else []))
    cc := ceilDiv (t.rows * t.cols) 64 + (if f.act != 0#4 || f.samp != 0#4 then 30 else 16)
    tile := ts
    effect := fun _ c =>
      (List.range t.rows).foldl (fun st r =>
        let row := outRow c f a t r
        { st.orConv row.2 with ls := Memory.writeBytes st.ls (a.dst + r * a.stride) row.1 }) c }

end Sys2Proof.Machine
end

