-- ==== Sys2Proof/Machine/OpsVe.lean ====
section
/-!
DEFINITION. The VE class (R133, R134) as checks, ranges and effect.
-/
namespace Sys2Proof.Machine

/-- Every field of the VE word that `used` does not name must be zero (R123, R133). -/
structure VeUse where
  vd : Bool := false
  va : Bool := false
  vb : Bool := false
  vc : Bool := false
  ss : Bool := false
  fmt : Bool := false
  rm : Bool := false
  fn : Bool := false
  imm : Bool := false
  deriving DecidableEq, Repr

/-- Is a field that the opcode does not use non-zero? -/
def VeUse.reserved (u : VeUse) (f : VeFields) : Bool :=
  (!u.vd && f.vd != 0#5) || (!u.va && f.va != 0#5) || (!u.vb && f.vb != 0#5) || (!u.vc && f.vc != 0#5) ||
  (!u.ss && f.ss != 0#5) || (!u.fmt && f.fmt != 0#5) || (!u.rm && f.rm != 0#2) || (!u.fn && f.fn != 0#4) ||
  (!u.imm && f.imm != 0#16)

/-- A VE instruction that writes VD only, with its checks beyond the reserved fields. -/
def opVec (u : VeUse) (f : VeFields) (checks : List FaultCheck) (cc : Nat) (ranges : List (Nat × Nat))
    (effect : Nat → Core → Core) : IsaOp :=
  { queue := 2, checks := ⟨u.reserved f, 0x03⟩ :: checks, ranges := ranges, cc := cc, tile := 0, effect := effect }

/-- FP32 or INT32 by FMT; any other code raises FORMAT_CODE. -/
def fpOrInt (f : VeFields) : FaultCheck := ⟨f.fmt != 0x00#5 && f.fmt != 0x0E#5, 0x04⟩

/-- VD = VA op VB in FP32 or INT32 (VADD, VSUB, VMUL). -/
def opVeArith (fp int : W32 → W32 → W32) (f : VeFields) : IsaOp :=
  opVec { vd := true, va := true, vb := true, fmt := true } f [fpOrInt f] 5 [] fun _ c =>
    c.setVec f.vd.toNat
      (List.zipWith (if f.fmt == 0x0E#5 then int else fp) (c.vec f.va.toNat) (c.vec f.vb.toNat))

/-- VFMA. -/
def opVfma (f : VeFields) : IsaOp :=
  opVec { vd := true, va := true, vb := true, vc := true } f [] 5 [] fun _ c =>
    c.setVec f.vd.toNat ((List.range 64).map fun i =>
      f32Fma (c.lane f.va.toNat i) (c.lane f.vb.toNat i) (c.lane f.vc.toNat i))

/-- The winner of two values in the order of R104; of equal rank the first operand stays. -/
def valueWinner (isMax : Bool) (a b : W32) : W32 := (canonPair (if rankBefore isMax b a then ⟨b, 0#32⟩ else ⟨a, 0#32⟩)).value

/-- VMAX and VMIN. -/
def opVeExt (isMax : Bool) (f : VeFields) : IsaOp :=
  opVec { vd := true, va := true, vb := true } f [] 5 [] fun _ c =>
    c.setVec f.vd.toNat (List.zipWith (valueWinner isMax) (c.vec f.va.toNat) (c.vec f.vb.toNat))

/-- VADDS and VMULS. -/
def opVeScalar (fp : W32 → W32 → W32) (f : VeFields) : IsaOp :=
  opVec { vd := true, va := true, ss := true } f [] 5 [] fun _ c =>
    let x := BitVec.ofNat 32 (c.sbits f.ss.toNat 31 0)
    c.setVec f.vd.toNat ((c.vec f.va.toNat).map fun a => fp a x)

/-- The address SS[19:0] + IMM * 64 of VLD and VST. -/
def veAddr (c : Core) (f : VeFields) : Nat := c.sbits f.ss.toNat 19 0 + f.imm.toNat * 64

/-- VLD: FP16 and BF16 widen to FP32. -/
def opVld (c : Core) (f : VeFields) : IsaOp :=
  let a := veAddr c f
  let code := f.fmt.toNat
  let nb := formatBits code
  opVec { vd := true, ss := true, fmt := true, imm := true } f
    [⟨!(code == 0x00 || code == 0x01 || code == 0x02 || code == 0x0E), 0x04⟩] 5 [(a, packedBytes code 64)] fun _ c =>
    c.setVec f.vd.toNat ((List.range 64).map fun i =>
      let raw := rawAt c.ls a (nb * i) nb
      if code == 0x01 || code == 0x02 then toF32 (elemVal code raw 0) else BitVec.ofNat 32 raw)

/-- VST. -/
def opVst (c : Core) (f : VeFields) : IsaOp :=
  let a := veAddr c f
  opVec { va := true, ss := true, imm := true } f [] 5 [(a, 256)] fun _ c =>
    { c with ls := Memory.writeBytes c.ls a (vecBytes (c.vec f.va.toNat)) }

/-! ## VCVT (R133, R134) -/

/-- The wide side of VCVT is INT32 for FMT 0x0C to 0x0E, FP32 otherwise. -/
def cvtIsInt (code : Nat) : Bool := decide (0x0C ≤ code) && decide (code ≤ 0x0E)

/-- The rounding of element i: VCVT names no Spore quad, so the uniform is a free value (log entry 6). -/
def cvtMode (f : VeFields) (ctr i : Nat) : RMode := (rmodeOf f.rm.toNat (Config.vcvtUniform ctr i).toNat).getD .rne

/-- Two blocks of 32 into an MX format: element codes and the two scale bytes. -/
def cvtMx (code : Nat) (mode : Nat → RMode) (xs : List W32) : List Nat × Nat :=
  let b0 := mxBlock code mode (xs.take 32)
  let b1 := mxBlock code (fun i => mode (i + 32)) (xs.drop 32)
  (b0.2 ++ b1.2, b0.1 + 256 * b1.1)

/-- VCVT with FN[0] = 0: VA into FMT, packed from byte 0 of VD. -/
def cvtInto (f : VeFields) (ctr : Nat) (c : Core) : Core :=
  let code := f.fmt.toNat
  let xs := c.vec f.va.toNat
  if isMx code then
    let r := cvtMx code (cvtMode f ctr) xs
    (c.setVec f.vd.toNat (bytesVec (packCodes (formatBits code) r.1))).setSreg f.ss.toNat
      (BitVec.ofNat 64 ((c.sreg f.ss.toNat).toNat / 2 ^ 16 * 2 ^ 16 + r.2))
  else
    let es := xs.mapIdx fun i x =>
      if cvtIsInt code then i32ToElem code (cvtMode f ctr i) x else f32ToElem code (cvtMode f ctr i) x
    (c.setVec f.vd.toNat (bytesVec (packCodes (formatBits code) (es.map (·.1))))).orConv (flagsOf (es.map (·.2)))

/-- VCVT with FN[0] = 1: packed FMT in VA into FP32 or INT32 in VD; an MX format takes its two scale bytes
from bits [15:0] of SS (log entry 15). -/
def cvtFrom (f : VeFields) (c : Core) : Core :=
  let code := f.fmt.toNat
  let raws := unpackCodes (formatBits code) 64 (vecBytes (c.vec f.va.toNat))
  c.setVec f.vd.toNat (raws.mapIdx fun i raw =>
    if cvtIsInt code then BitVec.ofInt 32 (signed (formatBits code) raw)
    else if code = 0 then (f32ToElem 0 .rne (BitVec.ofNat 32 raw)).1
    else toF32 (elemVal code raw (if i < 32 then c.sbits f.ss.toNat 7 0 else c.sbits f.ss.toNat 15 8)))

/-- VCVT. -/
def opVcvt (f : VeFields) : IsaOp :=
  let code := f.fmt.toNat
  opVec { vd := true, va := true, ss := isMx code, fmt := true, rm := true, fn := true } f
    [⟨bits f.fn.toNat 3 1 != 0, 0x03⟩, ⟨!decide (code ≤ 0x0E), 0x04⟩, ⟨f.rm == 3#2, 0x05⟩] 5 [] fun ctr c =>
    if f.fn.toNat % 2 = 0 then cvtInto f ctr c else cvtFrom f c

/-! ## Activation, logarithm, reductions -/

/-- VACT. -/
def opVact (f : VeFields) : IsaOp :=
  opVec { vd := true, va := true, fn := true } f [⟨decide (8 ≤ f.fn.toNat), 0x07⟩] 15 [] fun _ c =>
    c.setVec f.vd.toNat ((c.vec f.va.toNat).map fun x => (activation f.fn.toNat x).getD x)

/-- VLOG. -/
def opVlog (f : VeFields) : IsaOp :=
  opVec { vd := true, va := true, fn := true } f [⟨decide (2 ≤ f.fn.toNat), 0x03⟩] 15 [] fun _ c =>
    c.setVec f.vd.toNat ((c.vec f.va.toNat).map (if f.fn == 0#4 then log2K else lnK))

/-- Occupancy and latency of VRSUM and VRMAXI (R146). -/
def reduceCc (n : Nat) : Nat := Nat.max 1 (ceilDiv n 64) + 8

/-- VRSUM (R83). -/
def opVrsum (c : Core) (f : VeFields) : IsaOp :=
  let a := c.sbits f.ss.toNat 19 0
  let n := c.sbits f.ss.toNat 43 20
  opVec { vd := true, ss := true } f [] (reduceCc n) [(a, 4 * n)] fun _ c =>
    c.setVec f.vd.toNat [canonicalSum 0#32 ((wordsAt c.ls a n).map f32Val)]

/-- The best pair of a non-empty list (R104). -/
def bestPair (isMax : Bool) : List IdxPair → Option IdxPair
  | [] => none
  | p :: ps => some (ps.foldl (winner isMax) (canonPair p))

/-- VRMAXI: over no element the result is not stated, a free value (log entry 6). -/
def opVrmaxi (c : Core) (f : VeFields) : IsaOp :=
  let a := c.sbits f.ss.toNat 19 0
  let n := c.sbits f.ss.toNat 43 20
  opVec { vd := true, ss := true, imm := true } f [] (reduceCc n) [(a, 4 * n)] fun ctr c =>
    let ps := (wordsAt c.ls a n).mapIdx fun i x => IdxPair.mk x (BitVec.ofNat 32 (i + f.imm.toNat))
    let w := (bestPair true ps).getD ⟨Config.emptyMax ctr, Config.emptyMax (ctr + 1)⟩
    c.setVec f.vd.toNat [w.value, w.index]

/-! ## Sorting -/

/-- Insertion of a pair into a list sorted best first (R104). -/
def insertPair (p : IdxPair) : List IdxPair → List IdxPair
  | [] => [p]
  | q :: qs => if beats true p q then p :: q :: qs else q :: insertPair p qs

/-- Best first by the MAX_F32_IDX rank. -/
def sortPairs (ps : List IdxPair) : List IdxPair := ps.foldl (fun acc p => insertPair p acc) []

/-- The pairs that two vector registers hold. -/
def Core.pairs (c : Core) (v i : Nat) : List IdxPair := List.zipWith IdxPair.mk (c.vec v) (c.vec i)

/-- Pairs written to VD and VD + 1. -/
def Core.setPairs (c : Core) (v : Nat) (ps : List IdxPair) : Core :=
  (c.setVec v (ps.map (·.value))).setVec (v + 1) (ps.map (·.index))

/-- An odd register where R134 requires an even one. -/
def oddReg (r : BitVec 5) : Bool := r.toNat % 2 == 1

/-- VSORT. -/
def opVsort (f : VeFields) : IsaOp :=
  opVec { vd := true, va := true, vb := true } f [⟨oddReg f.vd, 0x0C⟩] 27 [] fun _ c =>
    c.setPairs f.vd.toNat (sortPairs ((c.pairs f.va.toNat f.vb.toNat).map canonPair))

/-- VMERGE. -/
def opVmerge (f : VeFields) : IsaOp :=
  opVec { vd := true, va := true, vb := true } f [⟨oddReg f.vd || oddReg f.va || oddReg f.vb, 0x0C⟩] 10 [] fun _ c =>
    c.setPairs f.vd.toNat ((sortPairs ((c.pairs f.va.toNat (f.va.toNat + 1) ++
      c.pairs f.vb.toNat (f.vb.toNat + 1)).map canonPair)).take 64)

/-! ## VTACC -/

/-- The tile format that VTACC's FN names: FP32 for the sum, FP32_IDX for maximum and minimum. -/
def vtaccFormat (f : VeFields) : Nat := if f.fn == 0#4 then 0 else 2

/-- VTACC: a row number outside the tile counts as a tile the map does not hold (log entry 16). -/
def opVtacc (c : Core) (k : KImage) (f : VeFields) : IsaOp :=
  let tn := f.vc.toNat % 16
  let t := k.tileD tn
  let row := f.imm.toNat
  let base := opVec { va := true, vb := true, vc := true, fn := true, imm := true } f
    [⟨decide (16 ≤ f.vc.toNat) || decide (3 ≤ f.fn.toNat), 0x03⟩, unmapped k tn,
      ⟨t.cols != 64 || decide (t.rows ≤ row), 0x0B⟩, idxCheck k tn (vtaccFormat f),
      ⟨c.tag tn != vtaccFormat f, 0x10⟩] 5 [] fun _ c =>
    { c with acc := (List.range 64).foldl (fun m i =>
        if f.fn == 0#4 then setTileVal m t row i (f32Add (c.tileVal t row i) (c.lane f.va.toNat i))
        else setTilePair m t row i (winner (f.fn == 1#4) (c.tilePair t row i)
          ⟨c.lane f.va.toNat i, c.lane f.vb.toNat i⟩)) c.acc }
  { base with tile := tn }

end Sys2Proof.Machine
end

