-- ==== Sys2Proof/Machine/OpsSu.lean ====
section
/-!
DEFINITION. The SU class (R135, R136, R218 to R221) as checks and effect.
-/
namespace Sys2Proof.Machine

/-- Checks that every SU instruction shares. -/
def suChecks (f : SuFields) : List FaultCheck :=
  [⟨f.rsv != 0#20 || f.n == 0#7 || decide (64 < f.n.toNat), 0x03⟩, ⟨!quadOk f.sq.toNat, 0x0C⟩]

/-- An SU instruction. -/
def opSu (f : SuFields) (extra : List FaultCheck) (cc : Nat) (effect : Nat → Core → Core) : IsaOp :=
  { queue := 3, checks := suChecks f ++ extra, ranges := [], cc := cc, tile := 0, effect := effect }

/-- The uniform of element i (R210, R218). -/
def suU (c : Core) (f : SuFields) (i : Nat) : Nat := (c.quad f.sq.toNat).u (c.sreg f.se.toNat) i

/-- Bits 0 to N - 1 of a scalar; the rest zero (R136). -/
def bitScalar (bs : List Bool) : W64 := BitVec.ofNat 64 (bs.foldr (fun b acc => b2n b + 2 * acc) 0)

/-- SUNIF. -/
def opSunif (f : SuFields) : IsaOp :=
  opSu f [] 25 fun _ c => c.setVec f.dst.toNat ((List.range f.n.toNat).map fun i => BitVec.ofNat 32 (suU c f i))

/-- ST[31:0] as the inverse temperature. -/
def suInvT (c : Core) (f : SuFields) : W32 := BitVec.ofNat 32 (c.sbits f.st.toNat 31 0)

/-- A Bernoulli draw per element into a scalar, with NAN_LOST for NaN probabilities (R114). -/
def suBern (draw : Core → Nat → Bool × Bool) (f : SuFields) (c : Core) : Core :=
  let rs := (List.range f.n.toNat).map (draw c)
  (c.setSreg f.dst.toNat (bitScalar (rs.map (·.1)))).orConv ⟨false, rs.any (·.2)⟩

/-- SBERNF. -/
def opSbernf (f : SuFields) : IsaOp :=
  opSu f [] 25 fun _ => suBern (fun c i => bernField (c.lane f.va.toNat i) (suInvT c f) (suU c f i)) f

/-- SBERNP. -/
def opSbernp (f : SuFields) : IsaOp :=
  opSu f [] 25 fun _ => suBern (fun c i => bernProb (c.lane f.va.toNat i) (suU c f i)) f

/-- SBERNQ (R219). -/
def opSbernq (f : SuFields) : IsaOp :=
  opSu f [] 25 fun _ => suBern (fun c i =>
    (sporeMask (suU c f i) ((c.lane f.va.toNat i).toNat % 2 ^ 16), false)) f

/-- SGUMB. -/
def opSgumb (f : SuFields) : IsaOp :=
  opSu f [] 25 fun _ c => c.setVec f.dst.toNat ((List.range f.n.toNat).map fun i =>
    gumbelAdd (c.lane f.va.toNat i) (suInvT c f) (suU c f i))

/-- The group sizes of SCAT. -/
def scatGroupOk (g n : Nat) : Bool := [2, 4, 8, 16, 32, 64].contains g && n % g == 0

/-- Group j's winning position (R104, R135). -/
def scatWinner (c : Core) (f : SuFields) (g j : Nat) : W32 :=
  let inv := BitVec.ofNat 32 (c.sbits f.st.toNat 63 32)
  let ps := (List.range g).map fun p =>
    IdxPair.mk (gumbelAdd (c.lane f.va.toNat (j * g + p)) inv (suU c f (j * g + p))) (BitVec.ofNat 32 p)
  ((bestPair true ps).getD ⟨0#32, 0#32⟩).index

/-- SCAT: lane j receives group j's winning position; the lanes from the number of groups to N - 1 are not
stated, free values (log entry 6); lanes from N on are zero (R136). -/
def opScat (c : Core) (f : SuFields) : IsaOp :=
  let g := c.sbits f.st.toNat 6 0
  let n := f.n.toNat
  opSu f [⟨!scatGroupOk g n, 0x03⟩] 31 fun ctr c =>
    c.setVec f.dst.toNat ((List.range n).map fun j =>
      if j < n / g then scatWinner c f g j else Config.scatLane ctr j)

end Sys2Proof.Machine
end

