-- ==== Sys2Proof/Machine/OpsCtl.lean ====
section
/-!
DEFINITION. The CTL class (R141) as checks, ranges and effect; BR's target (R141, R145).
-/
namespace Sys2Proof.Machine

/-- IMM sign-extended to 64 bits. -/
def imm64 (f : CtlFields) : W64 := f.imm.signExtend 64

/-- A CTL instruction with no fault of its own. -/
def opCtl (cc : Nat) (checks : List FaultCheck) (ranges : List (Nat × Nat)) (effect : Nat → Core → Core) : IsaOp :=
  { queue := 5, checks := checks, ranges := ranges, cc := cc, tile := 0, effect := effect }

/-- NOP: no effect. -/
def opCtlNop (_f : CtlFields) : IsaOp := opCtl 1 [] [] fun _ c => c

/-- SDST = SA op SB. -/
def opCtlBin (op : W64 → W64 → W64) (f : CtlFields) : IsaOp :=
  opCtl 1 [] [] fun _ c => c.setSreg f.sdst.toNat (op (c.sreg f.sa.toNat) (c.sreg f.sb.toNat))

/-- The shift count SB[5:0]. -/
def shiftCount (y : W64) : Nat := y.toNat % 64

/-- ADDI. -/
def opAddi (f : CtlFields) : IsaOp := opCtl 1 [] [] fun _ c => c.setSreg f.sdst.toNat (c.sreg f.sa.toNat + imm64 f)

/-- LI. -/
def opLi (f : CtlFields) : IsaOp := opCtl 1 [] [] fun _ c => c.setSreg f.sdst.toNat (imm64 f)

/-- LIH: SDST[63:32] = IMM, the low half stays. -/
def opLih (f : CtlFields) : IsaOp :=
  opCtl 1 [] [] fun _ c => c.setSreg f.sdst.toNat (f.imm ++ (c.sreg f.sdst.toNat).setWidth 32)

/-- The address SA[19:0] + imm of LDS and STS, as an integer. -/
def ldsAddr (c : Core) (f : CtlFields) : Int := (c.sbits f.sa.toNat 19 0 : Int) + f.imm.toInt

/-- LS_BOUNDS of LDS and STS: outside local scratch, or not a multiple of 8 (R149). -/
def ldsCheck (c : Core) (f : CtlFields) : FaultCheck :=
  let a := ldsAddr c f
  ⟨decide (a < 0) || decide (a + 8 > (lsBytes : Int)) || a % 8 != 0, 0x0D⟩

/-- LDS. -/
def opLds (c : Core) (f : CtlFields) : IsaOp :=
  let a := (ldsAddr c f).toNat
  opCtl 5 [ldsCheck c f] [(a, 8)] fun _ c => c.setSreg f.sdst.toNat (BitVec.ofNat 64 (Memory.readLe c.ls a 8))

/-- STS. -/
def opSts (c : Core) (f : CtlFields) : IsaOp :=
  let a := (ldsAddr c f).toNat
  opCtl 5 [ldsCheck c f] [(a, 8)] fun _ c => { c with ls := Memory.writeLe c.ls a 8 (c.sreg f.sb.toNat).toNat }

/-- The condition of BR (R141). -/
def brTaken (cond : Nat) (x y : W64) : Bool :=
  match cond with
  | 0 => x == y
  | 1 => x != y
  | 2 => x.slt y
  | 3 => x.ult y
  | 4 => !x.slt y
  | _ => !x.ult y

/-- The target of a BR at index pc (log entry 17: relative to the branch's own index). -/
def brTarget (pc : Nat) (f : CtlFields) : Int := (pc : Int) + f.imm.toInt

/-- BR: COND above 5 raises RESERVED_FIELD; a target outside the code raises PC_BOUNDS, taken or not. A
taken branch sets the next index. -/
def opBr (c : Core) (k : KImage) (f : CtlFields) : IsaOp :=
  let tgt := brTarget c.pc f
  opCtl 1 [⟨decide (5 < f.cond.toNat), 0x03⟩, ⟨decide (tgt < 0) || decide ((k.code.length : Int) ≤ tgt), 0x0F⟩] []
    fun _ c =>
      if brTaken f.cond.toNat (c.sreg f.sa.toNat) (c.sreg f.sb.toNat) then { c with pc := tgt.toNat } else c

/-- GETID: logical core id, row 0 to 31, half, column (R15); other IMM values give a free value. -/
def opGetid (f : CtlFields) : IsaOp :=
  opCtl 1 [] [] fun ctr c =>
    let v : W64 := match f.imm.toNat with
      | 0 => BitVec.ofNat 64 c.logical
      | 1 => BitVec.ofNat 64 (c.logical / 16)
      | 2 => BitVec.ofNat 64 (c.logical / 256)
      | 3 => BitVec.ofNat 64 (c.logical % 16)
      | _ => Config.getIdOther ctr
    c.setSreg f.sdst.toNat v

/-- END: the kernel ends on this core; it leaves RUNNING once its queues have drained (R156). -/
def opEnd (_f : CtlFields) : IsaOp := opCtl 1 [] [] fun _ c => { c with ended := true }

end Sys2Proof.Machine
end

