-- ==== Sys2Proof/Machine/Crypto.lean ====
section
/-!
DEFINITION. The standard primitives that chapters 12, 14, 15, 16 and 17 name and do not restate (log entry 10,
PRESUMED: from the standards themselves): SHA-384 (FIPS 180-4), HMAC and HKDF (RFC 2104, RFC 5869), AES-256
(FIPS 197), GCM (SP 800-38D), CTR_DRBG (SP 800-90A), ECDH and ECDSA on P-384 (FIPS 186-4), CRC-32C and CRC-32.
-/
namespace Sys2Proof.Machine

/-! ## SHA-384 -/

/-- The first 40 round constants. -/
def shaKPart0 : List (BitVec 64) :=
  [0x428A2F98D728AE22#64, 0x7137449123EF65CD#64, 0xB5C0FBCFEC4D3B2F#64,
   0xE9B5DBA58189DBBC#64, 0x3956C25BF348B538#64, 0x59F111F1B605D019#64,
   0x923F82A4AF194F9B#64, 0xAB1C5ED5DA6D8118#64, 0xD807AA98A3030242#64,
   0x12835B0145706FBE#64, 0x243185BE4EE4B28C#64, 0x550C7DC3D5FFB4E2#64,
   0x72BE5D74F27B896F#64, 0x80DEB1FE3B1696B1#64, 0x9BDC06A725C71235#64,
   0xC19BF174CF692694#64, 0xE49B69C19EF14AD2#64, 0xEFBE4786384F25E3#64,
   0xFC19DC68B8CD5B5#64, 0x240CA1CC77AC9C65#64, 0x2DE92C6F592B0275#64,
   0x4A7484AA6EA6E483#64, 0x5CB0A9DCBD41FBD4#64, 0x76F988DA831153B5#64,
   0x983E5152EE66DFAB#64, 0xA831C66D2DB43210#64, 0xB00327C898FB213F#64,
   0xBF597FC7BEEF0EE4#64, 0xC6E00BF33DA88FC2#64, 0xD5A79147930AA725#64,
   0x6CA6351E003826F#64, 0x142929670A0E6E70#64, 0x27B70A8546D22FFC#64,
   0x2E1B21385C26C926#64, 0x4D2C6DFC5AC42AED#64, 0x53380D139D95B3DF#64,
   0x650A73548BAF63DE#64, 0x766A0ABB3C77B2A8#64, 0x81C2C92E47EDAEE6#64,
   0x92722C851482353B#64]

/-- The last 40 round constants. -/
def shaKPart1 : List (BitVec 64) :=
  [0xA2BFE8A14CF10364#64, 0xA81A664BBC423001#64, 0xC24B8B70D0F89791#64,
   0xC76C51A30654BE30#64, 0xD192E819D6EF5218#64, 0xD69906245565A910#64,
   0xF40E35855771202A#64, 0x106AA07032BBD1B8#64, 0x19A4C116B8D2D0C8#64,
   0x1E376C085141AB53#64, 0x2748774CDF8EEB99#64, 0x34B0BCB5E19B48A8#64,
   0x391C0CB3C5C95A63#64, 0x4ED8AA4AE3418ACB#64, 0x5B9CCA4F7763E373#64,
   0x682E6FF3D6B2B8A3#64, 0x748F82EE5DEFB2FC#64, 0x78A5636F43172F60#64,
   0x84C87814A1F0AB72#64, 0x8CC702081A6439EC#64, 0x90BEFFFA23631E28#64,
   0xA4506CEBDE82BDE9#64, 0xBEF9A3F7B2C67915#64, 0xC67178F2E372532B#64,
   0xCA273ECEEA26619C#64, 0xD186B8C721C0C207#64, 0xEADA7DD6CDE0EB1E#64,
   0xF57D4F7FEE6ED178#64, 0x6F067AA72176FBA#64, 0xA637DC5A2C898A6#64,
   0x113F9804BEF90DAE#64, 0x1B710B35131C471B#64, 0x28DB77F523047D84#64,
   0x32CAAB7B40C72493#64, 0x3C9EBE0A15C9BEBC#64, 0x431D67C49C100D4C#64,
   0x4CC5D4BECB3E42B6#64, 0x597F299CFC657E2A#64, 0x5FCB6FAB3AD6FAEC#64,
   0x6C44198C4A475817#64]

/-- The round constants of SHA-384. -/
def shaK : List (BitVec 64) := shaKPart0 ++ shaKPart1

/-- The initial hash value of SHA-384. -/
def shaInit : List (BitVec 64) :=
  [0xCBBB9D5DC1059ED8#64, 0x629A292A367CD507#64, 0x9159015A3070DD17#64,
   0x152FECD8F70E5939#64, 0x67332667FFC00B31#64, 0x8EB44A8768581511#64,
   0xDB0C2E0D64F98FA7#64, 0x47B5481DBEFA4FA4#64]

/-- The message schedule, newest word first: `n` further words. -/
def shaExtend : Nat → List (BitVec 64) → List (BitVec 64)
  | 0, w => w
  | n + 1, w =>
    let a := w.getD 1 0#64
    let b := w.getD 14 0#64
    let s1 := (a.rotateRight 19) ^^^ (a.rotateRight 61) ^^^ (a >>> 6)
    let s0 := (b.rotateRight 1) ^^^ (b.rotateRight 8) ^^^ (b >>> 7)
    shaExtend n ((s1 + w.getD 6 0#64 + s0 + w.getD 15 0#64) :: w)

/-- One round on the eight working words. -/
def shaRound (h : List (BitVec 64)) (kw : BitVec 64 × BitVec 64) : List (BitVec 64) :=
  match h with
  | [a, b, c, d, e, f, g, hh] =>
    let s1 := (e.rotateRight 14) ^^^ (e.rotateRight 18) ^^^ (e.rotateRight 41)
    let ch := (e &&& f) ^^^ ((~~~e) &&& g)
    let t1 := hh + s1 + ch + kw.1 + kw.2
    let s0 := (a.rotateRight 28) ^^^ (a.rotateRight 34) ^^^ (a.rotateRight 39)
    let mj := (a &&& b) ^^^ (a &&& c) ^^^ (b &&& c)
    [t1 + (s0 + mj), a, b, c, d + t1, e, f, g]
  | other => other

/-- One block of 128 bytes. -/
def shaBlock (h : List (BitVec 64)) (blk : List Byte) : List (BitVec 64) :=
  let w0 := (List.range 16).map fun i => BitVec.ofNat 64 (ofBe (bytesAt blk (8 * i) 8))
  let ws := (shaExtend 64 w0.reverse).reverse
  List.zipWith (· + ·) h ((shaK.zip ws).foldl shaRound h)

/-- SHA-384 of a byte string: 48 bytes. -/
def sha384 (m : List Byte) : List Byte :=
  let z := roundUp (m.length + 17) 128 - (m.length + 17)
  let padded := m ++ [0x80#8] ++ List.replicate z 0#8 ++ toBe 16 (8 * m.length)
  (((chunks 128 padded).foldl shaBlock shaInit).map fun w => toBe 8 w.toNat).flatten.take 48

/-! ## HMAC and HKDF -/

/-- HMAC-SHA-384. -/
def hmac384 (key m : List Byte) : List Byte :=
  let k0 := bytesAt (if 128 < key.length then sha384 key else key) 0 128
  sha384 (k0.map (· ^^^ 0x5C#8) ++ sha384 (k0.map (· ^^^ 0x36#8) ++ m))

/-- The first 32 bytes of HKDF-SHA-384 (R544): one expansion block. -/
def hkdf32 (ikm salt info : List Byte) : List Byte :=
  (hmac384 (hmac384 salt ikm) (info ++ [1#8])).take 32

/-! ## AES-256 -/

/-- Multiplication by x in GF(2^8). -/
def xtime (a : Nat) : Nat := if a < 128 then 2 * a else ((2 * a) % 256) ^^^ 0x1B

/-- Multiplication in GF(2^8) by repeated doubling of `b`, eight bits. -/
def gfMul8 (a b : Nat) : Nat :=
  ((List.range 8).foldl (fun (acc : Nat × Nat) i =>
    (if b.testBit i then acc.1 ^^^ acc.2 else acc.1, xtime acc.2)) (0, a)).1

/-- The inverse in GF(2^8), a to the power 254. -/
def gfInv (a : Nat) : Nat := (List.range 253).foldl (fun acc _ => gfMul8 acc a) a

/-- The S-box. -/
def sbox (a : Byte) : Byte :=
  let v := BitVec.ofNat 8 (gfInv a.toNat)
  v ^^^ v.rotateLeft 1 ^^^ v.rotateLeft 2 ^^^ v.rotateLeft 3 ^^^ v.rotateLeft 4 ^^^ 0x63#8

/-- XOR of two byte strings. -/
def xorBytes (a b : List Byte) : List Byte := List.zipWith (· ^^^ ·) a b

/-- The key schedule: words of 4 bytes, newest first, `n` further words after the first 8. -/
def aesExpand : Nat → Nat → List (List Byte) → List (List Byte)
  | 0, _, w => w
  | n + 1, i, w =>
    let prev := w.headD []
    let t := if i % 8 = 0 then
        let r := (prev.drop 1 ++ prev.take 1).map sbox
        xorBytes r [BitVec.ofNat 8 ((List.range (i / 8 - 1)).foldl (fun a _ => xtime a) 1), 0#8, 0#8, 0#8]
      else if i % 8 = 4 then prev.map sbox else prev
    aesExpand n (i + 1) (xorBytes (w.getD 7 []) t :: w)

/-- The 15 round keys of 16 bytes. -/
def aesKeys (key : List Byte) : List (List Byte) :=
  chunks 16 (aesExpand 52 8 (chunks 4 key).reverse).reverse.flatten

/-- ShiftRows on the column-major state. -/
def shiftRows (s : List Byte) : List Byte :=
  (List.range 16).map fun i => s.getD ((i + 4 * (i % 4)) % 16) 0#8

/-- MixColumns on one column. -/
def mixColumn (c : List Byte) : List Byte :=
  (List.range 4).map fun i =>
    let x := fun j => (c.getD ((i + j) % 4) 0#8).toNat
    BitVec.ofNat 8 (xtime (x 0) ^^^ (xtime (x 1) ^^^ x 1) ^^^ x 2 ^^^ x 3)

/-- The rounds after the first key addition; the last has no MixColumns. -/
def aesRounds : List (List Byte) → List Byte → List Byte
  | [], s => s
  | [k], s => xorBytes (shiftRows (s.map sbox)) k
  | k :: ks, s => aesRounds ks (xorBytes ((chunks 4 (shiftRows (s.map sbox))).map mixColumn).flatten k)

/-- AES-256 encryption of one block under expanded keys. -/
def aesBlock (ks : List (List Byte)) (b : List Byte) : List Byte :=
  match ks with
  | [] => b
  | k :: rest => aesRounds rest (xorBytes b k)

/-! ## GCM -/

/-- Product in GF(2^128) of GCM's bit order, the first bit being the most significant. -/
def gcmMul (x y : Nat) : Nat :=
  ((List.range 128).foldl (fun (zv : Nat × Nat) i =>
    (if x.testBit (127 - i) then zv.1 ^^^ zv.2 else zv.1,
      if zv.2.testBit 0 then (zv.2 >>> 1) ^^^ (0xE1 <<< 120) else zv.2 >>> 1)) (0, y)).1

/-- GHASH of the padded strings and their lengths. -/
def ghash (h : Nat) (aad ct : List Byte) : Nat :=
  let bs := padTo 16 aad ++ padTo 16 ct ++ toBe 8 (8 * aad.length) ++ toBe 8 (8 * ct.length)
  (chunks 16 bs).foldl (fun acc b => gcmMul (acc ^^^ ofBe b) h) 0

/-- The counter-mode key stream of `n` blocks from counter value `c`. -/
def gcmStream (ks : List (List Byte)) (iv : List Byte) (c n : Nat) : List Byte :=
  ((List.range n).map fun i => aesBlock ks (iv ++ toBe 4 (c + i))).flatten

/-- AES-256-GCM with a 96-bit IV: text and tag. -/
def gcmSeal (key iv aad pt : List Byte) : List Byte × List Byte :=
  let ks := aesKeys key
  let h := ofBe (aesBlock ks (List.replicate 16 0#8))
  let ct := xorBytes pt (gcmStream ks iv 2 (ceilDiv pt.length 16))
  (ct, xorBytes (toBe 16 (ghash h aad ct)) (gcmStream ks iv 1 1))

/-- AES-256-GCM decryption: the text when the tag verifies. -/
def gcmOpen (key iv aad ct tag : List Byte) : Option (List Byte) :=
  let ks := aesKeys key
  let h := ofBe (aesBlock ks (List.replicate 16 0#8))
  if xorBytes (toBe 16 (ghash h aad ct)) (gcmStream ks iv 1 1) = tag then
    some (xorBytes ct (gcmStream ks iv 2 (ceilDiv ct.length 16))) else none

/-- GMAC: the tag of GCM over authenticated data alone. -/
def gmac (key iv aad : List Byte) : List Byte := (gcmSeal key iv aad []).2

/-! ## CTR_DRBG with AES-256 and the derivation function (R579) -/

/-- BCC of SP 800-90A. -/
def drbgBcc (ks : List (List Byte)) (data : List Byte) : List Byte :=
  (chunks 16 data).foldl (fun v b => aesBlock ks (xorBytes v b)) (List.replicate 16 0#8)

/-- Block_Cipher_df to 48 bytes. -/
def drbgDf (input : List Byte) : List Byte :=
  let s := padTo 16 (toBe 4 input.length ++ toBe 4 48 ++ input ++ [0x80#8])
  let ks := aesKeys ((List.range 32).map fun i => BitVec.ofNat 8 i)
  let temp := ((List.range 3).map fun i => drbgBcc ks (toBe 4 i ++ List.replicate 12 0#8 ++ s)).flatten
  let ks2 := aesKeys (temp.take 32)
  let x1 := aesBlock ks2 (bytesAt temp 32 16)
  let x2 := aesBlock ks2 x1
  x1 ++ x2 ++ aesBlock ks2 x2

/-- `n` successive blocks of the counter, and the last counter value. -/
def drbgBlocks (ks : List (List Byte)) (v n : Nat) : List Byte × Nat :=
  (((List.range n).map fun i => aesBlock ks (toBe 16 ((v + 1 + i) % 2 ^ 128))).flatten, (v + n) % 2 ^ 128)

/-- CTR_DRBG_Update: the new Key and V. -/
def drbgUpdate (key v data : List Byte) : List Byte × List Byte :=
  let t := xorBytes (drbgBlocks (aesKeys key) (ofBe v) 3).1 data
  (t.take 32, t.drop 32)

/-- Instantiation from entropy and personalization. -/
def drbgInit (entropy pers : List Byte) : List Byte × List Byte :=
  drbgUpdate (List.replicate 32 0#8) (List.replicate 16 0#8) (drbgDf (entropy ++ pers))

/-- Reseed from entropy. -/
def drbgReseedKV (key v entropy : List Byte) : List Byte × List Byte := drbgUpdate key v (drbgDf entropy)

/-- One generate call of `n` bytes: the bytes and the new Key and V. -/
def drbgGenerate (key v : List Byte) (n : Nat) : List Byte × List Byte × List Byte :=
  let r := drbgBlocks (aesKeys key) (ofBe v) (ceilDiv n 16)
  let kv := drbgUpdate key (toBe 16 r.2) (List.replicate 48 0#8)
  (r.1.take n, kv.1, kv.2)

/-! ## P-384 -/

/-- The field prime. -/
def p384P : Nat := 2 ^ 384 - 2 ^ 128 - 2 ^ 96 + 2 ^ 32 - 1
/-- The order of the base point. -/
def p384N : Nat := 0xffffffffffffffffffffffffffffffffffffffffffffffffc7634d81f4372ddf581a0db248b0a77aecec196accc52973
/-- The curve coefficient b. -/
def p384B : Nat := 0xb3312fa7e23ee7e4988e056be3f82d19181d9c6efe8141120314088f5013875ac656398d8a2ed19d2a85c8edd3ec2aef
/-- The base point. -/
def p384G : Nat × Nat :=
  (0xaa87ca22be8b05378eb1c71ef320ad746e1d3b628ba79b9859f741e082542a385502f25dbf55296c3a545e3872760ab7,
   0x3617de4a96262c6f5d9e98bf9292dc29f8f41dbd289a147ce9da3113b5f0b8c00a60b1ce1d7e819d7a431d7c90ea0e5f)

/-- Power modulo m by squaring, `fuel` bits of the exponent. -/
def powMod (m : Nat) : Nat → Nat → Nat → Nat
  | 0, _, _ => 1 % m
  | fuel + 1, b, e =>
    let r := powMod m fuel (b * b % m) (e / 2)
    if e % 2 = 1 then b * r % m else r

/-- Inverse modulo a prime of at most 384 bits. -/
def invMod (m a : Nat) : Nat := powMod m 384 (a % m) (m - 2)

/-- Difference modulo m. -/
def subMod (m a b : Nat) : Nat := (a + m - b % m) % m

/-- Sum of two points; none is the point at infinity. -/
def p384Add (a b : Option (Nat × Nat)) : Option (Nat × Nat) :=
  match a, b with
  | none, b => b
  | a, none => a
  | some (x1, y1), some (x2, y2) =>
    if x1 = x2 ∧ (y1 + y2) % p384P = 0 then none else
    let l := if x1 = x2 then (3 * x1 * x1 + p384P - 3) * invMod p384P (2 * y1) % p384P
      else subMod p384P y2 y1 * invMod p384P (subMod p384P x2 x1) % p384P
    let x3 := subMod p384P (l * l) (x1 + x2)
    some (x3, subMod p384P (l * subMod p384P x1 x3) y1)

/-- Scalar product, `fuel` bits of the scalar. -/
def p384Mul : Nat → Nat → Option (Nat × Nat) → Option (Nat × Nat)
  | 0, _, _ => none
  | fuel + 1, k, p =>
    let r := p384Mul fuel (k / 2) (p384Add p p)
    if k % 2 = 1 then p384Add p r else r

/-- Is the point on the curve? -/
def p384On (q : Nat × Nat) : Bool :=
  decide (q.1 < p384P) && decide (q.2 < p384P) &&
    (q.2 * q.2) % p384P == (q.1 * q.1 * q.1 + (p384P - 3) * q.1 + p384B) % p384P

/-- The x-coordinate of the ECDH of a private key and a public point, none for an invalid point. -/
def ecdhX (d : Nat) (q : Nat × Nat) : Option (List Byte) :=
  if p384On q then (p384Mul 384 d (some q)).map fun r => toBe 48 r.1 else none

/-- ECDSA verification of a signature r, s over a digest. -/
def ecdsaVerify (q : Nat × Nat) (digest sig : List Byte) : Bool :=
  let r := ofBe (bytesAt sig 0 48)
  let s := ofBe (bytesAt sig 48 48)
  if r = 0 ∨ s = 0 ∨ p384N ≤ r ∨ p384N ≤ s ∨ !p384On q then false else
  let w := invMod p384N s
  let z := ofBe digest
  match p384Add (p384Mul 384 (z * w % p384N) (some p384G)) (p384Mul 384 (r * w % p384N) (some q)) with
  | none => false
  | some p => p.1 % p384N == r

/-! ## Cyclic redundancy checks -/

/-- One byte of a reflected CRC with polynomial `poly`. -/
def crcByte (poly crc : Nat) (b : Byte) : Nat :=
  (List.range 8).foldl (fun c _ => if c % 2 = 1 then (c / 2) ^^^ poly else c / 2) (crc ^^^ b.toNat)

/-- A reflected 32-bit CRC, all ones in and inverted out. -/
def crc32With (poly : Nat) (bs : List Byte) : Nat := (bs.foldl (crcByte poly) 0xFFFFFFFF) ^^^ 0xFFFFFFFF

/-- CRC-32C (R619). -/
def crc32c (bs : List Byte) : Nat := crc32With 0x82F63B78 bs

/-- CRC-32 of IEEE 802.3. -/
def crc32 (bs : List Byte) : Nat := crc32With 0xEDB88320 bs

end Sys2Proof.Machine
end

