-- ==== Sys2Proof/Machine/StMoss.lean ====
section
/-!
DEFINITION. The state of the Moss lattice: tiles, regions and runs (chapters 10 and 11).
-/
namespace Sys2Proof.Machine

/-- The result set of a run (R384, R385): best, best feasible, the reservoir in order, the final energies, and
the counts of the header. -/
structure ResSet where
  best : Option MossCand
  feas : Option MossCand
  res : List MossCand
  finals : List Int
  samples : Nat
  feasSeen : Nat
  deriving DecidableEq, Repr

/-- The empty result set. -/
def ResSet.empty : ResSet := ⟨none, none, [], [], 0, 0⟩

/-- What MOS_RES and MOS_EXT registers keep of a region's last run (R398, R399). -/
structure ResView where
  best : Int
  feas : Int
  count : Nat
  bestValid : Bool
  feasValid : Bool
  extended : Bool
  lead : Bool
  eExp : Int
  samples : Nat
  extWait : Nat
  maxStale : Nat
  part : Nat
  parts : Nat
  deriving DecidableEq, Repr

/-- The registers of a region that has run nothing. -/
def ResView.zero : ResView := ⟨0, 0, 0, false, false, false, false, 0, 0, 0, 0, 0, 0⟩

/-- One region (R335 to R345): its job's context, its rectangle, its state, its problem as stored (R334) and its
spins as a state image (R336). `edge` holds the Jx of the last column, site z * Wy + y, which a part of an extended run keeps (R390);
`await` is a DEFINE that waits for its tiles (R366): until then the state is FREE. -/
structure MRegion where
  ctx : Nat
  st : Nat
  tx0 : Nat
  tx1 : Nat
  ty0 : Nat
  ty1 : Nat
  exact : Bool
  periodic : Bool
  ej : Int
  eh : Int
  qerrJ : W32
  qerrH : W32
  flushed : Nat
  saturated : Nat
  dropped : Nat
  digest : List Byte
  image : Memory
  spins : Memory
  edge : List Int
  await : Option Head
  run : Nat
  view : ResView
  deriving DecidableEq, Repr

/-- A number that names no region. -/
def MRegion.free : MRegion :=
  { ctx := 0, st := 0, tx0 := 0, tx1 := 0, ty0 := 0, ty1 := 0, exact := false, periodic := false, ej := 0, eh := 0,
    qerrJ := 0#32, qerrH := 0#32, flushed := 0, saturated := 0, dropped := 0, digest := [], image := [],
    spins := [], edge := [], await := none, run := 0, view := ResView.zero }

/-- One segment of a schedule (R352). -/
structure MSegment where
  beta : W32
  sweeps : Nat
  sampleEvery : Nat
  reset : Bool
  deriving DecidableEq, Repr

/-- One constraint (R380): terms as (variable, coefficient). -/
structure MConstraint where
  terms : List (Nat × Int)
  lo : Int
  hi : Int
  deriving DecidableEq, Repr

/-- The extension of a run (R387 to R395): the block, the last face of each neighbour and its last snapshot face, the set-ups and partials that
the lead part has received. `first` is the first half-sweep since the start or resume, `ready` says that the lead part has started the run, `started` that the half-sweep may complete, `asked` the run
sweep whose snapshot faces this part has sent, `snap` the snapshot whose decision is awaited (sweep, one image per replica), `cutAt`
and `stopAt` the run sweeps of the lead part's last cutting order and of its stop. -/
structure MExt where
  extId : Nat
  parts : Nat
  part : Nat
  stale : Nat
  xOffset : Nat
  xTotal : Nat
  prev : Nat
  next : Nat
  lead : Nat
  facePrev : Option MossFaceMsg
  faceNext : Option MossFaceMsg
  snapPrev : Option MossFaceMsg
  snapNext : Option MossFaceMsg
  setups : List MossSetupMsg
  partials : List MossPartialsMsg
  first : Nat
  ready : Bool
  started : Bool
  asked : Option Nat
  snap : Option (Nat × List (List Byte))
  cutAt : Option Nat
  stopAt : Option Nat
  waited : Nat
  maxStale : Nat
  deriving DecidableEq, Repr

/-- A run (R351 to R364, R372, R382 to R386). `half` is the next half-sweep, `stage` where the actions of R355
stand at a sweep boundary (0 sweeping, 1 sample point, 2 exchange, 3 segment, 4 cutting, 5 reads and progress, 6 end or stop,
7 stopped and waiting for its cutting, 8 ended while its last cutting is still being written), `cut` the cutting being written as (slot, sweep, DPA of the trailer, trailer), `fin` the status that
writing the result set to RESULT gave a stopped run,
`cutHere` whether one was taken at this boundary, `resBusy` whether result vectors are being written, `stopping` and `stop` a stop that was asked,
with its command where MOSS_STOP asked for it, `reads` the MOSS_READs that wait for the boundary as (command, region, host address). -/
structure MRun where
  ctx : Nat
  head : Head
  opcode : Nat
  run : Nat
  rule : Nat
  regions : List Nat
  segments : List MSegment
  ladder : List W32
  seed : W64
  exchEvery : Nat
  cutEvery : Nat
  init : Nat
  digest : List Byte
  blockAddr : Nat
  cutArea : Nat
  chainMap : List Nat
  chains : Nat
  chainDigest : List Byte
  constrs : List MConstraint
  terms : Nat
  constrDigest : List Byte
  depth : Nat
  feasOnly : Bool
  resArea : Nat
  result : Nat
  progress : Nat
  rungs : List Nat
  seg : Nat
  segSweep : Nat
  sweep : Nat
  half : Nat
  stage : Nat
  exchanges : Nat
  attempted : Nat
  accepted : Nat
  nextSlot : Nat
  cut : Option (Nat × Nat × Nat × List Byte)
  fin : Nat
  lastCut : Option (Nat × Nat)
  cutHere : Bool
  set : ResSet
  resBusy : Bool
  stopping : Bool
  stop : Option Head
  reads : List (Head × Nat × Nat)
  ext : Option MExt
  deriving DecidableEq, Repr

/-- The Moss: tile states (R365), regions, runs, select registers, the site updates of each job, and the set-ups that came to the
lead part before its own run started, by context (R388). -/
structure Moss where
  tiles : Map Nat
  regions : Map MRegion
  runs : List MRun
  tileSel : Nat
  regionSel : Nat
  updates : Map Nat
  early : List (Nat × MossSetupMsg)
  deriving DecidableEq, Repr

end Sys2Proof.Machine
end

