-- ==== Sys2Proof/Machine/MossCore.lean ====
section
/-!
DEFINITION. The Moss lattice as functions: geometry, the stored problem, loading, the local field and the update,
energies, votes, constraints and the result set (R329 to R357, R374 to R385).
-/
namespace Sys2Proof.Machine

/-! ## Geometry (R329 to R336) -/

/-- Sites along X. -/
def MRegion.wx (g : MRegion) : Nat := 64 * (g.tx1 - g.tx0 + 1)
/-- Sites along Y. -/
def MRegion.wy (g : MRegion) : Nat := 64 * (g.ty1 - g.ty0 + 1)
/-- Sites of the region. -/
def MRegion.sites (g : MRegion) : Nat := 8 * g.wx * g.wy
/-- Bytes of a state image. -/
def MRegion.imageBytes (g : MRegion) : Nat := g.wx * g.wy
/-- Bytes stored per site (R334). -/
def MRegion.siteBytes (g : MRegion) : Nat := if g.exact then 4 else 8

/-- Is a tile column exact (R332)? -/
def exactColumn (tx : Nat) : Bool := tx == 0 || tx == 15

/-- Tile numbers of a rectangle (R332, R335). -/
def rectTiles (tx0 tx1 ty0 ty1 : Nat) : List Nat :=
  ((List.range (tx1 + 1 - tx0)).map fun i => (List.range (ty1 + 1 - ty0)).map fun j => (tx0 + i) * 8 + (ty0 + j)).flatten

/-- The region's tiles. -/
def MRegion.tiles (g : MRegion) : List Nat := rectTiles g.tx0 g.tx1 g.ty0 g.ty1

/-- Local coordinates of a site index. -/
def MRegion.coord (g : MRegion) (i : Nat) : Nat × Nat × Nat := (i % g.wx, i / g.wx % g.wy, i / (g.wx * g.wy))

/-- Site index of local coordinates (R336). -/
def MRegion.index (g : MRegion) (x y z : Nat) : Nat := (z * g.wy + y) * g.wx + x

/-- Colour of a site: the tile origin is even in x and y (R331). -/
def MRegion.colour (g : MRegion) (i : Nat) : Nat := let c := g.coord i; (c.1 + c.2.1 + c.2.2) % 2

/-- The stored mantissas of a site: axis 0 Jx, 1 Jy, 2 Jz, 3 h (R334). -/
def MRegion.mant (g : MRegion) (i axis : Nat) : Int :=
  if g.exact then
    let w := Memory.readLe g.image (4 * i) 4
    if axis = 3 then signed 8 (bits w 23 16) else signed 4 (w >>> (4 * axis))
  else signed 16 (Memory.readLe g.image (8 * i + 2 * axis) 2)

/-- Bit i of the state image. -/
def spinBit (m : Memory) (i : Nat) : Bool := (Memory.read m (i / 8)).toNat.testBit (i % 8)

/-- The spin of a bit. -/
def spinOf (b : Bool) : Int := if b then 1 else -1

/-- Bit i of the state image written. -/
def setSpin (m : Memory) (i : Nat) (b : Bool) : Memory :=
  let v := (Memory.read m (i / 8)).toNat
  let p := 2 ^ (i % 8)
  Memory.write m (i / 8) (BitVec.ofNat 8 (if v.testBit (i % 8) then (if b then v else v - p) else (if b then v + p else v)))

/-! ## Extended neighbours (R389, R390) -/

/-- What a part of an extended run knows beyond its own columns: whether it has neighbours, the columns received, with the couplings of the
previous part's last column, its own last column's couplings, the global coordinates, and what names the half-sweep (context, run,
half-sweep). -/
structure Edge where
  hasPrev : Bool
  hasNext : Bool
  prev : Option (List Byte × List Int)
  next : Option (List Byte)
  own : List Int
  xOffset : Nat
  xTotal : Nat
  at_ : Nat × Nat × Nat
  deriving DecidableEq, Repr

/-- Does the part hold the lead? -/
def MExt.isLead (x : MExt) : Bool := x.part == 0

/-- Does it have a previous part? -/
def MExt.hasPrev (x : MExt) : Bool := x.part != 0

/-- Does it have a next part? -/
def MExt.hasNext (x : MExt) : Bool := x.part + 1 != x.parts

/-- Is a neighbour's last face recent enough for half-sweep h (R391)? No face of a half-sweep before the start or the resume is asked for
(log entry 43). -/
def MExt.recent (x : MExt) (h : Nat) (f : Option MossFaceMsg) : Bool :=
  decide (h ≤ x.first + x.stale) || (match f with | some f => decide (h ≤ f.halfSweep + 1 + x.stale) | none => false)

/-- May half-sweep h start (R391)? -/
def MExt.mayStart (x : MExt) (h : Nat) : Bool :=
  (!x.hasPrev || x.recent h x.facePrev) && (!x.hasNext || x.recent h x.faceNext)

/-- The staleness of a neighbour's spins in half-sweep h (R399). -/
def MExt.staleness (x : MExt) (h : Nat) (f : Option MossFaceMsg) : Nat :=
  match f with | some f => h - 1 - f.halfSweep | none => h - x.first

/-- Does the run wait for another part (R391, R393, R395)? -/
def MRun.extWaits (r : MRun) : Bool :=
  match r.ext with
  | none => false
  | some x => decide (r.stage < 7) && (!x.ready ||
      (r.stage == 0 && !x.started && !x.mayStart r.half) || (r.stage == 1 && (x.snap.isSome || x.asked == some r.sweep)) ||
      r.stage == 2 || (r.stage == 4 && !x.isLead && !(x.cutAt.any fun t => decide (r.sweep ≤ t))) || (r.stage == 6 && x.snap.isSome))

/-- A site of a border column: z * Wy + y. -/
def colSite (wy y z : Nat) : Nat := z * wy + y

/-- The term of the coupling from the last column to the next part (R390, R391). -/
def Edge.termNext (d : Edge) (k : Nat) : Int :=
  if !d.hasNext then 0 else
  match d.next with
  | some bs => d.own.getD k 0 * spinOf (packedBit bs k)
  | none => Config.mossUnseen d.at_.1 d.at_.2.1 d.at_.2.2 1 k

/-- The term of the coupling from the previous part into the first column. -/
def Edge.termPrev (d : Edge) (k : Nat) : Int :=
  if !d.hasPrev then 0 else
  match d.prev with
  | some f => f.2.getD k 0 * spinOf (packedBit f.1 k)
  | none => Config.mossUnseen d.at_.1 d.at_.2.1 d.at_.2.2 0 k

/-- ELEMENT of a site: its index with the global coordinate in an extended run (R389). -/
def MRegion.element (g : MRegion) (e : Option Edge) (i : Nat) : Nat :=
  match e with
  | none => i
  | some d => let c := g.coord i; (c.2.2 * g.wy + c.2.1) * d.xTotal + (d.xOffset + c.1)

/-! ## The local field (R346) -/

/-- The terms J * s of the couplings along X. -/
def MRegion.sumX (g : MRegion) (sp : Memory) (e : Option Edge) (i : Nat) : Int :=
  let c := g.coord i
  let up := if c.1 + 1 < g.wx then g.mant i 0 * spinOf (spinBit sp (i + 1))
    else match e with
      | some d => d.termNext (colSite g.wy c.2.1 c.2.2)
      | none => 0
  let down := if 0 < c.1 then g.mant (i - 1) 0 * spinOf (spinBit sp (i - 1))
    else match e with
      | some d => d.termPrev (colSite g.wy c.2.1 c.2.2)
      | none => 0
  up + down

/-- The terms J * s of the couplings along Y. -/
def MRegion.sumY (g : MRegion) (sp : Memory) (i : Nat) : Int :=
  let c := g.coord i
  (if c.2.1 + 1 < g.wy then g.mant i 1 * spinOf (spinBit sp (i + g.wx)) else 0) +
    (if 0 < c.2.1 then g.mant (i - g.wx) 1 * spinOf (spinBit sp (i - g.wx)) else 0)

/-- The site above along Z, with PERIODIC_Z. -/
def MRegion.upZ (g : MRegion) (i : Nat) : Option Nat :=
  let c := g.coord i
  if c.2.2 < 7 then some (i + g.wx * g.wy) else if g.periodic then some (i - 7 * (g.wx * g.wy)) else none

/-- The site below along Z, with PERIODIC_Z. -/
def MRegion.downZ (g : MRegion) (i : Nat) : Option Nat :=
  let c := g.coord i
  if 0 < c.2.2 then some (i - g.wx * g.wy) else if g.periodic then some (i + 7 * (g.wx * g.wy)) else none

/-- The terms J * s of the couplings along Z. -/
def MRegion.sumZ (g : MRegion) (sp : Memory) (i : Nat) : Int :=
  (match g.upZ i with | some j => g.mant i 2 * spinOf (spinBit sp j) | none => 0) +
    (match g.downZ i with | some j => g.mant j 2 * spinOf (spinBit sp j) | none => 0)

/-- a * 2^ea + b * 2^eb exactly, as an integer times a power of two. -/
def addScaled (a : Int) (ea : Int) (b : Int) (eb : Int) : Int × Int :=
  let e := min ea eb
  (a * 2 ^ (ea - e).toNat + b * 2 ^ (eb - e).toNat, e)

/-- An exact value rounded once to FP32, saturated to the largest finite value (R346). -/
def satF32 (v e : Int) : W32 :=
  let x := f32OfInt v e
  if x = f32Inf then f32Max else if x = f32NegInf then f32NegMax else x

/-- The local field of site i as an FP32 value. An exact region's F is an integer that FP32 holds exactly. -/
def MRegion.field (g : MRegion) (sp : Memory) (e : Option Edge) (i : Nat) : W32 :=
  let s := g.sumX sp e i + g.sumY sp i + g.sumZ sp i
  if g.exact then f32OfInt (s + g.mant i 3) 0
  else let r := addScaled s g.ej (g.mant i 3) g.eh; satF32 r.1 r.2

/-! ## The update (R347) -/

/-- The FP32 value 2. -/
def f32Two : W32 := 0x40000000#32

/-- The new spin: rule 0 heat bath, 1 Metropolis. -/
def mossUpdate (rule : Nat) (beta F : W32) (old : Bool) (u : Nat) : Bool :=
  let y := f32Mul beta F
  if rule = 0 then decide (u < f32Thresh (sigmoidK (f32Mul y f32Two)))
  else
    let a := if old then y else f32Neg y
    if f32Le a 0#32 then !old
    else if u < f32Thresh (expK (f32Neg (f32Mul a f32Two))) then !old else old

/-- One half-sweep q of sweep k of replica r: every site of colour q on the spins as they stand (R347). -/
def MRegion.halfSweep (g : MRegion) (key : W128) (rule : Nat) (beta : W32) (e : Option Edge) (r k q : Nat) : MRegion :=
  let sp := g.spins
  let new := (List.range g.sites).foldl (fun m i =>
    if g.colour i = q then
      let u := sporeDraw key 0x30 r (k * 2 + q) (g.element e i)
      setSpin m i (mossUpdate rule beta (g.field sp e i) (spinBit sp i) u)
    else m) sp
  { g with spins := new }

/-- β of rung g in a segment (R356). -/
def rungBeta (seg : MSegment) (ladder : List W32) (g : Nat) : W32 := f32Mul seg.beta (ladder.getD g 0#32)

/-- A random initial image (R354). -/
def MRegion.randomImage (g : MRegion) (key : W128) (e : Option Edge) (r : Nat) : List Byte :=
  packBits ((List.range g.sites).map fun i => decide (sporeDraw key 0x40 r 0 (g.element e i) < 0x800000))

/-! ## Loading (R339 to R345) -/

/-- The four source values of a site as exact values, for formats 0x00 and 0x0E. -/
def sourceVal (format : Nat) (src : List Byte) (i axis : Nat) : FVal :=
  let w := leAt src (16 * i + 4 * axis) 4
  if format = 0 then f32Val (BitVec.ofNat 32 w) else intVal (signed 32 w) 0

/-- Does the coupling of the axis stay inside the region (R340)? -/
def MRegion.keeps (g : MRegion) (periodic : Bool) (i axis : Nat) : Bool :=
  let c := g.coord i
  match axis with
  | 0 => decide (c.1 + 1 < g.wx)
  | 1 => decide (c.2.1 + 1 < g.wy)
  | 2 => decide (c.2.2 < 7) || periodic
  | _ => true

/-- Magnitude of an exact value as (m, e); 0 for zero. -/
def magOf : FVal → Nat × Int
  | .fin _ m e => (m, e)
  | _ => (0, 0)

/-- The larger of two magnitudes. -/
def maxMagOf (a b : Nat × Int) : Nat × Int :=
  let e := min a.2 b.2
  if a.1 * 2 ^ (a.2 - e).toNat < b.1 * 2 ^ (b.2 - e).toNat then b else a

/-- The exponent of R341 for the largest magnitude. -/
def cplExponent (a : Nat × Int) : Int :=
  if a.1 = 0 then 0 else max (-128) ((Nat.log2 a.1 : Int) + a.2 - 14)

/-- One stored value and what the loader counts about it: mantissa, the error |m 2^e - v| as a magnitude, and
whether it was flushed or saturated. -/
structure LoadVal where
  m : Int
  err : Nat × Int
  flushed : Bool
  saturated : Bool
  deriving DecidableEq, Repr

/-- A value converted under R64 with limit and exponent. -/
def loadVal (lim e : Int) (v : FVal) : LoadVal :=
  let m := toCpl lim e v
  let vi : Int × Int := match v with | .fin neg mm ee => ((if neg then -(mm : Int) else mm), ee) | _ => (0, 0)
  let d := addScaled m e (-vi.1) vi.2
  let raw := roundInt .rne (scaleVal (-e) v)
  ⟨m, (d.1.natAbs, d.2), m == 0 && vi.1 != 0, decide (raw < -lim) || decide (lim < raw)⟩

/-- A magnitude divided by a non-zero magnitude, rounded once to FP32; 0 when the divisor is zero (R343). -/
def errRatio (d a : Nat × Int) : W32 :=
  if a.1 = 0 then 0#32 else let q := divExact d.1 d.2 a.1 a.2; f32Round false q.1 q.2

/-- The stored bytes of one site from its four mantissas (R334). -/
def siteWord (exact : Bool) (ms : List Int) : List Byte :=
  let m := fun k => ms.getD k 0
  if exact then toLe 4 (unsigned 4 (m 0) + 16 * unsigned 4 (m 1) + 256 * unsigned 4 (m 2) + 65536 * unsigned 8 (m 3))
  else toLe 2 (unsigned 16 (m 0)) ++ toLe 2 (unsigned 16 (m 1)) ++ toLe 2 (unsigned 16 (m 2)) ++ toLe 2 (unsigned 16 (m 3))

/-- Bytes of the source that a load reads (R339). -/
def MRegion.sourceBytes (g : MRegion) (format : Nat) : Nat := g.sites * (if format = 0xFF then g.siteBytes else 16)

/-- The stored words of a RAW source with ignored couplings zeroed, and the count of those that were not zero. -/
def MRegion.rawLoad (g : MRegion) (src : List Byte) (periodic : Bool) : List Byte × Nat :=
  let tmp := { g with image := Memory.writeBytes [] 0 src }
  let rows := (List.range g.sites).map fun i => (List.range 4).map fun a =>
    if g.keeps periodic i a then (tmp.mant i a, false) else (0, tmp.mant i a != 0)
  ((rows.map fun r => siteWord g.exact (r.map (·.1))).flatten, ((rows.flatten).filter (·.2)).length)

/-- Does a RAW source hold a forbidden code (R62, R63)? -/
def MRegion.rawBad (g : MRegion) (src : List Byte) : Bool :=
  let tmp := { g with image := Memory.writeBytes [] 0 src }
  (List.range g.sites).any fun i => (List.range 4).any fun a =>
    tmp.mant i a == (if g.exact then (if a = 3 then -128 else -8) else -32768)

/-- Does an FP32 source hold a NaN or an infinity (R344)? -/
def MRegion.fpBad (g : MRegion) (format : Nat) (src : List Byte) : Bool :=
  format == 0 && (List.range (4 * g.sites)).any fun k => !f32Finite (BitVec.ofNat 32 (leAt src (4 * k) 4))

/-- The values of one kind (0 couplings, 1 fields) that the region stores. -/
def MRegion.storedVals (g : MRegion) (format : Nat) (src : List Byte) (periodic : Bool) (kind : Nat) : List FVal :=
  ((List.range g.sites).map fun i => ((if kind = 0 then [0, 1, 2] else [3]).filter (g.keeps periodic i)).map
    (sourceVal format src i)).flatten

/-- The problem digest (R345). -/
def MRegion.problemDigest (g : MRegion) : List Byte :=
  sha384 (Memory.readBytes g.image 0 (g.sites * g.siteBytes) ++ toLe 1 (unsigned 8 g.ej) ++ toLe 1 (unsigned 8 g.eh) ++
    toLe 1 (b2n g.periodic))

/-- What one kind of values turns into: the exponent, its largest error, flushed and saturated. -/
structure KindLoad where
  e : Int
  err : W32
  flushed : Nat
  saturated : Nat
  deriving DecidableEq, Repr

/-- Exponent and figures of one kind (R341 to R343). -/
def kindLoad (exact : Bool) (kind : Nat) (vs : List FVal) : KindLoad :=
  let lim : Int := if exact then (if kind = 0 then 7 else 127) else 32767
  let a := vs.foldl (fun m v => maxMagOf m (magOf v)) (0, 0)
  let e := if exact then 0 else cplExponent a
  let ls := vs.map (loadVal lim e)
  let worst := ls.foldl (fun m l => maxMagOf m l.err) (0, 0)
  ⟨e, errRatio worst (if exact then (lim.toNat, 0) else a), (ls.filter (·.flushed)).length, (ls.filter (·.saturated)).length⟩

/-- The Jx of the last column's sites, in the order of `colSite` (R390). -/
def MRegion.edgeVals (g : MRegion) (v : Nat → Int) : List Int :=
  (List.range (8 * g.wy)).map fun k => v (g.index (g.wx - 1) (k % g.wy) (k / g.wy))

/-- The region after a successful load; `ej`, `eh` are the exponents of a RAW source. -/
def MRegion.load (g : MRegion) (format : Nat) (src : List Byte) (periodic : Bool) (ej eh : Int) : MRegion :=
  let fin := fun (g : MRegion) => { g with digest := g.problemDigest, periodic := periodic, st := 2 }
  if format = 0xFF then
    let r := g.rawLoad src periodic
    let tmp := { g with image := Memory.writeBytes [] 0 src }
    let g := { g with image := Memory.writeBytes [] 0 r.1, periodic := periodic }
    fin { g with ej := if g.exact then 0 else ej, eh := if g.exact then 0 else eh, qerrJ := 0#32, qerrH := 0#32,
                 flushed := 0, saturated := 0, dropped := r.2, edge := g.edgeVals fun i => tmp.mant i 0 }
  else
    let kj := kindLoad g.exact 0 (g.storedVals format src periodic 0)
    let kh := kindLoad g.exact 1 (g.storedVals format src periodic 1)
    let limJ : Int := if g.exact then 7 else 32767
    let limH : Int := if g.exact then 127 else 32767
    let words := (List.range g.sites).map fun i => siteWord g.exact ((List.range 4).map fun a =>
      if g.keeps periodic i a then toCpl (if a = 3 then limH else limJ) (if a = 3 then kh.e else kj.e) (sourceVal format src i a)
      else 0)
    let dropped := ((List.range g.sites).map fun i => ([0, 1, 2].filter fun a =>
      !g.keeps periodic i a && (magOf (sourceVal format src i a)).1 != 0).length).sum
    let g := { g with image := Memory.writeBytes [] 0 words.flatten, periodic := periodic }
    fin { g with ej := kj.e, eh := kh.e, qerrJ := kj.err, qerrH := kh.err, flushed := kj.flushed + kh.flushed,
                 saturated := kj.saturated + kh.saturated, dropped := dropped,
                 edge := g.edgeVals fun i => toCpl limJ kj.e (sourceVal format src i 0) }

/-! ## Energy (R377 to R379) -/

/-- CJ: the owned couplings over a state image (R377). -/
def MRegion.cj (g : MRegion) (sp : Memory) (e : Option Edge) : Int :=
  ((List.range g.sites).map fun i =>
    let c := g.coord i
    let s := spinOf (spinBit sp i)
    let x := if c.1 + 1 < g.wx then s * g.mant i 0 * spinOf (spinBit sp (i + 1)) else
      match e with | some d => s * d.termNext (colSite g.wy c.2.1 c.2.2) | none => 0
    let y := if c.2.1 + 1 < g.wy then g.mant i 1 * spinOf (spinBit sp (i + g.wx)) else 0
    let z := match g.upZ i with | some j => g.mant i 2 * spinOf (spinBit sp j) | none => 0
    x + s * (y + z)).foldl (· + ·) 0

/-- CH (R377). -/
def MRegion.ch (g : MRegion) (sp : Memory) : Int :=
  ((List.range g.sites).map fun i => g.mant i 3 * spinOf (spinBit sp i)).foldl (· + ·) 0

/-- E_EXP. -/
def eExp (ej eh : Int) : Int := min ej eh

/-- E_INT from CJ and CH (R377). -/
def eInt (ej eh cj ch : Int) : Int :=
  -(cj * 2 ^ (ej - eExp ej eh).toNat) - (ch * 2 ^ (eh - eExp ej eh).toNat)

/-! ## Chains and constraints (R374 to R381) -/

/-- Is a chain map well formed (R374)? -/
def chainMapOk (v : Nat) (m : List Nat) : Bool :=
  m.all (fun e => bits e 30 20 == 0 && (!bit e 31 || decide (bits e 19 0 < v)) ) &&
    (List.range v).all fun c => m.any fun e => bit e 31 && bits e 19 0 == c

/-- P, M, the lowest member's global index and its spin, for chain c (R375). -/
def chainTally (m : List Nat) (c : Nat) (bitAt : Nat → Bool) (elem : Nat → Nat) : Nat × Nat × Nat × Bool :=
  let members := (List.range m.length).filter fun i => bit (m.getD i 0) 31 && bits (m.getD i 0) 19 0 == c
  let low := members.foldl (fun (acc : Option Nat) i => match acc with
    | none => some i | some j => if elem i < elem j then some i else some j) none
  let p := (members.filter bitAt).length
  (p, members.length - p, (low.map elem).getD (2 ^ 64), (low.map bitAt).getD false)

/-- The vote and whether the chain is broken (R375). -/
def chainVote (t : Nat × Nat × Nat × Bool) : Bool × Bool :=
  (if t.2.1 < t.1 then true else if t.1 < t.2.1 then false else t.2.2.2, t.1 != 0 && t.2.1 != 0)

/-- Two parts' tallies of one chain added (R393). -/
def addTally (a b : Nat × Nat × Nat × Bool) : Nat × Nat × Nat × Bool :=
  (a.1 + b.1, a.2.1 + b.2.1, if a.2.2.1 ≤ b.2.2.1 then a.2.2 else b.2.2)

/-- VBYTES (R385). -/
def vBytes (chains imageBytes : Nat) : Nat := if chains = 0 then imageBytes else ceilDiv chains 512 * 64

/-- The result vector of vote bits, padded to VBYTES. -/
def voteVector (votes : List Bool) : List Byte := bytesAt (packBits votes) 0 (ceilDiv votes.length 512 * 64)

/-- The sum of a constraint's terms over variable values (R381). -/
def constrSum (c : MConstraint) (val : Nat → Bool) : Int :=
  (c.terms.map fun t => t.2 * (b2n (val t.1) : Int)).foldl (· + ·) 0

/-- Violated count and lowest violated number from the sums (R381). -/
def violations (cs : List MConstraint) (sums : List Int) : Nat × Nat :=
  let bad := ((List.range cs.length).filter fun k =>
    match cs[k]? with
    | some c => let s := sums.getD k 0; decide (s < c.lo) || decide (c.hi < s)
    | none => false)
  (bad.length, bad.headD 0xFFFFFFFF)

/-- A constraint table parsed, none when it breaks R380; `vars` is the run's variable count. -/
def parseConstr (bs : List Byte) (vars : Nat) : Option (List MConstraint × Nat) :=
  let c := leAt bs 0 4
  let t := leAt bs 4 4
  let term := fun k => (bits (leAt bs (16 + 16 * c + 8 * k) 4) 21 0, signed 16 (leAt bs (16 + 16 * c + 8 * k + 4) 2))
  let cons := (List.range c).map fun k =>
    let o := 16 + 16 * k
    (leAt bs o 4, leAt bs (o + 4) 4, signed 32 (leAt bs (o + 8) 4), signed 32 (leAt bs (o + 12) 4))
  let okC := decide (1 ≤ c) && decide (c ≤ 4096) && decide (1 ≤ t) && decide (t ≤ 4194304) && zeroAt bs 8 8
  let okE := cons.all fun e => decide (e.1 + e.2.1 ≤ t) && decide (e.2.2.1 ≤ e.2.2.2)
  let okT := (List.range t).all fun k =>
    let o := 16 + 16 * c + 8 * k
    bits (leAt bs o 4) 31 22 == 0 && zeroAt bs (o + 6) 2 && decide ((term k).1 < vars)
  if okC && okE && okT then
    some (cons.map (fun e => ⟨(List.range e.2.1).map fun j => term (e.1 + j), e.2.2.1, e.2.2.2⟩), t)
  else none

/-- Bytes of a constraint table. -/
def constrBytes (header : List Byte) : Nat := 16 + 16 * leAt header 0 4 + 8 * leAt header 4 4

/-! ## The result set (R384, R385) -/

/-- Does candidate a order before b (R384)? -/
def candBefore (a b : MossCand) : Bool :=
  decide (a.e < b.e) || (a.e == b.e && (decide (a.sweep < b.sweep) || (a.sweep == b.sweep && decide (a.replica < b.replica))))

/-- Insertion after every entry that orders before it. -/
def insertCand (c : MossCand) : List MossCand → List MossCand
  | [] => [c]
  | x :: xs => if candBefore x c then x :: insertCand c xs else c :: x :: xs

/-- Is a candidate better than a stored one by energy alone? -/
def lowerThan (c : MossCand) (o : Option MossCand) : Bool := match o with | none => true | some b => decide (c.e < b.e)

/-- One candidate offered (R384); `same` says which stored vectors equal the candidate's. -/
def ResSet.offer (s : ResSet) (depth : Nat) (feasOnly : Bool) (same : MossCand → Bool) (c : MossCand) : ResSet :=
  let s1 := { s with best := if lowerThan c s.best then some c else s.best,
                     feas := if c.feasible && lowerThan c s.feas then some c else s.feas,
                     feasSeen := s.feasSeen + b2n c.feasible }
  if feasOnly && !c.feasible then s1 else
  match s1.res.find? same with
  | some x => if x.e ≤ c.e then s1
      else { s1 with res := (insertCand c (s1.res.filter (fun y => y != x))).take depth }
  | none => { s1 with res := (insertCand c s1.res).take depth }

/-- Size of the result section (R385). -/
def sectionSize (depth vbytes : Nat) : Nat := 1152 + (depth + 2) * (64 + vbytes)

/-- One slot of the section (R385). -/
def candSlot (vbytes : Nat) : Option MossCand → List Byte
  | none => toLe 20 0 ++ toLe 4 0 ++ toLe 4 0 ++ toLe 4 0 ++ List.replicate (32 + vbytes) 0#8
  | some c =>
    toLe 8 (unsigned 64 c.e) ++ toLe 8 c.sweep ++ toLe 1 c.replica ++
      toLe 1 (1 + 2 * b2n c.feasible + 4 * b2n c.closed) ++ toLe 2 0 ++ toLe 4 c.violated ++ toLe 4 c.firstViol ++
      toLe 4 c.broken ++ List.replicate 32 0#8 ++ bytesAt c.vec 0 vbytes

/-- A slot read back. -/
def parseSlot (bs : List Byte) (o vbytes : Nat) : Option MossCand :=
  let fl := leAt bs (o + 17) 1
  if bit fl 0 then
    some { e := signed 64 (leAt bs o 8), sweep := leAt bs (o + 8) 8, replica := leAt bs (o + 16) 1,
           vec := bytesAt bs (o + 64) vbytes, feasible := bit fl 1, closed := bit fl 2,
           violated := leAt bs (o + 20) 4, firstViol := leAt bs (o + 24) 4, broken := leAt bs (o + 28) 4 }
  else none

/-- The result section of a run (R385). -/
def MRun.resBytes (r : MRun) (vbytes : Nat) (ee : Int) : List Byte :=
  let fl := b2n (r.chains != 0) + 2 * b2n r.ext.isSome + 4 * b2n r.feasOnly
  let head := toLe 4 0x4B565253 ++ toLe 2 1 ++ toLe 1 r.depth ++ toLe 1 r.set.res.length ++ toLe 4 vbytes ++
    toLe 1 (unsigned 8 ee) ++ toLe 1 fl ++ toLe 2 0 ++ toLe 8 r.set.samples ++ toLe 8 r.set.feasSeen ++
    r.chainDigest ++ r.constrDigest
  let finals := ((List.range 128).map fun k => toLe 8 (unsigned 64 (r.set.finals.getD k 0))).flatten
  let slots := ((List.range (r.depth + 2)).map fun k =>
    candSlot vbytes (if k = 0 then r.set.best else if k = 1 then r.set.feas else r.set.res[k - 2]?)).flatten
  head ++ finals ++ slots

/-- A result section read back (R386). -/
def parseResSet (bs : List Byte) : ResSet :=
  let depth := leAt bs 6 1
  let vb := leAt bs 8 4
  let slot := fun k => parseSlot bs (1152 + k * (64 + vb)) vb
  { best := slot 0, feas := slot 1, res := ((List.range depth).filterMap fun k => slot (k + 2)),
    finals := (List.range 128).map fun k => signed 64 (leAt bs (128 + 8 * k) 8),
    samples := leAt bs 16 8, feasSeen := leAt bs 24 8 }

/-! ## Exchange (R357) -/

/-- Does the pair (g, g + 1) swap? `de` is E_A - E_B, `ee` its exponent. -/
def exchangeSwaps (betaG betaG1 : W32) (de ee : Int) (u : Nat) : Bool :=
  let x := f32Mul (f32Sub betaG betaG1) (f32OfInt de ee)
  if f32IsNaN x then false else f32Le 0#32 x || decide (u < f32Thresh (expK x))

end Sys2Proof.Machine
end

