-- ==== Sys2Proof/Machine/StDev.lean ====
section
/-!
DEFINITION. The state of the device outside cores, jobs, links and the Moss: clocks, throttle, power, resets,
boot, mode, security, entropy, errors, dump, telemetry and the management ports (chapters 1, 6, 15 to 20).
-/
namespace Sys2Proof.Machine

/-! ## Clocks, power, resets, boot and mode (chapters 1 and 17) -/

/-- One half's part of chapter 17. `owner` is the context that runs on the half (R536), `level` the throttle
level in force, `therm`, `power` the requests of R599, `next` the decided levels, each with the root edge of its first
frame boundary (R600), `rel` the root edge of the last release of the dividers, `nc` the slots not skipped and
`skip` the slots skipped since cold reset, `evtTsc` the TSC at which a 1 ms interval of THROTTLE_CHANGED
began (R624) and `evtOld` the level before it, `flags` the half flags of R556, `failed` the FAILED
slices (R633), `degraded` RAS_STATUS's bit (R638). -/
structure Half where
  owner : Nat
  level : Nat
  therm : Nat
  power : Nat
  next : List (Nat × Nat)
  rel : Nat
  nc : Nat
  skip : Nat
  evtTsc : Option Nat
  evtOld : Option Nat
  flags : Nat
  failed : List Nat
  degraded : Bool
  phase : Nat
  hbMissed : Nat
  hbSent : Nat
  deriving DecidableEq, Repr

/-- A half at reset. -/
def Half.init : Half :=
  { owner := 0, level := 0, therm := 0, power := 0, next := [], rel := 0, nc := 0, skip := 0, evtTsc := none,
    evtOld := none, flags := 0, failed := [], degraded := false, phase := 0, hbMissed := 0, hbSent := 0 }

/-- Why DVS_STATUS reads HALTED (R700). -/
inductive Halt where
  | none
  | noFirmware
  | scrapped
  | primacy
  | refclk
  | fatal (kind : Nat)
  deriving DecidableEq, Repr

/-- Clocks and boot progress (R592 to R597, R612 to R614). `edges` counts root edges from the release of the
dividers after a cold reset, so that the TSC is `edges / 6` (R593). `fuses` to `plan` are the steps of the boot that are done,
`rejoined` whether the boot's rejoin round has ended, `zeroed` whether every LPDDR5X line has been zeroed after
the cold reset (R530), `wasReady` whether READY has been reached since the last cold or device reset, `activating` whether new firmware
starts (R552), `cold` whether the last wide reset was a cold one. -/
structure Boot where
  edges : Nat
  running : Bool
  pllLock : Bool
  aligned : Bool
  fuses : Bool
  firmware : Bool
  controllers : Bool
  plan : Bool
  zeroed : Bool
  rejoined : Bool
  ready : Bool
  wasReady : Bool
  activating : Bool
  halt : Halt
  cold : Bool
  deriving DecidableEq, Repr

/-- Board pins and straps (R681, R682, R606). An input is true while asserted; `selWest`, `selEast` and
`bootSrc` are the strap levels and the `lat` fields their latched copies. -/
structure Pins where
  pwrgood : Bool
  perst : Bool
  refclk : Bool
  lrefclk : Bool
  throttle : Bool
  fatal : Bool
  thermtrip : Bool
  selWest : Bool
  selEast : Bool
  bootSrc : Bool
  latWest : Bool
  latEast : Bool
  latBoot : Bool
  deriving DecidableEq, Repr

/-- Throttle and power set-up of chapter 17 and the power domains. `on` has bit d set while PDd is ON,
`rising` the domains that are powering, `round` the units of the rejoin round in progress as (kind, index)
with kind 0 core and 1 tile (R604). -/
structure Pwr where
  pinLevel : Nat
  tThrottle : Nat
  limit : Nat
  idleOff : Bool
  hostReq : Nat
  on : Nat
  rising : List Nat
  round : List (Nat × Nat)
  running : Bool
  units : Nat
  fails : Nat
  deriving DecidableEq, Repr

/-- A reset in progress: its kind, halves and core, and why it was requested, coded as RST_STATUS.LAST_CAUSE. -/
structure ResetRun where
  kind : Nat
  halves : Nat
  core : Nat
  cause : Nat
  deriving DecidableEq, Repr

/-- The RST block and the reset in progress (R606 to R611, R626). -/
structure Rst where
  busy : Option ResetRun
  lastKind : Nat
  lastCause : Nat
  refused : Bool
  device : Nat
  job : Nat
  half : Nat
  flr : Nat
  lastTsc : Nat
  deriving DecidableEq, Repr

/-- The MGT block, primacy and the planting plan (R36 to R40, R615 to R623). `numeric` holds the NUMERIC bytes
in force, `planBytes` the plan that boot read, `buffer` the plan that a write is putting into flash. -/
structure Mgt where
  modeReq : Nat
  modeCur : Nat
  pend : Bool
  changing : Bool
  planSplit : Bool
  claimW : Nat
  claimE : Nat
  agreed : Bool
  primary : Nat
  hbOk : Bool
  hbLost : Bool
  loaded : Bool
  defaulted : Bool
  allow : Bool
  pending : Bool
  src : Nat
  buffer : List Byte
  busy : Bool
  status : Nat
  numeric : List Byte
  planBytes : List Byte
  deriving DecidableEq, Repr

/-- The GLB block (R655) and the access latches of every block, by register offset (R10, R12): `latch` the high halves that reads of a
low half have latched, `low` the low halves held for a write, `setAt` the nc in which the device last set the register's RW1C bit. -/
structure Glb where
  lock : Bool
  denied : Bool
  latch : Map Nat
  low : Map Nat
  setAt : Map Nat
  deriving DecidableEq, Repr

/-! ## Security (chapter 15) -/

/-- The fuses (R544, R547, R548, R550); `keys` are the public keys whose digests `keyDigests` are (log entry 3). -/
structure Fuses where
  serial : Nat
  lc : Nat
  svn : Nat
  keyDigests : List (List Byte)
  revoked : List Nat
  keys : List (Nat × Nat)
  rootDigest : List Byte
  identity : Nat
  memKey : List Byte
  deriving DecidableEq, Repr

/-- One context (R525 to R530). `st` is the state code. -/
structure Ctx where
  st : Nat
  base : Nat
  size : Nat
  gen : Nat
  viewKey : Nat
  secret : List Byte
  deriving DecidableEq, Repr

/-- A context that is not registered. -/
def Ctx.free : Ctx := ⟨0, 0, 0, 0, 0, []⟩

/-- A scrub in progress (R537 to R540): half mask, reason code, xc left. -/
structure Scrub where
  halves : Nat
  reason : Nat
  left : Nat
  deriving DecidableEq, Repr

/-- A CTX_RUN or CTX_DESTROY that waits for its switches (R532, R535): the command, the incoming context, the
halves still to switch, the context being destroyed, the outgoing context and its step once a half's switch has
begun, and whether the cutting of order 3 is still awaited. -/
structure Switch where
  head : Head
  opcode : Nat
  incoming : Nat
  halves : Nat
  destroy : Option Nat
  outgoing : Nat
  outStep : Option Nat
  scrubbing : Bool
  deriving DecidableEq, Repr

/-- The SEC block and the island (R524 to R562). `fwAt` are the source address and size that STAGE latched, `handshakes` the
SPDM key exchanges that await FINISH. -/
structure Sec where
  ctxs : Map Ctx
  nextGen : Nat
  lcTarget : Nat
  lcPend : Bool
  nonce : Nat
  lcSrc : Nat
  slot : Nat
  fallback : Bool
  svn : Nat
  keyIndex : Nat
  fwNumeric : Nat
  fwBytes : List Byte
  viewKey : Nat
  view : Nat
  viewFails : Nat
  ctxSel : Nat
  scrub : Option Scrub
  scrubs : Nat
  switch : Option Switch
  fwSrc : Nat
  fwSize : Nat
  fwState : Nat
  fwStatus : Nat
  fwDone : Nat
  fwTotal : Nat
  prevSlot : Nat
  prevNumeric : Nat
  fwAt : Nat × Nat
  log : List (List Byte)
  logSeq : Nat
  logDigest : List Byte
  sessions : Nat
  handshakes : Nat
  islandFail : Bool
  memKey : List Byte
  deriving DecidableEq, Repr

/-! ## Entropy and DRBG (chapter 16) -/

/-- Who asked for random bytes: a ring command, a job seed (context), or an object seed (context, tray index)
(R577). -/
inductive RandFor where
  | command (h : Head) (opcode : Nat) (host : Nat)
  | jobSeed (ctx : Nat)
  | objectSeed (ctx index : Nat)
  | trainNonce (port : Nat)
  | lcNonce
  | memKey
  | secretIv (port : Nat)
  | jobSecret (ctx : Nat)
  deriving DecidableEq, Repr

/-- A waiting request of the random service: kind 0 stochastic, 1 DRBG, 2 raw; `osc` the filter of a raw
request; `fresh` PRED_RESIST before its reseed (R576, R582). -/
structure RandReq where
  who : RandFor
  kind : Nat
  need : Nat
  osc : Option Nat
  fresh : Bool
  got : List Byte
  deriving DecidableEq, Repr

/-- One oscillator's health-test carry: its last sample and the run length (R565), and the pattern
generator's state (R587). -/
structure Osc where
  last : Nat
  run : Nat
  lfsr : Nat
  deriving DecidableEq, Repr

/-- The ENS block and the source (R563 to R577). `startup` says that the window in progress is a start-up
window, `settling` that the 128 ES after a restart still run, `sample` the
index of the next test-pattern sample, `secOsc` the oscillator whose block of this window is the security
block, `taken` the security blocks taken. -/
structure Ens where
  ready : Bool
  secHalt : Bool
  stoch : Nat
  consec : Nat
  testEn : Bool
  pattern : Nat
  oscs : List Osc
  sample : Nat
  settling : Bool
  startup : Bool
  secOsc : Option Nat
  taken : Nat
  secWanted : Bool
  secBlock : Option (List Byte)
  queue : List RandReq
  window : Nat
  fails : Nat
  restarts : Nat
  lastFail : Nat
  delivered : Nat
  deriving DecidableEq, Repr

/-- The DRB block and the CTR_DRBG (R579 to R582). -/
structure Drb where
  log2Base : Nat
  st : Nat
  due : Bool
  key : List Byte
  v : List Byte
  count : Nat
  reseeds : Nat
  generates : Nat
  deriving DecidableEq, Repr

/-! ## Spore known-answer port (chapter 6) -/

/-- The SPG block (R224 to R228). `lanes` holds the last self-test of each core's lane block: 1 passed, 2 failed. -/
structure Spg where
  sel : Nat
  keyLo : W64
  keyHi : W64
  ctrLo : W64
  ctrHi : W64
  runKey : W128
  runCtr : W128
  busy : Bool
  done : Bool
  outLo : W64
  outHi : W64
  u24 : Nat
  gumbel : W32
  lanes : Map Nat
  deriving DecidableEq, Repr

/-! ## Errors, dump and telemetry (chapters 18 to 20) -/

/-- One error record (R648). -/
structure ErrRec where
  tsc : Nat
  source : Nat
  kind : Nat
  cls : Nat
  status : Nat
  ctx : Nat
  addr : Nat
  detail : Nat
  deriving DecidableEq, Repr

/-- A mark or a retirement: kind 0 core, 1 tile; cause the error kind of R636 (0x03 for the threshold of R637,
0 for a rejoin failure). -/
structure Mark where
  kind : Nat
  unit : Nat
  cause : Nat
  deriving DecidableEq, Repr

/-- One entry of the UE list (R631). A regrow that rewrites the line removes it (R632): it stays as `rewritten`, so that a second error
marks it HARD. -/
structure UeEntry where
  dpa : Nat
  line : Nat
  hard : Bool
  rewritten : Bool
  deriving DecidableEq, Repr

/-- The RAS block (R627 to R649). `marks` await a sparing point, `retired` the cause of each retirement,
`restore` the units of R639, `sramUe` the slice words that met an uncorrectable error since the last job reset,
`ceUnits` the corrected errors of each unit within its job (R637). -/
structure Ras where
  log : List ErrRec
  logLost : Nat
  idx : Nat
  ceSramW : Nat
  ceSramE : Nat
  ceLpxW : Nat
  ceLpxE : Nat
  ceCoreW : Nat
  ceCoreE : Nat
  thCore : Nat
  thSram : Nat
  thLpx : Nat
  spareSel : Nat
  marks : List Mark
  retired : List Mark
  restore : List Mark
  peerTo : Nat
  wdog : Nat
  ue : List UeEntry
  sramUe : List (Nat × Nat)
  ceUnits : Map Nat
  deriving DecidableEq, Repr

/-- The DMP block and a dump in progress (R640 to R643): the image being written, its trigger. -/
structure Dmp where
  base : Nat
  size : Nat
  arm : Bool
  st : Nat
  doneBit : Bool
  status : Nat
  doneBytes : Nat
  image : List Byte
  deriving DecidableEq, Repr

/-- TEL and SMBus values (R661, R687): the last update's sensors and powers, the ALERT byte, and `now` the last reading of
each sensor. -/
structure Tel where
  sel : Nat
  temps : List Nat
  device : Nat
  west : Nat
  east : Nat
  alert : Nat
  now : List Nat
  jtagIr : JtagIr
  deriving DecidableEq, Repr

end Sys2Proof.Machine
end

