-- ==== Sys2Proof/Machine/StHost.lean ====
section
/-!
DEFINITION. The state of the host attachment: ring sets, events and the host port (chapter 13).
-/
namespace Sys2Proof.Machine

/-- The counts of an observed CMD_PI: entries below `upto` were observed at count `xc` of the half that runs the
context, when the job's stall counters read `refresh` and `retry` (R409). -/
structure Observed where
  upto : Nat
  xc : Nat
  refresh : Nat
  retry : Nat
  deriving DecidableEq, Repr

/-- One ring set (R453 to R463, R486, R487). Counts are the 64-bit running counts of R455. `st` is the state
code of R462, `errWait` the indices (bit 0 CMD_PI to bit 3 EVT_CI) whose invalid value RING_ERROR has reported (R461), `hold` the sequence number of the command of R467 that stops further fetches, `line` whether the
device holds the doorbell line in Shared state and `await` whether a re-read is under way (R457), `reserved`
the completion records reserved for fetched commands (R461), `evtWait` the events lost since the last
EVENTS_LOST, `unsig` the records that no vector has signalled, per ring (completion, token, event). -/
structure RingSet where
  enable : Bool
  irqEn : Bool
  hostMinor : Nat
  hostMajor : Nat
  st : Nat
  negMinor : Nat
  err : Nat
  szCmd : Nat
  szTok : Nat
  szCpl : Nat
  szEvt : Nat
  cmdBase : Nat
  tokBase : Nat
  cplBase : Nat
  evtBase : Nat
  dbAddr : Nat
  wbAddr : Nat
  irqDelay : Nat
  irqCount : Nat
  cmdCi : Nat
  cmdPi : Nat
  tokPi : Nat
  tokCi : Nat
  cplPi : Nat
  cplCi : Nat
  evtPi : Nat
  evtCi : Nat
  bar2 : List W32
  errWait : Nat
  line : Bool
  await : Bool
  hold : Option Nat
  reserved : Nat
  evtLost : Nat
  evtWait : Nat
  evtPosted : Nat
  evtLast : Nat
  unsig : List Nat
  obs : List Observed
  deriving DecidableEq, Repr

/-- A ring set at reset (R487, R674). -/
def RingSet.init : RingSet :=
  { enable := false, irqEn := false, hostMinor := 0, hostMajor := 0, st := 0, negMinor := 0, err := 0,
    szCmd := 0, szTok := 0, szCpl := 0, szEvt := 0, cmdBase := 0, tokBase := 0, cplBase := 0, evtBase := 0,
    dbAddr := 0, wbAddr := 0, irqDelay := 0, irqCount := 0, cmdCi := 0, cmdPi := 0, tokPi := 0, tokCi := 0,
    cplPi := 0, cplCi := 0, evtPi := 0, evtCi := 0, bar2 := [0#32, 0#32, 0#32, 0#32], errWait := 0,
    line := false, await := false, hold := none, reserved := 0, evtLost := 0, evtWait := 0, evtPosted := 0,
    evtLast := 0, unsig := [0, 0, 0], obs := [] }

/-- A posted event that is held (R478 to R480): `ring` is the event ring it goes to, `tsc` the true TSC, `carried` the TSC that its
record carries. -/
structure Event where
  ring : Nat
  tsc : Nat
  carried : Nat
  source : Nat
  code : Nat
  status : Nat
  ctx : Nat
  coarse : Bool
  replay : Bool
  payload : List Byte
  deriving DecidableEq, Repr

/-- One aperture of the staging window (R450). -/
structure Aperture where
  target : Nat
  ctx : Nat
  base : Nat
  deriving DecidableEq, Repr

/-- A host access that a scrub holds (R452, R539). -/
inductive HeldAccess where
  | bar0Write (offset size : Nat) (v : W64)
  | hdmWrite (offset : Nat) (data : List Byte) (poison : Bool)
  | hdmRead (offset size : Nat)
  deriving DecidableEq, Repr

/-- The host port. `mem` is host memory, `bad` the host ranges (address, bytes) whose reads fail under R699,
`busMaster` Bus Master Enable, `trained` whether a link is up; `sets` the ring sets; `held` the events that
wait for their release, `held0` the events bound for ring set 0 while it cannot receive, `lost0` the events
lost beyond them (R479); `signalled` counts the messages of each MSI-X vector (R447); `accesses` what a scrub
holds; `tail` the last event records written to any ring (R643). -/
structure HostPort where
  mem : Memory
  bad : List (Nat × Nat)
  busMaster : Bool
  trained : Bool
  cxl : Bool
  width : Nat
  rate : Nat
  cacheEn : Bool
  memEn : Bool
  ideIo : Bool
  ideCm : Bool
  sets : Map RingSet
  queSel : Nat
  evtSel : Nat
  hdmLog2 : Nat
  hdmDenied : Nat
  apts : Map Aperture
  devBias : List (Nat × Nat)
  signalled : Map Nat
  held : List Event
  held0 : List Event
  lost0 : Nat
  accesses : List HeldAccess
  tail : List (List Byte)
  deriving DecidableEq, Repr

/-- The host port at reset (R487; log entry 4 for host memory). -/
def HostPort.init : HostPort :=
  { mem := [], bad := [], busMaster := false, trained := false, cxl := false, width := 0, rate := 0,
    cacheEn := false, memEn := false, ideIo := false, ideCm := false, sets := [], queSel := 0, evtSel := 0,
    hdmLog2 := 0, hdmDenied := 0, apts := [], devBias := [], signalled := [], held := [], held0 := [],
    lost0 := 0, accesses := [], tail := [] }

end Sys2Proof.Machine
end

