-- ==== Sys2Proof/Machine/StJob.lean ====
section
/-!
DEFINITION. The state of a job: streams, pages, beds, Gibbs models and runs, the step engine, cuttings,
mirrors and regrow (chapters 7, 8, 9, 12, 13).
-/
namespace Sys2Proof.Machine

/-! ## Jobs: streams, beds, Gibbs models, cuttings (chapters 7, 8, 9, 12, 13) -/

/-- One seed-tray entry (R232, R315). `pending` are the tokens received and not ingested, `pages` the page
list, `masks` the mask entries of R234; the chunks hold the lists in LPDDR5X (R231). `fetch` is what a PROMPT entry fetches:
the host address with the token count, or with the initialisation mode of a chain; `fetched` says that it has arrived. -/
structure Stream where
  kind : Nat
  st : Nat
  gen : Nat
  parent : Nat
  seed : W64
  pos : Nat
  maxLen : Nat
  scoreFrom : Nat
  pin : Bool
  hold : Bool
  forcedNote : Bool
  seedDev : Bool
  seedWait : Bool
  epoch : Nat
  stopSet : Nat
  parkSet : Nat
  temp : W32
  topP : W32
  topK : Nat
  fault : Nat
  pending : List Nat
  pendChunks : List Nat
  pages : List Nat
  pageChunks : List Nat
  masks : List W32
  readyStep : Nat
  user : W64
  sweep : Nat
  model : Nat
  clampLayers : Nat
  clampUnits : Bool
  mirror : Bool
  runs : Nat
  clampPtr : Nat
  samples : Nat
  fetch : Nat × Nat
  fetched : Bool
  deriving DecidableEq, Repr

/-- A free entry that no stream has used. -/
def Stream.free : Stream :=
  { kind := 0, st := 0, gen := 0, parent := 0, seed := 0#64, pos := 0, maxLen := 0, scoreFrom := 0, pin := false,
    hold := false, forcedNote := false, seedDev := false, seedWait := false, epoch := 0, stopSet := 0, parkSet := 0,
    temp := 0#32, topP := 0#32, topK := 0, fault := 0, pending := [], pendChunks := [], pages := [],
    pageChunks := [], masks := [], readyStep := 0, user := 0#64, sweep := 0, model := 0, clampLayers := 0,
    clampUnits := false, mirror := false, runs := 0, clampPtr := 0, samples := 0,
    fetch := (0, 0), fetched := false }

/-- One page record (R199). -/
structure PageRec where
  st : Nat
  mirrored : Bool
  validated : Bool
  sealSeq : Nat
  refs : Nat
  tag : W128
  deriving DecidableEq, Repr

/-- A page that no stream has taken. -/
def PageRec.free : PageRec := ⟨0, false, false, 0, 0, 0#128⟩

/-- One shard entry of a bed manifest (R286). -/
structure Shard where
  kind : Nat
  fmt : Nat
  layer : Nat
  expert : Nat
  slot : Nat
  offset : Nat
  size : Nat
  digest : List Byte
  deriving DecidableEq, Repr

/-- A bed manifest (R285 to R287). -/
structure Manifest where
  epoch : Nat
  vocab : Nat
  hidden : Nat
  layers : Nat
  experts : Nat
  topk : Nat
  gate : Nat
  actFmt : Nat
  cap : Nat
  homeOfs : Nat
  shards : List Shard
  home : List Nat
  deriving DecidableEq, Repr

/-- One bed (R282): state code, the epoch of the last BED_STAGE, flip step, bytes loaded, the digest that
BED_COMMIT named, whether a poisoned write was discarded (R444), the BED_COMMIT that waits, and the verified
manifest. `mirrored`: the buddy holds it. -/
structure Bed where
  st : Nat
  epoch : Nat
  flip : Nat
  loaded : Nat
  digest : List Byte
  poisoned : Bool
  commit : Option Head
  manifest : Option Manifest
  mirrored : Bool
  deriving DecidableEq, Repr

/-- An empty bed. -/
def Bed.empty : Bed := ⟨0, 0, 0, 0, [], false, none, none, false⟩

/-- One shard slot of the job open command (R470). -/
structure ShardSlot where
  first : Nat
  count : Nat
  bytes : Nat
  deriving DecidableEq, Repr

/-- The job open parameters (R469). -/
structure JobParams where
  seedDev : Bool
  clearLinks : Bool
  regrowTarget : Bool
  rank : Nat
  devices : Nat
  buddy : Nat
  trayBase : Nat
  maskBase : Nat
  chunkBase : Nat
  chunkCount : Nat
  posPerPage : Nat
  pageFirst : Nat
  pageCount : Nat
  batchMax : Nat
  ingestChunk : Nat
  ingestBudget : Nat
  cutEvery : Nat
  cutHost : Nat
  cutSlotSize : Nat
  kernelArea : Nat
  kernelAreaSize : Nat
  partner : Nat
  bedMirror : Bool
  mirrorBase : Nat
  mirrorSize : Nat
  bedABase : Nat
  bedASize : Nat
  bedBBase : Nat
  bedBSize : Nat
  pagedirBase : Nat
  mapBase : Nat
  gibbsFirst : Nat
  gibbsSlices : Nat
  slots : List ShardSlot
  digest : List Byte
  deriving DecidableEq, Repr

/-- One layer of a Gibbs model (R305). -/
structure GLayer where
  count : Nat
  potts : Bool
  q : Nat
  biasOff : Nat
  deriving DecidableEq, Repr

/-- One weight block of a Gibbs model (R306). -/
structure GBlock where
  lower : Nat
  upper : Nat
  wOff : Nat
  wSize : Nat
  deriving DecidableEq, Repr

/-- A loaded Gibbs model (R304, R308): the weights stand in the working area, lower-major first. -/
structure GModel where
  desc : Nat
  work : Nat
  wfmt : Nat
  layers : List GLayer
  blocks : List GBlock
  deriving DecidableEq, Repr

/-- A GIBBS_RUN in progress (R322 to R327). -/
structure GRun where
  head : Head
  desc : List Byte
  chains : List Nat
  total : Nat
  sweeps : Nat
  burn : Nat
  interval : Nat
  layers : Nat
  output : Nat
  result : Nat
  progressEvery : Nat
  done : Nat
  nextSeq : Nat
  closed : Nat
  faulted : Nat
  writeFault : Bool
  flags : Nat
  deriving DecidableEq, Repr

/-- One entry of the step program (R473). -/
structure ProgEntry where
  handle : Nat
  argSize : Nat
  argDpa : Nat
  deriving DecidableEq, Repr

/-- A block of KERNEL_AREA (R702): `rel` is none while in use, else the sequence number of the cutting whose
flush frees it. -/
structure AreaBlock where
  dpa : Nat
  size : Nat
  handle : Nat
  rel : Option Nat
  deriving DecidableEq, Repr

/-- The step in progress (R29): a token step or a Gibbs step, its batch, and the position in the step program. -/
structure StepRun where
  gibbs : Bool
  number : Nat
  batch : List Nat
  ingest : List Nat
  launched : Nat
  startXc : Nat
  deriving DecidableEq, Repr

/-- The items of a cutting at capture (R413, R420, R421). -/
structure CutImage where
  seq : Nat
  step : Nat
  prev : Nat
  cmdIndex : Nat
  regrowNo : Nat
  tsc : Nat
  split : Bool
  east : Bool
  epochA : Nat
  stateA : Nat
  stateB : Nat
  epochB : Nat
  current : Nat
  bmir : Nat
  flip : Nat
  descs : List (Nat × List Byte)
  pageRecs : List (Nat × List Byte)
  setRecs : List (List Byte)
  chunkWords : List (Nat × Nat)
  pageWords : List (Nat × Nat)
  kernels : List (Nat × Nat)
  models : List (Nat × Nat × Nat)
  run : Option (List Byte × Nat × Nat)
  moss : List (List Byte)
  program : List ProgEntry
  deriving DecidableEq, Repr

/-- A completion that waits for a cutting to become common (R419): `need` is that cutting's sequence number,
none while the stream or the bed verification it waits for is still open; `flags` its CFLAGS, `waits` the entries that must
have entered READY. -/
structure Deferred where
  head : Head
  opcode : Nat
  status : Nat
  result : Nat
  ext : List (List Byte)
  need : Option Nat
  waits : List Nat
  flags : Nat
  deriving DecidableEq, Repr

/-- A regrow in progress or completed (R428, R430). `index` is the CMD_INDEX of cutting c, `begun`: 0 the reset of stage RESET has not begun, 1 it runs, 2 it is over. -/
structure Regrow where
  head : Head
  cut : Nat
  source : Nat
  replace : Bool
  number : Nat
  replayStep : Nat
  replayIndex : Nat
  replayPos : Nat
  replaySample : Nat
  stage : Nat
  done : Nat
  total : Nat
  ready : List Nat
  begun : Nat
  index : Nat
  deriving DecidableEq, Repr

/-- What a job is in: waiting for its device-generated seed (R207), open, suspended (R536), ended and
retained (R427), or regrowing (R430). -/
inductive JobSt where
  | waitSeed | running | suspended | ended | regrow
  deriving DecidableEq, Repr

/-- The mirror that this device holds for its partner (R424, R425). -/
structure PartnerMirror where
  set : Bool
  slotSize : Nat
  trayEntries : Nat
  chunkCount : Nat
  pageCount : Nat
  bedMirror : Bool
  bedA : Nat
  bedB : Nat
  deriving DecidableEq, Repr

/-- A mirror copy that CUT_MIRROR.PENDING counts: kind 1 page, 2 open-page
lines, 3 image, 4 chain state, 5 bed; `id` names it, `units` its size in units of 4 KiB (R441). -/
structure MirrorItem where
  kind : Nat
  id : Nat
  units : Nat
  seq : Nat
  deriving DecidableEq, Repr

/-- A command of the boundary group that waits for its boundary (R466) with the parameter data that R703 had it
read. -/
structure Waiting where
  cmd : Instr
  data : List Byte
  deriving DecidableEq, Repr

/-- An object-seed wait of a stream (R239). -/
structure SeedWait where
  index : Nat
  head : Head
  deriving DecidableEq, Repr

/-- What flushes have written into the durable tables (R417): descriptors by stream index, page records by page, words of the two
free maps by word index. A value not listed stands as the job's opening left it. -/
structure Durable where
  descs : Map (List Byte)
  pages : Map (List Byte)
  chunkWords : Map Nat
  pageWords : Map Nat
  deriving DecidableEq, Repr

/-- One context's job. `durable` is what the flushed cuttings have written into the durable tables, `fetching` the pages that the buddy has
been asked for (R432, R433). `outputs` are the expert outputs that have returned, `combined` the combined vectors by (layer, row) (R279),
`moe` the MoE layers whose rows are all combined in this step, `ranLayers` those whose passes this device has run in it (R276).
`recordNeed` counts the token records for which the token ring must have room before the next step starts (R461), `lastRun` is the
GIBBS_RUN that the job's end cut off, `mossSlots` the two anneal cutting slots of each Moss run by run number and cutting
area (R364, R436). -/
structure Job where
  params : JobParams
  halves : Nat
  split : Bool
  st : JobSt
  reason : Nat
  openHead : Option Head
  closing : Option Head
  seed : W128
  stepNext : Nat
  run : Option StepRun
  lastGibbs : Bool
  recordNeed : Nat
  tray : Map Stream
  resident : List Nat
  fills : Nat
  batchSize : Nat
  skipped : Nat
  dirty : List Nat
  dirtyPages : List Nat
  dirtySets : List Nat
  sets : Map (List Nat)
  chunks : Map Nat
  chunkRel : List (Nat × Nat)
  dirtyChunkW : List Nat
  pages : Map PageRec
  pageRel : List (Nat × Nat)
  dirtyPageW : List Nat
  bedA : Bed
  bedB : Bed
  denied : Nat
  deniedStep : Nat
  xpass : Nat
  xrec : Nat
  models : Map GModel
  grun : Option GRun
  program : List ProgEntry
  area : List AreaBlock
  waiting : List Waiting
  deferred : List Deferred
  nextCut : Nat
  cutNow : Bool
  lastCapture : Option Nat
  captured : List CutImage
  writing : Bool
  written : Option Nat
  committed : Option (Nat × Nat)
  common : Option (Nat × Nat)
  flushed : Option (Nat × Nat)
  notices : List (Nat × Nat)
  mirror : List MirrorItem
  unflushed : List CutImage
  regrowNo : Nat
  regrowCount : Nat
  regrow : Option Regrow
  elapsed : Nat
  refreshStall : Nat
  retryStall : Nat
  stepStartNominal : Nat
  overdue : Bool
  dispHeaders : List DispHeader
  dispRecords : List DispRecord
  outputs : List DispRecord
  combined : List (Nat × Nat × List W32)
  moe : Nat
  ranLayers : List Nat
  partner : Option PartnerMirror
  sealedCount : Nat
  tagFail : Nat
  durable : Durable
  fetching : List Nat
  lastRun : Option (Head × List Byte)
  mossSlots : List (Nat × Nat × Nat × Nat)
  deriving DecidableEq, Repr

end Sys2Proof.Machine
end

