-- ==== Sys2Proof/Machine/StLink.lean ====
section
/-!
DEFINITION. The state of the Rhizome links (chapter 14).
-/
namespace Sys2Proof.Machine

/-- One Rhizome port (R488 to R502, R513 to R523). `st` is the state code of R519; `nonce` the nonce of its
last TRAIN and `peerNonce` the peer's; `frags` the certificate fragments received as (index, bytes); `heldN`,
`heldU` the replay buffers as (SEQ, flit); `queue` the DATA flits that wait for a credit or a buffer place, as
(channel, flit without SEQ); `nakN`, `nakU` the last SEQ that NAKs named and how often in a row; `nakDue`
whether a NAK may be sent again; `line` the flits put on
the line, oldest first; `since` the nc at which RECOVERY began; `wrr` the place in the round of VC1 and VC2 (R501). -/
structure Port where
  st : Nat
  version : Nat
  enc : Bool
  peerPort : Nat
  peerRank : Nat
  peerSerial : Nat
  peerDigest : List Byte
  peerTag : Nat
  nonce : List Byte
  peerNonce : List Byte
  frags : List (Nat × List Byte)
  chainOk : Bool
  linkKey : Option (List Byte)
  nextN : Nat
  nextU : Nat
  heldN : List (Nat × List Byte)
  heldU : List (Nat × List Byte)
  expectN : Nat
  expectU : Nat
  credits : List Nat
  queue : List (Nat × List Byte)
  nakN : Nat × Nat
  nakU : Nat × Nat
  nakSent : Bool
  line : List (List Byte)
  fec : Nat
  crcErr : Nat
  uncorr : Nat
  replays : Nat
  recoveries : Nat
  trainings : Nat
  txFlits : Nat
  rxFlits : Nat
  since : Nat
  wrr : Nat
  deriving DecidableEq, Repr

/-- A port at reset; the receiver's buffers of R499 give the first credits. -/
def Port.init : Port :=
  { st := 0, version := 0, enc := false, peerPort := 0, peerRank := 0, peerSerial := 0, peerDigest := [],
    peerTag := 0, nonce := [], peerNonce := [], frags := [], chainOk := false, linkKey := none, nextN := 0,
    nextU := 0, heldN := [], heldU := [], expectN := 0, expectU := 0, credits := [64, 768, 768, 512],
    queue := [], nakN := (0, 0), nakU := (0, 0), nakSent := false, line := [], fec := 0, crcErr := 0,
    uncorr := 0, replays := 0, recoveries := 0, trainings := 0, txFlits := 0, rxFlits := 0, since := 0, wrr := 0 }

/-- The RZL block (R522, R523): select registers, enables, route tables (key half * 4096 + rank, value the
6-bit entry), weights. -/
structure Rz where
  ports : Map Port
  sel : Nat
  portEn : Nat
  maxVersion : Nat
  routeIdx : Nat
  routes : Map Nat
  routeMiss : Nat
  w1 : Nat
  w2 : Nat
  deriving DecidableEq, Repr

/-- The links of one job (R504, R509 to R517): its route-table snapshot, the job secret and the traffic key,
the next MSEQ, and JOB_TAG. -/
structure JobLink where
  routes : Map Nat
  secret : Option (List Byte)
  key : Option (List Byte)
  mseq : Nat
  tag : Nat
  deriving DecidableEq, Repr

/-- A message that this device sends on a link (R509 to R518): the context of its job, its KIND, its virtual
channel, the rank it goes to (0xFFFF for every device of the job), and the object's bytes. -/
structure OutMsg where
  ctx : Nat
  kind : Nat
  vc : Nat
  dest : Nat
  body : List Byte
  deriving DecidableEq, Repr

end Sys2Proof.Machine
end

