-- ==== Sys2Proof/Machine/State.lean ====
section
/-!
DEFINITION. The state of the device, the faults and refusals of the model, and the state after reset.
-/
namespace Sys2Proof.Machine

/-- One LPDDR5X controller (R203, R637): state code, refresh-rate code, the generation it runs under, its
refresh-stall count, and its corrected and uncorrectable counts. -/
structure Lpx where
  st : Nat
  refRate : Nat
  gen : Nat
  refStall : Nat
  ce : Nat
  ue : Nat
  deriving DecidableEq, Repr

/-- A controller at reset. -/
def Lpx.init : Lpx := ⟨0, 0, 0, 0, 0, 0⟩

/-- A streamer transfer in progress (R194): its number, the DPA, the slice address, the bytes, the direction
(true into a slice) and the context. `late` says that it is past its due xc because controller `waits` refreshes. -/
structure Streamer where
  id : Nat
  ctx : Nat
  dpa : Nat
  slice : Nat
  size : Nat
  toSlice : Bool
  late : Bool
  waits : Nat
  deriving DecidableEq, Repr

/-- The device and the host memory it reaches. `pending` is the queue of commands (the model's own field),
`freeCtr` the counter of the free values (the model's own field, log entry 6), `reply` what the last access
returned (the model's own field, log entry 2). Physical core p is `cores` key p, slice byte a of slice n is
`slices` key n * 2^24 + a, accumulator i of slice n is `exact` key n * 4096 + i; `lineGen` gives the
generation under which a 64-byte line was written (R191) and `lineKind` its kind (R189). -/
structure State where
  pending : List Instr
  freeCtr : Nat
  reply : List Byte
  boot : Boot
  pins : Pins
  west : Half
  east : Half
  pwr : Pwr
  rst : Rst
  mgt : Mgt
  glb : Glb
  fuses : Fuses
  flash : Memory
  sec : Sec
  ens : Ens
  drb : Drb
  spg : Spg
  ras : Ras
  dmp : Dmp
  tel : Tel
  host : HostPort
  cores : Map Core
  kernels : List KImage
  espConflict : Nat
  espHandleW : Nat
  espHandleE : Nat
  slices : Memory
  exact : Map ExactAcc
  slcSel : Nat
  spareUsed : Map Nat
  lpxMem : Memory
  lineGen : Map Nat
  lineKind : Map Nat
  lpx : Map Lpx
  lpxSel : Nat
  streamers : List Streamer
  jobs : Map Job
  trySel : Nat
  bedSel : Nat
  cutSel : Nat
  snap : Map Nat
  outbox : List OutMsg
  rz : Rz
  links : Map JobLink
  moss : Moss
  deriving DecidableEq, Repr

/-- Why the model stops with a fault. -/
inductive Fault where
  /-- The command names a unit that the device does not have: a physical core above 543, a ring set above
  15, a Rhizome port above 15, a half above 1, a controller above 31, a power domain above 19, a context above
  15, a slice above 511. Raised by the meanings of the commands that name one. Safe: no host, kernel or part of the device can
  send such a command. -/
  | noSuchUnit
  deriving DecidableEq, Repr

/-- Why the model refuses a command. -/
inductive Refusal where
  /-- The command has no meaning in this model yet. Raised by `exec` only. Safe. -/
  | notModelled (mnemonic : String)
  deriving DecidableEq, Repr

/-! ## Reset: the moment at which the last PWRGOOD input has become true (R612) -/

/-- Clocks and boot at reset: the root PLL is not locked, no edge has been counted. -/
def Boot.init : Boot :=
  { edges := 0, running := false, pllLock := false, aligned := false, fuses := false, firmware := false,
    controllers := false, plan := false, zeroed := false, rejoined := false, ready := false, wasReady := false,
    activating := false, halt := .none, cold := true }

/-- Pins and straps at reset (log entry 3): power is good, both references run, PERST_N is asserted, both straps
read 0. -/
def Pins.init : Pins :=
  { pwrgood := true, perst := true, refclk := true, lrefclk := true, throttle := false, fatal := false,
    thermtrip := false, selWest := false, selEast := false, bootSrc := false, latWest := false,
    latEast := false, latBoot := false }

/-- CKP_PD reads 0x0_6007 at reset (R626); the plan's factory defaults stand in the set-up fields (R618). -/
def Pwr.init : Pwr :=
  { pinLevel := 8, tThrottle := 95, limit := 1400, idleOff := true, hostReq := 0, on := 0x06007, rising := [],
    round := [], running := false, units := 0, fails := 0 }

/-- The RST block at reset (R626): the last reset was a cold one, from power-up. -/
def Rst.init : Rst :=
  { busy := none, lastKind := 6, lastCause := 1, refused := false, device := 0, job := 0, half := 0, flr := 0,
    lastTsc := 0 }

/-- The NUMERIC bytes of the factory default plan (R618). -/
def numericDefault : List Byte := 1#8 :: List.replicate 255 0#8

/-- The MGT block at reset (R40, R626). -/
def Mgt.init : Mgt :=
  { modeReq := 0, modeCur := 0, pend := false, changing := false, planSplit := false, claimW := 0, claimE := 0,
    agreed := false, primary := 0, hbOk := false, hbLost := false, loaded := false, defaulted := false,
    allow := false, pending := false, src := 0, buffer := [], busy := false, status := 0,
    numeric := numericDefault, planBytes := [] }

/-- The GLB block at reset (R658). -/
def Glb.init : Glb := { lock := false, denied := false, latch := [], low := [], setAt := [] }

/-- The fuses of a device (log entry 3): serial 0, lifecycle FACTORY, no key burnt. -/
def Fuses.init : Fuses :=
  { serial := 0, lc := 0, svn := 0, keyDigests := List.replicate 4 (List.replicate 48 0#8), revoked := [],
    keys := [], rootDigest := List.replicate 48 0#8, identity := 0, memKey := List.replicate 32 0#8 }

/-- Context 0 is always registered, without a partition (R525). -/
def Ctx.host : Ctx := ⟨1, 0, 0, 0, 0, []⟩

/-- The SEC block at reset (R562): the generation counter starts at 1 (R529), the log digest at 48 zero bytes
(R557). -/
def Sec.init : Sec :=
  { ctxs := [(0, Ctx.host)], nextGen := 1, lcTarget := 0, lcPend := false, nonce := 0, lcSrc := 0, slot := 0,
    fallback := false, svn := 0, keyIndex := 0, fwNumeric := 0, fwBytes := [], viewKey := 0, view := 0,
    viewFails := 0, ctxSel := 0, scrub := none, scrubs := 0, switch := none, fwSrc := 0, fwSize := 0, fwState := 0,
    fwStatus := 0, fwDone := 0, fwTotal := 0, prevSlot := 0, prevNumeric := 0, fwAt := (0, 0), log := [], logSeq := 0,
    logDigest := List.replicate 48 0#8, sessions := 0, handshakes := 0, islandFail := false, memKey := [] }

/-- The ENS block at reset (R591). -/
def Ens.init : Ens :=
  { ready := false, secHalt := false, stoch := 0, consec := 0, testEn := false, pattern := 0, oscs := [], sample := 0,
    settling := true, startup := true, secOsc := none, taken := 0, secWanted := true, secBlock := none, queue := [],
    window := 0, fails := 0, restarts := 0, lastFail := 0, delivered := 0 }

/-- The DRB block at reset (R591). -/
def Drb.init : Drb :=
  { log2Base := 20, st := 0, due := false, key := [], v := [], count := 0, reseeds := 0, generates := 0 }

/-- The SPG block at reset (R224). -/
def Spg.init : Spg :=
  { sel := 0, keyLo := 0#64, keyHi := 0#64, ctrLo := 0#64, ctrHi := 0#64, runKey := 0#128, runCtr := 0#128, busy := false,
    done := false, outLo := 0#64, outHi := 0#64, u24 := 0, gumbel := 0#32, lanes := [] }

/-- The RAS block at reset (R649). -/
def Ras.init : Ras :=
  { log := [], logLost := 0, idx := 0, ceSramW := 0, ceSramE := 0, ceLpxW := 0, ceLpxE := 0, ceCoreW := 0, ceCoreE := 0,
    thCore := 64, thSram := 1024, thLpx := 1024, spareSel := 0, marks := [], retired := [], restore := [],
    peerTo := 10000, wdog := 0, ue := [], sramUe := [], ceUnits := [] }

/-- The DMP block at reset (R649). -/
def Dmp.init : Dmp :=
  { base := 0, size := 0, arm := false, st := 0, doneBit := false, status := 0, doneBytes := 0, image := [] }

/-- TEL and the management ports at reset (R662, R687; log entry 12 for sensor values before the first update,
log entry 20 for the JTAG instruction register). -/
def Tel.init : Tel :=
  { sel := 0, temps := List.replicate 16 0, device := 0, west := 0, east := 0,
    alert := 0, now := List.replicate 16 0, jtagIr := .idcode }

/-- The RZL block at reset (R523). -/
def Rz.init : Rz :=
  { ports := [], sel := 0, portEn := 0xFFFF, maxVersion := 2, routeIdx := 0, routes := [], routeMiss := 0, w1 := 3,
    w2 := 1 }

/-- The Moss at reset: every tile OFF, every region FREE. -/
def Moss.init : Moss := { tiles := [], regions := [], runs := [], tileSel := 0, regionSel := 0, updates := [], early := [] }

/-- The device right after a cold reset: power has just become good and the boot of R612 begins. Every field has
the value that its register table gives At reset; log entries 3, 4, 5, 12 and 20 name the values that the
specification does not give. -/
def State.reset : State :=
  { pending := [], freeCtr := 0, reply := [], boot := Boot.init, pins := Pins.init, west := Half.init,
    east := Half.init, pwr := Pwr.init, rst := Rst.init, mgt := Mgt.init, glb := Glb.init, fuses := Fuses.init,
    flash := [], sec := Sec.init, ens := Ens.init, drb := Drb.init, spg := Spg.init, ras := Ras.init,
    dmp := Dmp.init, tel := Tel.init, host := HostPort.init, cores := [], kernels := [], espConflict := 0,
    espHandleW := 0, espHandleE := 0, slices := [], exact := [], slcSel := 0, spareUsed := [], lpxMem := [],
    lineGen := [], lineKind := [], lpx := [], lpxSel := 0, streamers := [], jobs := [], trySel := 0, bedSel := 0,
    cutSel := 0, snap := [], outbox := [], rz := Rz.init, links := [], moss := Moss.init }

end Sys2Proof.Machine
end

