-- ==== Sys2Proof/Machine/Ops.lean ====
section
/-!
DEFINITION. The named operations over the state that every family uses: access to halves, cores, ring sets and
jobs, the clock, the posting of events, host memory, and the error log.
-/
namespace Sys2Proof.Machine

/-! ## Access -/

/-- The half: 0 West, 1 East. -/
def State.half (s : State) (h : Nat) : Half := if h = 0 then s.west else s.east

/-- One half changed. -/
def State.setHalf (s : State) (h : Nat) (x : Half) : State := if h = 0 then { s with west := x } else { s with east := x }

/-- Both halves changed by `f`, which also receives the half's number. -/
def State.onHalves (s : State) (mask : Nat) (f : Nat → Half → Half) : State :=
  { s with west := if bit mask 0 then f 0 s.west else s.west, east := if bit mask 1 then f 1 s.east else s.east }

/-- Physical core p. -/
def State.core (s : State) (p : Nat) : Core := Map.get Core.init s.cores p

/-- Physical core p changed. -/
def State.setCore (s : State) (p : Nat) (c : Core) : State := { s with cores := Map.set Core.init s.cores p c }

/-- Every physical core that `sel` names changed by `f`. -/
def State.onCores (s : State) (sel : Nat → Bool) (f : Nat → Core → Core) : State :=
  { s with cores := (List.range 544).foldl (fun m p =>
      if sel p then Map.set Core.init m p (f p (Map.get Core.init m p)) else m) s.cores }

/-- Ring set c. -/
def State.ring (s : State) (c : Nat) : RingSet := Map.get RingSet.init s.host.sets c

/-- Ring set c changed. -/
def State.setRing (s : State) (c : Nat) (r : RingSet) : State :=
  { s with host := { s.host with sets := Map.set RingSet.init s.host.sets c r } }

/-- The job of context c, whatever its status. -/
def State.job (s : State) (c : Nat) : Option Job := Map.find s.jobs c

/-- The job of context c replaced. -/
def State.setJob (s : State) (c : Nat) (j : Job) : State := { s with jobs := Map.put s.jobs c j }

/-- The job of context c changed by `f`, when there is one. -/
def State.onJob (s : State) (c : Nat) (f : Job → Job) : State :=
  match s.job c with
  | none => s
  | some j => s.setJob c (f j)

/-- The job of context c released. -/
def State.dropJob (s : State) (c : Nat) : State := { s with jobs := Map.del s.jobs c }

/-- Context c (R525); context 0 is always registered. -/
def State.ctx (s : State) (c : Nat) : Ctx := Map.get Ctx.free s.sec.ctxs c

/-- Context c changed. -/
def State.setCtx (s : State) (c : Nat) (x : Ctx) : State :=
  { s with sec := { s.sec with ctxs := Map.set Ctx.free s.sec.ctxs c x } }

/-- LPDDR5X controller i. -/
def State.lpxCtrl (s : State) (i : Nat) : Lpx := Map.get Lpx.init s.lpx i

/-- Controller i changed. -/
def State.setLpx (s : State) (i : Nat) (x : Lpx) : State := { s with lpx := Map.set Lpx.init s.lpx i x }

/-- Is the job open (not suspended, not ended)? A job that regrows counts as open once its REGROW has passed
its checks; before that it stays ended (R429). -/
def Job.isOpen (j : Job) : Bool := j.st == .running || j.st == .waitSeed || j.st == .regrow

/-- The open, suspended or ended job that QUE, CTX and MODE rules ask about. -/
def State.holdsJob (s : State) (c : Nat) : Bool := (s.job c).isSome

/-- Does the context hold an open or suspended job (check 5 of R465)? A JOB_OPEN that waits for its seed has
opened no job yet. -/
def State.liveJob (s : State) (c : Nat) : Bool :=
  match s.job c with
  | none => false
  | some j => j.st == .running || j.st == .suspended || j.st == .regrow

/-- The halves on which context c runs, as a mask (R525). -/
def State.halvesOf (s : State) (c : Nat) : Nat := b2n (s.west.owner == c) + 2 * b2n (s.east.owner == c)

/-- The device sets the RW1C bit of the register at a BAR0 offset in this nc (R10). -/
def State.setsBit (s : State) (ofs : Nat) : State :=
  { s with glb := { s.glb with setAt := Map.put s.glb.setAt ofs (s.boot.edges / 8) } }

/-- Is the device in split mode? -/
def State.split (s : State) : Bool := s.mgt.modeCur == 1

/-- The half of a physical core (R16). -/
def coreHalf (p : Nat) : Nat := p / 272

/-- The row, 0 to 31 over the device, of a physical core. -/
def coreRow (p : Nat) : Nat := p / 17

/-- The power domain of a physical core (R672). -/
def coreDomain (p : Nat) : Nat := 3 + 4 * coreHalf p + (p % 272) / 17 / 4

/-- The lowest half of a mask. -/
def maskHalf (m : Nat) : Nat := if bit m 0 then 0 else 1

/-! ## The clock (R592, R593, R598) -/

/-- The TSC: one ts is six root edges. -/
def State.tsc (s : State) : Nat := (s.boot.edges / 6) % 2 ^ 64

/-- Does level L skip slot k of a frame (R598)? -/
def slotSkipped (level k : Nat) : Bool := decide ((k + 1) * level / 16 > k * level / 16)

/-- The slot of the frame in which a half stands. -/
def Half.slot (h : Half) (edges : Nat) : Nat := (edges - h.rel) / 8 % 16

/-! ## Events (R478 to R480, R541, R701) -/

/-- The management controller that runs the step scheduler of context c's job (R701). -/
def State.schedulerSource (s : State) (c : Nat) : Nat :=
  1 + (if s.split && s.halvesOf c != 0 && s.holdsJob c then maskHalf (s.halvesOf c) else s.mgt.primary)

/-- The primary half's management controller (R701). -/
def State.primarySource (s : State) : Nat := 1 + s.mgt.primary

/-- Does coarsening apply in the lifecycle state (R541, R547)? -/
def State.coarsening (s : State) : Bool := s.fuses.lc != 0 && s.fuses.lc != 2

/-- The ring that receives an event of context c: its own, or ring set 0's when the event concerns no context or
the context's ring set is DISABLED or HALTED (R479). -/
def State.eventRing (s : State) (c : Nat) : Nat :=
  let st := (s.ring c).st
  if c = 0 ∨ st = 0 ∨ st = 4 then 0 else c

/-- An event of context c, from `source`, with its status and payload. -/
def State.postWith (s : State) (c source code status : Nat) (payload : List Byte) (replay : Bool) : State :=
  let ring := s.eventRing c
  let coarse := ring == 0 && c != 0 && s.coarsening
  let carried := if coarse then s.tsc / 1024 * 1024 else s.tsc
  let ev : Event := { ring := ring, tsc := s.tsc, carried := carried, source := source, code := code,
                      status := status, ctx := c, coarse := coarse, replay := replay, payload := payload }
  { s with host := { s.host with held := s.host.held ++ [ev] } }

/-- Is the job of context c replaying steps (R434)? -/
def State.replaying (s : State) (c : Nat) : Bool :=
  match s.job c with
  | some j => (match j.regrow with | some r => r.stage == 8 | none => false)
  | none => false

/-- An event about context c's job. -/
def State.postJob (s : State) (c code status : Nat) (payload : List Byte) : State :=
  s.postWith c (s.schedulerSource c) code status payload (s.replaying c)

/-- An event about the device that carries the given source. -/
def State.postDev (s : State) (source code status : Nat) (payload : List Byte) : State :=
  s.postWith 0 source code status payload false

/-! ## Host memory (R444, R699) -/

/-- Does a host range overlap one whose reads fail? -/
def HostPort.fails (h : HostPort) (a n : Nat) : Bool :=
  h.bad.any fun r => decide (a < r.1 + r.2) && decide (r.1 < a + n)

/-- `n` bytes read from host memory, none when the read fails (R699). -/
def State.hostRead (s : State) (a n : Nat) : Option (List Byte) :=
  if n != 0 && s.host.fails a n then none else some (Memory.readBytes s.host.mem (a % 2 ^ 64) n)

/-- Can the device send a write (R699)? -/
def State.hostCanWrite (s : State) : Bool := s.host.busMaster

/-- Bytes written to host memory; nothing when the write cannot be sent. -/
def State.hostWrite (s : State) (a : Nat) (bs : List Byte) : State :=
  if s.hostCanWrite then { s with host := { s.host with mem := Memory.writeBytes s.host.mem (a % 2 ^ 64) bs } } else s

/-! ## The error log (R627, R628, R648, R649) -/

/-- An error record entered in the log; beyond 256 the oldest is overwritten. -/
def State.logError (s : State) (r : ErrRec) : State :=
  let log := s.ras.log ++ [r]
  { s with ras := if log.length ≤ 256 then { s.ras with log := log }
           else { s.ras with log := log.drop 1, logLost := satAdd 15 s.ras.logLost 1 } }

/-- An error of R628 with its class: 1 job-fatal, 2 device-fatal. -/
def State.logKind (s : State) (source kind cls status ctx addr detail : Nat) : State :=
  s.logError { tsc := s.tsc, source := source, kind := kind, cls := cls, status := status, ctx := ctx,
               addr := addr, detail := detail }

/-- What an access returns to its requester (log entry 2). -/
def State.answer (s : State) (bs : List Byte) : State := { s with reply := bs }

/-- A free value is taken: the counter advances. -/
def State.tick1 (s : State) : State := { s with freeCtr := s.freeCtr + 1 }

end Sys2Proof.Machine
end

