-- ==== Sys2Proof/Machine/OpsHost.lean ====
section
/-!
DEFINITION. Ring sets: records, the writeback area, interrupts, completions, the release of events, and the end of
a job (R427, R453 to R487).
-/
namespace Sys2Proof.Machine

/-! ## Records -/

/-- The completion (0), token (1) or event (2) ring of a set: base, log2 of the entries, producer, consumer. -/
def RingSet.out (r : RingSet) : Nat → Nat × Nat × Nat × Nat
  | 0 => (r.cplBase, r.szCpl, r.cplPi, r.cplCi)
  | 1 => (r.tokBase, r.szTok, r.tokPi, r.tokCi)
  | _ => (r.evtBase, r.szEvt, r.evtPi, r.evtCi)

/-- Records that fit before the ring is full. -/
def RingSet.room (r : RingSet) (which : Nat) : Nat :=
  let o := r.out which
  2 ^ o.2.1 - (o.2.2.1 - o.2.2.2)

/-- The producer index advanced by one record. -/
def RingSet.advance (r : RingSet) : Nat → RingSet
  | 0 => { r with cplPi := (r.cplPi + 1) % 2 ^ 64 }
  | 1 => { r with tokPi := (r.tokPi + 1) % 2 ^ 64 }
  | _ => { r with evtPi := (r.evtPi + 1) % 2 ^ 64 }

/-- The host address of entry k of a ring of n entries (R455). -/
def entryAddr (base log2 k size : Nat) : Nat := base + (k % 2 ^ log2) * size

/-- One 32-byte record written at the producer index (R455, R460). -/
def State.putRecord (s : State) (set which : Nat) (rec : List Byte) : State :=
  let r := s.ring set
  let o := r.out which
  (s.hostWrite (entryAddr o.1 o.2.1 o.2.2.1 32) rec).setRing set (r.advance which)

/-- The 64 bytes of the writeback area (R459). -/
def RingSet.writeback (r : RingSet) : List Byte :=
  toLe 4 r.cmdCi ++ toLe 4 r.tokPi ++ toLe 4 r.cplPi ++ toLe 4 r.evtPi ++ toLe 4 r.evtLost ++ toLe 1 r.st ++
    List.replicate 43 0#8

/-- The writeback area written. -/
def State.putWriteback (s : State) (set : Nat) : State := s.hostWrite (s.ring set).wbAddr (s.ring set).writeback

/-- The MSI-X vector signalled (R447). -/
def State.signal (s : State) (vec : Nat) : State :=
  { s with host := { s.host with signalled := Map.set 0 s.host.signalled vec (Map.get 0 s.host.signalled vec + 1) } }

/-- One more record of a ring (0 completion, 1 token, 2 event) without its vector: it signals at once when
DELAY is 0 or COUNT records wait (R487). -/
def State.recordIrq (s : State) (set which : Nat) : State :=
  let r := s.ring set
  if r.irqEn then
    let n := r.unsig.getD which 0 + 1
    if r.irqDelay = 0 ∨ Nat.max 1 r.irqCount ≤ n then
      (s.setRing set { r with unsig := r.unsig.set which 0 }).signal (4 * set + which)
    else s.setRing set { r with unsig := r.unsig.set which n }
  else s

/-- A ring set's state changed, with the vector of R447 and the writeback area's STATE (R459). -/
def State.setRingState (s : State) (set st : Nat) : State :=
  let r := s.ring set
  if r.st = st then s else
  let s := s.setRing set { r with st := st }
  let s := if st = 0 then s else s.putWriteback set
  if r.irqEn then s.signal (4 * set + 3) else s

/-! ## Completions (R475, R476) -/

/-- xc counted on the half that serves context c: two in each nc slot that the half did not skip. -/
def State.xcOf (s : State) (c : Nat) : Nat :=
  2 * (s.half (if s.halvesOf c = 0 then s.mgt.primary else maskHalf (s.halvesOf c))).nc

/-- The observation that covers ring index `seq`. -/
def RingSet.observed (r : RingSet) (seq : Nat) : Option Observed := r.obs.find? fun o => decide (seq < o.upto)

/-- REFRESH_STALL and RETRY_STALL of context c's job. -/
def State.stalls (s : State) (c : Nat) : Nat × Nat :=
  match s.job c with
  | some j => (j.refreshStall, j.retryStall)
  | none => (0, 0)

/-- SPAN, REFRESH_STALL and RETRY_STALL of a completion (R409). -/
def State.spanOf (s : State) (h : Head) : Nat × Nat × Nat :=
  match (s.ring h.set).observed h.seq with
  | none => (0, 0, 0)
  | some o =>
    let st := s.stalls h.set
    (Nat.min (s.xcOf h.set - o.xc) (2 ^ 32 - 1), Nat.min (st.1 - o.refresh) (2 ^ 32 - 1),
      Nat.min (st.2 - o.retry) (2 ^ 32 - 1))

/-- One completion: its status, RESULT, flags, and the EXT_TYPE and DATA of its extension records. -/
structure Cpl where
  status : Nat
  result : Nat
  flags : Nat
  extType : Nat
  ext : List (List Byte)
  deriving DecidableEq, Repr

/-- A completion with a status and a RESULT alone. -/
def Cpl.plain (status result : Nat) : Cpl := ⟨status, result, 0, 0, []⟩

/-- The head record of a completion. -/
def Cpl.headRecord (c : Cpl) (h : Head) (opcode ext : Nat) (span : Nat × Nat × Nat) : List Byte :=
  toLe 4 h.seq ++ toLe 4 h.tag.toNat ++ toLe 1 opcode ++ toLe 1 (c.flags % 16 + 16 * ext) ++ toLe 2 c.status ++
    toLe 4 span.1 ++ toLe 4 span.2.1 ++ toLe 4 span.2.2 ++ toLe 8 c.result

/-- Extension record number k (R476). -/
def Cpl.extRecord (c : Cpl) (h : Head) (k : Nat) (data : List Byte) : List Byte :=
  toLe 4 h.seq ++ toLe 2 c.extType ++ toLe 1 k ++ [0#8] ++ bytesAt data 0 24

/-- The ring set after a command's completion: its reservation and its hold of R467 end. -/
def RingSet.completed (r : RingSet) (h : Head) : RingSet :=
  { r with reserved := r.reserved - 4, hold := if r.hold = some h.seq then none else r.hold,
           obs := if r.reserved ≤ 4 then r.obs.filter (fun o => decide (r.cmdCi < o.upto)) else r.obs }

/-- The records of a completion written, with the writeback area and the interrupt. Extension records need
minor 1 (R484). Nothing is written on a ring set that is DISABLED or HALTED. -/
def State.writeCpl (s : State) (h : Head) (opcode : Nat) (c : Cpl) : State :=
  let r := s.ring h.set
  if r.st = 0 ∨ r.st = 4 then s.setRing h.set (r.completed h) else
  let ext := if 1 ≤ r.negMinor then c.ext.take 3 else []
  let s1 := s.putRecord h.set 0 (c.headRecord h opcode ext.length (s.spanOf h))
  let s2 := ext.zipIdx.foldl (fun (st : State) e => st.putRecord h.set 0 (c.extRecord h (e.2 + 1) e.1)) s1
  let s3 := s2.setRing h.set ((s2.ring h.set).completed h)
  (s3.putWriteback h.set).recordIrq h.set 0

/-! ## The end of a job (R427, R474, R608) -/

/-- The last step number of a job: the step before the next one, all ones when none has run. -/
def Job.lastStep (j : Job) : Nat := if j.stepNext = 0 then 2 ^ 64 - 1 else j.stepNext - 1

/-- A core whose job ends: a RUNNING core becomes IDLE and stops where it is (R151, R156). -/
def Core.stopped (c : Core) : Core :=
  if c.st = .running then { c with st := .idle, stall := .none, flight := [], ended := false } else c

/-- Does the core belong to one of the halves of the mask? -/
def inHalves (mask p : Nat) : Bool := bit mask (coreHalf p)

/-- A message queued for the job's links (R509). -/
def State.sendMsg (s : State) (c kind vc dest : Nat) (body : List Byte) : State :=
  { s with outbox := s.outbox ++ [⟨c, kind, vc, dest, body⟩] }

/-- The devices of the job other than this one receive a VC0 message, when there are any. -/
def State.sendJob (s : State) (c kind : Nat) (body : List Byte) : State :=
  match s.job c with
  | some j => if 1 < j.params.devices then s.sendMsg c kind 0 0xFFFF body else s
  | none => s

end Sys2Proof.Machine
end

