-- ==== Sys2Proof/Machine/OpsLpx.lean ====
section
/-!
DEFINITION. LPDDR5X by DPA: the owner of an address, the generation check of R192, reads, writes and partitions
(R187 to R192, R531).
-/
namespace Sys2Proof.Machine

/-- The first DPA of the East half (R187). -/
def eastBase : Nat := 0x7800000000
/-- Bytes of the DPA space: 960 GiB. -/
def dpaBytes : Nat := 0xF000000000

/-- The half of a DPA (R187). -/
def dpaHalf (dpa : Nat) : Nat := if eastBase ≤ dpa then 1 else 0

/-- The channel, 0 to 63 within the half, of a DPA (R187). -/
def dpaChannel (dpa : Nat) : Nat := bits (dpa - dpaHalf dpa * eastBase) 13 8

/-- The controller of a DPA (R187). -/
def dpaCtrl (dpa : Nat) : Nat := dpaHalf dpa * 16 + dpaChannel dpa / 4

/-- The channel of its controller, 0 to 3, of a DPA (R187). -/
def dpaChan (dpa : Nat) : Nat := dpaChannel dpa % 4

/-- The channel address of a DPA (R187). -/
def dpaAddr (dpa : Nat) : Nat :=
  let o := dpa - dpaHalf dpa * eastBase
  (o >>> 14) * 256 + o % 256

/-- Does a context that holds a partition own the DPA? -/
def Ctx.owns (x : Ctx) (dpa : Nat) : Bool := x.st != 0 && decide (x.base ≤ dpa) && decide (dpa < x.base + x.size)

/-- The generation under which the controller accesses a DPA: that of the context whose partition holds it,
0 when none does or when it is being destroyed (R192, R532). -/
def State.genAt (s : State) (dpa : Nat) : Nat :=
  match (s.sec.ctxs.find? fun kv => kv.2.owns dpa && kv.2.st != 3) with
  | some kv => kv.2.gen
  | none => 0

/-- One byte read under the current generation. -/
def State.lpxByte (s : State) (dpa : Nat) : Byte :=
  let g := s.genAt dpa
  let w := Map.get 0 s.lineGen (dpa / 64)
  if w = g then Memory.read s.lpxMem dpa else Config.otherGeneration dpa w g

/-- `n` bytes read. -/
def State.lpxRead (s : State) (dpa n : Nat) : List Byte := (List.range n).map fun i => s.lpxByte (dpa + i)

/-- A little-endian value read. -/
def State.lpxLe (s : State) (dpa n : Nat) : Nat := ofLe (s.lpxRead dpa n)

/-- The lines that a range touches. -/
def linesOf (dpa n : Nat) : List Nat :=
  if n = 0 then [] else (List.range ((dpa + n - 1) / 64 - dpa / 64 + 1)).map fun i => dpa / 64 + i

/-- Bytes written with a line kind (R189) under the current generation. A line that another generation wrote and
that the write covers in part takes that write's bytes over what the read of R192 gives. -/
def State.lpxWrite (s : State) (dpa : Nat) (kind : Nat) (bs : List Byte) : State :=
  let ls := linesOf dpa bs.length
  let fixed := ls.foldl (fun m l =>
    let w := Map.get 0 s.lineGen l
    let g := s.genAt (64 * l)
    if w = g then m else Memory.writeBytes m (64 * l) ((List.range 64).map fun i => Config.otherGeneration (64 * l + i) w g)) s.lpxMem
  { s with
    lpxMem := Memory.writeBytes fixed dpa bs
    lineGen := ls.foldl (fun m l => Map.set 0 m l (s.genAt (64 * l))) s.lineGen
    lineKind := ls.foldl (fun m l => Map.set 0 m l kind) s.lineKind }

/-- Zero written to every line of a range with zero metadata (R530, R532). -/
def State.lpxZero (s : State) (dpa n : Nat) : State :=
  let inside := fun l => decide (dpa ≤ 64 * l) && decide (64 * l < dpa + n)
  { s with lpxMem := Memory.zeroRange s.lpxMem dpa n, lineGen := Map.erase s.lineGen inside,
           lineKind := Map.erase s.lineKind inside }

/-- Does the range lie inside context c's partition (R531)? -/
def State.inPartition (s : State) (c dpa n : Nat) : Bool :=
  let x := s.ctx c
  x.st != 0 && decide (x.base ≤ dpa) && decide (dpa + n ≤ x.base + x.size)

/-- PARTITION_DENIED posted for context c and a DPA (R531, R560). -/
def State.postDenied (s : State) (c dpa : Nat) : State :=
  s.postWith c 0 0x080A 0 (toLe 1 c ++ List.replicate 7 0#8 ++ toLe 8 dpa) false

end Sys2Proof.Machine
end

