-- ==== Sys2Proof/Machine/Tick.lean ====
section
/-!
DEFINITION. What one nc slot of 8 root edges does (R592 to R598, R404 to R408): the step on an empty queue of commands
(log entry 1).
-/
namespace Sys2Proof.Machine

/-- The head of each queue of a core is served: its remaining cc fall by 4, later entries of the queue wait. -/
def serveHeads (seen : List Nat) : List InFlight → List InFlight
  | [] => []
  | f :: fs =>
    if seen.contains f.queue then f :: serveHeads seen fs
    else { f with left := f.left - 4 } :: serveHeads (f.queue :: seen) fs

/-- A core in one nc slot of its half: a RUNNING core counts 4 cc (R159) and, unless its engine is held (R404),
serves its queues; a cc in which a WAIT, a BAR or an XFENCE stops issue counts in COR_STALL_Q. The instructions before a
fault complete (R150). -/
def Core.tick (held : Bool) (c : Core) : Core :=
  if c.st = .running then
    { c with cycles := (c.cycles + 4) % 2 ^ 64
             stallQ := if c.stall = .none then c.stallQ else (c.stallQ + 4) % 2 ^ 64
             flight := if held then c.flight else serveHeads [] c.flight }
  else if c.st = .faulted then { c with flight := serveHeads [] c.flight }
  else c

/-- Does context c's engine wait on a streamer transfer past its due xc (R405)? -/
def State.refreshHeld (s : State) (c : Nat) : Bool := s.streamers.any fun t => t.ctx == c && t.late

/-- Dispatch records that a header announced and that have not arrived (R274, R406). -/
def Job.missingRecords (j : Job) : Bool :=
  j.dispHeaders.any fun h =>
    !j.ranLayers.contains h.layer && decide ((j.dispRecords.filter fun r => r.origin == h.rank && r.layer == h.layer).length < h.count)

/-- Does a bed that is still VERIFYING hold the next step (R292)? -/
def Job.verifyHolds (j : Job) : Bool :=
  (j.bedA.st == 4 || j.bedB.st == 4) &&
    ((j.bedA.st == 2 && decide (j.bedA.flip ≤ j.stepNext)) || (j.bedB.st == 2 && decide (j.bedB.flip ≤ j.stepNext)))

/-- Is domain pd ON? -/
def State.isOn (s : State) (pd : Nat) : Bool := bit s.pwr.on pd

/-- The domains that a job on the halves of a mask needs (R602). -/
def jobDomains (mask : Nat) : List Nat :=
  (if bit mask 0 then [3, 4, 5, 6, 15] else []) ++ (if bit mask 1 then [7, 8, 9, 10, 16] else [])

/-- The half of a unit: a core by its index, a tile by its number. -/
def unitHalfOf (kind unit : Nat) : Nat := if kind = 0 then coreHalf unit else unit / 64

/-- Are the domains that a job needs powered and their cores checked (R603)? -/
def State.unitsReady (s : State) (mask : Nat) : Bool :=
  (jobDomains mask).all s.isOn && !(s.pwr.round.any fun u => u.1 == 0 && bit mask (unitHalfOf u.1 u.2))

/-- The core and Moss domains of a half. -/
def scrubDomains (h : Nat) : List Nat := if h = 0 then [3, 4, 5, 6, 11] else [7, 8, 9, 10, 12]

/-- Does a scrub of the halves wait for a domain or a rejoin check (R603)? -/
def State.scrubWaits (s : State) (mask : Nat) : Bool :=
  (List.range 2).any fun h => bit mask h &&
    ((scrubDomains h).any s.pwr.rising.contains || s.pwr.round.any fun u => unitHalfOf u.1 u.2 == h)

/-- Is a capture due at this boundary (R412)? `n` is the step that has ended; before the first step nothing is captured. -/
def Job.captureDue (j : Job) : Bool :=
  j.stepNext != 0 && j.lastCapture != some (j.stepNext - 1) && (j.stepNext % j.params.cutEvery == 0 || j.cutNow)

/-- Can a capture be taken: is every captured image being written (R416)? -/
def Job.canCapture (j : Job) : Bool := decide (j.captured.length ≤ b2n j.writing)

/-- What holds an engine that stands at its boundary (R406): domains that are powering and rejoin checks, bed verification, a capture that
an image not yet written holds up (R416), room in the token ring (R461), and for a closing job its last cutting. -/
def State.boundaryHeld (s : State) (c : Nat) (j : Job) : Bool :=
  !s.unitsReady j.halves || j.verifyHolds || (j.captureDue && !j.canCapture) || decide ((s.ring c).room 1 < j.recordNeed) || j.closing.isSome

/-- Does context c's engine wait on a party outside it (R406): records of a peer, pages of the buddy, or at a boundary what holds it there? -/
def State.retryHeld (s : State) (c : Nat) (j : Job) : Bool :=
  j.missingRecords || !j.fetching.isEmpty || (j.run.isNone && s.boundaryHeld c j)

/-- One nc slot of a job: ELAPSED and one of the two stalls (R405, R406, R408). -/
def State.tickJob (s : State) (c : Nat) (j : Job) : Job :=
  if j.st = .running ∨ j.st = .regrow then
    { j with elapsed := (j.elapsed + 2) % 2 ^ 64
             refreshStall := if s.refreshHeld c then (j.refreshStall + 2) % 2 ^ 64 else j.refreshStall
             retryStall := if !s.refreshHeld c && s.retryHeld c j then (j.retryStall + 2) % 2 ^ 64 else j.retryStall }
  else j

/-- Is the engine of the half's owner held (R404)? -/
def State.heldHalf (s : State) (h : Nat) : Bool :=
  let c := (s.half h).owner
  s.refreshHeld c || (match s.job c with | some j => s.retryHeld c j | none => false)

/-- The period of the half's active phase table (R166), 0 when it has none. -/
def State.period (s : State) (h : Nat) : Nat :=
  let hd := if h = 0 then s.espHandleW else s.espHandleE
  match s.kernels.find? fun k => k.ctx == (s.half h).owner && k.handle == hd with
  | some k => (match k.table with | some t => t.period | none => 0)
  | none => 0

/-- The controllers of a half count the xc in which a transfer waits on refresh (R194). -/
def State.tickLpx (s : State) (h : Nat) : State :=
  let late := (s.streamers.filter fun t => t.late).map fun t => t.waits
  (List.range 16).foldl (fun (s : State) i =>
    let k := 16 * h + i
    if late.contains k then s.setLpx k { s.lpxCtrl k with refStall := ((s.lpxCtrl k).refStall + 2) % 2 ^ 64 } else s) s

/-- A half whose clocks run advances by one nc; a skipped slot is counted instead (R598). -/
def State.tickHalf (s : State) (h : Nat) : State :=
  let x := s.half h
  if slotSkipped x.level (x.slot s.boot.edges) then s.setHalf h { x with skip := (x.skip + 1) % 2 ^ 64 } else
  let held := s.heldHalf h
  let p := s.period h
  let x := { x with nc := x.nc + 1, phase := if held || p == 0 then x.phase else (x.phase + 2) % p }
  let s := s.setHalf h x
  let s := { s with cores := Map.mapVals (fun i (c : Core) => if coreHalf i = h then c.tick held else c) s.cores }
  let s := { s with jobs := Map.mapVals (fun c (j : Job) => if maskHalf j.halves = h then s.tickJob c j else j) s.jobs }
  let s := s.tickLpx h
  match s.sec.scrub with
  | some sc => if maskHalf sc.halves = h ∧ s.scrubWaits sc.halves = false then { s with sec := { s.sec with scrub := some { sc with left := sc.left - 2 } } } else s
  | none => s

/-- THROTTLE_CHANGED for a half (R624). -/
def State.postThrottle (s : State) (h old new causes : Nat) : State :=
  s.postDev (1 + h) 0x0C01 0 [BitVec.ofNat 8 h, BitVec.ofNat 8 old, BitVec.ofNat 8 new, BitVec.ofNat 8 causes]

/-- The request of THROTTLE_N (R599). -/
def State.pinRequest (s : State) : Nat := if s.pins.throttle then s.pwr.pinLevel else 0

/-- The host's request: 9 to 15 act as 8 (R626). -/
def State.hostRequest (s : State) : Nat := Nat.min s.pwr.hostReq 8

/-- CAUSE_W or CAUSE_E (R626): the causes whose request is above 0 and at or above the level in force. -/
def State.causes (s : State) (h : Nat) : Nat :=
  let x := s.half h
  let yes := fun r => b2n (x.level != 0 && decide (0 < r) && decide (x.level ≤ r))
  yes s.pinRequest + 2 * yes x.therm + 4 * yes x.power + 8 * yes s.hostRequest

/-- At the end of a 1 ms interval the half reports the level then in force, when it differs from the one before the
interval (R624). -/
def State.throttleInterval (s : State) (h : Nat) : State :=
  let x := s.half h
  match x.evtOld, x.evtTsc with
  | some old, some t =>
    if t + 1000000 ≤ s.tsc then
      let s1 := s.setHalf h { x with evtOld := none, evtTsc := none }
      if old = x.level then s1 else s1.postThrottle h old x.level (s.causes h)
    else s
  | _, _ => s

/-- Do the throttled clocks of half h run (R595, R596, R630)? During an alignment sequence the dividers of the halves that
it aligns are held; in split mode a half reset aligns its half alone. -/
def State.clocksRun (s : State) (h : Nat) : Bool :=
  !s.pins.thermtrip && (s.boot.aligned || (match s.rst.busy with
    | some r => s.split && r.kind == 2 && !bit r.halves h
    | none => false))

/-- One nc slot. Before the dividers are released, and once REFCLK is lost (R685), nothing counts. -/
def State.tick (s : State) : State :=
  if !s.boot.running then s else
  let s1 := if s.clocksRun 0 then s.tickHalf 0 else s
  let s2 := if s1.clocksRun 1 then s1.tickHalf 1 else s1
  let s3 := { s2 with boot := { s2.boot with edges := s2.boot.edges + 8 } }
  (s3.throttleInterval 0).throttleInterval 1

end Sys2Proof.Machine
end

