-- ==== Sys2Proof/Machine/RegVal.lean ====
section
/-!
DEFINITION. The live value of every BAR0 register by its offset (R650 to R672), the unit that a select register names
(R654), the coarsening of outside observations and the snapshots of counters (R541 to R543).
-/
namespace Sys2Proof.Machine

/-- A field of `w` bits at bit `lo`. -/
def fld (lo w v : Nat) : Nat := (v % 2 ^ w) <<< lo

/-! ## The device's state code (R448, R659, R700) -/

/-- DVS_STATUS.STATE: 0 BOOTING, 1 READY, 2 SCRUBBING, 3 MODE_CHANGE, 4 HALTED. -/
def State.dvs (s : State) : Nat :=
  if s.boot.halt ≠ .none then 4
  else if !s.boot.ready || s.boot.activating then 0
  else if s.mgt.changing then 3
  else if s.sec.scrub.isSome then 2
  else 1

/-- DVS_STATUS.PROGRESS (R538): slices cleared while a scrub runs. -/
def State.scrubProgress (s : State) : Nat :=
  match s.sec.scrub with
  | none => 0
  | some sc => Nat.min (67036 - sc.left) 65536 * (if sc.halves = 3 then 512 else 256) / 65536

/-- DVS_STATUS (R448). -/
def State.dvsStatus (s : State) : Nat := s.dvs + fld 16 16 s.scrubProgress

/-- The primary half that the straps and the claims give (R616, R626). -/
def State.primary (s : State) : Nat := s.mgt.primary

/-! ## Jobs by half and by context -/

/-- The context that runs on half h. -/
def State.ownerOf (s : State) (h : Nat) : Nat := (s.half h).owner

/-- The open job of half h (TRY, BED, SPG, RZL, LPX). -/
def State.openJobOn (s : State) (h : Nat) : Option Job :=
  match s.job (s.ownerOf h) with
  | some j => if j.isOpen then some j else none
  | none => none

/-- The job that the CUT registers describe (R441). -/
def State.cutJob (s : State) : Option Job :=
  let j := if bit s.cutSel 8 then s.job (bits s.cutSel 7 4) else s.job (s.ownerOf (s.cutSel % 2))
  match j with
  | some j => if j.st = .waitSeed then none else some j
  | none => none

/-- A value of a job's register, zero when no job is described. -/
def ofJob (j : Option Job) (f : Job → Nat) : Nat := match j with | some j => f j | none => 0

/-! ## GLB, MGT, CKP, RST (R626, R658) -/

/-- The GLB block. -/
def glbReg (s : State) (o : Nat) : Nat :=
  match o with
  | 0x00 => 0xE9601F3C
  | 0x04 => 0x07A1
  | 0x08 => 0x0103
  | 0x0C => 0x21010101
  | 0x10 => 0x0006842020088200
  | 0x18 => 0x00005E9403C02000
  | 0x20 => 0x2F
  | 0x24 => s.dvs + fld 3 1 (b2n s.mgt.defaulted) + fld 4 1 s.primary + fld 5 1 s.mgt.modeCur +
      fld 6 1 (b2n s.pins.fatal) + fld 7 2 s.fuses.lc
  | 0x28 => b2n s.glb.lock + fld 2 1 (b2n s.glb.denied)
  | 0x30 => s.tsc
  | _ => 0

/-- The MGT block. -/
def mgtReg (s : State) (o : Nat) : Nat :=
  let m := s.mgt
  match o with
  | 0x00 => m.claimW + fld 2 2 m.claimE + fld 4 1 (b2n m.agreed) + fld 5 1 s.primary
  | 0x04 => b2n m.hbOk + fld 1 1 (b2n m.hbLost)
  | 0x10 => b2n m.loaded + fld 1 1 (b2n m.defaulted) + fld 2 1 (b2n m.allow) + fld 3 1 (b2n m.pending)
  | 0x18 => m.src
  | 0x24 => b2n m.busy + fld 16 16 m.status
  | 0x40 => m.modeReq + fld 8 2 m.modeCur + fld 16 1 (b2n m.pend) + fld 17 1 s.primary + fld 18 1 (b2n m.planSplit)
  | _ => 0

/-- The hottest reading of a list of sensors. -/
def hottest (ts : List Nat) : Nat := ts.foldl Nat.max 0

/-- The CKP block. -/
def ckpReg (s : State) (o : Nat) : Nat :=
  match o with
  | 0x00 => b2n s.boot.pllLock + fld 1 1 (b2n s.boot.aligned)
  | 0x04 => s.west.level + fld 4 4 s.east.level + fld 8 4 s.pwr.hostReq + fld 12 1 (b2n s.pins.throttle) +
      fld 16 4 (s.causes 0) + fld 20 4 (s.causes 1)
  | 0x08 => s.pwr.pinLevel + fld 4 8 s.pwr.tThrottle + fld 16 12 s.pwr.limit
  | 0x0C => b2n s.pwr.idleOff
  | 0x10 => s.west.skip
  | 0x18 => s.east.skip
  | 0x20 => s.pwr.on
  | 0x24 => fld 0 10 s.pwr.units + fld 10 10 s.pwr.fails + fld 20 1 (b2n s.pwr.running)
  | 0x28 => fld 0 8 (hottest s.tel.temps) + fld 9 12 s.tel.device
  | _ => 0

/-- The RST block. -/
def rstReg (s : State) (o : Nat) : Nat :=
  let r := s.rst
  match o with
  | 0x04 => b2n r.busy.isSome + fld 1 3 r.lastKind + fld 4 3 r.lastCause + fld 7 1 (b2n r.refused) +
      fld 8 2 s.west.flags + fld 10 2 s.east.flags
  | 0x08 => fld 0 8 r.device + fld 8 8 r.job + fld 16 8 r.half + fld 24 8 r.flr
  | 0x10 => r.lastTsc
  | _ => 0

/-! ## QUE, EVT (R487): the unit is a ring set, or an aperture's number -/

/-- QUE_CTRL to QUE_CMD_COUNT of one ring set. -/
def queSetReg (r : RingSet) (o : Nat) : Nat :=
  match o with
  | 0x04 => b2n r.enable + fld 1 1 (b2n r.irqEn) + fld 8 8 r.hostMinor + fld 16 8 r.hostMajor
  | 0x08 => r.st + fld 8 8 r.negMinor + fld 16 8 r.err
  | 0x0C => r.szCmd + fld 8 5 r.szTok + fld 16 5 r.szCpl + fld 24 5 r.szEvt
  | 0x10 => r.cmdBase
  | 0x18 => r.tokBase
  | 0x20 => r.cplBase
  | 0x28 => r.evtBase
  | 0x30 => r.dbAddr
  | 0x38 => r.wbAddr
  | 0x40 => r.irqDelay + fld 16 8 r.irqCount
  | 0x48 => r.cmdCi
  | _ => 0

/-- QUE_APT (R487). -/
def aptReg (a : Aperture) : Nat := a.target + fld 4 4 a.ctx + fld 12 40 (a.base / 0x1000)

/-- An aperture that maps nothing. -/
def Aperture.none : Aperture := ⟨0, 0, 0⟩

/-- The QUE block for ring set u. -/
def queReg (s : State) (o u : Nat) : Nat :=
  match o with
  | 0x00 => s.host.queSel
  | 0x80 => b2n s.host.cxl + fld 1 5 s.host.width + fld 6 4 s.host.rate + fld 10 1 (b2n s.host.cacheEn) +
      fld 11 1 (b2n s.host.memEn) + fld 12 1 (b2n s.host.ideIo) + fld 13 1 (b2n s.host.ideCm)
  | 0x84 => s.host.hdmLog2
  | 0x88 => s.host.hdmDenied
  | _ =>
    if 0xC0 ≤ o ∧ o < 0x100 ∧ o % 8 = 0 then aptReg (Map.get Aperture.none s.host.apts ((o - 0xC0) / 8))
    else queSetReg (s.ring u) o

/-- Events held for a ring set (R479, R480). -/
def State.heldCount (s : State) (u : Nat) : Nat :=
  (s.host.held.filter fun e => e.ring == u).length + (if u = 0 then s.host.held0.length else 0)

/-- The EVT block for ring set u. -/
def evtReg (s : State) (o u : Nat) : Nat :=
  match o with
  | 0x00 => s.host.evtSel
  | 0x04 => (s.ring u).evtLost
  | 0x08 => (s.ring u).evtPosted
  | 0x10 => (s.ring u).evtLast
  | 0x18 => Nat.min (s.heldCount u) 511
  | _ => 0

/-! ## SEC, ENS, DRB, SPG (R224, R562, R591) -/

/-- SEC_CTX of context u. -/
def secCtxReg (s : State) (u : Nat) : Nat :=
  let x := s.ctx u
  let hv := s.halvesOf u
  (if u = 0 then (if hv = 0 then 1 else 2) else x.st) + fld 3 2 hv + fld 5 1 (b2n (s.holdsJob u)) + fld 16 16 x.gen

/-- Is JTAG open in the lifecycle state (R547)? -/
def State.jtagOpen (s : State) : Bool := s.fuses.lc == 0 || s.fuses.lc == 2

/-- The SEC block for context u. -/
def secReg (s : State) (o u : Nat) : Nat :=
  let x := s.sec
  match o with
  | 0x00 => s.fuses.serial
  | 0x08 => s.fuses.lc + fld 2 2 x.lcTarget + fld 4 1 (b2n x.lcPend) + fld 5 1 (b2n s.jtagOpen)
  | 0x10 => x.nonce
  | 0x18 => x.lcSrc
  | 0x20 => x.slot + fld 1 1 (b2n x.fallback) + fld 2 7 s.fuses.svn + fld 9 7 x.svn + fld 16 2 x.keyIndex
  | 0x30 => x.view + fld 8 8 x.viewFails
  | 0x34 => x.ctxSel
  | 0x38 => secCtxReg s u
  | 0x40 => fld 0 16 ((s.ctx u).base / 2 ^ 30) + fld 32 16 ((s.ctx u).size / 2 ^ 30)
  | 0x48 => if (s.ctx u).st = 3 then fld 0 32 (Nat.min (Config.zeroedMiB u s.boot.edges) ((s.ctx u).size / 2 ^ 20)) + fld 32 32 ((s.ctx u).size / 2 ^ 20) else 0
  | 0x50 => (match x.scrub with | some sc => sc.halves + fld 2 2 sc.reason | none => 0) + fld 16 16 x.scrubs
  | 0x58 => x.fwSrc
  | 0x60 => x.fwSize
  | 0x68 => x.fwState + fld 16 16 x.fwStatus
  | 0x6C => fld 0 16 x.fwDone + fld 16 16 x.fwTotal
  | 0x70 => x.sessions + fld 4 1 (b2n s.boot.activating)
  | _ => 0

/-- Stochastic requests in the queue (R583). -/
def Ens.stochWaiting (e : Ens) : Nat := (e.queue.filter fun r => r.kind != 1).length

/-- Requests held until their class delivers (R583). -/
def State.earlyHeld (s : State) : Nat :=
  if !s.ens.ready then s.ens.queue.length
  else if s.drb.st = 0 then (s.ens.queue.filter fun r => r.kind == 1).length else 0

/-- The ENS block. -/
def ensReg (s : State) (o : Nat) : Nat :=
  let e := s.ens
  match o with
  | 0x00 => b2n e.ready + fld 1 1 (b2n e.secHalt) + fld 2 2 e.stoch + fld 4 2 e.consec + fld 6 1 (b2n e.testEn)
  | 0x04 => 0xC8298020
  | 0x08 => b2n e.testEn + fld 1 2 e.pattern
  | 0x0C => Nat.min s.earlyHeld 64 + fld 16 16 (Nat.min e.stochWaiting 65535)
  | 0x10 => e.window
  | 0x18 => fld 0 32 e.fails + fld 32 16 e.restarts
  | 0x20 => e.lastFail
  | 0x28 => e.delivered
  | _ => 0

/-- The DRB block. -/
def drbReg (s : State) (o : Nat) : Nat :=
  match o with
  | 0x00 => s.drb.log2Base
  | 0x04 => s.drb.st + fld 2 1 (b2n s.drb.due)
  | 0x08 => s.drb.count % 2 ^ 49
  | 0x10 => s.drb.reseeds
  | 0x18 => s.drb.generates
  | _ => 0

/-- The job whose seed SPG_JSTAT describes, a job that waits for its seed included (R224). -/
def State.seedJob (s : State) : Option Job :=
  match s.job (s.ownerOf s.spg.sel) with
  | some j => if j.isOpen then some j else none
  | none => none

/-- The SPG block. The job seed reads as zero to an outside observer (R225). -/
def spgReg (s : State) (o : Nat) (outside : Bool) : Nat :=
  let j := s.seedJob
  let valid := match j with | some j => j.st != .waitSeed | none => false
  let seed := if valid && !outside then ofJob j (fun j => j.seed.toNat) else 0
  match o with
  | 0x00 => s.spg.sel
  | 0x04 => b2n valid + fld 1 1 (ofJob j fun j => b2n j.params.seedDev) + fld 2 1 (ofJob j fun j => b2n (j.st == .waitSeed))
  | 0x08 => seed % 2 ^ 64
  | 0x10 => seed / 2 ^ 64
  | 0x20 => s.spg.keyLo.toNat
  | 0x28 => s.spg.keyHi.toNat
  | 0x30 => s.spg.ctrLo.toNat
  | 0x38 => s.spg.ctrHi.toNat
  | 0x44 => b2n s.spg.busy + fld 1 1 (b2n s.spg.done)
  | 0x48 => s.spg.outLo.toNat
  | 0x50 => s.spg.outHi.toNat
  | 0x58 => s.spg.u24
  | 0x5C => s.spg.gumbel.toNat
  | 0x60 =>
    let bad := (s.spg.lanes.filter fun kv => kv.2 == 2).map (·.1)
    fld 0 10 (s.spg.lanes.filter fun kv => kv.2 == 1).length + fld 16 10 (bad.headD 0) + fld 31 1 (b2n (!bad.isEmpty))
  | _ => 0

/-! ## ESP, SLC, LPX (R201 to R203) -/

/-- The handle of the image whose table is active on half h. -/
def State.espHandle (s : State) (h : Nat) : Nat := if h = 0 then s.espHandleW else s.espHandleE

/-- Entries of the phase tables that half h's store holds: those of the images of the context that runs there
(log entry 21). -/
def State.tableEntries (s : State) (h : Nat) : Nat :=
  ((s.kernels.filter fun k => k.ctx == s.ownerOf h).map fun k => match k.table with
    | some t => t.entries.length
    | none => 0).foldl (· + ·) 0

/-- Free entries of half h's table store in units of 1,024. -/
def State.tableFree (s : State) (h : Nat) : Nat := (1048576 - s.tableEntries h) / 1024

/-- The ESP block; ESP_TABLE and ESP_PHASE describe the primary half (log entry 21). -/
def espReg (s : State) (o : Nat) : Nat :=
  match o with
  | 0x00 => fld 0 16 (s.espHandle s.primary) + fld 16 13 (s.period s.primary)
  | 0x04 => fld 0 12 (s.half s.primary).phase
  | 0x08 => s.espConflict
  | 0x10 => s.tableFree 0 + fld 16 16 (s.tableFree 1)
  | _ => 0

/-- Is it a control slice (R174)? -/
def controlSlice (n : Nat) : Bool := n == 255 || n == 511

/-- The SLC block. -/
def slcReg (s : State) (o : Nat) : Nat :=
  match o with
  | 0x00 => s.slcSel
  | 0x04 => fld 0 8 (Map.get 0 s.spareUsed s.slcSel) + fld 8 8 128 + fld 16 1 (b2n (controlSlice s.slcSel))
  | _ => 0

/-- The LPX block for controller u. -/
def lpxReg (s : State) (o u : Nat) : Nat :=
  let x := s.lpxCtrl u
  let j := s.openJobOn (u / 16)
  match o with
  | 0x00 => s.lpxSel
  | 0x04 => x.st + fld 2 2 x.refRate + fld 8 8 32
  | 0x08 => x.gen
  | 0x10 => x.refStall
  | 0x18 => ofJob j (·.sealedCount)
  | 0x20 => ofJob j (·.tagFail)
  | 0x28 => ofJob j (·.params.pagedirBase)
  | _ => 0

/-! ## MOS (R371, R399): the unit is a region -/

/-- Tiles in a state. -/
def State.tilesIn (s : State) (st : Nat) : Nat :=
  ((List.range 128).filter fun t => Map.get 0 s.moss.tiles t == st).length

/-- The region that holds tile t, 0 when none does. -/
def State.tileRegion (s : State) (t : Nat) : Nat :=
  match s.moss.regions.find? (fun kv => kv.2.st != 0 && kv.2.tiles.contains t) with
  | some kv => kv.1
  | none => 0

/-- The run of a RUNNING region. -/
def State.runOf (s : State) (g : MRegion) : Option MRun :=
  if g.st = 3 then s.moss.runs.find? (fun r => r.ctx == g.ctx && r.run == g.run && decide (r.stage < 7)) else none

/-- Sweeps of a schedule (R352). -/
def totalSweeps (segs : List MSegment) : Nat := (segs.map (·.sweeps)).foldl (· + ·) 0

/-- MOS_RUN_PROG to MOS_EXCH of a run. -/
def runReg (r : MRun) (o : Nat) : Nat :=
  match o with
  | 0x40 => r.sweep % 2 ^ 39
  | 0x48 => totalSweeps r.segments % 2 ^ 39
  | 0x50 => fld 0 12 r.seg
  | 0x58 => (match r.lastCut with | some (sl, sw) => fld 0 39 sw + fld 39 1 sl + fld 40 1 1 | none => 0)
  | 0x60 => satAdd 32 r.attempted 0 + fld 32 32 (satAdd 32 r.accepted 0)
  | _ => 0

/-- MOS_REGION to MOS_LOADCNT_B and the result registers of a region. -/
def regionReg (g : MRegion) (o : Nat) : Nat :=
  let v := g.view
  match o with
  | 0x14 => fld 0 4 g.tx0 + fld 4 4 g.tx1 + fld 8 3 g.ty0 + fld 11 3 g.ty1 + fld 14 2 g.st + fld 16 1 (b2n g.exact) +
      fld 17 1 (b2n g.periodic)
  | 0x18 => unsigned 8 g.ej + fld 8 8 (unsigned 8 g.eh)
  | 0x1C => g.run
  | 0x20 => g.qerrJ.toNat
  | 0x24 => g.qerrH.toNat
  | 0x28 => satAdd 32 g.flushed 0 + fld 32 32 (satAdd 32 g.saturated 0)
  | 0x30 => satAdd 32 g.dropped 0
  | 0x70 => unsigned 64 v.best
  | 0x78 => unsigned 64 v.feas
  | 0x80 => fld 0 7 v.count + fld 8 1 (b2n v.bestValid) + fld 9 1 (b2n v.feasValid) + fld 10 1 (b2n v.extended) +
      fld 11 1 (b2n v.lead) + fld 16 8 (unsigned 8 v.eExp)
  | 0x88 => v.samples
  | 0x90 => v.extWait
  | 0x98 => fld 0 7 v.maxStale + fld 7 7 v.part + fld 14 7 v.parts
  | _ => 0

/-- Region u. -/
def State.region (s : State) (u : Nat) : MRegion := Map.get MRegion.free s.moss.regions u

/-- The MOS block for region u. -/
def mosReg (s : State) (o u : Nat) : Nat :=
  match o with
  | 0x00 => s.moss.tileSel
  | 0x04 => Map.get 0 s.moss.tiles s.moss.tileSel + fld 3 1 (b2n (exactColumn (s.moss.tileSel / 8))) +
      fld 4 7 (s.tileRegion s.moss.tileSel)
  | 0x08 => fld 0 8 (s.tilesIn 2) + fld 8 8 (s.tilesIn 1) + fld 16 8 (s.tilesIn 5)
  | 0x10 => s.moss.regionSel
  | 0x68 => Map.get 0 s.moss.updates (s.region u).ctx
  | _ =>
    if 0x40 ≤ o ∧ o ≤ 0x60 then (match s.runOf (s.region u) with | some r => runReg r o | none => 0)
    else regionReg (s.region u) o

/-! ## TRY, BED, CUT (R260, R299, R441): the unit is a half -/

/-- Entries of a job's tray (R229). -/
def Job.trayEntries (j : Job) : Nat := if j.split then 524288 else 1048576

/-- Streams of a job in a state other than FREE. -/
def Job.inState (j : Job) (st : Nat) : Nat := (j.tray.filter fun kv => kv.2.st == st).length

/-- Is the page neither in use nor waiting for a flush (R418)? -/
def Job.pageFree (j : Job) (p : Nat) : Bool :=
  (Map.get PageRec.free j.pages p).st == 0 && !(j.pageRel.any fun r => r.1 == p)

/-- Free pages of the pool. -/
def Job.freePages (j : Job) : Nat :=
  j.params.pageCount - (j.pages.filter fun kv => kv.2.st != 0).length - j.pageRel.length

/-- Free chunks of the pool. -/
def Job.freeChunks (j : Job) : Nat := j.params.chunkCount - j.chunks.length - j.chunkRel.length

/-- The TRY block of a job. -/
def tryReg (j : Job) (o : Nat) : Nat :=
  match o with
  | 0x08 => j.params.trayBase
  | 0x10 => fld 0 21 (j.trayEntries - (j.tray.filter fun kv => kv.2.st != 0).length) + fld 21 21 (j.inState 1) +
      fld 42 21 (j.inState 2)
  | 0x18 => fld 0 21 j.batchSize + fld 21 21 (j.inState 4) + fld 42 21 (j.inState 5)
  | 0x20 => fld 0 21 (j.inState 6)
  | 0x28 => j.stepNext - 1
  | 0x30 => fld 0 17 j.resident.length + fld 17 17 j.dirty.length
  | 0x38 => j.fills
  | 0x40 => fld 0 17 j.batchSize + fld 17 15 (Nat.min j.skipped 32767)
  | 0x44 => fld 0 25 j.freeChunks
  | 0x48 => j.freePages
  | _ => 0

/-- The CURRENT bed (R282): 0 A, 1 B. -/
def Job.current (j : Job) : Option Nat := if j.bedA.st = 4 then some 0 else if j.bedB.st = 4 then some 1 else none

/-- Bed b. -/
def Job.bed (j : Job) (b : Nat) : Bed := if b = 0 then j.bedA else j.bedB

/-- Bed b changed. -/
def Job.setBed (j : Job) (b : Nat) (x : Bed) : Job := if b = 0 then { j with bedA := x } else { j with bedB := x }

/-- Base and size of bed b. -/
def Job.bedRange (j : Job) (b : Nat) : Nat × Nat :=
  if b = 0 then (j.params.bedABase, j.params.bedASize) else (j.params.bedBBase, j.params.bedBSize)

/-- The HELD bed. -/
def Job.heldBed (j : Job) : Option Nat := if j.bedA.st = 5 then some 0 else if j.bedB.st = 5 then some 1 else none

/-- Does a stream pin an epoch (R295)? -/
def Stream.pins (t : Stream) (epoch : Nat) : Bool := t.st != 0 && t.kind != 3 && t.pin && t.epoch == epoch

/-- Streams that pin the HELD bed. -/
def Job.pinned (j : Job) : Nat :=
  match j.heldBed with
  | some b => (j.tray.filter fun kv => kv.2.pins (j.bed b).epoch).length
  | none => 0

/-- The bed that BED_PROG describes (R299). -/
def Job.progBed (j : Job) : Option Nat :=
  if j.bedA.st = 2 then some 0 else if j.bedB.st = 2 then some 1
  else if j.bedA.st = 1 then some 0 else if j.bedB.st = 1 then some 1 else none

/-- Bytes that the verification of bed b hashes and copies: the manifest, every shard once, and an expert shard a second time (R288). -/
def State.verifyBytes (s : State) (j : Job) (b : Nat) : Nat :=
  let base := (j.bedRange b).1
  let n := Nat.min (s.lpxLe (base + 8) 4) 65536
  (List.range n).foldl (fun acc i =>
    let o := base + 64 + 96 * i
    acc + s.lpxLe (o + 16) 8 * (if s.lpxLe o 1 = 2 then 2 else 1)) (64 + 96 * n)

/-- BED_PROG of a job (R299): for a LOADING bed what has been written; how far a verification has come is a free value up to its whole. -/
def State.bedProg (s : State) (j : Job) : Nat :=
  match j.progBed with
  | some b =>
    if (j.bed b).st = 2 then
      let total := ceilDiv (s.verifyBytes j b) (2 ^ 20)
      fld 0 32 (Nat.min (Config.verifiedMiB (j.bedRange b).1 s.boot.edges) total) + fld 32 32 total
    else fld 0 32 ((j.bed b).loaded / 2 ^ 20) + fld 32 32 ((j.bedRange b).2 / 2 ^ 20)
  | none => 0

/-- The BED block of a job but BED_PROG. -/
def bedReg (j : Job) (o : Nat) : Nat :=
  match o with
  | 0x04 => (match j.current with | some b => fld 0 16 (j.bed b).epoch + fld 16 1 b + fld 17 1 1 | none => 0)
  | 0x08 => fld 0 3 j.bedA.st + fld 16 16 j.bedA.epoch
  | 0x0C => fld 0 3 j.bedB.st + fld 16 16 j.bedB.epoch
  | 0x10 => if j.bedA.st = 2 ∨ j.bedA.st = 3 then j.bedA.flip else if j.bedB.st = 2 ∨ j.bedB.st = 3 then j.bedB.flip else 0
  | 0x20 => fld 0 21 j.pinned
  | 0x24 => satAdd 32 j.denied 0
  | 0x28 => j.xpass
  | 0x30 => j.xrec
  | _ => 0

/-- The step of an optional cutting, all ones when none. -/
def cutStep (c : Option (Nat × Nat)) : Nat := match c with | some (_, n) => n | none => 2 ^ 64 - 1

/-- CUT_LAST to CUT_MIRROR of a job; without one each reads its At reset value (R441). -/
def cutReg (s : State) (j : Option Job) (o : Nat) : Nat :=
  match o with
  | 0x04 => ofJob j fun j => (match j.committed with | some (q, _) => q % 2 | none => 0) + fld 1 1 (b2n j.writing) +
      fld 2 1 (b2n (j.params.buddy != 0xFFFF)) + fld 3 1 (b2n (match j.partner with | some p => p.set | none => false)) +
      fld 4 4 (match j.regrow with | some r => r.stage | none => 0)
  | 0x08 => (match j with | some j => cutStep j.committed | none => 2 ^ 64 - 1)
  | 0x10 => (match j with | some j => cutStep j.common | none => 2 ^ 64 - 1)
  | 0x18 => (match j with | some j => cutStep j.flushed | none => 2 ^ 64 - 1)
  | 0x20 => ofJob j (·.elapsed)
  | 0x28 => ofJob j (·.refreshStall)
  | 0x30 => ofJob j (·.retryStall)
  | 0x38 => ofJob j fun j => match j.regrow with | some r => fld 0 32 r.done + fld 32 32 r.total | none => 0
  | 0x40 => ofJob j fun j => fld 0 24 j.regrowNo + fld 24 8 (Nat.min j.regrowCount 255)
  | 0x44 => ofJob j fun j => ((j.mirror.filter fun m => m.kind == 1 || m.kind == 2).map (·.units)).foldl (· + ·) 0
  | 0x48 => s.sec.fwNumeric
  | _ => 0

/-! ## RZL, RAS, TEL, DMP (R523, R649, R662) -/

/-- RZL_PORT to RZL_RX of one port. -/
def portReg (p : Port) (o : Nat) : Nat :=
  let up := decide (2 ≤ p.st) && p.st != 6
  match o with
  | 0x08 => p.st + fld 3 2 (if up then p.version else 0) + fld 5 1 (b2n p.enc) + fld 6 4 p.peerPort +
      fld 10 12 p.peerRank + fld 22 1 (b2n (p.st == 3 || p.st == 4 || p.st == 5))
  | 0x10 => if up then p.peerSerial else 0
  | 0x18 => p.fec
  | 0x20 => satAdd 32 p.crcErr 0 + fld 32 32 (satAdd 32 p.uncorr 0)
  | 0x28 => satAdd 32 p.replays 0 + fld 32 16 (satAdd 16 p.recoveries 0) + fld 48 16 (satAdd 16 p.trainings 0)
  | 0x30 => p.txFlits
  | 0x38 => p.rxFlits
  | _ => 0

/-- Port p. -/
def State.port (s : State) (p : Nat) : Port := Map.get Port.init s.rz.ports p

/-- Port p changed. -/
def State.setPort (s : State) (p : Nat) (x : Port) : State :=
  { s with rz := { s.rz with ports := Map.set Port.init s.rz.ports p x } }

/-- The links of context c's job. -/
def State.link (s : State) (c : Nat) : Option JobLink := Map.find s.links c

/-- RZL_JOB of half h (R523). -/
def rzlJobReg (s : State) (h : Nat) : Nat :=
  match s.openJobOn h with
  | none => 0
  | some j =>
    let keyed := j.params.clearLinks || (match s.link (s.ownerOf h) with | some l => l.key.isSome | none => false)
    fld 0 12 j.params.rank + fld 12 1 1 + fld 13 1 (b2n j.params.clearLinks) + fld 14 1 (b2n keyed)

/-- The RZL block for port u. -/
def rzlReg (s : State) (o u : Nat) : Nat :=
  let z := s.rz
  match o with
  | 0x00 => z.sel
  | 0x04 => z.portEn + fld 16 2 z.maxVersion
  | 0x40 => z.routeIdx
  | 0x44 => Map.get 0 z.routes z.routeIdx
  | 0x48 => satAdd 32 z.routeMiss 0
  | 0x4C => z.w1 + fld 4 4 z.w2
  | 0x50 => rzlJobReg s (bits z.sel 4 4)
  | _ => portReg (s.port u) o

/-- The 32 bytes of an error record (R648). -/
def ErrRec.bytes (r : ErrRec) : List Byte :=
  toLe 8 r.tsc ++ toLe 2 r.source ++ toLe 1 r.kind ++ toLe 1 r.cls ++ toLe 2 r.status ++ toLe 1 r.ctx ++ [0#8] ++
    toLe 8 r.addr ++ toLe 8 r.detail

/-- Physical core of column k of row r, 0 to 31 over the device. -/
def rowCore (r k : Nat) : Nat := r * 17 + k

/-- RETIRED bits of a row. -/
def State.rowRetired (s : State) (r : Nat) : Nat :=
  (List.range 17).foldl (fun acc k => acc + fld k 1 (b2n ((s.core (rowCore r k)).st == .retired))) 0

/-- The logical column that column 16 of a row holds, 0x1F while it is spare (R649). -/
def State.graftCol (s : State) (r : Nat) : Nat :=
  let l := (s.core (rowCore r 16)).logical
  if l = 0xFFFF then 0x1F else l % 16

/-- The RAS block. -/
def rasReg (s : State) (o : Nat) : Nat :=
  let r := s.ras
  match o with
  | 0x00 => b2n s.west.degraded + fld 1 1 (b2n s.east.degraded) + fld 2 1 (b2n s.pins.fatal) + fld 8 9 r.log.length +
      fld 17 15 r.logLost
  | 0x04 => r.idx
  | 0x28 => r.ceSramW + fld 32 32 r.ceSramE
  | 0x30 => r.ceLpxW + fld 32 32 r.ceLpxE
  | 0x38 => r.ceCoreW + fld 32 32 r.ceCoreE
  | 0x40 => r.thCore + fld 8 12 r.thSram + fld 20 12 r.thLpx
  | 0x44 => r.spareSel
  | 0x48 => fld 0 17 (s.rowRetired (r.spareSel % 32)) + fld 17 5 (s.graftCol (r.spareSel % 32)) +
      fld 22 1 (b2n (!r.marks.isEmpty))
  | 0x50 => r.peerTo
  | 0x54 => r.wdog
  | 0x58 => fld 0 9 (r.ue.filter fun e => !e.rewritten || e.hard).length + fld 9 9 (r.ue.filter (·.hard)).length
  | _ =>
    if 0x08 ≤ o ∧ o < 0x28 ∧ o % 8 = 0 then (match r.log[r.idx]? with | some e => leAt e.bytes (o - 8) 8 | none => 0) else 0

/-- The TEL block. -/
def telReg (s : State) (o : Nat) : Nat :=
  let t := s.tel
  match o with
  | 0x00 => t.sel
  | 0x04 => fld 0 8 (t.temps.getD t.sel 0) + fld 8 8 (hottest (t.temps.take 8)) + fld 16 8 (hottest (t.temps.drop 8))
  | 0x08 => fld 0 12 t.device + fld 16 12 t.west + fld 32 12 t.east
  | _ => 0

/-- The DMP block. -/
def dmpReg (s : State) (o : Nat) : Nat :=
  let d := s.dmp
  match o with
  | 0x00 => d.base
  | 0x08 => d.size
  | 0x0C => b2n d.arm
  | 0x10 => d.st + fld 2 1 (b2n d.doneBit) + fld 16 16 d.status
  | 0x14 => d.doneBytes
  | _ => 0

/-! ## Core windows (R157 to R160) -/

/-- The state code of R156. -/
def CoreSt.code : CoreSt → Nat
  | .off => 0
  | .stale => 1
  | .idle => 2
  | .running => 3
  | .faulted => 4
  | .retired => 5

/-- The resident image of a handle for a context. -/
def State.image (s : State) (c handle : Nat) : Option KImage :=
  s.kernels.find? fun k => k.ctx == c && k.handle == handle

/-- The image that core p runs. -/
def State.imageOf (s : State) (p : Nat) : Option KImage := s.image (s.ownerOf (coreHalf p)) (s.core p).handle

/-- Occupancy of queue q. -/
def Core.depth (c : Core) (q : Nat) : Nat := (c.flight.filter fun f => f.queue == q).length

/-- COR_TILE[t]. -/
def tileReg (s : State) (p t : Nat) : Nat :=
  let c := s.core p
  let mapped := match s.imageOf p with | some k => (k.tile t).isSome | none => false
  if mapped then fld 0 20 (c.blockCount t) + fld 20 2 (c.tag t) + fld 22 1 1 else 0

/-- The window of physical core p. -/
def corReg (s : State) (p o : Nat) : Nat :=
  let c := s.core p
  match o with
  | 0x00 => fld 0 16 c.logical + fld 16 10 p
  | 0x04 => c.st.code + fld 8 5 (coreDomain p)
  | _ =>
    if c.st = .off then 0 else
    match o with
    | 0x08 => c.flagWord
    | 0x10 => fld 0 8 c.faultCause + fld 8 4 c.faultTile + fld 12 3 c.faultUnit
    | 0x14 => c.faultOfs
    | 0x18 => fld 0 13 c.pc
    | 0x1C => c.depth 1 + fld 5 5 (c.depth 2) + fld 10 5 (c.depth 3) + fld 15 5 (c.depth 4) + fld 20 5 (c.depth 5)
    | 0x20 => if c.st = .running then c.handle else 0
    | 0x40 => c.cycles
    | 0x48 => c.issued
    | 0x50 => c.stallQ
    | 0x58 => c.stallH
    | _ => if 0x100 ≤ o ∧ o < 0x140 ∧ o % 4 = 0 then tileReg s p ((o - 0x100) / 4) else 0

/-! ## The map of BAR0 -/

/-- The unit that the block's select register names (R654). -/
def State.selected (s : State) (block : Nat) : Nat :=
  match block with
  | 4 => s.host.queSel
  | 5 => s.host.evtSel
  | 6 => s.sec.ctxSel
  | 12 => s.lpxSel
  | 13 => s.moss.regionSel
  | 14 => s.trySel
  | 15 => s.bedSel
  | 16 => s.cutSel % 2
  | 17 => s.rz.sel % 16
  | _ => 0

/-- The live value of the register at BAR0 offset `ofs` for unit u, without coarsening. -/
def State.regVal (s : State) (ofs u : Nat) : Nat :=
  let o := ofs % 0x10000
  match ofs / 0x10000 with
  | 0 => glbReg s o
  | 1 => mgtReg s o
  | 2 => ckpReg s o
  | 3 => rstReg s o
  | 4 => queReg s o u
  | 5 => evtReg s o u
  | 6 => secReg s o u
  | 7 => ensReg s o
  | 8 => drbReg s o
  | 9 => spgReg s o false
  | 10 => espReg s o
  | 11 => slcReg s o
  | 12 => lpxReg s o u
  | 13 => mosReg s o u
  | 14 => if o = 0 then s.trySel else ofJob (s.openJobOn u) (tryReg · o)
  | 15 => if o = 0 then s.bedSel else ofJob (s.openJobOn u) fun j => if o = 0x18 then s.bedProg j else bedReg j o
  | 16 => if o = 0 then s.cutSel else cutReg s s.cutJob o
  | 17 => rzlReg s o u
  | 18 => rasReg s o
  | 19 => telReg s o
  | 20 => dmpReg s o
  | _ => if 0x800000 ≤ ofs ∧ ofs < 0x800000 + 544 * 0x1000 then corReg s ((ofs - 0x800000) / 0x1000) (ofs % 0x1000) else 0

/-! ## Coarsening (R541, R543, R650) -/

/-- What a field holds, for coarsening. -/
inductive Quantity where
  | counter | tsc | power | temp
  deriving DecidableEq, Repr

/-- A coarsened field: its lowest bit, its width, its quantity. -/
structure CoarseField where
  lo : Nat
  w : Nat
  q : Quantity
  deriving DecidableEq, Repr

/-- One whole-register counter of `w` bits. -/
def cnt (w : Nat) : List CoarseField := [⟨0, w, .counter⟩]

/-- The coarsened fields of the blocks that describe no context (R650: GLB, CKP, RST, ENS, DRB, RAS, TEL). -/
def coarseDevice (ofs : Nat) : List CoarseField :=
  match ofs with
  | 0x00030 => [⟨0, 64, .tsc⟩]
  | 0x20010 => cnt 64
  | 0x20018 => cnt 64
  | 0x20028 => [⟨0, 8, .temp⟩, ⟨9, 12, .power⟩]
  | 0x30008 => [⟨0, 8, .counter⟩, ⟨8, 8, .counter⟩, ⟨16, 8, .counter⟩, ⟨24, 8, .counter⟩]
  | 0x30010 => [⟨0, 64, .tsc⟩]
  | 0x70010 => cnt 64
  | 0x70018 => [⟨0, 32, .counter⟩, ⟨32, 16, .counter⟩]
  | 0x70028 => cnt 64
  | 0x80008 => cnt 49
  | 0x80010 => cnt 64
  | 0x80018 => cnt 64
  | 0x120000 => [⟨17, 15, .counter⟩]
  | 0x120008 => [⟨0, 64, .tsc⟩]
  | 0x120028 => [⟨0, 32, .counter⟩, ⟨32, 32, .counter⟩]
  | 0x120030 => [⟨0, 32, .counter⟩, ⟨32, 32, .counter⟩]
  | 0x120038 => [⟨0, 32, .counter⟩, ⟨32, 32, .counter⟩]
  | 0x130004 => [⟨0, 8, .temp⟩, ⟨8, 8, .temp⟩, ⟨16, 8, .temp⟩]
  | 0x130008 => [⟨0, 12, .power⟩, ⟨16, 12, .power⟩, ⟨32, 12, .power⟩]
  | _ => []

/-- The coarsened fields of the blocks that describe a context's job, the core windows among them. -/
def coarseJob (ofs : Nat) : List CoarseField :=
  match ofs with
  | 0x40048 => cnt 64
  | 0x40088 => cnt 32
  | 0x50004 => cnt 32
  | 0x50008 => cnt 64
  | 0x50010 => [⟨0, 64, .tsc⟩]
  | 0x50018 => cnt 9
  | 0xC0010 => cnt 64
  | 0xC0018 => cnt 64
  | 0xC0020 => cnt 32
  | 0xD0028 => [⟨0, 32, .counter⟩, ⟨32, 32, .counter⟩]
  | 0xD0030 => cnt 32
  | 0xD0040 => cnt 39
  | 0xD0060 => [⟨0, 32, .counter⟩, ⟨32, 32, .counter⟩]
  | 0xD0068 => cnt 64
  | 0xD0088 => cnt 64
  | 0xD0090 => cnt 64
  | 0xE0010 => [⟨0, 21, .counter⟩, ⟨21, 21, .counter⟩, ⟨42, 21, .counter⟩]
  | 0xE0018 => [⟨0, 21, .counter⟩, ⟨21, 21, .counter⟩, ⟨42, 21, .counter⟩]
  | 0xE0020 => cnt 21
  | 0xE0030 => [⟨0, 17, .counter⟩, ⟨17, 17, .counter⟩]
  | 0xE0038 => cnt 64
  | 0xE0040 => [⟨0, 17, .counter⟩, ⟨17, 15, .counter⟩]
  | 0xE0044 => cnt 25
  | 0xE0048 => cnt 32
  | 0xF0020 => cnt 21
  | 0xF0024 => cnt 32
  | 0xF0028 => cnt 64
  | 0xF0030 => cnt 64
  | 0x100020 => cnt 64
  | 0x100028 => cnt 64
  | 0x100030 => cnt 64
  | 0x100040 => [⟨24, 8, .counter⟩]
  | 0x100044 => cnt 32
  | 0x110018 => cnt 64
  | 0x110020 => [⟨0, 32, .counter⟩, ⟨32, 32, .counter⟩]
  | 0x110028 => [⟨0, 32, .counter⟩, ⟨32, 16, .counter⟩, ⟨48, 16, .counter⟩]
  | 0x110030 => cnt 64
  | 0x110038 => cnt 64
  | 0x110048 => cnt 32
  | _ =>
    if 0x800000 ≤ ofs ∧ ofs < 0x800000 + 544 * 0x1000 ∧
        (ofs % 0x1000 = 0x40 ∨ ofs % 0x1000 = 0x48 ∨ ofs % 0x1000 = 0x50 ∨ ofs % 0x1000 = 0x58) then cnt 64 else []

/-- The half that a unit of a block belongs to; blocks without a half take the primary half. -/
def State.unitHalf (s : State) (ofs u : Nat) : Nat :=
  match ofs / 0x10000 with
  | 4 => if s.halvesOf u = 0 then s.primary else maskHalf (s.halvesOf u)
  | 5 => if s.halvesOf u = 0 then s.primary else maskHalf (s.halvesOf u)
  | 12 => u / 16
  | 13 => let g := s.region u; if g.st = 0 then s.primary else g.tx0 / 8
  | 14 => u
  | 15 => u
  | 16 => u
  | 17 => u / 8
  | _ => if 0x800000 ≤ ofs then coreHalf ((ofs - 0x800000) / 0x1000) else s.primary

/-- The context inside which a read of the register lies (R541, R650). -/
def State.regCtx (s : State) (ofs u : Nat) : Nat :=
  match ofs / 0x10000 with
  | 4 => u
  | 5 => u
  | 13 => (s.region u).ctx
  | 16 => if bit s.cutSel 8 then bits s.cutSel 7 4 else s.ownerOf u
  | _ => s.ownerOf (s.unitHalf ofs u)

/-- Does the read of a register that describes a job lie outside its context (R541)? -/
def State.outside (s : State) (ofs u : Nat) : Bool :=
  s.coarsening && !(s.sec.view == s.regCtx ofs u && s.sec.view != 0)

/-- The key of a snapshot: the register's offset and the unit. -/
def snapKey (ofs u : Nat) : Nat := ofs * 256 + u

/-- The key under which half h notes that a snapshot has been taken. -/
def snapHalf (h : Nat) : Nat := h

/-- The registers whose counters a snapshot of half h takes, with their units (R543). -/
def State.snapUnits (s : State) (h : Nat) : List (Nat × Nat) :=
  let dev := if h = s.primary then
      [0x20010, 0x20018, 0x30008, 0x70010, 0x70018, 0x70028, 0x80008, 0x80010, 0x80018, 0x120000, 0x120028, 0x120030,
        0x120038, 0x40088, 0x110048].map fun o => (o, 0) else []
  let sets := ((List.range 16).filter fun c => s.unitHalf 0x40048 c == h).map fun c => c
  let ctrls := (List.range 16).map fun i => 16 * h + i
  let regions := (s.moss.regions.filter fun kv => s.unitHalf 0xD0000 kv.1 == h).map (·.1)
  let ports := (List.range 8).map fun i => 8 * h + i
  dev ++ (sets.map fun c => [(0x40048, c), (0x50004, c), (0x50008, c), (0x50018, c)]).flatten ++
    (ctrls.map fun i => [(0xC0010, i), (0xC0018, i), (0xC0020, i)]).flatten ++
    (regions.map fun g => [0xD0028, 0xD0030, 0xD0040, 0xD0060, 0xD0068, 0xD0088, 0xD0090].map fun o => (o, g)).flatten ++
    ([0xE0010, 0xE0018, 0xE0020, 0xE0030, 0xE0038, 0xE0040, 0xE0044, 0xE0048, 0xF0020, 0xF0024, 0xF0028, 0xF0030, 0x100020,
      0x100028, 0x100030, 0x100040, 0x100044].map fun o => (o, h)) ++
    (ports.map fun p => [0x110018, 0x110020, 0x110028, 0x110030, 0x110038].map fun o => (o, p)).flatten ++
    ((s.cores.filter fun kv => coreHalf kv.1 == h).map fun kv =>
      [0x40, 0x48, 0x50, 0x58].map fun o => (0x800000 + kv.1 * 0x1000 + o, 0)).flatten

/-- The live value that a snapshot takes; CUT registers describe the job of the half. -/
def State.snapVal (s : State) (ofs u : Nat) : Nat :=
  if ofs / 0x10000 = 16 then
    cutReg s (match s.job (s.ownerOf u) with | some j => (if j.st = .waitSeed then none else some j) | none => none) (ofs % 0x10000)
  else s.regVal ofs u

/-- The snapshot of half h: at each step boundary of the half, and when its last job ends (R543). -/
def State.takeSnap (s : State) (h : Nat) : State :=
  let old := Map.erase s.snap fun k => decide (0x800000 * 256 ≤ k) && coreHalf ((k / 256 - 0x800000) / 0x1000) == h
  let m := (s.snapUnits h).foldl (fun m e => Map.set 0 m (snapKey e.1 e.2) (s.snapVal e.1 e.2)) old
  { s with snap := Map.set 0 m (snapHalf h) 1 }

/-- The snapshots of the halves of a mask. -/
def State.takeSnaps (s : State) (mask : Nat) : State :=
  let s := if bit mask 0 then s.takeSnap 0 else s
  if bit mask 1 then s.takeSnap 1 else s

/-- One field coarsened: a counter from the snapshot, rounded down to a multiple of 1,024; a TSC likewise; power to the
nearest multiple of 5 W, ties up; a temperature down to a multiple of 5 degrees. -/
def coarseField (f : CoarseField) (live snap : Nat) : Nat :=
  let part := fun v => bits v (f.lo + f.w - 1) f.lo
  match f.q with
  | .counter => part snap / 1024 * 1024
  | .tsc => part live / 1024 * 1024
  | .power => (part live + 2) / 5 * 5
  | .temp => part live / 5 * 5

/-- A register's value with the listed fields coarsened. -/
def coarsen (fs : List CoarseField) (live snap : Nat) : Nat :=
  fs.foldl (fun v f => v - fld f.lo f.w (bits v (f.lo + f.w - 1) f.lo) + fld f.lo f.w (coarseField f live snap)) live

/-- The snapshot of a register, or its live value when its half has had none (log entry 22). -/
def State.snapOf (s : State) (ofs u live : Nat) : Nat :=
  if Map.get 0 s.snap (snapHalf (s.unitHalf ofs u)) = 0 then live else Map.get 0 s.snap (snapKey ofs u)

/-- Coarsening by lifecycle, by block and by view; during a scrub every counter and every telemetry value reads
coarse (R539). -/
def State.observed (s : State) (ofs u live : Nat) : Nat :=
  let scrub := s.sec.scrub.isSome
  let dev := coarseDevice ofs
  let fs := if !dev.isEmpty then (if s.coarsening || scrub then dev else [])
    else if s.outside ofs u || scrub then coarseJob ofs else []
  coarsen fs live (s.snapOf ofs u live)

/-- What the host reads of the register at offset `ofs`. -/
def State.regRead (s : State) (ofs : Nat) : Nat :=
  let u := s.selected (ofs / 0x10000)
  if ofs / 0x10000 = 9 then
    spgReg s (ofs % 0x10000) (s.coarsening && !(s.sec.view == s.ownerOf s.spg.sel && s.sec.view != 0))
  else s.observed ofs u (s.regVal ofs u)

end Sys2Proof.Machine
end

