-- ==== Sys2Proof/Machine/OpsRing.lean ====
section
/-!
DEFINITION. Doorbells and ring-set states: what an observed index does (R455 to R463), the ring faults of R699, and
the completion of a command.
-/
namespace Sys2Proof.Machine

/-! ## Observed indices (R455, R461) -/

/-- The 64-bit value with the low 32 bits of `v` that lies nearest to `ref` (R455), in 64-bit arithmetic. -/
def extendIndex (ref v : Nat) : Nat :=
  let d := (v + 2 ^ 32 - ref % 2 ^ 32) % 2 ^ 32
  if d < 2 ^ 31 then ref + d else ref + d - 2 ^ 32

/-- Does the value lie below the reference once extended? -/
def belowIndex (ref v : Nat) : Bool := decide (2 ^ 31 ≤ (v + 2 ^ 32 - ref % 2 ^ 32) % 2 ^ 32)

/-- The source of an event about a ring set (R701). -/
def State.ringSource (s : State) (c : Nat) : Nat := s.schedulerSource c

/-- An invalid index: ERR reads 3 or 4, and RING_ERROR is posted once until a valid value (R461). -/
def State.ringError (s : State) (set which err v : Nat) : State :=
  let r := s.ring set
  let s1 := s.setRing set { r with err := err, errWait := r.errWait ||| (1 <<< which) }
  if bit r.errWait which then s1
  else s1.postWith set (s.ringSource set) 0x0102 0 (toLe 1 set ++ toLe 1 err ++ toLe 2 0 ++ toLe 4 v) false

/-- A valid value ends the wait for one. -/
def clearWait (r : RingSet) (which : Nat) : Nat := if bit r.errWait which then r.errWait - (1 <<< which) else r.errWait

/-- CMD_PI observed (R461); the span of R409 starts for the entries that become available. -/
def State.observeCmd (s : State) (set v : Nat) : State :=
  let r := s.ring set
  let x := extendIndex r.cmdCi v
  if belowIndex r.cmdCi v || decide (r.cmdCi + 2 ^ r.szCmd < x) then s.ringError set 0 3 v else
  let st := s.stalls set
  let o : Observed := ⟨x, s.xcOf set, st.1, st.2⟩
  s.setRing set { r with cmdPi := x, errWait := clearWait r 0,
                         obs := if r.cmdPi < x then r.obs ++ [o] else r.obs }

/-- A consumer index observed (R461): 1 token, 2 completion, 3 event, in the order of R456. -/
def State.observeCi (s : State) (set which v : Nat) : State :=
  let r := s.ring set
  let pc := if which = 1 then (r.tokPi, r.tokCi) else if which = 2 then (r.cplPi, r.cplCi) else (r.evtPi, r.evtCi)
  let x := extendIndex pc.2 v
  if belowIndex pc.2 v || decide (pc.1 < x) then s.ringError set which 4 v else
  let r := { r with errWait := clearWait r which }
  s.setRing set (if which = 1 then { r with tokCi := x } else if which = 2 then { r with cplCi := x } else { r with evtCi := x })

/-- EVENTS_LOST once the event ring has room again (R461). -/
def State.postLost (s : State) (set : Nat) : State :=
  let r := s.ring set
  if r.evtWait = 0 ∨ r.room 2 = 0 then s else
  (s.setRing set { r with evtWait := 0 }).postWith set (s.ringSource set) 0x0101 0 (toLe 4 (Nat.min r.evtWait (2 ^ 32 - 1))) false

/-- The four fields of the doorbell observed (R456, R457). -/
def State.observeAll (s : State) (set : Nat) (vs : List Nat) : State :=
  let s := s.observeCmd set (vs.getD 0 0)
  let s := s.observeCi set 1 (vs.getD 1 0)
  let s := s.observeCi set 2 (vs.getD 2 0)
  (s.observeCi set 3 (vs.getD 3 0)).postLost set

/-- Does the ring set watch its doorbell line through CXL.cache (R457, R458)? -/
def State.usesLine (s : State) (set : Nat) : Bool := s.host.cxl && decide (2 ≤ (s.ring set).negMinor)

/-- The doorbell line as host memory holds it. -/
def State.lineValues (s : State) (set : Nat) : List Nat :=
  let bs := Memory.readBytes s.host.mem ((s.ring set).dbAddr % 2 ^ 64) 16
  (List.range 4).map fun i => leAt bs (4 * i) 4

/-! ## Ring faults and completions (R463, R699) -/

/-- The ring set goes to HALTED (R462); ERR reads 5 for a read, 6 for a write. -/
def State.haltRing (s : State) (set err : Nat) : State :=
  let r := s.ring set
  if r.st = 0 ∨ r.st = 4 then s else (s.setRing set { r with err := err }).setRingState set 4

/-- A completion whose write fails only halts its ring set: for commands of a context whose job ends. -/
def State.completeEnd (s : State) (h : Head) (opcode : Nat) (c : Cpl) : State :=
  if s.hostCanWrite then s.writeCpl h opcode c else (s.setRing h.set ((s.ring h.set).completed h)).haltRing h.set 6

end Sys2Proof.Machine
end

