-- ==== Sys2Proof/Machine/OpsDump.lean ====
section
/-!
DEFINITION. Register widths (R650 to R672) and the state dump (R640 to R643).
-/
namespace Sys2Proof.Machine

/-! ## Widths -/

/-- Offsets within a block of its 64-bit registers. -/
def block64 (block : Nat) : List Nat :=
  match block with
  | 0 => [0x10, 0x18, 0x30]
  | 1 => [0x18]
  | 2 => [0x10, 0x18]
  | 3 => [0x10]
  | 4 => [0x10, 0x18, 0x20, 0x28, 0x30, 0x38, 0x48, 0xC0, 0xC8, 0xD0, 0xD8, 0xE0, 0xE8, 0xF0, 0xF8]
  | 5 => [0x08, 0x10]
  | 6 => [0x00, 0x10, 0x18, 0x28, 0x40, 0x48, 0x58]
  | 7 => [0x10, 0x18, 0x20, 0x28]
  | 8 => [0x08, 0x10, 0x18]
  | 9 => [0x08, 0x10, 0x20, 0x28, 0x30, 0x38, 0x48, 0x50]
  | 10 => [0x08]
  | 12 => [0x10, 0x18, 0x28]
  | 13 => [0x28, 0x40, 0x48, 0x58, 0x60, 0x68, 0x70, 0x78, 0x88, 0x90]
  | 14 => [0x08, 0x10, 0x18, 0x28, 0x30, 0x38]
  | 15 => [0x10, 0x18, 0x28, 0x30]
  | 16 => [0x08, 0x10, 0x18, 0x20, 0x28, 0x30, 0x38]
  | 17 => [0x10, 0x18, 0x20, 0x28, 0x30, 0x38]
  | 18 => [0x08, 0x10, 0x18, 0x20, 0x28, 0x30, 0x38]
  | 19 => [0x08]
  | 20 => [0x00]
  | _ => []

/-- Is the register at the offset 64 bits wide? -/
def is64 (ofs : Nat) : Bool :=
  if 0x800000 ≤ ofs then [0x40, 0x48, 0x50, 0x58].contains (ofs % 0x1000)
  else (block64 (ofs / 0x10000)).contains (ofs % 0x10000)

/-! ## The dump -/

/-- A register as an observer outside every context reads it, with the selectors at half h. -/
def State.outsideReg (s : State) (h ofs u : Nat) : Nat :=
  let s := { s with sec := { s.sec with view := 0 }, cutSel := h }
  s.observed ofs u (s.regVal ofs u)

/-- `n` bytes of a block's registers from its first offset. -/
def State.blockBytes (s : State) (h block u n : Nat) : List Byte :=
  let w := block64 block
  ((List.range (n / 4)).map fun i =>
    let o := 4 * i
    if w.contains o then toLe 8 (s.outsideReg h (block * 0x10000 + o) u)
    else if w.contains (o - 4) && o != 0 then []
    else toLe 4 (s.outsideReg h (block * 0x10000 + o) u)).flatten

/-- One section of R421: its 16-byte header (type, count, bytes of the entries) and the entries. -/
def sectionOf (type : Nat) (es : List (List Byte)) : List Byte :=
  toLe 2 type ++ toLe 2 0 ++ toLe 4 es.length ++ toLe 8 es.flatten.length ++ es.flatten

/-- The entry of core p. -/
def State.dumpCore (s : State) (p : Nat) : List Byte :=
  let r := fun o n => toLe n (s.outsideReg 0 (0x800000 + p * 0x1000 + o) 0)
  r 0x00 4 ++ r 0x04 4 ++ r 0x08 4 ++ r 0x10 4 ++ r 0x14 4 ++ r 0x18 4 ++ r 0x1C 4 ++ r 0x20 4 ++ r 0x40 8 ++ r 0x48 8 ++
    r 0x50 8 ++ r 0x58 8

/-- The entry of ring set c. -/
def State.dumpRing (s : State) (c : Nat) : List Byte :=
  let r := s.ring c
  let q := fun o => s.outsideReg 0 (0x40000 + o) c
  toLe 4 (q 0x08) ++ toLe 4 (q 0x0C) ++ toLe 8 (q 0x48) ++ bytesAt r.writeback 0 20 ++
    (toLe 4 r.cmdPi ++ toLe 4 r.tokCi ++ toLe 4 r.cplCi ++ toLe 4 r.evtCi) ++ List.replicate 12 0#8

/-- The entry of port p. -/
def State.dumpPort (s : State) (p : Nat) : List Byte :=
  let q := fun o => s.outsideReg 0 (0x110000 + o) p
  toLe 4 (q 0x08) ++ toLe 4 0 ++ toLe 8 (q 0x10) ++ toLe 8 (q 0x18) ++ toLe 8 (q 0x20) ++ toLe 8 (q 0x28) ++
    toLe 8 (q 0x30) ++ toLe 8 (q 0x38) ++ toLe 8 0

/-- The entry of controller i; its line counts read coarse. -/
def State.dumpLpx (s : State) (i : Nat) : List Byte :=
  let x := s.lpxCtrl i
  let c := fun v => if s.coarsening then v / 1024 * 1024 else v
  toLe 4 (s.outsideReg 0 0xC0004 i) ++ toLe 4 (s.outsideReg 0 0xC0008 i) ++ toLe 8 (s.outsideReg 0 0xC0010 i) ++
    toLe 8 (c x.ce) ++ toLe 4 (c x.ue) ++ toLe 4 0

/-- MOS_TILE of tile t. -/
def State.dumpTile (s : State) (t : Nat) : List Byte :=
  toLe 4 (mosReg { s with moss := { s.moss with tileSel := t } } 4 0)

/-- The entry of half h's job. -/
def State.dumpJob (s : State) (h : Nat) : List Byte :=
  s.blockBytes h 16 h 0x50 ++ s.blockBytes h 14 h 0x50 ++ s.blockBytes h 15 h 0x38 ++ List.replicate 40 0#8

/-- The device's entry. -/
def State.dumpDevice (s : State) : List Byte :=
  s.blockBytes 0 2 0 0x30 ++ s.blockBytes 0 3 0 0x18 ++ s.blockBytes 0 1 0 0x48 ++ s.blockBytes 0 7 0 0x30 ++
    s.blockBytes 0 8 0 0x18 ++ List.replicate 40 0#8

/-- An error record with its TSC coarsened. -/
def State.dumpErr (s : State) (r : ErrRec) : List Byte :=
  (if s.coarsening then { r with tsc := r.tsc / 1024 * 1024 } else r).bytes

/-- What triggered a dump: FLAGS beyond SPLIT, status, source, kind, context and step. -/
structure DumpCause where
  flags : Nat
  status : Nat
  source : Nat
  kind : Nat
  ctx : Nat
  step : Nat
  deriving DecidableEq, Repr

/-- The bytes of a dump (R642, R643). -/
def State.dumpImage (s : State) (c : DumpCause) : List Byte :=
  let fl := c.flags + (if s.split then 16 else 0)
  let body :=
    sectionOf 1 (s.ras.log.map s.dumpErr) ++ sectionOf 2 s.host.tail ++
    sectionOf 3 ((List.range 544).map s.dumpCore) ++ sectionOf 4 ((List.range 16).map s.dumpRing) ++
    sectionOf 5 ((List.range 16).map s.dumpPort) ++ sectionOf 6 ((List.range 32).map s.dumpLpx) ++
    sectionOf 7 ((List.range 128).map s.dumpTile) ++ sectionOf 8 ((List.range 2).map s.dumpJob) ++
    sectionOf 9 [s.dumpDevice]
  let tsc := if s.coarsening then s.tsc / 1024 * 1024 else s.tsc
  let head := toLe 4 0x4B56444D ++ toLe 2 1 ++ toLe 2 fl ++ toLe 8 (128 + body.length + 48) ++ toLe 8 tsc ++
    toLe 8 s.fuses.serial ++ toLe 4 s.sec.fwNumeric ++ toLe 2 c.status ++ toLe 2 c.source ++ toLe 1 c.kind ++ toLe 1 c.ctx ++
    toLe 2 9 ++ toLe 4 0 ++ toLe 8 c.step ++ List.replicate 72 0#8
  let all := head ++ body
  all ++ (if bit c.flags 3 then List.replicate 48 0#8 else sha384 all)

/-- A dump begins: while ARM is set, unless one is being written or the halves disagree on primacy (R640, R641). Its status
is known when its writing ends. -/
def State.startDump (s : State) (c : DumpCause) : State :=
  if !s.dmp.arm || s.dmp.st == 1 || (match s.boot.halt with | .primacy => true | _ => false) then s
  else { s with dmp := { s.dmp with st := 1, status := 0, doneBytes := 0, image := s.dumpImage c } }

end Sys2Proof.Machine
end

