-- ==== Sys2Proof/Machine/OpsEnd.lean ====
section
/-!
DEFINITION. The end of a job (R427, R463, R474, R629), job-fatal and device-fatal errors (R627 to R631), and domains that
switch off.
-/
namespace Sys2Proof.Machine

/-! ## Power domains that switch off (R602, R366) -/

/-- DOMAIN_CHANGED: the half's management controller, the primary's for a domain of no half (R701). -/
def State.postDomain (s : State) (pd on : Nat) : State :=
  let src := if pd ≤ 2 ∨ pd = 19 then s.primarySource
    else if (3 ≤ pd ∧ pd ≤ 6) ∨ pd = 11 ∨ pd = 13 ∨ pd = 15 ∨ pd = 17 then 1 else 2
  s.postDev src 0x0C02 0 (toLe 1 pd ++ toLe 1 on)

/-- A core whose domain switches off: OFF, nothing of its stores can reach a schedule (R156, R604). -/
def Core.powerOff (c : Core) : Core := { Core.init with logical := c.logical }

/-- The Moss tiles of domain 11 or 12. -/
def domainTiles (pd : Nat) : List Nat := (List.range 64).map fun i => (pd - 11) * 64 + i

/-- Tiles put into a state. -/
def State.setTiles (s : State) (ts : List Nat) (v : Nat) : State :=
  { s with moss := { s.moss with tiles := ts.foldl (fun m t => Map.set 0 m t v) s.moss.tiles } }

/-- A domain switches OFF. Cores and tiles become OFF; the units of a rejoin round in the domain leave it; the controllers of
PD15 and PD16 put their devices into self-refresh. -/
def State.domainOff (s : State) (pd : Nat) : State :=
  if !s.isOn pd then s else
  let s := { s with pwr := { s.pwr with on := s.pwr.on - 2 ^ pd } }
  let s := if 3 ≤ pd ∧ pd ≤ 10 then s.onCores (fun p => coreDomain p == pd) (fun _ c => c.powerOff)
    else if pd = 11 ∨ pd = 12 then s.setTiles (domainTiles pd) 0
    else if pd = 15 ∨ pd = 16 then
      (List.range 16).foldl (fun (s : State) i => s.setLpx (16 * (pd - 15) + i) { s.lpxCtrl (16 * (pd - 15) + i) with st := 0 }) s
    else s
  s.postDomain pd 0

/-- Does a region lie in Moss half h? -/
def State.regionIn (s : State) (h : Nat) : Bool :=
  s.moss.regions.any fun kv => (kv.2.st != 0 || kv.2.await.isSome) && kv.2.tiles.any (fun t => t / 64 == h)

/-- PD11 and PD12 switch off where no region remains (R366). -/
def State.mossIdle (s : State) : State :=
  let s := if s.regionIn 0 then s else s.domainOff 11
  if s.regionIn 1 then s else s.domainOff 12

/-! ## What the end of a job does to the Moss (R338, R369) -/

/-- Regions that `sel` names become FREE with everything they hold zeroed; their tiles become IDLE unless
retired (R338). -/
def State.clearRegions (s : State) (sel : MRegion → Bool) : State :=
  let gone := s.moss.regions.filter fun kv => sel kv.2
  let ts := ((gone.filter fun kv => kv.2.st != 0).map fun kv => kv.2.tiles).flatten
  let tiles := ts.foldl (fun m t => if Map.get 0 m t = 3 ∨ Map.get 0 m t = 4 then Map.set 0 m t 2 else m) s.moss.tiles
  { s with moss := { s.moss with regions := s.moss.regions.filter (fun kv => !sel kv.2), tiles := tiles } }

/-- The completions of context c's Moss commands that a job's end cuts off: runs, stops, reads and the
regions that wait for their tiles complete with the status of the end. -/
def State.failMoss (s : State) (c status : Nat) : State :=
  let runs := s.moss.runs.filter fun r => r.ctx == c && r.stage != 8
  let heads := (runs.map fun (r : MRun) => (r.head, r.opcode) :: (match r.stop with | some h => [(h, 0x53)] | none => []) ++
      r.reads.map fun x => (x.1, 0x55)).flatten ++
    (s.moss.regions.filterMap fun kv => if kv.2.ctx = c then kv.2.await.map fun h => (h, 0x50) else none)
  let s := heads.foldl (fun (s : State) e => s.completeEnd e.1 e.2 (Cpl.plain status 0)) s
  { s with moss := { s.moss with runs := s.moss.runs.filter (fun r => r.ctx != c), early := s.moss.early.filter fun e => e.1 != c } }

/-! ## The end of a job -/

/-- A retirement mark entered once per unit (R636). -/
def State.mark (s : State) (m : Mark) : State :=
  if s.ras.marks.any (fun x => x.kind == m.kind && x.unit == m.unit) then s
  else { s with ras := { s.ras with marks := s.ras.marks ++ [m] } }

/-- The key of a unit's corrected-error count within a job: cores, then slices, then controllers. -/
def ceKey (type unit : Nat) : Nat := type * 4096 + unit

/-- R637 at the end of a job: cores of its halves above the threshold are marked; the counts of its halves
restart. -/
def State.endCounts (s : State) (halves : Nat) : State :=
  let beyond := s.ras.ceUnits.filter fun kv => kv.1 < 4096 && inHalves halves kv.1 && decide (s.ras.thCore < kv.2)
  let s := beyond.foldl (fun (s : State) kv => s.mark ⟨0, kv.1, 0x03⟩) s
  let here := fun k => if k / 4096 = 0 then inHalves halves k else
    if k / 4096 = 1 then bit halves (k % 4096 / 256) else bit halves (k % 4096 / 16)
  { s with ras := { s.ras with ceUnits := Map.erase s.ras.ceUnits here } }

/-- A job that has ended and is retained (R427): what its engine had in progress is dropped. -/
def Job.endWith (j : Job) (status : Nat) : Job :=
  { j with st := .ended, reason := status, run := none, waiting := [], deferred := [], grun := none, closing := none,
           openHead := none, cutNow := false, captured := [], writing := false, dispHeaders := [], dispRecords := [],
           outputs := [], combined := [], moe := 0, ranLayers := [], overdue := false, regrow := none, recordNeed := 0,
           lastRun := match j.grun with | some r => some (r.head, r.desc) | none => j.lastRun }

/-- Random-service commands of ring set c that wait; a job's end leaves them. -/
def State.randWaiting (s : State) (c : Nat) : Nat :=
  (s.ens.queue.filter fun r => match r.who with | .command h _ _ => h.set == c | _ => false).length

/-- The ring set of a job that has ended (R462, R474). -/
def State.endRing (s : State) (c : Nat) : State :=
  let r := s.ring c
  let s := s.setRing c { r with reserved := 4 * s.randWaiting c, hold := none, await := false }
  if r.st = 1 ∨ r.st = 2 then s.setRingState c 3 else s

/-- Streamer transfers of context c dropped. -/
def State.dropStreams (s : State) (c : Nat) : State :=
  { s with streamers := s.streamers.filter fun t => t.ctx != c }

/-- What every end of a job has in common: its cores stop, its Moss is cleared, its thresholds are applied, the
snapshot of R543 is taken and JOB_ENDED is posted. -/
def State.windJob (s : State) (c status : Nat) (j : Job) : State :=
  let halves := if j.st = JobSt.suspended then 0 else j.halves
  let s := s.failMoss c status
  let s := (s.clearRegions fun g => g.ctx == c).mossIdle
  let s := s.onCores (inHalves halves) fun _ x => x.stopped
  let s := (s.dropStreams c).endCounts halves
  let s := s.takeSnaps halves
  s.postJob c 0x0104 status (toLe 8 j.lastStep)

/-- Is the random-service request one of context c's job: an object seed or the job secret? -/
def RandFor.ofJob (r : RandFor) (c : Nat) : Bool :=
  match r with
  | .objectSeed k _ => k == c
  | .jobSecret k => k == c
  | _ => false

/-- The job of context c ends with a status (R427). A job that waits for its seed has not opened: its JOB_OPEN
completes with the status. The first end decides (R629). -/
def State.endJob (s : State) (c status : Nat) : State :=
  match s.job c with
  | none => s
  | some j =>
    if j.st = .ended then s else
    if j.st = .waitSeed then
      let s := (s.dropJob c).mossIdle
      let s := { s with ens := { s.ens with queue := s.ens.queue.filter fun r => r.who != .jobSeed c } }
      match j.openHead with
      | some h => s.completeEnd h 0x01 (Cpl.plain status 0)
      | none => s
    else
      let s := s.sendJob c 0x31 (toLe 2 j.params.rank)
      let s := s.windJob c status j
      let s := { s with ens := { s.ens with queue := s.ens.queue.filter fun r => !r.who.ofJob c } }
      let s := s.setJob c (j.endWith status)
      let s := match j.regrow with
        | some r => if j.st = JobSt.regrow then s.completeEnd r.head 0x61 (Cpl.plain status 0) else s
        | none => s
      s.endRing c

/-- Every open or suspended job ends. -/
def State.endAll (s : State) (status : Nat) : State :=
  (List.range 16).foldl (fun (s : State) c => s.endJob c status) s

/-- The jobs of the halves of a mask end. -/
def State.endHalves (s : State) (mask status : Nat) : State :=
  (List.range 16).foldl (fun (s : State) c => match s.job c with
    | some j => if (j.halves &&& mask) != 0 && s.halvesOf c != 0 then s.endJob c status else s
    | none => s) s

/-- A ring fault (R463, R699): the ring set goes to HALTED and the context's job ends. -/
def State.ringFault (s : State) (set err : Nat) : State :=
  let r := s.ring set
  if r.st = 0 ∨ r.st = 4 then s else
  (s.haltRing set err).endJob set (if err = 5 then 0x0007 else 0x0008)

/-- A completion written; a write that cannot be sent is a ring fault. -/
def State.complete (s : State) (h : Head) (opcode : Nat) (c : Cpl) : State :=
  if s.hostCanWrite then s.writeCpl h opcode c else (s.setRing h.set ((s.ring h.set).completed h)).ringFault h.set 6

/-- A completion with a status and RESULT. -/
def State.done (s : State) (h : Head) (opcode status result : Nat) : State := s.complete h opcode (Cpl.plain status result)

/-! ## Errors (R627 to R631) -/

/-- A job-fatal error: logged, its event posted, a dump begun when armed, the job ended. -/
def State.jobFatal (s : State) (c source kind status addr detail : Nat) : State :=
  let step := match s.job c with | some j => j.lastStep | none => 2 ^ 64 - 1
  let s := (s.logKind source kind 1 status c addr detail).endJob c status
  s.startDump ⟨0, status, source, kind, c, step⟩

/-- UNCORRECTABLE_ERROR (R647). -/
def State.postUe (s : State) (c source kind lineKind unit addr : Nat) : State :=
  s.postWith c source 0x0A01 0x0A01 (toLe 1 kind ++ toLe 1 lineKind ++ toLe 2 unit ++ toLe 4 0 ++ toLe 8 addr) (s.replaying c)

/-- Bits of the SMBus ALERT byte set (R687, R688). -/
def State.raiseAlert (s : State) (v : Nat) : State := { s with tel := { s.tel with alert := s.tel.alert ||| v } }

/-- FATAL_N asserted (R697); the ALERT byte notes it. -/
def State.assertFatal (s : State) : State :=
  { s.raiseAlert 2 with pins := { s.pins with fatal := true } }

/-- A device-fatal error: logged, FATAL_N asserted, every job ended, DEVICE_FATAL posted, the device HALTED (R627,
R697, R700). -/
def State.deviceFatal (s : State) (source kind status flags : Nat) : State :=
  let s := s.logKind source kind 2 status 0 0 0
  let s := s.assertFatal
  let s := s.endAll status
  let s := s.postWith 0 s.primarySource 0x0A07 status (toLe 1 kind) false
  let s := if kind = 0x21 then s else s.startDump ⟨flags, status, source, kind, 0, 2 ^ 64 - 1⟩
  { s with boot := { s.boot with halt := if s.boot.halt = .none then .fatal kind else s.boot.halt } }

/-- An uncorrectable error in control logic of half h (R628). -/
def State.controlUe (s : State) (h : Nat) : State := s.deviceFatal (1 + h) 0x24 0x0A04 0

end Sys2Proof.Machine
end

