-- ==== Sys2Proof/Machine/OpsEcc.lean ====
section
/-!
DEFINITION. Corrected and uncorrectable errors by kind (R184, R627 to R637).
-/
namespace Sys2Proof.Machine

/-- One more corrected error of a unit within its job; the count passes the threshold once (R637). -/
def State.countCe (s : State) (c type unit limit source : Nat) : State :=
  let k := ceKey type unit
  let n := Map.get 0 s.ras.ceUnits k + 1
  let s := { s with ras := { s.ras with ceUnits := Map.set 0 s.ras.ceUnits k n } }
  if n = limit + 1 then
    s.postWith c source 0x0A02 0 (toLe 1 type ++ toLe 1 0 ++ toLe 2 unit ++ toLe 4 n) (s.replaying c)
  else s

/-- SRAM_CE of a slice (R184, R628). -/
def State.sramCe (s : State) (slice : Nat) : State :=
  let h := slice / 256
  let s := { s with ras := if h = 0 then { s.ras with ceSramW := satAdd 32 s.ras.ceSramW 1 }
                           else { s.ras with ceSramE := satAdd 32 s.ras.ceSramE 1 } }
  s.countCe (s.ownerOf h) 1 slice s.ras.thSram (1 + h)

/-- CORE_CE of physical core p. -/
def State.coreCe (s : State) (p : Nat) : State :=
  let h := coreHalf p
  let s := { s with ras := if h = 0 then { s.ras with ceCoreW := satAdd 32 s.ras.ceCoreW 1 }
                           else { s.ras with ceCoreE := satAdd 32 s.ras.ceCoreE 1 } }
  s.countCe (s.ownerOf h) 0 p s.ras.thCore (0x10 + p)

/-- LPX_CE of the line that holds a DPA. -/
def State.lpxCe (s : State) (dpa : Nat) : State :=
  let i := dpaCtrl dpa
  let x := s.lpxCtrl i
  let s := s.setLpx i { x with ce := x.ce + 1 }
  let s := { s with ras := if i < 16 then { s.ras with ceLpxW := satAdd 32 s.ras.ceLpxW 1 }
                           else { s.ras with ceLpxE := satAdd 32 s.ras.ceLpxE 1 } }
  s.countCe (s.ownerOf (i / 16)) 2 i s.ras.thLpx (0x600 + i)

/-- SRAM_UE at a byte offset of a slice (R628, R633): the half's job ends. -/
def State.sramUe (s : State) (slice at_ : Nat) : State :=
  let h := slice / 256
  let c := s.ownerOf h
  let s := { s with ras := { s.ras with sramUe := s.ras.sramUe ++ [(slice, at_ / 8)] } }
  (s.postUe c (1 + h) 0x11 0 slice at_).jobFatal c (1 + h) 0x11 0x0A01 at_ slice

/-- CORE_UE of physical core p: marked for retirement (R636); the half's job ends. -/
def State.coreUe (s : State) (p at_ : Nat) : State :=
  let c := s.ownerOf (coreHalf p)
  let s := s.mark ⟨0, p, 0x13⟩
  (s.postUe c (0x10 + p) 0x13 0 p at_).jobFatal c (0x10 + p) 0x13 0x0A01 at_ 0x13

/-- MOSS_UE of a tile (R369): marked for retirement; the job of its region ends. -/
def State.mossUe (s : State) (c tile at_ : Nat) : State :=
  let s := s.mark ⟨1, tile, 0x14⟩
  (s.postUe c (0x300 + tile) 0x14 0 tile at_).jobFatal c (0x300 + tile) 0x14 0x0A01 at_ tile

/-- The UE list with a line entered (R631): HARD when it meets a second error after a rewrite; a 257th entry is
device-fatal. -/
def State.enterUe (s : State) (dpa : Nat) : State :=
  let line := dpa / 64 * 64
  let kind := Map.get 0 s.lineKind (dpa / 64)
  match s.ras.ue.find? (fun e => e.dpa == line) with
  | some _ =>
    { s with ras := { s.ras with ue := s.ras.ue.map fun e => if e.dpa = line then { e with hard := e.hard || e.rewritten } else e } }
  | none =>
    if 256 ≤ (s.ras.ue.filter fun e => !e.rewritten || e.hard).length then s.deviceFatal s.primarySource 0x24 0x0A04 0
    else { s with ras := { s.ras with ue := s.ras.ue ++ [⟨line, kind, false, false⟩] } }

/-- Is the line marked HARD? -/
def State.ueHard (s : State) (dpa : Nat) : Bool := s.ras.ue.any fun e => e.dpa == dpa / 64 * 64 && e.hard

/-- LPX_UE at a DPA (R628, R631): the line is listed and the job of context c ends. -/
def State.lpxUe (s : State) (c dpa : Nat) : State :=
  let i := dpaCtrl dpa
  let x := s.lpxCtrl i
  let kind := Map.get 0 s.lineKind (dpa / 64)
  let s := (s.setLpx i { x with ue := x.ue + 1 }).enterUe dpa
  (s.postUe c (0x600 + i) 0x12 kind i dpa).jobFatal c (0x600 + i) 0x12 0x0A01 dpa (kind + 256 * b2n (s.ueHard dpa))

end Sys2Proof.Machine
end

