-- ==== Sys2Proof/Machine/Issue.lean ====
section
/-!
DEFINITION. The sequencer: issue of one instruction, precise faults and the end of an instruction (R139 to R151). The effect
on registers, tiles and local scratch takes place at issue (log entry 8); an XB transfer reaches local scratch as its
slots land.
-/
namespace Sys2Proof.Machine
open Sys2Proof

/-- A command that has no effect on the device but its outcome. -/
abbrev Out := Host.Outcome State Fault Refusal

/-- The command that names a unit the device does not have. -/
def noUnit (ok : Bool) (r : State) : Out := if ok then .next r else .fault .noSuchUnit

/-- The status of a fault cause (R148). -/
def causeStatus (cause : Nat) : Nat :=
  if cause = 0x0D then 0x0202 else if cause = 0x0E then 0x0203 else if cause = 0x10 then 0x0204 else 0x0201

/-- Does the cause name a tile? -/
def causeTile (cause : Nat) : Bool := cause == 0x0B || cause == 0x10 || cause == 0x11 || cause == 0x06

/-- The payload of CORE_FAULT and TILE_FORMAT_CONFLICT (R481). -/
def faultPayload (c : Core) (ofs handle : Nat) : List Byte :=
  toLe 2 c.logical ++ toLe 1 c.faultCause ++ toLe 1 c.faultTile ++ toLe 4 ofs ++ toLe 4 handle

/-- A precise fault of core p (R95, R148 to R151): the core stops before the instruction, records the cause and posts
its event; the job ends with the status of the cause. -/
def State.coreFault (s : State) (p : Nat) (k : KImage) (cause tile unit : Nat) : State :=
  let c := s.core p
  let ofs := k.codeOfs + 8 * c.pc
  let c := { c with st := .faulted, faultCause := cause, faultTile := if causeTile cause then tile else 0, faultUnit := unit,
                    faultOfs := ofs, stall := .none }
  let ctx := s.ownerOf (coreHalf p)
  let s := s.setCore p c
  let s := s.postWith ctx (0x10 + p) (if cause = 0x10 then 0x0202 else 0x0201) (causeStatus cause) (faultPayload c ofs c.handle)
    (s.replaying ctx)
  s.endJob ctx (causeStatus cause)

/-- May core p issue now: RUNNING, no END issued, nothing stops issue (R139, R142, R156)? -/
def Core.canIssue (c : Core) : Bool := c.st == .running && !c.ended && c.stall == .none

/-- Do two local-scratch ranges overlap? -/
def overlaps (a b : Nat × Nat) : Bool := decide (a.1 < b.1 + b.2) && decide (b.1 < a.1 + a.2)

/-- The local-scratch ranges that reads in flight have still to fill (R143). -/
def Core.landing (c : Core) : List (Nat × Nat) :=
  c.flight.filterMap fun f => match f.xfer with
    | some x => if x.dir = 1 then some (x.ls, x.len) else none
    | none => none

/-- Must the instruction wait for an XRD in flight that has still to write a range it names (R143)? -/
def Core.waitsFor (c : Core) (rs : List (Nat × Nat)) : Bool :=
  rs.any fun r => c.landing.any fun l => overlaps r l

/-- The core after an instruction has issued. -/
def Core.issue (c : Core) (ctr : Nat) (o : IsaOp) (x : Option Xfer) : Core :=
  let c := { c with pc := c.pc + 1, issued := (c.issued + 1) % 2 ^ 64, flight := c.flight ++ [⟨o.queue, o.cc, x⟩] }
  o.effect ctr c

/-- One instruction word of core p: it issues when it is the word at the core's index (log entry 7). A fault is decided
before issue (R144); a full queue or a local-scratch range still to be written leaves it waiting. -/
def State.issueWith (s : State) (p : Nat) (w : W64) (op : Core → KImage → IsaOp) (xf : Core → KImage → Option Xfer) : State :=
  let c := s.core p
  match s.imageOf p with
  | none => s
  | some k =>
    if !c.canIssue then s else
    match k.code[c.pc]? with
    | none => s.coreFault p k 0x0F 0 5
    | some w0 =>
      if w0 ≠ w then s else
      let o := op c k
      match o.fault with
      | some cause => s.coreFault p k cause o.tile o.queue
      | none =>
        if 16 ≤ c.depth o.queue || c.waitsFor o.ranges then s else
        { s.setCore p (c.issue s.freeCtr o (xf c k)) with freeCtr := s.freeCtr + 2 }

/-- An instruction without a transfer. -/
def State.issueOp (s : State) (p : Nat) (w : W64) (op : Core → KImage → IsaOp) : State :=
  s.issueWith p w op fun _ _ => none

/-- A word that a table does not list, at the core's index (R122). -/
def State.illegal (s : State) (p : Nat) (w : W64) : State :=
  let c := s.core p
  match s.imageOf p with
  | none => s
  | some k =>
    if !c.canIssue then s else
    match k.code[c.pc]? with
    | none => s.coreFault p k 0x0F 0 5
    | some w0 =>
      if w0 ≠ w || (decodeIsa p w).isSome then s else
      let cls := (w.extractLsb' 60 4).toNat
      if classListed w then s.coreFault p k 0x02 0 (if cls = 6 then 5 else cls) else s.coreFault p k 0x01 0 0

/-- The word of an instruction. -/
def wordOf (i : Instr) : W64 := match isaWord i with | some (_, w) => w | none => 0#64

/-! ## Completion -/

/-- Has an instruction in flight delivered its result? -/
def InFlight.finished (f : InFlight) : Bool :=
  match f.xfer with
  | some x => decide (x.run < x.landed)
  | none => f.left == 0

/-- The flight without the head of queue q. -/
def dropHead (q : Nat) : List InFlight → List InFlight
  | [] => []
  | f :: fs => if f.queue = q then fs else f :: dropHead q fs

/-- The head of queue q completes (R146). -/
def Core.completeHead (c : Core) (q : Nat) : Core :=
  match c.flight.find? (fun f => f.queue == q) with
  | some f => if f.finished then { c with flight := dropHead q c.flight } else c
  | none => c

/-- INSTR_COMPLETE (R146): the instruction at the head of a queue ends. -/
def execInstrComplete (p queue : Nat) (e : Ecc) (s : State) : Out :=
  noUnit (decide (p < 544)) (
    let s1 := s.setCore p ((s.core p).completeHead queue)
    match e with
    | .clean => s1
    | .corrected _ => s1.coreCe p
    | .uncorrectable a => s.coreUe p a
    | .control => s.controlUe (coreHalf p))

/-- Have the queues of a WAIT's mask drained (R139)? -/
def Core.drained (c : Core) (mask : Nat) : Bool := !(c.flight.any fun f => bit mask (f.queue - 1))

/-- Has every XB write and reduction been applied (R139, R168)? -/
def Core.fenced (c : Core) : Bool :=
  !(c.flight.any fun f => match f.xfer with | some x => x.dir != 1 && decide (x.landed ≤ x.run) | none => false)

/-- WAIT_RELEASE (R139). -/
def execWaitRelease (p : Nat) (s : State) : Out :=
  noUnit (decide (p < 544)) (
    let c := s.core p
    match c.stall with
    | .wait mask => if c.drained mask then s.setCore p { c with stall := .none } else s
    | _ => s)

/-- XFENCE_RELEASE (R139, R168). -/
def execXfenceRelease (p : Nat) (s : State) : Out :=
  noUnit (decide (p < 544)) (
    let c := s.core p
    match c.stall with
    | .xfence => if c.fenced then s.setCore p { c with stall := .none } else s
    | _ => s)

/-- ILLEGAL_INSTRUCTION (R122). -/
def execIllegalInstruction (p : Nat) (w : W64) (s : State) : Out := noUnit (decide (p < 544)) (s.illegal p w)

end Sys2Proof.Machine
end

