-- ==== Sys2Proof/Machine/IsaXb.lean ====
section
/-!
DEFINITION. The XB class and its transfers: slots of the phase table, slice accesses, landing and acknowledgement (R137, R138,
R161 to R183).
-/
namespace Sys2Proof.Machine
open Sys2Proof

/-! ## Phase-table entries (R162) -/

/-- An entry's fields. -/
structure PhEntry where
  slot : Nat
  port : Nat
  slice : Nat
  dir : Nat
  space : Nat
  view : Nat
  clr : Bool
  rot : Nat
  run : Nat
  last : Nat
  rsv : Nat
  deriving DecidableEq, Repr

/-- The fields of a stored word. -/
def phEntry (w : W64) : PhEntry :=
  let v := w.toNat
  ⟨bits v 11 0, bits v 20 12, bits v 29 21, bits v 31 30, bits v 32 32, bits v 34 33, bit v 35, bits v 41 36, bits v 49 42,
    bits v 51 50, bits v 63 52⟩

/-- Transfer length in bytes (R163). -/
def PhEntry.len (e : PhEntry) : Nat := e.run * 256 + 64 * (e.last + 1)

/-- The transfer that the table gives a port in a slot for a direction. -/
def KImage.slotEntry (k : KImage) (port slot dir : Nat) : Option PhEntry :=
  match k.table with
  | none => none
  | some t => (t.entries.map phEntry).find? fun e => e.slot == slot && e.port == port && e.dir == dir

/-! ## The XB instructions -/

/-- Is the slice range of a transfer inside its space (R138, R176, R179)? -/
def sliceFits (e : PhEntry) (rop sm : Nat) : Bool :=
  if e.space = 0 then sm % 64 == 0 && decide (sm + e.rot + e.len ≤ 0x1000000)
  else if (e.dir = 1 ∧ e.view = 1) ∨ rop = 5 then sm % 128 == 0 && decide (sm + e.len ≤ 524288)
  else sm % 64 == 0 && decide (sm + e.len ≤ 16384)

/-- The space of a reduce operation (R177). -/
def ropSpace (rop : Nat) : Nat := if rop = 1 ∨ rop = 5 then 1 else 0

/-- The transfer of an XB instruction (R137, R138); a write or reduction carries the local-scratch bytes. -/
def xbXfer (dir : Nat) (f : XbFields) (c : Core) (k : KImage) : Option Xfer :=
  match k.slotEntry c.logical f.slot.toNat dir with
  | none => none
  | some e =>
    let ls := c.sbits f.sl.toNat 19 0
    some { slice := e.slice, dir := dir, space := e.space, view := e.view, clr := e.clr, rot := e.rot, rop := f.rop.toNat,
           slot := e.slot, run := e.run, len := e.len, ls := ls, sm := c.sbits f.sm.toNat 23 0,
           data := if dir = 1 then [] else Memory.readBytes c.ls ls e.len, executed := false, accessed := 0, landed := 0,
           got := [] }

/-- An XB instruction's checks: ROP under R177, XB_SLOT under R138, R176, R178 and R179. -/
def opXb (dir : Nat) (f : XbFields) (c : Core) (k : KImage) : IsaOp :=
  let rop := f.rop.toNat
  let ls := c.sbits f.sl.toNat 19 0
  let sm := c.sbits f.sm.toNat 23 0
  let badRop := if dir = 3 then rop == 0 || decide (7 < rop) else rop != 0
  let e := k.slotEntry c.logical f.slot.toNat dir
  let badSlot := match e with
    | none => true
    | some e => !sliceFits e rop sm || decide (lsBytes < ls + e.len) || (dir == 3 && e.space != ropSpace rop)
  { queue := 4, checks := [⟨f.rsv != 0#26 || badRop, 0x03⟩, ⟨badSlot, 0x0E⟩],
    ranges := match e with | some e => if badSlot then [] else [(ls, e.len)] | none => [], cc := 0, tile := 0,
    effect := fun _ c => c }

/-- XRD: slice to local scratch (R137). -/
def execXrd (p : Nat) (f : XbFields) (s : State) : Out :=
  noUnit (decide (p < 544)) (s.issueWith p (wordOf (.xrd p f)) (opXb 1 f) (xbXfer 1 f))

/-- XWR: local scratch to slice (R137). -/
def execXwr (p : Nat) (f : XbFields) (s : State) : Out :=
  noUnit (decide (p < 544)) (s.issueWith p (wordOf (.xwr p f)) (opXb 2 f) (xbXfer 2 f))

/-- XRED: local scratch to slice through the reduce-on-write unit (R137, R177). -/
def execXred (p : Nat) (f : XbFields) (s : State) : Out :=
  noUnit (decide (p < 544)) (s.issueWith p (wordOf (.xred p f)) (opXb 3 f) (xbXfer 3 f))

/-! ## Slots of a transfer -/

/-- The first transfer in flight that `sel` names, changed by `g`. -/
def updXfer (sel : Xfer → Bool) (g : Xfer → Xfer) : List InFlight → List InFlight
  | [] => []
  | f :: fs => match f.xfer with
    | some x => if sel x then { f with xfer := some (g x) } :: fs else f :: updXfer sel g fs
    | none => f :: updXfer sel g fs

/-- The transfers in flight, oldest first. -/
def Core.xfers (c : Core) : List Xfer := c.flight.filterMap (·.xfer)

/-- Does the phase counter of the half pass the slot in the nc in which it stands (R167)? -/
def State.atSlot (s : State) (h slot : Nat) : Bool :=
  let p := s.period h
  let ph := (s.half h).phase
  p != 0 && (ph == slot || (ph + 1) % p == slot)

/-- XB_SLOT_EXECUTE (R167): the oldest transfer that has not executed does so in its slot. -/
def execXbSlotExecute (p : Nat) (s : State) : Out :=
  noUnit (decide (p < 544)) (
    let c := s.core p
    match c.xfers.find? (fun x => !x.executed) with
    | some x =>
      if s.atSlot (coreHalf p) x.slot then
        s.setCore p { c with flight := updXfer (fun x => !x.executed) (fun x => { x with executed := true }) c.flight }
      else s
    | none => s)

/-- Byte offset and length of slot k of a transfer (R163). -/
def Xfer.part (x : Xfer) (k : Nat) : Nat × Nat := (256 * k, Nat.min 256 (x.len - 256 * k))

/-- Key of a slice byte. -/
def sliceKey (n a : Nat) : Nat := n * 2 ^ 24 + a

/-- Exact accumulator i of slice n. -/
def State.acc (s : State) (n i : Nat) : ExactAcc := Map.get ExactAcc.zero s.exact (n * 4096 + i)

/-- Exact accumulator i of slice n changed. -/
def State.setAcc (s : State) (n i : Nat) (a : ExactAcc) : State :=
  { s with exact := Map.set ExactAcc.zero s.exact (n * 4096 + i) a }

/-- The bytes of a pair (R91, R104). -/
def pairBytes (p : IdxPair) : List Byte := toLe 4 p.value.toNat ++ toLe 4 p.index.toNat

/-- A pair from bytes. -/
def pairAt (bs : List Byte) (o : Nat) : IdxPair := ⟨BitVec.ofNat 32 (leAt bs o 4), BitVec.ofNat 32 (leAt bs (o + 4) 4)⟩

/-- One reduction in bank storage: the stored bytes with the operand's applied (R103 to R105, R177). -/
def reduceBank (rop : Nat) (old new : List Byte) : List Byte :=
  match rop with
  | 2 => ((List.range (new.length / 4)).map fun i => toLe 4 (leAt old (4 * i) 4 + leAt new (4 * i) 4)).flatten
  | 3 => ((List.range (new.length / 8)).map fun i => pairBytes (winner true (pairAt old (8 * i)) (pairAt new (8 * i)))).flatten
  | 4 => ((List.range (new.length / 8)).map fun i => pairBytes (winner false (pairAt old (8 * i)) (pairAt new (8 * i)))).flatten
  | 6 => ((List.range (new.length / 8)).map fun _ => pairBytes (clearedPair true)).flatten
  | _ => ((List.range (new.length / 8)).map fun _ => pairBytes (clearedPair false)).flatten

/-- A read of accumulators (R99, R101, R180): the bytes of slot k and the slice after CLR. -/
def State.readAccs (s : State) (x : Xfer) (k : Nat) : List Byte × State :=
  let pt := x.part k
  let w := if x.view = 1 then 128 else 4
  let is := (List.range (pt.2 / w)).map fun i => (x.sm + pt.1) / w + i
  let bs := (is.map fun i => let a := s.acc x.slice i; if x.view = 1 then a.raw else toLe 4 a.rounded.toNat).flatten
  (bs, if x.clr then is.foldl (fun (s : State) i => s.setAcc x.slice i ExactAcc.zero) s else s)

/-- A reduction into accumulators (R98, R101). -/
def State.addAccs (s : State) (x : Xfer) (k : Nat) : State :=
  let pt := x.part k
  let w := if x.rop = 5 then 128 else 4
  (List.range (pt.2 / w)).foldl (fun (s : State) i =>
    let n := (x.sm + pt.1) / w + i
    let op := bytesAt x.data (pt.1 + w * i) w
    let a := s.acc x.slice n
    s.setAcc x.slice n (if x.rop = 5 then a.addRaw op else a.addF32 (BitVec.ofNat 32 (ofLe op)))) s

/-- Slot k of a transfer at its slice (R172, R176, R177, R180): what a read returns, and the state after it. -/
def State.sliceSlot (s : State) (x : Xfer) (k : Nat) : List Byte × State :=
  let pt := x.part k
  let key := sliceKey x.slice (x.sm + x.rot + pt.1)
  if x.space = 1 then (if x.dir = 1 then s.readAccs x k else ([], s.addAccs x k))
  else if x.dir = 1 then (Memory.readBytes s.slices key pt.2, s)
  else
    let new := bytesAt x.data pt.1 pt.2
    let bs := if x.dir = 2 then new else reduceBank x.rop (Memory.readBytes s.slices key pt.2) new
    ([], { s with slices := Memory.writeBytes s.slices key bs })

/-- Has the transfer a slot left that has executed and not reached the slice? -/
def Xfer.due (x : Xfer) : Bool := x.executed && decide (x.accessed ≤ x.run)

/-- The next slot of core p's oldest executing transfer reaches its slice. -/
def State.accessSlot (s : State) (p : Nat) : State :=
  match (s.core p).xfers.find? Xfer.due with
  | none => s
  | some x =>
    let r := s.sliceSlot x x.accessed
    let c := r.2.core p
    r.2.setCore p { c with flight := updXfer Xfer.due (fun y => { y with accessed := y.accessed + 1, got := y.got ++ r.1 }) c.flight }

/-- The slice and byte offset of core p's next slot. -/
def State.slotPlace (s : State) (p : Nat) : Option (Nat × Nat) :=
  match (s.core p).xfers.find? Xfer.due with
  | none => none
  | some x => some (x.slice, x.sm + 256 * x.accessed)

/-- XB_SLICE_ACCESS (R172). -/
def execXbSliceAccess (p : Nat) (e : Ecc) (s : State) : Out :=
  noUnit (decide (p < 544)) (
    match s.slotPlace p, e with
    | none, _ => s
    | some _, .clean => s.accessSlot p
    | some pl, .corrected _ => (s.accessSlot p).sramCe pl.1
    | some pl, .uncorrectable a => s.sramUe pl.1 a
    | some pl, .control => s.controlUe (pl.1 / 256))

/-- A read with a slot that has been fetched and has not landed. -/
def Xfer.landable (x : Xfer) : Bool := x.dir == 1 && decide (x.landed < x.accessed)

/-- A write or reduction with a slot that has not been acknowledged. -/
def Xfer.ackable (x : Xfer) : Bool := x.dir != 1 && decide (x.landed < x.accessed)

/-- XB_DATA_LAND (R168): a slot's bytes reach local scratch. -/
def execXbDataLand (p : Nat) (s : State) : Out :=
  noUnit (decide (p < 544)) (
    let c := s.core p
    match c.xfers.find? Xfer.landable with
    | none => s
    | some x =>
      let pt := x.part x.landed
      s.setCore p { c with ls := Memory.writeBytes c.ls (x.ls + pt.1) (bytesAt x.got pt.1 pt.2),
                           flight := updXfer Xfer.landable (fun y => { y with landed := y.landed + 1 }) c.flight })

/-- XB_ACK (R168). -/
def execXbAck (p : Nat) (s : State) : Out :=
  noUnit (decide (p < 544)) (
    let c := s.core p
    s.setCore p { c with flight := updXfer Xfer.ackable (fun y => { y with landed := y.landed + 1 }) c.flight })

/-- RAW_PARTIALS (R101, R182): the link engine adds raw images of another device through port B, to accumulator `acc`
and those that follow. -/
def execRawPartials (slice acc : Nat) (images : List (List Byte)) (s : State) : Out :=
  noUnit (decide (slice < 512)) (
    images.zipIdx.foldl (fun (s : State) e =>
      if acc + e.2 < 4096 then s.setAcc slice (acc + e.2) ((s.acc slice (acc + e.2)).addRaw e.1) else s) s)

end Sys2Proof.Machine
end

