-- ==== Sys2Proof/Machine/OpsEvt.lean ====
section
/-!
DEFINITION. The writing of events (R461, R478 to R480), the states that a ring set enters (R462, R463, R479) and token records'
place in their ring.
-/
namespace Sys2Proof.Machine

/-! ## Event records (R478) -/

/-- The one or two records of an event at a minor version (R484). -/
def Event.records (e : Event) (minor : Nat) : List (List Byte) :=
  let n := if 16 < e.payload.length ∧ 3 ≤ minor then 2 else 1
  let first := toLe 8 e.carried ++ toLe 2 e.source ++ toLe 2 e.code ++ toLe 2 e.status ++ toLe 1 e.ctx ++
    toLe 1 (n + 4 * b2n e.coarse + 8 * b2n e.replay) ++ bytesAt e.payload 0 16
  if n = 2 then [first, bytesAt e.payload 16 32] else [first]

/-- The last 1,024 event records (R643). -/
def pushTail (t : List (List Byte)) (rs : List (List Byte)) : List (List Byte) :=
  let u := t ++ rs
  u.drop (u.length - 1024)

/-- An event lost to a full ring (R461). -/
def RingSet.lose (r : RingSet) (n : Nat) : RingSet := { r with evtLost := satAdd 32 r.evtLost n, evtWait := r.evtWait + n }

/-- The effect of JOB_ENDED's release: the job's end is complete, and its FAULTED cores become IDLE (R156). -/
def State.endComplete (s : State) (e : Event) : State :=
  if e.code = 0x0104 then
    s.onCores (inHalves (s.halvesOf e.ctx)) fun _ c => if c.st = .faulted then { c with st := .idle, flight := [], ended := false } else c
  else s

/-- An event written to a ring set that can receive (R461, R480). -/
def State.writeEvent (s : State) (set : Nat) (e : Event) : State :=
  let r := s.ring set
  let rs := e.records r.negMinor
  if r.room 2 < rs.length then (s.setRing set (r.lose 1)).putWriteback set else
  if !s.hostCanWrite then s.ringFault set 6 else
  let s := rs.foldl (fun (s : State) rec => s.putRecord set 2 rec) s
  let r := s.ring set
  let s := s.setRing set { r with evtPosted := (r.evtPosted + 1) % 2 ^ 64, evtLast := e.carried }
  let s := { s with host := { s.host with tail := pushTail s.host.tail rs } }
  let s := s.putWriteback set
  rs.foldl (fun (s : State) _ => s.recordIrq set 2) s

/-- An event for the ring that receives it when it is written: its own, or ring set 0's when its own has become DISABLED or
HALTED since (R479); on ring set 0 it lies outside its context and carries the coarsened TSC (R541, R543). -/
def State.routed (s : State) (e : Event) : Event :=
  let st := (s.ring e.ring).st
  if e.ring ≠ 0 ∧ (st = 0 ∨ st = 4) then
    { e with ring := 0, coarse := s.coarsening, carried := if s.coarsening then e.tsc / 1024 * 1024 else e.tsc }
  else e

/-- A released event written; one bound for ring set 0 while it cannot receive is held, up to 256 (R479). -/
def State.deliver (s : State) (x : Event) : State :=
  let e := s.routed x
  let s := s.endComplete e
  if e.ring = 0 ∧ (s.ring 0).st ≠ 1 then
    if s.host.held0.length < 256 then { s with host := { s.host with held0 := s.host.held0 ++ [e] } }
    else { s with host := { s.host with lost0 := s.host.lost0 + 1 } }
  else s.writeEvent e.ring e

/-- Does event a order before event b (R480)? -/
def evBefore (a b : Event) : Bool := decide (a.carried < b.carried) || (a.carried == b.carried && decide (a.source < b.source))

/-- Insertion after every event that does not order after it. -/
def insertEv (e : Event) : List Event → List Event
  | [] => [e]
  | x :: xs => if evBefore e x then e :: x :: xs else x :: insertEv e xs

/-- Events in the order of R480; events of one source and TSC keep the order of their posting. -/
def sortEvs (es : List Event) : List Event := es.foldl (fun acc e => insertEv e acc) []

/-- Every held event that all sources have passed is written in order (R480); during a scrub none is (R539). -/
def State.releaseEvents (s : State) (reported : Nat) : State :=
  if s.sec.scrub.isSome then s else
  let held := s.host.held.map s.routed
  let due := held.filter fun e => decide (e.carried + 1024 ≤ reported)
  let s := { s with host := { s.host with held := held.filter fun e => decide (reported < e.carried + 1024) } }
  (sortEvs due).foldl State.deliver s

/-! ## Entering ACTIVE and PAUSED -/

/-- Ring set 0 becomes ACTIVE: the held events first, then the count of those lost (R479). -/
def State.flushHeld0 (s : State) : State :=
  let es := sortEvs s.host.held0
  let n := s.host.lost0
  let s := { s with host := { s.host with held0 := [], lost0 := 0 } }
  let s := es.foldl (fun (s : State) e => s.writeEvent 0 e) s
  if n = 0 then s else
  let r := s.ring 0
  let s := (s.setRing 0 { r with evtLost := satAdd 32 r.evtLost n }).putWriteback 0
  s.postWith 0 s.primarySource 0x0101 0 (toLe 4 (Nat.min n (2 ^ 32 - 1))) false

/-- A ring set enters ACTIVE: the device reads its doorbell line once, or takes the last BAR2 values (R463). The
read of the line is under way until DOORBELL_OBSERVE. -/
def State.activate (s : State) (set : Nat) : State :=
  let s := s.setRingState set 1
  let s := if set = 0 then s.flushHeld0 else s
  if s.usesLine set then s.setRing set { s.ring set with await := true, line := true }
  else s.observeAll set ((s.ring set).bar2.map (·.toNat))

/-- Is there a cause that keeps ring set c PAUSED (R462, R552): a scrub, a mode change, a firmware activation, or a context that runs on no half? -/
def State.pauseCause (s : State) (c : Nat) : Bool :=
  s.sec.scrub.isSome || s.mgt.changing || s.boot.activating || (c != 0 && s.halvesOf c == 0)

/-- A ring set that is ACTIVE becomes PAUSED while there is a cause. -/
def State.pauseRing (s : State) (c : Nat) : State :=
  if (s.ring c).st = 1 ∧ s.pauseCause c = true then s.setRingState c 2 else s

/-- A ring set that is PAUSED becomes ACTIVE once its cause has ended. -/
def State.resumeRing (s : State) (c : Nat) : State :=
  if (s.ring c).st = 2 ∧ s.pauseCause c = false then s.activate c else s

/-- Every ring set brought in line with its causes. -/
def State.pauseRings (s : State) : State := (List.range 16).foldl (fun (s : State) c => s.pauseRing c) s

/-- Every PAUSED ring set whose cause has ended resumes. -/
def State.resumeRings (s : State) : State := (List.range 16).foldl (fun (s : State) c => s.resumeRing c) s

/-! ## BAR0 (R539, R614, R700) -/

/-- Does BAR0 answer at the offset? -/
def State.barAnswers (s : State) (ofs : Nat) : Bool :=
  let block := ofs / 0x10000
  match s.boot.halt with
  | .none => block == 0 || (s.boot.ready && !s.boot.activating)
  | .fatal _ => block == 0 || block == 3 || block == 18 || block == 19 || block == 20
  | .refclk => false
  | _ => block == 0

/-- A host write to BAR0: discarded where BAR0 does not answer, held while a scrub runs (R539), applied otherwise. -/
def State.barGate (s : State) (held : List HeldAccess) (ofs : Nat) (k : State → State) : State :=
  if !s.barAnswers ofs then s
  else if s.sec.scrub.isSome then { s with host := { s.host with accesses := s.host.accesses ++ held } }
  else k s

/-- One held 4-byte write. -/
def held32 (ofs : Nat) (v : W32) : HeldAccess := .bar0Write ofs 4 (v.setWidth 64)

/-- A 4-byte write of one register. -/
def State.barWrite32 (s : State) (ofs : Nat) (v : W32) (k : State → State) : State := s.barGate [held32 ofs v] ofs k

end Sys2Proof.Machine
end

