-- ==== Sys2Proof/Machine/Hdm.lean ====
section
/-!
DEFINITION. The staging window (R443, R444, R449 to R452, R289).
-/
namespace Sys2Proof.Machine
open Sys2Proof

/-- Is there a window, and does it hold the offset (R445, R449)? -/
def State.inWindow (s : State) (w : Nat) : Bool :=
  let l := s.host.hdmLog2
  s.host.cxl && decide (30 ≤ l) && decide (l ≤ 39) && decide (w < 2 ^ l)

/-- The aperture of a window offset and the offset within it (R449). -/
def State.apertureAt (s : State) (w : Nat) : Aperture × Nat :=
  let sz := 2 ^ (s.host.hdmLog2 - 3)
  (Map.get Aperture.none s.host.apts (w / sz), w % sz)

/-- A discarded write counted in QUE_HDM_DENIED (R450). -/
def State.hdmDeny (s : State) : State := { s with host := { s.host with hdmDenied := satAdd 32 s.host.hdmDenied 1 } }

/-- HOST_POISON (R444): the write is discarded; a bed that it names fails its next BED_COMMIT. -/
def State.hdmPoison (s : State) (w : Nat) : State :=
  let ap := s.apertureAt w
  let c := if 1 ≤ ap.1.target ∧ ap.1.target ≤ 3 then ap.1.ctx else 0
  let s := if ap.1.target = 1 ∨ ap.1.target = 2 then
      s.onJob ap.1.ctx fun j => j.setBed (ap.1.target - 1) { (j.bed (ap.1.target - 1)) with poisoned := true } else s
  (s.postWith c (s.schedulerSource c) 0x0103 0 (toLe 8 w) (s.replaying c)).hdmDeny

/-- A write to bed b of context c at a bed offset (R289): in LOADING it lands; beyond the bed it is discarded; in another
state it is discarded and counted in BED_DENIED. -/
def State.hdmBedWrite (s : State) (c b o : Nat) (bs : List Byte) : State :=
  match s.job c with
  | none => s.hdmDeny
  | some j =>
    if j.st = .ended ∨ j.st = .waitSeed then s.hdmDeny
    else if (j.bedRange b).2 < o + bs.length then s.hdmDeny
    else if (j.bed b).st = 1 then
      (s.lpxWrite ((j.bedRange b).1 + o) 4 bs).setJob c (j.setBed b { (j.bed b) with loaded := (j.bed b).loaded + bs.length })
    else s.setJob c { j with denied := j.denied + 1, deniedStep := j.deniedStep + 1 }

/-- A write into the window (R450). -/
def State.hdmWriteNow (s : State) (w : Nat) (bs : List Byte) (poison : Bool) : State :=
  if !s.inWindow w then s
  else if poison then s.hdmPoison w
  else
    let ap := s.apertureAt w
    let a := ap.1
    if a.target = 1 ∨ a.target = 2 then s.hdmBedWrite a.ctx (a.target - 1) ap.2 bs
    else if a.target = 3 then
      if s.inPartition a.ctx (a.base + ap.2) bs.length && (s.ctx a.ctx).st != 3 then s.lpxWrite (a.base + ap.2) 1 bs
      else (s.postDenied a.ctx (a.base + ap.2)).hdmDeny
    else s.hdmDeny

/-- The DPA that a window read reaches with the context whose job owns it, none where it reads zeros (R450). -/
def State.hdmPlace (s : State) (w n : Nat) : Option (Nat × Nat) :=
  if !s.inWindow w then none else
  let ap := s.apertureAt w
  let a := ap.1
  if a.target = 1 ∨ a.target = 2 then
    match s.job a.ctx with
    | none => none
    | some j => if j.st = .waitSeed ∨ (j.bedRange (a.target - 1)).2 < ap.2 + n then none
        else some (a.ctx, (j.bedRange (a.target - 1)).1 + ap.2)
  else if a.target = 3 ∧ s.inPartition a.ctx (a.base + ap.2) n = true then some (a.ctx, a.base + ap.2)
  else none

/-- A read of the window: the bytes returned. An uncorrectable error returns zeros and ends the owner's job (R443). -/
def State.hdmReadNow (s : State) (w n : Nat) (e : Ecc) : State :=
  match s.hdmPlace w n with
  | none => s.answer (List.replicate n 0#8)
  | some (c, dpa) =>
    match e with
    | .clean => s.answer (s.lpxRead dpa n)
    | .corrected _ => (s.lpxCe dpa).answer (s.lpxRead dpa n)
    | .uncorrectable _ => (s.lpxUe c dpa).answer (List.replicate n 0#8)
    | .control => (s.controlUe (dpaHalf dpa)).answer (List.replicate n 0#8)

/-- Does the device hold CXL.mem requests (R452)? -/
def State.holdsMem (s : State) : Bool := s.sec.scrub.isSome || s.mgt.changing

/-- HDM_WRITE (R450, R452). -/
def execHdmWrite (offset : Nat) (data : List Byte) (poison : Bool) (s : State) : Out :=
  .next (if s.holdsMem then { s with host := { s.host with accesses := s.host.accesses ++ [.hdmWrite offset data poison] } }
    else s.hdmWriteNow offset data poison)

/-- HDM_READ (R450, R452). -/
def execHdmRead (offset size : Nat) (e : Ecc) (s : State) : Out :=
  .next (if s.holdsMem then { s with host := { s.host with accesses := s.host.accesses ++ [.hdmRead offset size] } }
    else s.hdmReadNow offset size e)

end Sys2Proof.Machine
end

