-- ==== Sys2Proof/Machine/OpsPwr.lean ====
section
/-!
DEFINITION. Power domains, rejoin rounds, sparing, the measurement log, throttle decisions and the scopes of the resets (R595 to
R611, R633 to R639, R557).
-/
namespace Sys2Proof.Machine

/-! ## The measurement log (R557) -/

/-- An entry of a kind: its data bytes and digest are free values; the log keeps its first 256 entries. -/
def State.measure (s : State) (kind : Nat) : State :=
  let e := toLe 4 s.sec.logSeq ++ toLe 2 kind ++ toLe 2 0 ++ (List.range 56).map (Config.measurement s.sec.logSeq)
  { s with sec := { s.sec with logSeq := s.sec.logSeq + 1, logDigest := sha384 (s.sec.logDigest ++ e),
                               log := if s.sec.log.length < 256 then s.sec.log ++ [e] else s.sec.log } }

/-! ## Random-service requests of the device itself (R577, R581, R583) -/

/-- A request of the device's own is queued; 64 entries hold every request until READY (R583). -/
def State.askRandom (s : State) (r : RandReq) : State :=
  { s with ens := { s.ens with queue := s.ens.queue ++ [r] } }

/-- SEC_LC_NONCE is drawn (R548, R581). -/
def State.askNonce (s : State) : State := s.askRandom ⟨.lcNonce, 1, 8, none, false, []⟩

/-! ## Sparing (R634 to R639) -/

/-- Is a unit excluded from schedules: retired, or failed in a rejoin check? -/
def Ras.excludes (r : Ras) (kind unit : Nat) : Bool :=
  r.retired.any (fun m => m.kind == kind && m.unit == unit) ||
    r.marks.any (fun m => m.kind == kind && m.unit == unit && m.cause == 0)

/-- Retired physical columns of row r (0 to 31), in the order of their retirement. -/
def Ras.rowRetired (x : Ras) (r : Nat) : List Nat :=
  (x.retired.filter fun m => m.kind == 0 && m.unit / 17 == r).map fun m => m.unit % 17

/-- The logical id that the sparing map gives physical core p (R15, R634). -/
def Ras.logicalOf (x : Ras) (p : Nat) : Nat :=
  let r := p / 17
  let k := p % 17
  let gone := x.rowRetired r
  if gone.contains k then 0xFFFF
  else if k < 16 then 16 * r + k
  else match gone.find? (fun j => decide (j < 16)) with
    | some j => 16 * r + j
    | none => 0xFFFF

/-- Every core takes its logical id from the sparing map. -/
def State.remap (s : State) : State := s.onCores (fun _ => true) fun p c => { c with logical := s.ras.logicalOf p }

/-- The source of an event about a half. -/
def halfSource (h : Nat) : Nat := 1 + h

/-- A half is degraded while a row of it holds two retired cores or while it holds a FAILED slice (R638); HALF_DEGRADED is
posted on entry. -/
def State.checkDegraded (s : State) (h : Nat) : State :=
  let x := s.half h
  let row := (List.range 16).find? fun r => decide (2 ≤ (s.ras.rowRetired (16 * h + r)).length)
  let bad := row.isSome || !x.failed.isEmpty
  let s1 := s.setHalf h { x with degraded := bad }
  if bad && !x.degraded then
    let why := match row with
      | some r => toLe 1 1 ++ toLe 2 r
      | none => toLe 1 2 ++ toLe 2 (x.failed.headD 0)
    s1.postDev (halfSource h) 0x0A05 0 (toLe 1 h ++ why)
  else s1

/-- One marked unit retired (R636): UNIT_RETIRED, and SPARING_CHANGED when its row takes a graft. -/
def State.retireUnit (s : State) (m : Mark) : State :=
  let before := s.ras.rowRetired (m.unit / 17)
  let s := { s with ras := { s.ras with retired := s.ras.retired ++ [m] } }
  let s := if m.kind = 0 then s.setCore m.unit { s.core m.unit with st := if (s.core m.unit).st = .off then .off else .retired }
    else s.setTiles [m.unit] (if Map.get 0 s.moss.tiles m.unit = 0 then 0 else 5)
  let src := if m.kind = 0 then 0x10 + m.unit else 0x300 + m.unit
  let s := s.postDev src 0x0A03 0 (toLe 1 m.kind ++ toLe 1 0 ++ toLe 2 m.unit ++ toLe 1 m.cause)
  let r := m.unit / 17
  let k := m.unit % 17
  if m.kind = 0 ∧ k < 16 ∧ before.all (fun j => j == 16) = true ∧ before.contains 16 = false then
    s.postDev (halfSource (r / 16)) 0x0A04 0 (toLe 1 (r / 16) ++ toLe 1 (r % 16) ++ toLe 1 k ++ toLe 1 k)
  else s

/-! ## Domains and rejoin rounds (R602 to R605) -/

/-- Units enter STALE and join the round. -/
def State.enterRound (s : State) (units : List (Nat × Nat)) : State :=
  if units.isEmpty then s else
  { s with pwr := { s.pwr with round := s.pwr.round ++ units.filter (fun u => !s.pwr.round.contains u), running := true } }

/-- A unit of R639 returns to service: STALE, out of the sparing map. -/
def State.restoreUnit (s : State) (m : Mark) : State :=
  let here := s.ras.retired.any fun r => r.kind == m.kind && r.unit == m.unit && r.cause == 0x03
  let s := { s with ras := { s.ras with restore := s.ras.restore.filter fun r => r != m } }
  if !here then s else
  let s := { s with ras := { s.ras with retired := s.ras.retired.filter fun r => !(r.kind == m.kind && r.unit == m.unit) } }
  let s := if m.kind = 0 then s.setCore m.unit { Core.init with st := .stale } else s.setTiles [m.unit] 1
  s.enterRound [(m.kind, m.unit)]

/-- A sparing point of the halves of a mask (R636): marks are applied, units restored, the map updated. -/
def State.sparingPoint (s : State) (mask : Nat) : State :=
  let here := fun (m : Mark) => bit mask (unitHalfOf m.kind m.unit)
  let ms := s.ras.marks.filter here
  let rs := s.ras.restore.filter here
  let s := { s with ras := { s.ras with marks := s.ras.marks.filter fun m => !here m } }
  let s := ms.foldl State.retireUnit s
  let s := rs.foldl State.restoreUnit s
  let s := if ms.isEmpty && rs.isEmpty then s else s.remap
  let s := if bit mask 0 then s.checkDegraded 0 else s
  if bit mask 1 then s.checkDegraded 1 else s

/-- Domains that are OFF begin to power (R602). -/
def State.powerOn (s : State) (pds : List Nat) : State :=
  let need := pds.filter fun d => !s.isOn d && !s.pwr.rising.contains d
  { s with pwr := { s.pwr with rising := s.pwr.rising ++ need } }

/-- The physical cores of domain pd. -/
def domainCores (pd : Nat) : List Nat := (List.range 544).filter fun p => coreDomain p == pd

/-- A port begins a training attempt: its TRAIN payload waits for a nonce from the DRBG (R514, R519). -/
def State.startTraining (s : State) (p : Nat) : State :=
  let x := s.port p
  let s := s.setPort p
    { Port.init with
      st := 1, trainings := x.trainings + 1, fec := x.fec, crcErr := x.crcErr, uncorr := x.uncorr, replays := x.replays
      recoveries := x.recoveries, txFlits := x.txFlits, rxFlits := x.rxFlits, line := x.line }
  s.askRandom ⟨.trainNonce p, 1, 32, none, false, []⟩

/-- The ports of PD17 or PD18 that are enabled and DOWN begin to train (R519, R602). -/
def State.portsUp (s : State) (pd : Nat) : State :=
  (List.range 8).foldl (fun (s : State) i =>
    let p := 8 * (pd - 17) + i
    let x := s.port p
    if bit s.rz.portEn p && x.st == 0 then s.startTraining p else s) s

/-- A domain reaches ON (R602, R604): its cores or tiles enter STALE and a rejoin round, but for those that the sparing map
excludes; controllers train; ports train. -/
def State.domainOn (s : State) (pd : Nat) : State :=
  let s := { s with pwr := { s.pwr with on := s.pwr.on ||| 2 ^ pd, rising := s.pwr.rising.filter (· != pd) } }
  let s := s.postDomain pd 1
  if 3 ≤ pd ∧ pd ≤ 10 then
    let ps := domainCores pd
    let s := s.onCores (fun p => coreDomain p == pd) fun p _ =>
      { Core.init with st := if s.ras.excludes 0 p then .retired else .stale, logical := s.ras.logicalOf p }
    s.enterRound ((ps.filter fun p => !s.ras.excludes 0 p).map fun p => (0, p))
  else if pd = 11 ∨ pd = 12 then
    let ts := domainTiles pd
    let s := s.setTiles (ts.filter fun t => !s.ras.excludes 1 t) 1
    let s := s.setTiles (ts.filter fun t => s.ras.excludes 1 t) 5
    s.enterRound ((ts.filter fun t => !s.ras.excludes 1 t).map fun t => (1, t))
  else if pd = 15 ∨ pd = 16 then
    (List.range 16).foldl (fun (s : State) i =>
      let k := 16 * (pd - 15) + i
      if (s.lpxCtrl k).st = 0 then s.setLpx k { s.lpxCtrl k with st := 1 } else s) s
  else if pd = 17 ∨ pd = 18 then s.portsUp pd
  else s

/-! ## Throttle decisions (R599, R600) -/

/-- The request of half h alone. -/
def State.ownLevel (s : State) (h : Nat) : Nat :=
  Nat.max (Nat.max s.pinRequest s.hostRequest) (Nat.max (s.half h).therm (s.half h).power)

/-- The level that half h forms: in joined mode the larger of both halves' (the paired throttle). -/
def State.wantLevel (s : State) (h : Nat) : Nat :=
  if s.split then s.ownLevel h else Nat.max (s.ownLevel 0) (s.ownLevel 1)

/-- The first frame boundary at least 4 frames after now. -/
def Half.leadEdge (x : Half) (edges : Nat) : Nat := x.rel + roundUp (edges - x.rel) 128 + 512

/-- A changed level of half h is decided. During an alignment sequence it waits for the release (R597). -/
def State.decideHalf (s : State) (h : Nat) : State :=
  let x := s.half h
  let want := s.wantLevel h
  let last := match x.next.getLast? with | some e => e.1 | none => x.level
  if want = last then s else
  if s.boot.aligned then s.setHalf h { x with next := x.next ++ [(want, x.leadEdge s.boot.edges)] }
  else s.setHalf h { x with next := [(want, 0)] }

/-- Both halves decide again after a request has changed. -/
def State.redecide (s : State) : State := (s.decideHalf 0).decideHalf 1

/-- The level of half h changes at a frame boundary (R600). A change begins an interval of 1 ms when none runs, at whose end
THROTTLE_CHANGED is due (R624). -/
def State.applyLevel (s : State) (h : Nat) : State :=
  let x := s.half h
  match x.next with
  | [] => s
  | (l, e) :: rest =>
    if s.boot.aligned && decide (e ≤ s.boot.edges) && x.slot s.boot.edges == 0 then
      let old := x.level
      let s := if old = 0 ∧ 0 < l then s.raiseAlert 4 else s
      let x := { x with level := l, next := rest }
      if l = old || x.evtTsc.isSome then s.setHalf h x
      else s.setHalf h { x with evtTsc := some s.tsc, evtOld := some old }
    else s

/-! ## What a reset of each scope does (R606 to R611) -/

/-- A core of a unit reset: STALE, unless it is OFF or RETIRED. -/
def Core.restale (c : Core) : Core :=
  if c.st = .off ∨ c.st = .retired then c else { Core.init with st := .stale, logical := c.logical }

/-- One half's logic reset: cores and tiles STALE, slices and accumulators zero, regions FREE, streamers and kernels dropped,
ports back in training. -/
def State.resetHalf (s : State) (h : Nat) : State :=
  let own := s.ownerOf h
  let ps := (List.range 544).filter fun p => coreHalf p == h && (s.core p).st != .off && (s.core p).st != .retired
  let ts := (List.range 64).map (64 * h + ·) |>.filter fun t => Map.get 0 s.moss.tiles t != 0 && Map.get 0 s.moss.tiles t != 5
  let s := s.onCores (fun p => coreHalf p == h) fun _ c => c.restale
  let s := s.clearRegions fun g => g.tiles.any fun t => t / 64 == h
  let s := { s with moss := { s.moss with runs := s.moss.runs.filter fun r => r.ctx != own } }
  let s := s.setTiles ts 1
  let s := { s with
    slices := Map.erase s.slices fun k => k / 2 ^ 24 / 256 == h
    exact := Map.erase s.exact fun k => k / 4096 / 256 == h
    streamers := s.streamers.filter fun t => t.ctx != own
    kernels := s.kernels.filter fun k => k.ctx != own
    espHandleW := if h = 0 then 0 else s.espHandleW
    espHandleE := if h = 1 then 0 else s.espHandleE
    links := Map.del s.links own }
  let s := (List.range 8).foldl (fun (s : State) i =>
    let p := 8 * h + i
    let s := s.setPort p Port.init
    if bit s.rz.portEn p && s.isOn (17 + h) then s.startTraining p else s) s
  let x := s.half h
  let s := s.setHalf h { x with flags := 1, phase := 0 }
  s.enterRound (ps.map (fun p => (0, p)) ++ ts.map fun t => (1, t))

/-- The halves of a mask reset, and the alignment sequence requested (R597). -/
def State.resetHalves (s : State) (mask : Nat) : State :=
  let s := if bit mask 0 then s.resetHalf 0 else s
  let s := if bit mask 1 then s.resetHalf 1 else s
  { s with boot := { s.boot with aligned := false },
           ras := { s.ras with ceUnits := Map.erase s.ras.ceUnits fun k =>
             if k / 4096 = 0 then inHalves mask k else k / 4096 == 1 && bit mask (k % 4096 / 256) } }

/-- A reset begins unless one of equal or wider scope runs (R609). The kinds of RESET_DONE rise with the scope. -/
def State.resetBegins (s : State) (kind : Nat) : Bool :=
  s.boot.ready && (match s.rst.busy with | some r => decide (r.kind < kind) | none => true)

/-- RST_STATUS while a reset runs. -/
def State.setReset (s : State) (kind halves core cause : Nat) : State :=
  { s with rst := { s.rst with busy := some ⟨kind, halves, core, cause⟩ } }

/-- A half reset in split mode, a job reset of both halves in joined mode (R606). -/
def State.halfReset (s : State) (h : Nat) : State :=
  let kind := if s.split then 2 else 3
  let mask := if s.split then 1 <<< h else 3
  if !s.resetBegins kind then s
  else ((s.endHalves mask 0x0009).resetHalves mask).setReset kind mask 0 3

/-- The host interface and the BAR0 set-up state at reset (R610, R655, R657): ring sets, apertures, window, select registers,
SETUP_LOCK and every RWL field at its factory default; held BAR0 writes are dropped (R540). -/
def State.resetHostSetup (s : State) : State :=
  { s with
    host := { HostPort.init with
              mem := s.host.mem, bad := s.host.bad, busMaster := s.host.busMaster, trained := s.host.trained
              cxl := s.host.cxl, width := s.host.width, rate := s.host.rate, cacheEn := s.host.cacheEn, memEn := s.host.memEn
              ideIo := s.host.ideIo, ideCm := s.host.ideCm, held := s.host.held, held0 := s.host.held0, lost0 := s.host.lost0
              signalled := s.host.signalled, devBias := s.host.devBias, tail := s.host.tail
              accesses := s.host.accesses.filter fun a => match a with | .bar0Write _ _ _ => false | _ => true }
    glb := Glb.init
    mgt := { s.mgt with allow := false, src := 0 }
    pwr := { s.pwr with pinLevel := 8, tThrottle := 95, limit := 1400, idleOff := true, hostReq := 0 }
    drb := { s.drb with log2Base := 20 }
    ras := { s.ras with thCore := 64, thSram := 1024, thLpx := 1024, peerTo := 10000, wdog := 0, idx := 0, spareSel := 0 }
    rz := { s.rz with portEn := 0xFFFF, maxVersion := 2, w1 := 3, w2 := 1, sel := 0, routeIdx := 0, routes := [] }
    sec := { s.sec with viewKey := 0, view := 0, ctxSel := 0, lcSrc := 0, fwSrc := 0, fwSize := 0 }
    dmp := { s.dmp with base := 0, size := 0, arm := false }
    tel := { s.tel with sel := 0 }
    slcSel := 0, lpxSel := 0, trySel := 0, bedSel := 0, cutSel := 0
    moss := { s.moss with tileSel := 0, regionSel := 0 }
    spg := { s.spg with sel := 0 } }

/-- The halves on which a job runs. -/
def State.jobHalves (s : State) : Nat :=
  b2n (s.liveJob s.west.owner) + 2 * b2n (s.liveJob s.east.owner)

/-- A function-level reset (R606, R608): the host interface and the set-up state with a job reset of every half that holds a
job. -/
def State.flrReset (s : State) : State :=
  if !s.resetBegins 4 then s else
  let mask := s.jobHalves
  let s := s.endHalves 3 0x0009
  let s := { s with sec := { s.sec with switch := none } }
  let s := if mask = 0 then s else s.resetHalves mask
  (s.resetHostSetup.redecide).setReset 4 mask 0 4

/-- A pending lifecycle transition takes effect when the fuses load (R547). -/
def State.loadFuses (s : State) : State :=
  if s.sec.lcPend then
    { s with fuses := { s.fuses with lc := s.sec.lcTarget }, sec := { s.sec with lcPend := false, lcTarget := 0 } }
  else s

/-- The ROM of a SCRAPPED device loads no firmware (R548). -/
def State.startBoot (s : State) : State :=
  let s := s.loadFuses
  if s.fuses.lc = 3 then { s with boot := { s.boot with fuses := true, halt := .scrapped } } else s

/-- Does a sensor still read the trip temperature (R695)? -/
def State.tripHot (s : State) : Bool := s.tel.now.any fun t => decide (115 ≤ t)

/-- The dump in progress is abandoned (R641, R698). -/
def State.abandonDump (s : State) : State :=
  if s.dmp.st = 1 then
    let s := s.postWith 0 s.primarySource 0x0A0A 0 (toLe 4 s.dmp.doneBytes ++ toLe 2 1) false
    { s.setsBit 0x140010 with dmp := { s.dmp with st := 3, doneBit := true, arm := false } }
  else s

/-- The host link is down: QUE_LINK reads zero until it trains again (R445, R614). -/
def HostPort.linkDown (x : HostPort) : HostPort :=
  { x with trained := false, busMaster := false, cxl := false, width := 0, rate := 0, cacheEn := false, memEn := false, ideIo := false,
           ideCm := false }

/-- The half after a device reset: the throttle level is 0; what the sparing map and PD0 hold is kept. -/
def Half.deviceReset (x : Half) : Half :=
  { Half.init with nc := x.nc, skip := x.skip, failed := x.failed, degraded := x.degraded, rel := x.rel, flags := 1 }

/-- SEC after a device reset (R551 to R557, R610). -/
def Sec.deviceReset (x : Sec) : Sec :=
  { Sec.init with
    ctxs := Map.mapVals (fun _ (c : Ctx) => { c with st := if c.st = 2 then 1 else c.st }) x.ctxs
    nextGen := x.nextGen, lcTarget := x.lcTarget, lcPend := x.lcPend, fwState := if x.fwState = 3 then 3 else 0
    fwTotal := if x.fwState = 3 then x.fwTotal else 0, prevSlot := x.prevSlot, prevNumeric := x.prevNumeric, handshakes := 0
    log := x.log, logSeq := x.logSeq, logDigest := x.logDigest, sessions := x.sessions
    scrub := x.scrub.map fun sc => { sc with left := 67036 } }

/-- A device reset (R606 to R610): every job ends with HOST_END, and the device boots again. Ignored during a primacy disagreement
(R616) and once REFCLK is lost (R685). -/
def State.deviceReset (s : State) (cause : Nat) : State :=
  if s.boot.halt = .primacy ∨ s.boot.halt = .refclk ∨ s.boot.halt = .scrapped ∨ s.boot.halt = .noFirmware then s else
  let hot := s.pins.thermtrip && s.tripHot
  let s := (s.endAll 0x0009).abandonDump
  let s := s.resetHostSetup
  let s := { s with
    boot := { Boot.init with
              edges := s.boot.edges, running := true, pllLock := true, zeroed := s.boot.zeroed, cold := false
              halt := if hot then .fatal 0x21 else .none }
    pins := { s.pins with fatal := hot, thermtrip := hot, latWest := s.pins.selWest, latEast := s.pins.selEast, latBoot := s.pins.bootSrc }
    west := s.west.deviceReset, east := s.east.deviceReset
    pwr := { Pwr.init with on := 0x06007 + (if s.isOn 19 then 2 ^ 19 else 0) }
    mgt := { Mgt.init with pending := s.mgt.pending, primary := b2n s.pins.selWest }
    sec := s.sec.deviceReset, ens := Ens.init, drb := Drb.init, spg := Spg.init
    ras := { Ras.init with
             marks := s.ras.marks, retired := s.ras.retired, restore := s.ras.restore, ue := s.ras.ue
             sramUe := s.ras.sramUe }
    dmp := Dmp.init
    tel := { Tel.init with alert := s.tel.alert, now := s.tel.now, jtagIr := s.tel.jtagIr }
    host := { s.host.linkDown with accesses := [] }
    cores := [], kernels := [], espConflict := 0, espHandleW := 0, espHandleE := 0, slices := [], exact := []
    lpx := [], streamers := [], snap := [], rz := Rz.init, links := [], moss := Moss.init }
  (s.setReset 5 3 0 cause).startBoot

/-- A cold reset (R606, R610, R692): everything but fuses, flash, the board's inputs and the host's memory is lost; the clocks
stop and the outputs are released until power is good again. -/
def State.coldReset (s : State) : State :=
  { State.reset with
    pending := s.pending, freeCtr := s.freeCtr, fuses := if s.sec.lcPend then { s.fuses with lc := s.sec.lcTarget } else s.fuses
    flash := s.flash
    pins := { Pins.init with
              pwrgood := false, perst := s.pins.perst, refclk := s.pins.refclk, lrefclk := s.pins.lrefclk
              throttle := s.pins.throttle, selWest := s.pins.selWest, selEast := s.pins.selEast, bootSrc := s.pins.bootSrc }
    mgt := { Mgt.init with pending := s.mgt.pending }
    tel := { Tel.init with now := s.tel.now }
    host := { HostPort.init with mem := s.host.mem, bad := s.host.bad } }

/-- SRAM words that met an uncorrectable error are zeroed and tested (R633): a slice in `failed` met a further error. -/
def State.testWords (s : State) (mask : Nat) (failed : List Nat) : State :=
  let due := s.ras.sramUe.filter fun e => bit mask (e.1 / 256)
  let bad := fun h => ((due.map (·.1)).filter fun n => n / 256 == h && failed.contains n).eraseDups
  let s := { s with ras := { s.ras with sramUe := s.ras.sramUe.filter fun e => !bit mask (e.1 / 256) } }
  let put := fun (s : State) h => let x := s.half h
    (s.setHalf h { x with failed := x.failed ++ (bad h).filter fun n => !x.failed.contains n }).checkDegraded h
  put (put s 0) 1

end Sys2Proof.Machine
end

