-- ==== Sys2Proof/Machine/Boot.lean ====
section
/-!
DEFINITION. Power-up, boot, primacy, the planting plan, the pins and the mode (R36 to R40, R549 to R553, R592 to R624, R681 to
R698).
-/
namespace Sys2Proof.Machine
open Sys2Proof

/-! ## Power and references -/

/-- PWRGOOD_FALL (R692, R609): the first input to fall is a cold reset; later falls join it. -/
def execPwrgoodFall (s : State) : Out := .next (if s.pins.pwrgood then s.coldReset else s)

/-- POWER_UP (R559, R612, R682): the last PWRGOOD input rises; the straps are latched and the boot begins; `kat` says that the
ROM's known-answer tests pass. PRIMARY reads the West half's latch until the halves agree (R40, log entry 87). -/
def execPowerUp (selWest selEast bootSrc kat : Bool) (s : State) : Out :=
  .next (if s.pins.pwrgood then s else
    let s := { s with pins := { s.pins with pwrgood := true, selWest := selWest, selEast := selEast, bootSrc := bootSrc,
                                            latWest := selWest, latEast := selEast, latBoot := bootSrc }
                      mgt := { s.mgt with primary := b2n selWest } }
    let s := s.startBoot
    if kat then s else ({ s with sec := { s.sec with islandFail := true } }).deviceFatal 0 0x23 0x0A04 8)

/-- ROOT_PLL_LOCK (R592): the PLL locks while the reference runs and power is good; the alignment sequence can run. -/
def execRootPllLock (s : State) : Out :=
  .next (if s.pins.pwrgood && s.pins.refclk then { s with boot := { s.boot with pllLock := true } } else s)

/-- The level that was decided during or before an alignment sequence takes effect at the first frame boundary after the
release (R597). -/
def Half.release (x : Half) (edges : Nat) : Half :=
  { x with rel := edges, next := match x.next.getLast? with | some e => [(e.1, edges + 128)] | none => [] }

/-- Do the dividers of half h take part in the sequence under way (R596)? -/
def State.aligning (s : State) (h : Nat) : Bool :=
  match s.rst.busy with
  | some r => !(s.split && r.kind == 2) || bit r.halves h
  | none => true

/-- Window accesses that were held, in order (R452). -/
def State.releaseHdm (s : State) : State :=
  let due := s.host.accesses
  let s := { s with host := { s.host with accesses := due.filter fun a => match a with | .bar0Write _ _ _ => true | _ => false } }
  due.foldl (fun (s : State) a => match a with
    | .hdmWrite o d p => s.hdmWriteNow o d p
    | .hdmRead o n => s.hdmReadNow o n .clean
    | .bar0Write _ _ _ => s) s

/-- The end of a mode change (R37, R38): the mode is set, MODE_CHANGED posted, the ring sets resume. A change that has been
cancelled meanwhile leaves the mode. -/
def State.endModeChange (s : State) : State :=
  let m := s.mgt
  let s := { s with mgt := { m with changing := false, pend := false, modeCur := m.modeReq } }
  let s := if m.modeReq = m.modeCur then s else s.postDev s.primarySource 0x0105 0 (toLe 1 m.modeReq)
  s.releaseHdm.resumeRings

/-- ALIGNMENT_RELEASE (R595 to R597): dividers and crossing FIFOs are released on one root edge. At a cold reset root edges
count from here (R593, R594). -/
def execAlignmentRelease (s : State) : Out :=
  .next (if s.boot.aligned || !s.boot.pllLock || !s.pins.refclk then s else
    let e := if s.boot.running then s.boot.edges else 0
    let s := s.onHalves (b2n (s.aligning 0) + 2 * b2n (s.aligning 1)) fun _ x => x.release e
    let s := { s with boot := { s.boot with aligned := true, running := true, edges := e } }
    if s.mgt.changing && s.sec.scrub.isNone && (s.rst.busy.isNone || !s.boot.ready) then s.endModeChange else s)

/-! ## Firmware (R549, R550, R612) -/

/-- The flash offset of a firmware slot (R686). -/
def slotBase (slot : Nat) : Nat := 0x1000000 * (slot + 1)

/-- The active slot of the boot record (R686). -/
def State.activeSlot (s : State) : Nat := (Memory.read s.flash 0x1000).toNat % 2

/-- The bytes of a slot's image: header, body and signature, none when the header breaks R549. -/
def State.slotImage (s : State) (slot : Nat) : Option (List Byte) :=
  let h := Memory.readBytes s.flash (slotBase slot) 64
  let n := 160 + leAt h 16 8
  if leAt h 0 4 = 0x4B564657 ∧ leAt h 4 2 = 1 ∧ leAt h 12 4 ≤ 64 ∧ n ≤ 0x1000000 ∧ leAt h 24 1 ≤ 3 ∧ zeroAt h 25 39 = true then
    some (Memory.readBytes s.flash (slotBase slot) n)
  else none

/-- What R550 finds in a slot: 0 it passes, else the check that failed as FW_REJECTED codes it (R560). -/
def State.fwCheck (s : State) (slot : Nat) : Nat :=
  match s.slotImage slot with
  | none => 5
  | some img =>
    let key := leAt img 24 1
    let body := img.take (img.length - 96)
    match s.fuses.keys[key]? with
    | none => 1
    | some q =>
      if !ecdsaVerify q (sha384 body) (img.drop (img.length - 96)) then 1
      else if s.fuses.revoked.contains key then 2
      else if !bit (leAt img 6 2) s.fuses.lc then 3
      else if leAt img 12 4 < s.fuses.svn then 4
      else 0

/-- The image of a slot becomes the running one (SEC_BOOT). -/
def State.runImage (s : State) (slot : Nat) (img : List Byte) : State :=
  { s with sec := { s.sec with slot := slot, svn := leAt img 12 4, keyIndex := leAt img 24 1, fwNumeric := leAt img 8 4,
                               fwBytes := img } }

/-- At boot a PENDING image is verified again (R553). -/
def State.recheckPending (s : State) : State :=
  if s.sec.fwState = 3 ∧ s.fwCheck (1 - s.sec.slot) ≠ 0 then
    { s with sec := { s.sec with fwState := 0, fwStatus := 0x0806 } }
  else s

/-- FIRMWARE_VERIFY (R548 to R550): the ROM has read a slot, the active one first and the other one second. A slot that passes
runs and both management controllers start; when neither passes the device halts. -/
def execFirmwareVerify (slot : Nat) (s : State) : Out :=
  .next (if !s.boot.aligned || s.boot.firmware || s.boot.halt != .none || decide (1 < slot) then s else
    let first := slot == s.activeSlot
    if !first && !s.sec.fallback then s else
    let s := { s with boot := { s.boot with fuses := true } }
    match s.fwCheck slot, s.slotImage slot with
    | 0, some img =>
      let s := (s.runImage slot img).recheckPending
      let s := { s with boot := { s.boot with firmware := true, controllers := true } }
      let s := s.askNonce
      if s.fuses.lc = 2 then s.askRandom ⟨.memKey, 1, 64, none, false, []⟩
      else { s with sec := { s.sec with memKey := s.fuses.memKey } }
    | _, _ =>
      if first then { s with sec := { s.sec with fallback := true } }
      else { s with boot := { s.boot with halt := .noFirmware } })

/-! ## Primacy and the planting plan (R615 to R623) -/

/-- A field of the plan: offset, bytes, default, and whether a value lies in its range (R618). -/
structure PlanField where
  ofs : Nat
  size : Nat
  dflt : Nat
  ok : Nat → Bool

/-- The fields of R618 in ascending offset. -/
def planFields : List PlanField :=
  [⟨6, 1, 0, fun v => decide (v ≤ 1)⟩, ⟨7, 1, 1, fun v => decide (v ≤ 1)⟩, ⟨8, 2, 0xFFFF, fun _ => true⟩,
   ⟨10, 1, 2, fun v => v == 1 || v == 2⟩, ⟨11, 1, 8, fun v => decide (v ≤ 8)⟩,
   ⟨12, 1, 95, fun v => decide (60 ≤ v) && decide (v ≤ 110)⟩, ⟨14, 2, 1400, fun v => decide (200 ≤ v) && decide (v ≤ 1600)⟩,
   ⟨16, 1, 20, fun v => decide (v ≤ 63)⟩, ⟨17, 1, 0, fun v => v == 0 || (decide (30 ≤ v) && decide (v ≤ 39))⟩,
   ⟨18, 1, 0x13, fun _ => true⟩]

/-- Does the plan as a whole fall back to the factory defaults (R620)? -/
def planBad (b : List Byte) : Bool :=
  crc32c (b.take 4092) != leAt b 4092 4 || leAt b 0 4 != 0x4B565050 || leAt b 4 2 != 1 || leAt b 256 1 != 1 || !zeroAt b 257 255

/-- The values in force, in the order of `planFields`. -/
def planValues (b : List Byte) : List Nat :=
  planFields.map fun f => if planBad b then f.dflt else
    let v := leAt b f.ofs f.size
    if f.ok v then v else f.dflt

/-- The offset of the first field outside its range. -/
def planFirst (b : List Byte) : Option Nat :=
  (planFields.find? fun f => !f.ok (leAt b f.ofs f.size)).map (·.ofs)

/-- The registers take the plan's values (R620, R656); MODE_REQ takes the boot mode (R39). -/
def State.applyPlan (s : State) (v : List Nat) : State :=
  let g := fun i => v.getD i 0
  { s with
    mgt := { s.mgt with planSplit := g 0 == 1, modeReq := g 0, pend := g 0 != s.mgt.modeCur }
    pwr := { s.pwr with idleOff := g 1 == 1, pinLevel := g 4, tThrottle := g 5, limit := g 6 }
    rz := { s.rz with portEn := g 2, maxVersion := g 3, w1 := g 9 % 16, w2 := g 9 / 16 }
    drb := { s.drb with log2Base := g 7 }
    host := { s.host with hdmLog2 := g 8 } }

/-- The primary half reads and checks the plan (R620), and the domains of the boot begin to power (R612). -/
def State.loadPlan (s : State) : State :=
  let b := Memory.readBytes s.flash 0 4096
  let whole := planBad b
  let first := planFirst b
  let bad := whole || first.isSome
  let s := if s.mgt.pending then s.measure 3 else s
  let s := s.applyPlan (planValues b)
  let s := { s with
    boot := { s.boot with plan := true }
    mgt := { s.mgt with loaded := true, defaulted := bad, pending := false, planBytes := b
                        numeric := if whole then numericDefault else bytesAt b 256 256 } }
  let s := if bad then
      s.postDev s.primarySource 0x0C07 0 (toLe 1 (b2n (!whole)) ++ toLe 3 0 ++ toLe 4 (if whole then 0 else first.getD 0))
    else s
  let ports := (if s.rz.portEn % 256 != 0 then [17] else []) ++ (if s.rz.portEn / 256 != 0 then [18] else [])
  (s.powerOn (jobDomains 3 ++ ports)).redecide

/-- The claim of a half by its latched strap (R615): 1 PRIMARY, 2 SECONDARY. -/
def State.claimOf (s : State) (h : Nat) : Nat := if h = 0 then (if s.pins.latWest then 2 else 1) else (if s.pins.latEast then 1 else 2)

/-- A primacy disagreement (R616): both halves hold, FATAL_N is asserted, no event is posted. -/
def State.primacyHalt (s : State) : State :=
  let s := s.assertFatal
  let s := s.onHalves 3 fun _ x => { x with flags := 3 }
  { s with boot := { s.boot with halt := .primacy } }

/-- PRIMACY_CLAIM (R615, R616): a half's claim arrives. When both have arrived and exactly one half claims PRIMARY, that half
holds primacy and loads the plan. -/
def execPrimacyClaim (half : Nat) (s : State) : Out :=
  noUnit (decide (half < 2)) (
    if !s.boot.controllers || s.mgt.agreed || s.boot.halt != .none then s else
    let c := s.claimOf half
    let s := { s with mgt := if half = 0 then { s.mgt with claimW := c } else { s.mgt with claimE := c } }
    if s.mgt.claimW = 0 ∨ s.mgt.claimE = 0 then s
    else if s.mgt.claimW = s.mgt.claimE then s.primacyHalt
    else ({ s with mgt := { s.mgt with agreed := true, primary := if s.mgt.claimW = 1 then 0 else 1 } }).loadPlan)

/-- PRIMACY_TIMEOUT (R616): a claim has not arrived within 10 ms. -/
def execPrimacyTimeout (s : State) : Out :=
  .next (if s.boot.controllers && !s.mgt.agreed && s.boot.halt == .none then s.primacyHalt else s)

/-- HEARTBEAT_SEND (R617): a controller sends its heartbeat every 7,500 nc. -/
def execHeartbeatSend (half : Nat) (s : State) : Out :=
  noUnit (decide (half < 2)) (
    let x := s.half half
    if !s.boot.controllers || s.boot.halt != .none || (x.hbSent != 0 && decide (x.nc + 1 < x.hbSent + 7500)) then s else
    let s := s.setHalf half { x with hbSent := x.nc + 1, hbMissed := 0 }
    if s.west.hbSent != 0 && s.east.hbSent != 0 then { s with mgt := { s.mgt with hbOk := true } } else s)

/-- HEARTBEAT_MISS (R617, R628): the other controller has missed four heartbeats of this half in a row; the device becomes
fatal. -/
def execHeartbeatMiss (half : Nat) (s : State) : Out :=
  noUnit (decide (half < 2)) (
    if !s.boot.controllers || s.boot.halt != .none then s else
    let s := s.setHalf half { s.half half with hbMissed := 4 }
    let s := { s with mgt := { s.mgt with hbOk := false, hbLost := true } }
    (s.postDev (halfSource (1 - half)) 0x0C06 0 (toLe 1 half)).deviceFatal (halfSource (1 - half)) 0x22 0x0A05 (2 <<< half))

/-! ## LPDDR5X at boot (R530, R584, R612) -/

/-- LPX_TRAINING_DONE (R612, R584): a controller becomes READY, or FAILED; in RETURNED it waits for the memory key. -/
def execLpxTrainingDone (ctrl : Nat) (passed : Bool) (s : State) : Out :=
  noUnit (decide (ctrl < 32)) (
    let x := s.lpxCtrl ctrl
    if x.st != 1 || (s.fuses.lc == 2 && s.sec.memKey.isEmpty) then s
    else s.setLpx ctrl { x with st := if passed then 2 else 3 })

/-- LPX_ZERO_DONE (R530): after a cold reset every line is zero once all controllers have trained. -/
def execLpxZeroDone (s : State) : Out :=
  .next (if s.boot.zeroed || !((List.range 32).all fun i => (s.lpxCtrl i).st == 2) then s
    else { s with lpxMem := [], lineGen := [], lineKind := [], boot := { s.boot with zeroed := true } })

/-! ## Domains and rejoin rounds (R602 to R605) -/

/-- DOMAIN_POWER_ON (R602): a domain that is powering reaches ON. -/
def execDomainPowerOn (pd : Nat) (s : State) : Out :=
  noUnit (decide (pd < 20)) (if s.pwr.rising.contains pd then s.domainOn pd else s)

/-- Does the half hold an open job, with or without suspended ones? -/
def State.halfBusy (s : State) (h : Nat) (suspended : Bool) : Bool :=
  s.jobs.any fun kv => bit kv.2.halves h && kv.2.st != .ended && (suspended || kv.2.st != .suspended)

/-- May an idle domain switch off (R602)? -/
def State.idleDomain (s : State) (pd : Nat) : Bool :=
  s.pwr.idleOff && s.isOn pd && s.boot.ready &&
    (if 3 ≤ pd ∧ pd ≤ 10 then !s.halfBusy (if pd ≤ 6 then 0 else 1) true
     else if pd = 15 ∨ pd = 16 then !s.halfBusy (pd - 15) false && !(s.sec.ctxs.any fun kv => kv.2.st == 3)
     else false)

/-- DOMAIN_IDLE_OFF (R602): an idle domain switches off. -/
def execDomainIdleOff (pd : Nat) (s : State) : Out :=
  noUnit (decide (pd < 20)) (if s.idleDomain pd then
      let s := s.domainOff pd
      { s with pwr := { s.pwr with round := s.pwr.round.filter fun u => !(u.1 == 0 && coreDomain u.2 == pd) } }
    else s)

/-- One unit of a round: IDLE with its stores zero on a pass; RETIRED, marked and reported on a failure (R605, R636). -/
def State.endCheck (s : State) (failed : Bool) (u : Nat × Nat) : State :=
  let s := if u.1 = 0 then s.setCore u.2 { Core.init with st := if failed then .retired else .idle }
    else s.setTiles [u.2] (if failed then 5 else 2)
  if failed then
    let s := s.mark ⟨u.1, u.2, 0⟩
    s.postDev (if u.1 = 0 then 0x10 + u.2 else 0x300 + u.2) 0x0C04 0 (toLe 1 u.1 ++ toLe 1 0 ++ toLe 2 u.2)
  else s

/-- A region whose DEFINE waits for its tiles (R366): it is defined once all of them are IDLE, and refused when one is RETIRED or an
earlier DEFINE has taken it. -/
def State.settleRegion (s : State) (n : Nat) (g : MRegion) : State :=
  match g.await with
  | none => s
  | some h =>
    let st := g.tiles.map fun t => Map.get 0 s.moss.tiles t
    if st.any (fun x => decide (3 ≤ x)) then
      ({ s with moss := { s.moss with regions := Map.set MRegion.free s.moss.regions n MRegion.free } }).done h 0x50 0x0604 0
    else if st.all (· == 2) then
      let s := { s with moss := { s.moss with regions := Map.set MRegion.free s.moss.regions n { g with await := none, st := 1 } } }
      (s.setTiles g.tiles 3).done h 0x50 0 0
    else s

/-- Every waiting region. -/
def State.settleRegions (s : State) : State := s.moss.regions.foldl (fun (s : State) kv => s.settleRegion kv.1 kv.2) s

/-- REJOIN_ROUND_DONE (R604, R605, R228): the round's units pass or fail; `lanes` are the cores whose Spore lane self-test
failed. -/
def execRejoinRoundDone (failed : List (Nat × Nat)) (lanes : List Nat) (s : State) : Out :=
  .next (
    let us := s.pwr.round
    if us.isEmpty || !s.boot.aligned then s else
    let bad := fun (u : Nat × Nat) => failed.contains u || (u.1 == 0 && lanes.contains u.2)
    let n := (us.filter bad).length
    let s := us.foldl (fun (s : State) u => s.endCheck (bad u) u) s
    let s := { s with
      pwr := { s.pwr with round := [], running := false, units := us.length % 1024, fails := n % 1024 }
      spg := { s.spg with lanes := us.foldl (fun m (u : Nat × Nat) =>
        if u.1 = 0 then Map.set 0 m u.2 (if lanes.contains u.2 then 2 else 1) else m) s.spg.lanes } }
    let s := s.postDev s.primarySource 0x0C03 0 (toLe 2 us.length ++ toLe 2 n)
    s.remap.settleRegions)

/-! ## PERST_N, FLR and the references (R606, R614, R683, R685) -/

/-- PERST_N_ASSERT (R683): an assertion below 100 µs may be ignored, and is; before READY it holds PD19 in reset, after READY it
is a device reset; R616 takes precedence. -/
def execPerstNAssert (ts : Nat) (s : State) : Out :=
  .next (if decide (ts < 100000) || s.pins.perst || s.boot.halt == .primacy || s.boot.halt == .refclk || !s.pins.pwrgood then s else
    let fatal := match s.boot.halt with | .fatal _ => true | _ => false
    let s := if s.boot.ready || s.boot.wasReady || fatal then s.deviceReset 2 else s
    let s := { s with pins := { s.pins with perst := true }, host := s.host.linkDown }
    s.domainOff 19)

/-- PERST_N_DEASSERT (R614, R602): PD19 is powered and the CXL link begins to train. -/
def execPerstNDeassert (s : State) : Out :=
  .next (if !s.pins.perst || s.boot.halt == .primacy then s
    else ({ s with pins := { s.pins with perst := false } }).powerOn [19])

/-- FLR (R606, R608). -/
def execFlr (s : State) : Out := .next s.flrReset

/-- REFCLK_LOSS (R685): FATAL_N is asserted and every clock stops until a cold reset; no event, no dump, no LPDDR5X contents. -/
def execRefclkLoss (s : State) : Out :=
  .next (
    let s := s.assertFatal
    { s with
      pins := { s.pins with refclk := false }
      boot := { s.boot with pllLock := false, running := false, halt := .refclk }
      lpxMem := [], lineGen := [], lineKind := [] })

/-- A write of RST_CMD (R606, R609, R616, R700). -/
def State.writeRstCmd (s : State) (v : W32) : State :=
  let kind := bits v.toNat 2 0
  let p := bits v.toNat 13 4
  if kind = 4 then s.deviceReset 3
  else if s.boot.halt != .none then s
  else if kind = 2 then s.halfReset (bits v.toNat 3 3)
  else if kind = 3 ∧ p < 544 then
    let c := s.core p
    if !s.resetBegins 1 then s
    else if c.st = .running then { s.setsBit 0x30004 with rst := { s.rst with refused := true } }
    else if c.st = .off ∨ c.st = .retired then s
    else ((s.setCore p c.restale).enterRound [(0, p)]).setReset 1 0 p 3
  else s

/-- RST_CMD with the KIND that the row names. -/
def State.rstCmd (s : State) (kind : Nat) (v : W32) : State :=
  if bits v.toNat 2 0 = kind then s.barWrite32 0x30000 v fun s => s.writeRstCmd v else s

/-- RST_CMD_CORE (R606, R609). -/
def execRstCmdCore (v : W32) (s : State) : Out := .next (s.rstCmd 3 v)

/-- RST_CMD_HALF (R606, R608). -/
def execRstCmdHalf (v : W32) (s : State) : Out := .next (s.rstCmd 2 v)

/-- RST_CMD_DEVICE (R606, R608, R613). -/
def execRstCmdDevice (v : W32) (s : State) : Out := .next (s.rstCmd 4 v)

/-! ## Heat, power and throttling (R599, R600, R630, R661, R695, R696) -/

/-- The readings of a half's sensors noted. -/
def putTemps (now : List Nat) (h : Nat) (temps : List Nat) : List Nat :=
  let e := (temps ++ List.replicate 8 0).take 8
  if h = 0 then e ++ now.drop 8 else now.take 8 ++ e

/-- THERMTRIP_SENSE (R630, R695, R698): THERMTRIP_N asserts, the throttled clocks stop, every job ends with THERMAL_TRIP, the dump in
progress is abandoned and none is written. -/
def execThermtripSense (sensor temp : Nat) (s : State) : Out :=
  noUnit (decide (sensor < 16)) (
    let s := { s with tel := { s.tel with now := s.tel.now.set sensor temp } }
    if temp < 115 || s.pins.thermtrip || !s.pins.pwrgood || s.boot.halt == .refclk then s else
    let s := { s with pins := { s.pins with thermtrip := true } }
    let s := (s.raiseAlert 1).abandonDump
    let s := s.postDev (halfSource (sensor / 8)) 0x0A06 0x0A03 (toLe 1 (sensor / 8) ++ toLe 1 temp)
    s.deviceFatal (halfSource (sensor / 8)) 0x21 0x0A03 0)

/-- THROTTLE_N_EDGE (R599, R696): an accepted edge; without effect while THERMTRIP_N is asserted. -/
def execThrottleNEdge (asserted : Bool) (s : State) : Out :=
  .next (
    let s := { s with pins := { s.pins with throttle := asserted } }
    if s.pins.thermtrip then s else s.redecide)

/-- THERMAL_THROTTLE_TICK (R599): the request rises while a sensor reads at or above T_THROTTLE, falls while every sensor reads
below T_THROTTLE - 5. -/
def execThermalThrottleTick (half : Nat) (temps : List Nat) (s : State) : Out :=
  noUnit (decide (half < 2)) (
    let x := s.half half
    let s := { s with tel := { s.tel with now := putTemps s.tel.now half temps } }
    if s.boot.halt != .none then s
    else if temps.any fun t => decide (s.pwr.tThrottle ≤ t) then
      (s.setHalf half { x with therm := Nat.min 8 (x.therm + 1) }).redecide
    else if temps.all fun t => decide (t + 5 < s.pwr.tThrottle) then
      (s.setHalf half { x with therm := x.therm - 1 }).redecide
    else s)

/-- POWER_THROTTLE_TICK (R599): the 1 ms average against POWER_LIMIT; in split mode against half of it. -/
def execPowerThrottleTick (half watts : Nat) (s : State) : Out :=
  noUnit (decide (half < 2)) (
    let x := s.half half
    let w := if s.split then 2 * watts else watts
    if s.boot.halt != .none then s
    else if s.pwr.limit < w then (s.setHalf half { x with power := Nat.min 8 (x.power + 1) }).redecide
    else if 100 * w < 95 * s.pwr.limit then (s.setHalf half { x with power := x.power - 1 }).redecide
    else s)

/-- THROTTLE_LEVEL_APPLY (R599, R600): in joined mode both halves change at the same frame boundary. -/
def execThrottleLevelApply (half : Nat) (s : State) : Out :=
  noUnit (decide (half < 2)) (if s.split then s.applyLevel half else (s.applyLevel 0).applyLevel 1)

/-- TEL_UPDATE (R661, R539, R700): the readings of one nc. While a scrub runs or the device is halted the registers keep the last
ones. -/
def execTelUpdate (temps : List Nat) (device west east : Nat) (s : State) : Out :=
  .next (
    let s := { s with tel := { s.tel with now := temps } }
    if s.sec.scrub.isSome || s.boot.halt != .none then s
    else { s with tel := { s.tel with temps := temps, device := device, west := west, east := east } })

/-! ## The planting plan's command (R623) and the mode (R36 to R39) -/

/-- A write of MGT_PLAN_CMD (R623): refused with CONTEXT_BUSY under SETUP_LOCK or while a context other than 0 holds a job, with
HOST_READ_FAULT, or with DESC_INVALID when CHECK fails. -/
def State.writePlanCmd (s : State) (v : W32) : State :=
  if !bit v.toNat 0 || s.mgt.busy then s else
  let stop := fun (st : Nat) => { s with mgt := { s.mgt with status := st } }
  if s.glb.lock || !s.jobs.isEmpty then stop 0x0803
  else match s.hostRead s.mgt.src 4096 with
    | none => stop 0x0007
    | some b =>
      if crc32c (b.take 4092) != leAt b 4092 4 then stop 0x0003
      else { s with mgt := { s.mgt with busy := true, buffer := b } }

/-- MGT_PLAN_WRITE (R623). -/
def execMgtPlanWrite (v : W32) (s : State) : Out := .next (s.barWrite32 0x10020 v fun s => s.writePlanCmd v)

/-- PLAN_WRITE_DONE (R623): the plan sector holds the new plan, which takes effect at the next device or cold reset. -/
def execPlanWriteDone (s : State) : Out :=
  .next (if !s.mgt.busy then s else
    { s with flash := Memory.writeBytes s.flash 0 s.mgt.buffer
             mgt := { s.mgt with busy := false, buffer := [], status := 0, pending := true } })

/-- A write of MGT_MODE.MODE_REQ (R38, R40). -/
def State.writeModeReq (s : State) (v : W32) : State :=
  let q := bits v.toNat 1 0
  if 1 < q then s else { s with mgt := { s.mgt with modeReq := q, pend := q != s.mgt.modeCur } }

/-- MGT_MODE_REQ_WRITE (R38). -/
def execMgtModeReqWrite (v : W32) (s : State) : Out := .next (s.barWrite32 0x10040 v fun s => s.writeModeReq v)

end Sys2Proof.Machine
end

