-- ==== Sys2Proof/Machine/Mgmt.lean ====
section
/-!
DEFINITION. The registers with a behaviour of their own in SEC, SPG, GLB, CKP, RAS and DMP, firmware update, SPDM, SMBus and JTAG
(R224 to R228, R541 to R557, R599, R639, R640, R655, R687 to R689).
-/
namespace Sys2Proof.Machine
open Sys2Proof

/-! ## The Spore known-answer port (R226, R227) -/

/-- A write of SPG_KAT_CMD. -/
def State.writeKat (s : State) (v : W32) : State :=
  let g := s.spg
  if !bit v.toNat 0 || g.busy then s
  else { s with spg := { g with busy := true, runKey := g.keyHi ++ g.keyLo, runCtr := g.ctrHi ++ g.ctrLo } }

/-- SPG_KAT_GO (R226): GO written while BUSY is 0 latches the inputs. -/
def execSpgKatGo (s : State) : Out := .next (s.barWrite32 0x90040 1#32 fun s => s.writeKat 1#32)

/-- SPG_KAT_DONE (R226): the block, its uniform and its Gumbel noise stand in the output registers. -/
def execSpgKatDone (s : State) : Out :=
  .next (
    let g := s.spg
    if !g.busy then s else
    let b := sporeBlock g.runKey g.runCtr
    let u := sporeU24 g.runKey g.runCtr
    { s.setsBit 0x90044 with
      spg := { g with busy := false, done := true, outLo := b.setWidth 64, outHi := (b >>> 64).setWidth 64, u24 := u,
                      gumbel := sporeGumbel u } })

/-! ## The view (R542) -/

/-- A write of SEC_VIEW: the key is cleared after each. A context that is not registered has no key. -/
def State.writeView (s : State) (v : W32) : State :=
  let c := bits v.toNat 3 0
  let x := s.sec
  if c = 0 then { s with sec := { x with view := 0, viewKey := 0 } }
  else if (s.ctx c).st != 0 && (s.ctx c).viewKey == x.viewKey then { s with sec := { x with view := c, viewKey := 0 } }
  else
    ({ s with sec := { x with view := 0, viewKey := 0, viewFails := satAdd 8 x.viewFails 1 } }).postDev 0 0x0809 0 (toLe 1 c)

/-- SEC_VIEW_WRITE (R542). -/
def execSecViewWrite (v : W32) (s : State) : Out := .next (s.barWrite32 0x60030 v fun s => s.writeView v)

/-! ## Lifecycle (R547, R548) -/

/-- Does the table of R547 allow the transition? -/
def lcAllowed (now target : Nat) : Bool :=
  (now == 0 && target == 1) || (now == 1 && target == 2) || (now == 1 && target == 3) || (now == 2 && target == 3)

/-- Does the authorisation at SEC_LC_SRC verify under a firmware key that is not revoked? -/
def State.lcAuthorised (s : State) (target : Nat) : Bool :=
  match s.hostRead s.sec.lcSrc 96 with
  | none => false
  | some sig =>
    let d := sha384 (toLe 8 s.fuses.serial ++ toLe 1 target ++ toLe 8 s.sec.nonce)
    (List.range s.fuses.keys.length).any fun k =>
      !s.fuses.revoked.contains k && (match s.fuses.keys[k]? with | some q => ecdsaVerify q d sig | none => false)

/-- A write of SEC_LC_CMD (R548): every attempt refreshes the nonce; one that is allowed is pending until fuses reload. -/
def State.writeLcCmd (s : State) (v : W32) : State :=
  let t := bits v.toNat 1 0
  if !bit v.toNat 2 || s.sec.islandFail then s else
  let ok := lcAllowed s.fuses.lc t && !(s.sec.ctxs.any fun kv => kv.1 != 0 && kv.2.st != 0) && (t != 2 || s.lcAuthorised t)
  let s := if ok then
      let s := { s with sec := { s.sec with lcTarget := t, lcPend := true } }
      (s.postDev 0 0x0808 0 (toLe 1 s.fuses.lc ++ toLe 1 t)).measure 4
    else s
  s.askNonce

/-- SEC_LC_GO (R548). -/
def execSecLcGo (v : W32) (s : State) : Out := .next (s.barWrite32 0x6000C v fun s => s.writeLcCmd v)

/-! ## Firmware update (R551 to R553) -/

/-- Does a context hold a job (R552)? -/
def State.anyJob (s : State) : Bool := !s.jobs.isEmpty

/-- Activation begins: the boot record names the other slot, sessions end, the ring sets pause. -/
def State.activateFw (s : State) : State :=
  if s.anyJob then { s with sec := { s.sec with fwStatus := 0x0803 } } else
  let n := 1 - s.sec.slot
  ({ s with
     flash := Memory.write s.flash 0x1000 (BitVec.ofNat 8 n)
     boot := { s.boot with activating := true }
     sec := { s.sec with fwState := 4, fwStatus := 0, prevSlot := s.sec.slot, prevNumeric := s.sec.fwNumeric, sessions := 0
                         handshakes := 0 } }).pauseRings

/-- A write of SEC_FW_CMD (R551, R562): 1 STAGE, 2 ACTIVATE, 3 ABORT, 4 COMMIT_SVN. -/
def State.writeFwCmd (s : State) (v : W32) : State :=
  let a := bits v.toNat 2 0
  let x := s.sec
  if x.islandFail then s
  else if a = 1 ∧ x.fwState = 0 then
    { s with sec := { x with fwState := 1, fwStatus := 0, fwAt := (x.fwSrc, x.fwSize), fwDone := 0
                             fwTotal := ceilDiv x.fwSize 1024 % 65536 } }
  else if a = 2 ∧ x.fwState = 3 then s.activateFw
  else if a = 3 ∧ (x.fwState = 1 ∨ x.fwState = 3) then { s with sec := { x with fwState := 0, fwStatus := 0 } }
  else if a = 4 then ({ s with fuses := { s.fuses with svn := Nat.max s.fuses.svn x.svn } }).measure 5
  else s

/-- SEC_FW_STAGE (R551). -/
def execSecFwStage (s : State) : Out := .next (s.barWrite32 0x60064 1#32 fun s => s.writeFwCmd 1#32)
/-- SEC_FW_ACTIVATE (R551, R552). -/
def execSecFwActivate (s : State) : Out := .next (s.barWrite32 0x60064 2#32 fun s => s.writeFwCmd 2#32)
/-- SEC_FW_ABORT (R551). -/
def execSecFwAbort (s : State) : Out := .next (s.barWrite32 0x60064 3#32 fun s => s.writeFwCmd 3#32)
/-- SEC_FW_COMMIT_SVN (R553). -/
def execSecFwCommitSvn (s : State) : Out := .next (s.barWrite32 0x60064 4#32 fun s => s.writeFwCmd 4#32)

/-- FW_STAGING_DONE (R551): the image is copied into the inactive slot, or a host read fault ends the update. -/
def execFwStagingDone (s : State) : Out :=
  .next (
    let x := s.sec
    if x.fwState != 1 then s else
    match s.hostRead x.fwAt.1 x.fwAt.2 with
    | none => { s with sec := { x with fwState := 0, fwStatus := 0x0007 } }
    | some bs =>
      { s with flash := Memory.writeBytes s.flash (slotBase (1 - x.slot)) (bs.take 0x1000000)
               sec := { x with fwState := 2, fwDone := 0 } })

/-- FW_VERIFY_DONE (R550, R551). -/
def execFwVerifyDone (s : State) : Out :=
  .next (
    let x := s.sec
    if x.fwState != 2 then s else
    let k := s.fwCheck (1 - x.slot)
    if k = 0 then
      let h := Memory.readBytes s.flash (slotBase (1 - x.slot)) 64
      ({ s with sec := { x with fwState := 3, fwStatus := 0, fwDone := x.fwTotal } }).postDev 0 0x0804 0 (bytesAt h 8 8)
    else
      ({ s with sec := { x with fwState := 0, fwStatus := 0x0806 } }).postDev 0 0x0805 0x0806 (toLe 1 k))

/-- The end of an activation: the ring sets resume (R552). -/
def State.endActivation (s : State) : State :=
  ({ s with boot := { s.boot with activating := false }, sec := { s.sec with fwState := 0 } }).resumeRings

/-- FW_READY (R551): the new firmware runs. -/
def execFwReady (s : State) : Out :=
  .next (
    if s.sec.fwState != 4 then s else
    let n := 1 - s.sec.slot
    let s := match s.slotImage n with | some img => s.runImage n img | none => s
    let s := (s.postDev 0 0x0806 0 (toLe 4 s.sec.prevNumeric ++ toLe 4 s.sec.fwNumeric)).measure 2
    s.endActivation)

/-- FW_ACTIVATE_TIMEOUT (R552): the previous image restarts. -/
def execFwActivateTimeout (s : State) : Out :=
  .next (
    if s.sec.fwState != 4 then s else
    let s := { s with flash := Memory.write s.flash 0x1000 (BitVec.ofNat 8 s.sec.slot) }
    (s.postDev 0 0x0807 0 (toLe 4 s.sec.fwNumeric)).endActivation)

/-! ## SPDM (R548, R552, R554 to R556) -/

/-- PLAN_DIGEST (R420). -/
def State.planDigest (s : State) : List Byte := sha384 s.mgt.numeric

/-- The state record of R556. -/
def State.stateRecord (s : State) : List Byte :=
  toLe 1 s.fuses.lc ++ toLe 1 s.fuses.svn ++ toLe 1 s.sec.svn ++ toLe 1 (s.sec.slot + 2 * b2n s.sec.fallback) ++
    toLe 4 s.sec.fwNumeric ++ toLe 2 0x0103 ++ toLe 1 s.mgt.modeCur ++ toLe 1 s.mgt.primary ++ toLe 1 s.west.flags ++
    toLe 1 s.east.flags ++ toLe 1 (b2n s.mgt.defaulted + 2 * b2n (s.sec.fwState == 3)) ++ toLe 1 0 ++ toLe 8 s.fuses.serial ++
    toLe 8 0

/-- The SHA-384 of bytes that exist, 48 zero bytes otherwise. -/
def digestOr (bs : List Byte) : List Byte := if bs.isEmpty then List.replicate 48 0#8 else sha384 bs

/-- The content of measurement block `i` (R555). -/
def State.measurementBlock (s : State) (i : Nat) : List Byte :=
  match i with
  | 1 => (List.range 48).map Config.romDigest
  | 2 => digestOr s.sec.fwBytes
  | 3 => if s.sec.fwState = 3 then digestOr ((s.slotImage (1 - s.sec.slot)).getD []) else List.replicate 48 0#8
  | 4 => digestOr s.mgt.planBytes
  | 5 => s.planDigest
  | 6 => s.stateRecord
  | 7 => s.sec.logDigest
  | 8 => s.sec.log.flatten
  | _ => []

/-- The Error response of SPDM 1.2 with a code: 1 InvalidRequest, 3 Busy, 7 UnsupportedRequest (log entry 10). -/
def spdmError (code : Nat) : List Byte := [0x12#8, 0x7F#8, BitVec.ofNat 8 code, 0#8]

/-- Does the island answer at all? Not without power or clock, nor when SCRAPPED or after ISLAND_FAIL. -/
def State.islandAnswers (s : State) : Bool :=
  s.pins.pwrgood && s.boot.halt != .refclk && s.fuses.lc != 3 && !s.sec.islandFail

/-- SPDM_GET_MEASUREMENTS (R555): the block's content; index 0 asks for their number and 255 for all of them. -/
def execSpdmGetMeasurements (index : Nat) (s : State) : Out :=
  .next { s with reply :=
    if !s.islandAnswers then [] else if s.boot.activating then spdmError 3
    else if index = 0 then [8#8]
    else if index = 255 then ((List.range 8).map fun i => s.measurementBlock (i + 1)).flatten
    else if index ≤ 8 then s.measurementBlock index else spdmError 1 }

/-- The response header of SPDM 1.2. -/
def spdmHeader (code p1 : Nat) : List Byte := [0x12#8, BitVec.ofNat 8 code, BitVec.ofNat 8 p1, 0#8]

/-- `n` bytes that the island's key or the SPDM standard determines: free values. -/
def State.spdmFree (s : State) (n : Nat) : List Byte := (List.range n).map (Config.spdmByte s.freeCtr)

/-- The answer to another SPDM request; the identity key is refused in RETURNED (R547), so nothing is signed there. -/
def State.spdmAnswer (s : State) (r : SpdmReq) : State :=
  let refused := s.fuses.lc == 2
  match r with
  | .getVersion => { s with reply := spdmHeader 0x04 0 ++ [0#8, 2#8, 0#8, 0x11#8, 0#8, 0x12#8] }
  | .getCapabilities => { (s.tick1) with reply := spdmHeader 0x61 0 ++ s.spdmFree 16 }
  | .negotiateAlgorithms => { (s.tick1) with reply := spdmHeader 0x63 0 ++ s.spdmFree 32 }
  | .getDigests => { s with reply := spdmHeader 0x01 0 ++ sha384 (Memory.readBytes s.flash 0x2000 4096) }
  | .getCertificate slot ofs len =>
    if slot != 0 || decide (4096 ≤ ofs) then { s with reply := spdmError 1 }
    else { s with reply := spdmHeader 0x02 0 ++ Memory.readBytes s.flash (0x2000 + ofs) (Nat.min len (4096 - ofs)) }
  | .challenge => if refused then { s with reply := spdmError 7 } else { (s.tick1) with reply := spdmHeader 0x03 0 ++ s.spdmFree 224 }
  | .keyExchange =>
    if refused then { s with reply := spdmError 7 }
    else if 15 ≤ s.sec.sessions + s.sec.handshakes then { s with reply := spdmError 0x0A }
    else { (s.tick1) with reply := spdmHeader 0x64 0 ++ s.spdmFree 282, sec := { s.sec with handshakes := s.sec.handshakes + 1 } }
  | .finish =>
    if s.sec.handshakes = 0 then { s with reply := spdmError 1 }
    else { s with reply := spdmHeader 0x65 0
                  sec := { s.sec with handshakes := s.sec.handshakes - 1, sessions := s.sec.sessions + 1 } }
  | .endSession =>
    if s.sec.sessions = 0 then { s with reply := spdmError 1 }
    else { s with reply := spdmHeader 0x6C 0, sec := { s.sec with sessions := s.sec.sessions - 1 } }
  | .other _ => { s with reply := spdmError 7 }

/-- SPDM_REQUEST (R554): the other requests; Busy during an activation. -/
def execSpdmRequest (r : SpdmReq) (s : State) : Out :=
  .next (if !s.islandAnswers then { s with reply := [] }
    else if s.boot.activating then { s with reply := spdmError 3 } else s.spdmAnswer r)

/-! ## SMBus and JTAG (R687 to R689) -/

/-- Are the values coarse for an observer outside every context? -/
def State.coarseTel (s : State) : Bool := s.coarsening || s.sec.scrub.isSome

/-- An SMBus target answers while power is good. -/
def State.smb (s : State) (bs : List Byte) : State := { s with reply := if s.pins.pwrgood then bs else [] }

/-- SMB_STATUS (R687). -/
def execSmbStatus (s : State) : Out :=
  .next (s.smb (toLe 1 (s.dvs + 8 * b2n s.pins.thermtrip + 16 * b2n s.pins.fatal + 32 * s.fuses.lc)))

/-- SMB_TEMP (R687, R543). -/
def execSmbTemp (s : State) : Out :=
  .next (
    let t := hottest s.tel.temps
    s.smb (toLe 1 (if s.coarseTel then t / 5 * 5 else t)))

/-- SMB_POWER (R687, R543). -/
def execSmbPower (s : State) : Out :=
  .next (
    let w := s.tel.device
    s.smb (toLe 2 (if s.coarseTel then (w + 2) / 5 * 5 else w)))

/-- SMB_THROTTLE (R687). -/
def execSmbThrottle (s : State) : Out := .next (s.smb (toLe 1 (Nat.max s.west.level s.east.level)))

/-- SMB_ALERT (R687, R688): the read returns and clears the byte. -/
def execSmbAlert (s : State) : Out :=
  .next (let t := s.smb (toLe 1 s.tel.alert)
    if s.pins.pwrgood then { t with tel := { t.tel with alert := 0 } } else t)

/-- SMB_SERIAL (R687). -/
def execSmbSerial (s : State) : Out := .next (s.smb (toLe 8 s.fuses.serial))

/-- SMB_ALERT_RESPONSE (R688): the device answers with its address while it asserts SMB_ALERT_N. -/
def execSmbAlertResponse (s : State) : Out := .next (s.smb (if s.tel.alert = 0 then [] else [0x5A#8]))

/-- JTAG_INSTRUCTION (R689): where JTAG is locked every instruction but IDCODE acts as BYPASS. -/
def execJtagInstruction (ir : JtagIr) (s : State) : Out :=
  .next (
    let i := if s.jtagOpen then ir else (match ir with | .idcode => .idcode | _ => .bypass)
    { s with tel := { s.tel with jtagIr := i }, reply := if i = .idcode then toLe 4 0xE9601F3D else [] })

/-! ## GLB, CKP, RAS, DMP -/

/-- Does a host write of 1 clear the RW1C bit of the register (R10)? Not in the nc in which the device has set it. -/
def State.clears (s : State) (ofs : Nat) : Bool := Map.find s.glb.setAt ofs != some (s.boot.edges / 8)

/-- A write of GLB_LOCK (R655, R658). -/
def State.writeGlbLock (s : State) (v : W32) : State :=
  { s with glb := { s.glb with lock := s.glb.lock || bit v.toNat 1, denied := s.glb.denied && !(bit v.toNat 2 && s.clears 0x28) } }

/-- GLB_LOCK_WRITE (R655). -/
def execGlbLockWrite (v : W32) (s : State) : Out := .next (s.barWrite32 0x28 v fun s => s.writeGlbLock v)

/-- A write of CKP_THR (R599, R626): the host's request. -/
def State.writeCkpThr (s : State) (v : W32) : State :=
  ({ s with pwr := { s.pwr with hostReq := bits v.toNat 11 8 } }).redecide

/-- CKP_THR_REQ_WRITE (R599). -/
def execCkpThrReqWrite (v : W32) (s : State) : Out := .next (s.barWrite32 0x20004 v fun s => s.writeCkpThr v)

/-- A write of RAS_RETIRE_CMD (R639): a unit that a threshold retired returns at the next sparing point. -/
def State.writeRetire (s : State) (v : W32) : State :=
  let kind := b2n (bit v.toNat 10)
  let unit := bits v.toNat 9 0
  let m : Mark := ⟨kind, unit, 0x03⟩
  if bit v.toNat 11 && (s.ras.retired.any fun r => r.kind == kind && r.unit == unit && r.cause == 0x03) &&
      !s.ras.restore.contains m then
    { s with ras := { s.ras with restore := s.ras.restore ++ [m] } }
  else s

/-- RAS_RETIRE_CMD (R639). -/
def execRasRetireCmd (v : W32) (s : State) : Out := .next (s.barWrite32 0x12004C v fun s => s.writeRetire v)

/-- A write of DMP_CTRL (R640): ARM, and with GO a manual dump. -/
def State.writeDmpCtrl (s : State) (v : W32) : State :=
  let s := { s with dmp := { s.dmp with arm := bit v.toNat 0 } }
  if bit v.toNat 1 then s.startDump ⟨1, 0, 0, 0, 0, 2 ^ 64 - 1⟩ else s

/-- DMP_GO (R640). -/
def execDmpGo (v : W32) (s : State) : Out := .next (s.barWrite32 0x14000C v fun s => s.writeDmpCtrl v)

end Sys2Proof.Machine
end

