-- ==== Sys2Proof/Machine/OpsLink.lean ====
section
/-!
DEFINITION. The Rhizome links: flits, sequence spaces, credits, messages and keys (R488 to R521).
-/
namespace Sys2Proof.Machine

/-! ## Flits (R491 to R493) -/

/-- A flit's header and payload with its CRC. -/
def mkFlit (type vc : Nat) (fl : Nat) (seq ackN ackU dest : Nat) (payload : List Byte) : List Byte :=
  let h := type + 16 * vc + 64 * (fl % 4) + 2 ^ 8 * seq + 2 ^ 20 * ackN + 2 ^ 32 * ackU + 2 ^ 40 * dest
  let b := toLe 8 h ++ bytesAt payload 0 116
  b ++ toLe 4 (crc32 b)

/-- The fields of a flit's header. -/
structure FlitHead where
  type : Nat
  vc : Nat
  fl : Nat
  seq : Nat
  ackN : Nat
  ackU : Nat
  dest : Nat
  deriving DecidableEq, Repr

/-- The header of a flit. -/
def flitHead (m : List Byte) : FlitHead :=
  let h := leAt m 0 8
  ⟨bits h 3 0, bits h 5 4, bits h 7 6, bits h 19 8, bits h 31 20, bits h 39 32, bits h 51 40⟩

/-- The payload of a flit. -/
def flitPayload (m : List Byte) : List Byte := bytesAt m 8 116

/-- Does the flit use the urgent space (R492)? -/
def FlitHead.urgent (h : FlitHead) : Bool := h.type == 2 || h.type == 5 || (h.type == 1 && h.vc == 0)

/-- Does a flit pass its CRC, with a TYPE of R492 and no reserved bit set? -/
def flitOk (m : List Byte) : Bool :=
  let h := flitHead m
  m.length == 128 && crc32 (m.take 124) == leAt m 124 4 && decide (h.type ≤ 5) && bits (leAt m 0 8) 63 52 == 0 &&
    (!h.urgent || decide (h.seq < 256)) && (h.type == 1 || h.dest == 0)

/-! ## Sending (R494, R500, R501) -/

/-- An unsequenced flit put on the line. -/
def Port.emit (x : Port) (type : Nat) (payload : List Byte) : Port :=
  { x with line := x.line ++ [mkFlit type 0 0 0 x.expectN x.expectU 0 payload] }

/-- A queue class: 0 to 3 DATA of a virtual channel, 4 CREDIT, 5 KEY. Does it use the urgent space? -/
def classUrgent (c : Nat) : Bool := c == 0 || c == 4 || c == 5

/-- May the first flit of a class leave: the port is in the job, its replay buffer has room, and DATA has a credit? -/
def Port.canSend (x : Port) (c : Nat) : Bool :=
  (if c = 4 ∨ c = 5 then x.st == 3 || x.st == 4 else x.st == 4) &&
    (if classUrgent c then decide (x.heldU.length < 64) else decide (x.heldN.length < 1024)) &&
    (decide (3 < c) || decide (0 < x.credits.getD c 0)) && x.queue.any fun q => q.1 == c

/-- The first queued entry of a class removed. -/
def takeFirst (c : Nat) : List (Nat × List Byte) → Option (List Byte) × List (Nat × List Byte)
  | [] => (none, [])
  | q :: qs => if q.1 = c then (some q.2, qs) else let r := takeFirst c qs; (r.1, q :: r.2)

/-- The first flit of a class leaves: it takes the next SEQ of its space and stays in the replay buffer. A queued entry is FIRST and
LAST (1), DEST (2) and the payload. -/
def Port.sendClass (x : Port) (c : Nat) : Port :=
  match takeFirst c x.queue with
  | (some b, rest) =>
    let type := if c = 4 then 2 else if c = 5 then 5 else 1
    let u := classUrgent c
    let seq := if u then x.nextU else x.nextN
    let f := mkFlit type (if c < 4 then c else 0) (leAt b 0 1) seq x.expectN x.expectU (leAt b 1 2) (b.drop 3)
    { x with
      queue := rest, line := x.line ++ [f]
      nextU := if u then (seq + 1) % 256 else x.nextU
      nextN := if u then x.nextN else (seq + 1) % 4096
      heldU := if u then x.heldU ++ [(seq, f)] else x.heldU
      heldN := if u then x.heldN else x.heldN ++ [(seq, f)]
      credits := if c < 4 then x.credits.set c (x.credits.getD c 0 - 1) else x.credits
      txFlits := if c < 4 then (x.txFlits + 1) % 2 ^ 64 else x.txFlits }
  | (none, _) => x

/-- The class that leaves next (R501): urgent flits, VC3, then VC1 and VC2 by weighted round robin. -/
def Port.pick (x : Port) (w1 w2 : Nat) : Option Nat :=
  match [4, 5, 0, 3].find? x.canSend with
  | some c => some c
  | none =>
    let one := decide (x.wrr % (w1 + w2) < w1)
    let a := if one then 1 else 2
    let b := if one then 2 else 1
    if x.canSend a then some a else if x.canSend b then some b else none

/-- Queued flits leave while any may. -/
def Port.drainFuel (w1 w2 : Nat) : Nat → Port → Port
  | 0, x => x
  | n + 1, x =>
    match x.pick w1 w2 with
    | none => x
    | some c =>
      let y := x.sendClass c
      Port.drainFuel w1 w2 n (if c = 1 ∨ c = 2 then { y with wrr := (y.wrr + 1) % (w1 + w2) } else y)

/-- A weight of RZL_ARB: 0 acts as 1. -/
def arbWeight (w : Nat) : Nat := if w = 0 then 1 else w

/-- What port p may send leaves; during a scrub every port sends IDLE flits only (R520). -/
def State.drainPort (s : State) (p : Nat) : State :=
  if s.sec.scrub.isSome then s else
  let x := s.port p
  s.setPort p (Port.drainFuel (arbWeight s.rz.w1) (arbWeight s.rz.w2) x.queue.length x)

/-- An entry queued at port p, and what may leave leaves. -/
def State.queueFlit (s : State) (p c : Nat) (fl dest : Nat) (payload : List Byte) : State :=
  let x := s.port p
  (s.setPort p { x with queue := x.queue ++ [(c, toLe 1 fl ++ toLe 2 dest ++ payload)] }).drainPort p

/-! ## The job of a port, routes and failures (R504 to R506, R521) -/

/-- The context whose job the port serves. -/
def State.portCtx (s : State) (p : Nat) : Nat := s.ownerOf (p / 8)

/-- The ports that a job on a mask of halves uses. -/
def portsOf (mask : Nat) : List Nat := (List.range 16).filter fun p => bit mask (p / 8)

/-- A job's policy under R516: true for clear frames. -/
def State.clearLinks (s : State) (c : Nat) : Bool := match s.job c with | some j => j.params.clearLinks | none => false

/-- LINK_FAILED (R521). -/
def State.postFailed (s : State) (p prior reason : Nat) : State :=
  let c := s.portCtx p
  s.postWith (if prior == 3 || prior == 4 || prior == 5 then c else 0) (0x400 + p) 0x0B03 0x0A02 (toLe 1 p ++ toLe 1 prior ++ toLe 1 reason)
    (s.replaying c)

/-- A port fails; one that was in a job ends it with LINK_DOWN (R521). -/
def State.failPort (s : State) (p reason : Nat) : State :=
  let x := s.port p
  let s := (s.setPort p { x with st := 6, queue := [], linkKey := none }).postFailed p x.st reason
  if x.st = 4 ∨ x.st = 5 then s.jobFatal (s.portCtx p) (0x400 + p) 0x16 0x0A02 0 reason else s

/-- LINK_AUTH_FAIL (R519, R521): step 1 chain, 2 ECDH, 3 unwrapping of the secret. -/
def State.authFail (s : State) (p step : Nat) : State :=
  let x := s.port p
  let c := s.portCtx p
  let s := s.setPort p { x with st := 6, queue := [], linkKey := none }
  let s := s.postWith c (0x400 + p) 0x0B05 0x0805 (toLe 1 p ++ toLe 1 step) (s.replaying c)
  if x.st = 4 ∨ x.st = 5 then s.jobFatal c (0x400 + p) 0x16 0x0A02 0 3 else s

/-- The half whose route table context c's job uses (R504). -/
def State.routeHalf (s : State) (c : Nat) : Nat := if s.split then maskHalf (s.halvesOf c) else 0

/-- The output port for a rank under the job's snapshot, none on a route miss (R506). -/
def State.route (s : State) (c dest : Nat) : Option Nat :=
  match s.link c with
  | none => none
  | some l =>
    let e := Map.get 0 l.routes (s.routeHalf c * 4096 + dest)
    let p := e % 16
    if bit e 4 && !bit e 5 && (!s.split || bit (s.halvesOf c) (p / 8)) && ((s.port p).st == 4 || (s.port p).st == 5) then some p else none

/-- A route miss (R506): counted, posted, and the job ends with LINK_DOWN. -/
def State.missRoute (s : State) (c dest inPort vc : Nat) : State :=
  let src := if inPort = 0xFF then s.schedulerSource c else 0x400 + inPort
  let s := { s with rz := { s.rz with routeMiss := s.rz.routeMiss + 1 } }
  (s.postWith c src 0x0B06 0x0A02 (toLe 2 dest ++ toLe 1 inPort ++ toLe 1 vc) (s.replaying c)).jobFatal c src 0x16 0x0A02 0 dest

/-! ## Messages (R509 to R511) -/

/-- The secure header of a part (R509). -/
def secureHeader (kind mode src dest len ofs mseq objLen : Nat) : List Byte :=
  toLe 1 kind ++ toLe 1 mode ++ toLe 2 src ++ toLe 2 dest ++ toLe 2 0 ++ toLe 4 len ++ toLe 4 ofs ++ toLe 8 mseq ++ toLe 4 objLen ++ toLe 4 0

/-- The bytes of one part of an object: clear, or under the traffic key (R511). -/
def frameBytes (key : Option (List Byte)) (kind src dest ofs mseq objLen : Nat) (body : List Byte) : List Byte :=
  match key with
  | none => secureHeader kind 0 src dest body.length ofs mseq objLen ++ body
  | some k =>
    let h := secureHeader kind 1 src dest body.length ofs mseq objLen
    let r := gcmSeal k (toLe 2 src ++ toLe 2 0 ++ toLe 8 mseq) h body
    h ++ r.1 ++ r.2

/-- A part's flits queued at port p. -/
def State.queuePart (s : State) (p vc dest : Nat) (bs : List Byte) : State :=
  let fs := chunks 116 bs
  fs.zipIdx.foldl (fun (s : State) f =>
    s.queueFlit p vc (b2n (f.2 == 0) + 2 * b2n (f.2 + 1 == fs.length)) dest f.1) s

/-- One object sent to one rank, in parts of at most 65,536 bytes with rising MSEQ (R510). -/
def State.sendObject (s : State) (m : OutMsg) (dest : Nat) : State :=
  match s.job m.ctx, s.route m.ctx dest with
  | some j, some p =>
    (chunks 65536 m.body).zipIdx.foldl (fun (s : State) e =>
      match s.link m.ctx with
      | none => s
      | some l =>
        let bs := frameBytes (if j.params.clearLinks then none else l.key) m.kind j.params.rank dest (65536 * e.2) l.mseq m.body.length e.1
        { s with links := Map.put s.links m.ctx { l with mseq := l.mseq + 1 } }.queuePart p m.vc dest bs) s
  | some _, none => s.missRoute m.ctx dest 0xFF m.vc
  | none, _ => s

/-- The ranks that a message goes to. -/
def State.destsOf (s : State) (m : OutMsg) : List Nat :=
  if m.dest = 0xFFFF then
    match s.job m.ctx with
    | some j => (List.range j.params.devices).filter (· != j.params.rank)
    | none => []
  else [m.dest]

/-- Until the device holds the traffic key it holds every outgoing message (R515). -/
def State.mayTalk (s : State) (c : Nat) : Bool :=
  match s.link c with
  | some l => s.clearLinks c || l.key.isSome
  | none => false

/-- The messages that may leave do (R509 to R515); those of a job whose links are gone are dropped. -/
def State.pump (s : State) : State :=
  let go := s.outbox.filter fun m => s.mayTalk m.ctx
  if go.isEmpty || s.sec.scrub.isSome then s else
  let s := { s with outbox := s.outbox.filter fun m => !s.mayTalk m.ctx }
  go.foldl (fun (s : State) m => (s.destsOf m).foldl (fun (s : State) d => s.sendObject m d) s) s

/-! ## Training and keys (R513 to R517) -/

/-- The device's certificate chain in flash; its first two bytes give its length (R546). -/
def State.ownChain (s : State) : List Byte :=
  Memory.readBytes s.flash 0x2000 (Nat.min 4096 (leAt (Memory.readBytes s.flash 0x2000 2) 0 2))

/-- The protocol versions that the device offers, a mask (R514). -/
def State.versions (s : State) : Nat := if s.rz.maxVersion = 1 then 1 else 3

/-- JOB_TAG (R517): bytes 0 to 7 of the SHA-384 of the job seed, CLEAR_LINKS and "KVRZ". -/
def jobTag (seed : W128) (clear : Bool) : Nat :=
  leAt (sha384 (toLe 16 seed.toNat ++ toLe 1 (b2n clear) ++ [0x4B#8, 0x56#8, 0x52#8, 0x5A#8])) 0 8

/-- The TRAIN payload of port p (R514). -/
def State.trainPayload (s : State) (p : Nat) : List Byte :=
  let c := s.portCtx p
  let job := match s.job c, s.link c with
    | some j, some l => toLe 8 l.tag ++ toLe 2 j.params.rank
    | _, _ => toLe 8 0 ++ toLe 2 0xFFFF
  toLe 1 s.versions ++ toLe 1 p ++ toLe 2 0 ++ toLe 8 s.fuses.serial ++ bytesAt (s.port p).nonce 0 32 ++ job ++ toLe 2 0 ++
    sha384 s.ownChain ++ List.replicate 12 0#8

/-- Port p sends TRAIN once it has its nonce. -/
def State.sendTrain (s : State) (p : Nat) : State :=
  let x := s.port p
  if x.nonce.isEmpty || s.sec.scrub.isSome then s else s.setPort p (x.emit 4 (s.trainPayload p))

/-- The DRBG's nonce for port p has come. -/
def State.gotNonce (s : State) (p : Nat) (bs : List Byte) : State :=
  let x := s.port p
  if x.st = 1 then (s.setPort p { x with nonce := bs }).sendTrain p else s

/-- "KV-RZ-LINK". -/
def linkLabel : List Byte := [0x4B#8, 0x56#8, 0x2D#8, 0x52#8, 0x5A#8, 0x2D#8, 0x4C#8, 0x49#8, 0x4E#8, 0x4B#8]
/-- "KV-RZ-TRAFFIC". -/
def trafficLabel : List Byte :=
  [0x4B#8, 0x56#8, 0x2D#8, 0x52#8, 0x5A#8, 0x2D#8, 0x54#8, 0x52#8, 0x41#8, 0x46#8, 0x46#8, 0x49#8, 0x43#8]

/-- The traffic key of a job secret and a regrow number (R515). -/
def trafficKey (secret : List Byte) (regrowNo : Nat) : List Byte :=
  hkdf32 secret (List.replicate 48 0#8) (trafficLabel ++ toLe 3 regrowNo)

/-- REGROW_NO of the regrow whose links and keys the job uses (R515). -/
def Job.linkNo (j : Job) : Nat := match j.regrow with | some r => r.number | none => j.regrowNo

/-- The two nonces, the lower one first in byte order. -/
def nonceSalt (a b : List Byte) : List Byte := if ofBe a ≤ ofBe b then a ++ b else b ++ a

/-- The chain's fragments queued at port p as KEY flits (R511). -/
def State.sendChain (s : State) (p : Nat) : State :=
  (chunks 112 s.ownChain).zipIdx.foldl (fun (s : State) f =>
    s.queueFlit p 5 0 0 (toLe 1 1 ++ toLe 1 f.2 ++ toLe 2 f.1.length ++ bytesAt f.1 0 112)) s

/-- An IV for the wrapped secret on port p is asked of the DRBG (R511, R515). -/
def State.askIv (s : State) (p : Nat) : State := s.askRandom ⟨.secretIv p, 1, 12, none, false, []⟩

/-- The wrapped job secret sent on port p (R511, R515). -/
def State.sendSecret (s : State) (p : Nat) (iv : List Byte) : State :=
  let c := s.portCtx p
  match s.job c, s.link c, (s.port p).linkKey with
  | some j, some l, some k =>
    match l.secret with
    | some sec =>
      let head := toLe 1 2 ++ toLe 3 j.linkNo
      let r := gcmSeal k iv head sec
      s.queueFlit p 5 0 0 (head ++ iv ++ r.1 ++ r.2 ++ List.replicate 36 0#8)
    | none => s
  | _, _, _ => s

/-- Context c's job holds its secret: the traffic key is derived, and the secret goes to every other ACTIVE port (R515). -/
def State.gotSecret (s : State) (c from_ : Nat) (secret : List Byte) : State :=
  match s.job c, s.link c with
  | some j, some l =>
    let s := { s with links := Map.put s.links c { l with secret := some secret, key := some (trafficKey secret j.linkNo) } }
    (portsOf (s.halvesOf c)).foldl (fun (s : State) p =>
      if (s.port p).st = 4 ∧ p ≠ from_ then s.askIv p else s) s
  | _, _ => s

/-- A port that has its link key becomes ACTIVE; it receives the job secret where the device holds it. -/
def State.activatePort (s : State) (p : Nat) : State :=
  let c := s.portCtx p
  let s := s.setPort p { s.port p with st := 4 }
  match s.link c with
  | some l => if l.secret.isSome && !s.clearLinks c then s.askIv p else s
  | none => s

/-- LINK_POLICY (R516): version 1 in a job with end-to-end encryption. -/
def State.policyFail (s : State) (p : Nat) : State :=
  let x := s.port p
  let c := s.portCtx p
  let s := s.setPort p { x with st := 6, queue := [] }
  (s.postWith c (0x400 + p) 0x0B04 0x0807 (toLe 1 p ++ toLe 2 x.peerRank) (s.replaying c)).endJob c 0x0807

/-- A port that is UP joins the job whose tag its peer named (R516, R517, R519). -/
def State.tryJoin (s : State) (p : Nat) : State :=
  let c := s.portCtx p
  let x := s.port p
  match s.job c, s.link c with
  | some j, some l =>
    if x.st != 2 || !j.isOpen || x.peerTag != l.tag || x.peerTag == 0 then s
    else if j.params.clearLinks then (s.setPort p { x with enc := false }).activatePort p
    else if x.version = 1 then s.policyFail p
    else (s.setPort p { x with st := 3, enc := true, frags := [], chainOk := false }).sendChain p
  | _, _ => s

/-- The port's counters restart when a job opens on its half (R523). -/
def Port.fresh (x : Port) : Port :=
  { x with fec := 0, crcErr := 0, uncorr := 0, replays := 0, recoveries := 0, trainings := 0, txFlits := 0, rxFlits := 0 }

/-- The links of a job that opens or reaches stage LINKS: the routes are copied, rank 0 draws the job secret, every trained port sends TRAIN
again and may join (R504, R514, R515). -/
def State.openLinks (s : State) (c : Nat) : State :=
  match s.job c with
  | none => s
  | some j =>
    let l : JobLink := { routes := s.rz.routes, secret := none, key := none, mseq := 0, tag := jobTag j.seed j.params.clearLinks }
    let s := { s with links := Map.put s.links c l }
    let ps := portsOf j.halves
    let s := ps.foldl (fun (s : State) p =>
      let s := s.setPort p (s.port p).fresh
      if (s.port p).st = 2 then (s.sendTrain p).tryJoin p else s) s
    if j.params.rank = 0 ∧ j.params.clearLinks = false then s.askRandom ⟨.jobSecret c, 1, 48, none, false, []⟩ else s

/-- The links of a job that is closed or discarded (R515, R519): its ports return to UP, its keys are gone. -/
def State.closeLinks (s : State) (c : Nat) (halves : Nat) : State :=
  let s := { s with links := Map.del s.links c, outbox := s.outbox.filter fun m => m.ctx != c
                    ens := { s.ens with queue := s.ens.queue.filter fun r => r.who != .jobSecret c } }
  (portsOf halves).foldl (fun (s : State) p =>
    let x := s.port p
    if x.st = 3 ∨ x.st = 4 ∨ x.st = 5 then
      s.setPort p { x with st := 2, enc := false, linkKey := none, queue := [], frags := [], chainOk := false }
    else s) s

end Sys2Proof.Machine
end

