-- ==== Sys2Proof/Machine/OpsTray.lean ====
section
/-!
DEFINITION. The seed tray: chunks, KV pages, descriptors, and the release of a stream (R195 to R199, R229 to R244, R315, R418).
-/
namespace Sys2Proof.Machine

/-! ## Pools (R231, R418) -/

/-- The lowest number that a list does not hold. -/
def lowestGap (used : List Nat) : Nat := ((List.range (used.length + 1)).find? fun c => !used.contains c).getD 0

/-- A number noted once. -/
def noteOnce (xs : List Nat) (x : Nat) : List Nat := if xs.contains x then xs else xs ++ [x]

/-- Entries of a chunk (R231). -/
def chunkEntries : Nat := 1022

/-- Chunks that hold the list positions from `lo` below `hi`; a position p stands at entry p mod 1,022 (log entry 24). -/
def chunksFor (lo hi : Nat) : Nat := if hi ≤ lo then 0 else (hi - 1) / chunkEntries - lo / chunkEntries + 1

/-- The DPA of chunk i. -/
def Job.chunkDpa (j : Job) (i : Nat) : Nat := j.params.chunkBase + 4096 * i

/-- One free chunk taken, in ascending DPA order. -/
def Job.takeChunk (j : Job) : Nat × Job :=
  let c := lowestGap (j.chunks.map (·.1) ++ j.chunkRel.map (·.1))
  (c, { j with chunks := Map.put j.chunks c 1, dirtyChunkW := noteOnce j.dirtyChunkW (c / 64) })

/-- `n` free chunks taken. -/
def Job.takeChunks : Nat → Job → List Nat × Job
  | 0, j => ([], j)
  | n + 1, j =>
    let a := j.takeChunk
    let b := Job.takeChunks n a.2
    (a.1 :: b.1, b.2)

/-- Chunks released; they are free once a cutting that records it has been flushed (R418). -/
def Job.releaseChunks (j : Job) (cs : List Nat) : Job :=
  { j with chunks := Map.erase j.chunks cs.contains, chunkRel := j.chunkRel ++ cs.map (fun c => (c, j.nextCut))
           dirtyChunkW := cs.foldl (fun d c => noteOnce d (c / 64)) j.dirtyChunkW }

/-- Page record of page p. -/
def Job.page (j : Job) (p : Nat) : PageRec := Map.get PageRec.free j.pages p

/-- The page record changed, and noted for the next cutting. -/
def Job.setPage (j : Job) (p : Nat) (r : PageRec) : Job :=
  { j with pages := Map.set PageRec.free j.pages p r, dirtyPages := noteOnce j.dirtyPages p }

/-- One free page taken: OPEN, with one sharer. -/
def Job.takePage (j : Job) : Nat × Job :=
  let first := j.params.pageFirst
  let used := (j.pages.filter fun kv => kv.2.st != 0).map (fun kv => kv.1 - first) ++ j.pageRel.map fun r => r.1 - first
  let k := lowestGap used
  let p := first + k
  let j := j.setPage p { j.page p with st := 1, mirrored := false, validated := false, refs := 1, tag := 0#128 }
  (p, { j with dirtyPageW := noteOnce j.dirtyPageW (k / 64) })

/-- `n` free pages taken. -/
def Job.takePages : Nat → Job → List Nat × Job
  | 0, j => ([], j)
  | n + 1, j =>
    let a := j.takePage
    let b := Job.takePages n a.2
    (a.1 :: b.1, b.2)

/-- One sharer of a page less (R244): the page is free when none remains. -/
def Job.unrefPage (j : Job) (p : Nat) : Job :=
  let r := j.page p
  if r.refs ≤ 1 then
    let j := j.setPage p { r with st := 0, mirrored := false, validated := false, refs := 0, tag := 0#128 }
    { j with pageRel := j.pageRel ++ [(p, j.nextCut)], dirtyPageW := noteOnce j.dirtyPageW ((p - j.params.pageFirst) / 64) }
  else j.setPage p { r with refs := r.refs - 1 }

/-! ## Entries -/

/-- The entry of stream i. -/
def Job.stream (j : Job) (i : Nat) : Stream := Map.get Stream.free j.tray i

/-- The entry changed, noted for the next cutting, and brought into the cache (R257, R258). -/
def Job.setStream (j : Job) (i : Nat) (t : Stream) : Job :=
  { j with tray := Map.set Stream.free j.tray i t, dirty := noteOnce j.dirty i
           resident := noteOnce j.resident i, fills := if j.resident.contains i then j.fills else (j.fills + 1) % 2 ^ 64 }

/-- SFLAGS or CFLAGS (R232, R315). -/
def Stream.flags (t : Stream) : Nat :=
  if t.kind = 3 then b2n t.clampUnits + 2 * b2n t.mirror + 8 * b2n t.seedDev + 16 * b2n t.seedWait
  else b2n t.pin + 2 * b2n t.hold + 4 * b2n t.forcedNote + 8 * b2n t.seedDev + 16 * b2n t.seedWait

/-- The DPA of the first chunk of a list, 0 for an empty one. -/
def Job.listPtr (j : Job) (cs : List Nat) : Nat := match cs with | [] => 0 | c :: _ => j.chunkDpa c

/-- The 128 bytes of a descriptor (R232, R315). -/
def Job.descBytes (j : Job) (t : Stream) : List Byte :=
  let mid := if t.kind = 3 then
      toLe 8 t.sweep ++ toLe 2 t.model ++ toLe 2 t.clampLayers ++ toLe 4 t.temp.toNat ++ toLe 2 t.flags ++ toLe 2 0 ++
        toLe 4 t.runs ++ toLe 8 t.clampPtr ++ toLe 4 0
    else
      toLe 4 t.pos ++ toLe 4 t.pending.length ++ toLe 4 t.maxLen ++ toLe 4 t.scoreFrom ++ toLe 2 t.flags ++ toLe 2 t.epoch ++
        toLe 2 t.stopSet ++ toLe 2 t.parkSet ++ toLe 4 t.temp.toNat ++ toLe 4 t.topP.toNat ++ toLe 2 t.topK ++
        toLe 1 t.masks.length ++ toLe 1 0
  toLe 1 t.kind ++ toLe 1 t.st ++ toLe 2 t.gen ++ toLe 4 t.parent ++ toLe 8 t.seed.toNat ++ mid ++ toLe 4 t.fault ++
    toLe 8 (if t.pending.isEmpty then 0 else j.listPtr t.pendChunks) ++ toLe 8 (j.listPtr t.pageChunks) ++ toLe 4 t.pages.length ++
    toLe 4 0 ++ toLe 8 t.readyStep ++ toLe 8 t.user.toNat ++
    (if t.kind = 3 then toLe 8 t.samples ++ List.replicate 24 0#8 else List.replicate 32 0#8)

/-- The 32 bytes of a page record (R199). -/
def PageRec.bytes (r : PageRec) (p : Nat) : List Byte :=
  toLe 4 p ++ toLe 1 r.st ++ toLe 1 (b2n r.mirrored + 2 * b2n r.validated) ++ toLe 2 0 ++ toLe 4 r.sealSeq ++ toLe 4 r.refs ++
    toLe 16 r.tag.toNat

/-! ## Lists in LPDDR5X (R231) -/

/-- The chunks of a list name their successors. -/
def State.linkChunks (s : State) (j : Job) : List Nat → State
  | [] => s
  | [c] => s.lpxWrite (j.chunkDpa c) 1 (toLe 8 0)
  | c :: d :: cs => State.linkChunks (s.lpxWrite (j.chunkDpa c) 1 (toLe 8 (j.chunkDpa d))) j (d :: cs)

/-- List entries written: `base` is the position of the first chunk's first entry, `p` that of the first value. -/
def State.putEntries (s : State) (j : Job) (cs : List Nat) (base : Nat) : Nat → List Nat → State
  | _, [] => s
  | p, v :: vs =>
    let k := (p - base) / chunkEntries
    State.putEntries (s.lpxWrite (j.chunkDpa (cs.getD k 0) + 8 + 4 * (p % chunkEntries)) 1 (toLe 4 v)) j cs base (p + 1) vs

/-- The position of the first entry of a list's first chunk. -/
def chunkBaseOf (lo : Nat) : Nat := lo / chunkEntries * chunkEntries

/-- A pending-token list's new tail written, from position `p`. -/
def State.writePending (s : State) (j : Job) (t : Stream) (p : Nat) (toks : List Nat) : State :=
  (s.linkChunks j t.pendChunks).putEntries j t.pendChunks (chunkBaseOf t.pos) p toks

/-- A page list's new tail written, from entry `k`. -/
def State.writePages (s : State) (j : Job) (t : Stream) (k : Nat) : State :=
  (s.linkChunks j t.pageChunks).putEntries j t.pageChunks 0 k (t.pages.drop k)

/-- The mask entries of stream i written (R234). -/
def State.writeMasks (s : State) (j : Job) (i : Nat) (masks : List W32) : State :=
  if masks.isEmpty then s
  else s.lpxWrite (j.params.maskBase + 256 * i) 1 ((masks.map fun m => toLe 4 m.toNat).flatten)

/-! ## Changes of a stream -/

/-- The pages and chunks of a stream go back, and the entry becomes FREE; GEN stays (R241, R244). -/
def Job.freeStream (j : Job) (i : Nat) : Job :=
  let t := j.stream i
  let j := t.pages.foldl Job.unrefPage j
  let j := j.releaseChunks (t.pendChunks ++ t.pageChunks)
  j.setStream i { Stream.free with gen := t.gen }

/-- The stream enters READY (R241, R253): READY_STEP is the current step number; what waited for it needs the next cutting. -/
def Job.noteReady (j : Job) (i : Nat) : Job :=
  { j with deferred := j.deferred.map fun d =>
      if d.waits.contains i then
        let w := d.waits.filter (· != i)
        { d with waits := w, need := if w.isEmpty then some j.nextCut else d.need }
      else d }

/-- A stream moved to READY. -/
def Job.makeReady (j : Job) (i : Nat) : Job :=
  (j.setStream i { j.stream i with st := 2, readyStep := j.stepNext, fetched := false }).noteReady i

/-- PROMPT entries whose fetch is complete become READY at the boundary (R237, R316). -/
def Job.promptsReady (j : Job) : Job :=
  (j.tray.filter fun kv => kv.2.st == 1 && kv.2.fetched).foldl (fun (j : Job) kv => j.makeReady kv.1) j

/-- The object seed of an entry is fixed: it leaves FREE for PROMPT, or for READY as a fork's child (R239). -/
def Job.seedFixed (j : Job) (i : Nat) : Job :=
  let t := j.stream i
  let j := j.setStream i { t with seedWait := false }
  if t.kind != 3 && t.parent != 0xFFFFFFFF then j.makeReady i else j.setStream i { j.stream i with st := 1 }

/-! ## Random-service requests of a job (R577, R583) -/

/-- Does a new request find the queue full (R583)? -/
def State.randFull (s : State) (kind : Nat) : Bool :=
  decide (64 ≤ s.earlyHeld) && (!s.ens.ready || (kind == 1 && s.drb.st == 0))

/-- An object seed is asked for. -/
def State.askSeed (s : State) (c i : Nat) : State := s.askRandom ⟨.objectSeed c i, 0, 8, none, false, []⟩

/-- An object-seed request cancelled (R239). -/
def State.cancelSeed (s : State) (c i : Nat) : State :=
  { s with ens := { s.ens with queue := s.ens.queue.filter fun r => r.who != .objectSeed c i } }

/-! ## Sealing (R196) -/

/-- The half that a job's keys name: 0 in joined mode. -/
def Job.half (j : Job) : Nat := if j.split then maskHalf j.halves else 0

/-- The sealing key of context c's job (R544). -/
def State.jobKey (s : State) (c : Nat) (j : Job) (label : List Byte) : List Byte :=
  hkdf32 (s.ctx c).secret (toLe 16 j.seed.toNat) (label ++ toLe 2 j.params.rank ++ toLe 1 j.half)

/-- "KV-SEAL". -/
def sealLabel : List Byte := [0x4B#8, 0x56#8, 0x2D#8, 0x53#8, 0x45#8, 0x41#8, 0x4C#8]
/-- "KV-CUT". -/
def cutLabel : List Byte := [0x4B#8, 0x56#8, 0x2D#8, 0x43#8, 0x55#8, 0x54#8]

/-- The tag of page p with a SEAL_SEQ, over `bytes`. -/
def State.pageTag (s : State) (c : Nat) (j : Job) (p seq : Nat) (bytes : List Byte) : W128 :=
  let pn := toLe 4 p ++ toLe 4 seq
  BitVec.ofNat 128 (ofLe (gmac (s.jobKey c j sealLabel) (pn ++ toLe 4 0) (bytes ++ pn ++ toLe 8 0)))

/-- A page sealed: SEAL_SEQ rises, the tag is computed, the page is to be mirrored (R196, R425). -/
def State.sealPage (s : State) (c p : Nat) : State :=
  match s.job c with
  | none => s
  | some j =>
    let r := j.page p
    let seq := r.sealSeq + 1
    let data := s.lpxRead (p * 0x40000) 0x40000
    let tag := s.pageTag c j p seq data
    let j := j.setPage p { r with st := 2, sealSeq := seq, mirrored := false, validated := false, tag := tag }
    let j := { j with sealedCount := j.sealedCount + 1
                      mirror := if j.params.buddy = 0xFFFF then j.mirror else j.mirror ++ [⟨1, p - j.params.pageFirst, 64, j.nextCut⟩] }
    let s := s.setJob c j
    if j.params.buddy = 0xFFFF then s else s.sendMsg c 0x10 2 j.params.buddy (toLe 4 (p - j.params.pageFirst) ++ data)

end Sys2Proof.Machine
end

