-- ==== Sys2Proof/Machine/OpsJob.lean ====
section
/-!
DEFINITION. Opening a job (R207, R230, R411, R423, R424, R469, R470, R602, R622).
-/
namespace Sys2Proof.Machine

/-! ## The job parameter block (R469, R470) -/

/-- A shard-slot entry: slice range and bytes. -/
def parseSlotEntry (bs : List Byte) (k : Nat) : ShardSlot :=
  ⟨leAt bs (256 + 16 * k) 2, leAt bs (258 + 16 * k) 2, leAt bs (264 + 16 * k) 8⟩

/-- The parameters of a block; its shard-slot entries follow the 256 bytes. -/
def parseJobParams (b : List Byte) : JobParams :=
  let f := fun o n => leAt b o n
  { seedDev := bit (f 6 2) 0, clearLinks := bit (f 6 2) 1, regrowTarget := bit (f 6 2) 2, rank := f 8 2, devices := f 10 2
    buddy := f 14 2, trayBase := f 32 8, maskBase := f 40 8, chunkBase := f 48 8, chunkCount := f 56 4, posPerPage := f 60 4
    pageFirst := f 64 4, pageCount := f 68 4, batchMax := f 72 4, ingestChunk := f 76 4, ingestBudget := f 80 4
    cutEvery := if f 84 4 = 0 then 1 else f 84 4, cutHost := f 88 8, cutSlotSize := f 96 8, kernelArea := f 104 8
    kernelAreaSize := f 112 8, partner := f 120 2, bedMirror := f 122 1 == 1, mirrorBase := f 128 8, mirrorSize := f 136 8
    bedABase := f 144 8, bedASize := f 152 8, bedBBase := f 160 8, bedBSize := f 168 8, pagedirBase := f 176 8
    mapBase := f 184 8, gibbsFirst := f 192 2, gibbsSlices := f 194 2
    slots := (List.range (f 12 2)).map (parseSlotEntry b), digest := sha384 b }

/-- The block's own form (group 1 of R469). -/
def jobFormOk (b : List Byte) (paramSize : Nat) : Bool :=
  leAt b 0 4 == 0x4B564A50 && leAt b 4 2 == 1 && decide (leAt b 6 2 < 8) && zeroAt b 123 5 && zeroAt b 196 60 &&
    decide (leAt b 12 2 ≤ 256) && decide (256 + 16 * leAt b 12 2 ≤ paramSize) && decide (1 ≤ leAt b 10 2) && decide (leAt b 10 2 ≤ 4096) &&
    decide (leAt b 8 2 < leAt b 10 2)

/-- Entries of the tray in the mode. -/
def traySize (split : Bool) : Nat := if split then 524288 else 1048576

/-- The limits of R230 (group 2). -/
def State.trayOk (s : State) (c : Nat) (p : JobParams) : Bool :=
  let n := traySize s.split
  let inR := fun v lo hi => decide (lo ≤ v) && decide (v ≤ hi)
  p.trayBase % (128 * n) == 0 && s.inPartition c p.trayBase (128 * n) && p.maskBase % 4096 == 0 &&
    s.inPartition c p.maskBase (256 * n) && inR p.chunkCount 1 (2 ^ 24) && s.inPartition c p.chunkBase (4096 * p.chunkCount) &&
    s.inPartition c (0x40000 * p.pageFirst) (0x40000 * p.pageCount) && isPow2 p.posPerPage && decide (p.posPerPage ≤ 4096) &&
    inR p.batchMax 1 (if s.split then 32768 else 65536) && inR p.ingestChunk 1 65536 && inR p.ingestBudget p.ingestChunk (2 ^ 22)

/-- Does a slot size reach the bound of R423? -/
def slotSizeOk (p : JobParams) (n : Nat) : Bool :=
  decide (4 * 2 ^ 20 + 544 * n + 129 * p.pageCount + p.chunkCount ≤ 4 * p.cutSlotSize)

/-- The limits of R411, R423 and R424 (group 3). -/
def State.cutOk (s : State) (c : Nat) (p : JobParams) (bedMirror : Nat) : Bool :=
  decide (p.cutEvery ≤ 65536) && slotSizeOk p (traySize s.split) && p.kernelArea % 4096 == 0 &&
    s.inPartition c p.kernelArea p.kernelAreaSize && decide (bedMirror ≤ 1) &&
    (p.partner == 0xFFFF || s.inPartition c p.mirrorBase p.mirrorSize)

/-- The slices of a range. -/
def sliceRange (first count : Nat) : List Nat := (List.range count).map (first + ·)

/-- One shard slot against the others and the Gibbs slices (R470). -/
def State.slotOk (s : State) (c : Nat) (p : JobParams) (b : List Byte) (k : Nat) : Bool :=
  match p.slots[k]? with
  | none => true
  | some e =>
    let meets := fun (x : Nat × Nat) => decide (e.first < x.1 + x.2) && decide (x.1 < e.first + e.count)
    zeroAt b (260 + 16 * k) 4 && decide (e.bytes ≤ e.count * 2 ^ 24) && decide (e.first + e.count ≤ 512) &&
      !(meets (255, 1)) && !(meets (511, 1)) && !(meets (p.gibbsFirst, p.gibbsSlices)) &&
      !((p.slots.take k).any fun x => meets (x.first, x.count)) &&
      (!s.split || (sliceRange e.first e.count).all fun n => bit (s.halvesOf c) (n / 256))

/-- Every other limit (group 4). -/
def State.restOk (s : State) (c : Nat) (p : JobParams) (b : List Byte) : Bool :=
  let bed := fun base size => base % 2 ^ 21 == 0 && size % 2 ^ 21 == 0 && s.inPartition c base size
  p.kernelAreaSize % 4096 == 0 && bed p.bedABase p.bedASize && bed p.bedBBase p.bedBSize &&
    s.inPartition c p.pagedirBase (32 * p.pageCount) &&
    s.inPartition c p.mapBase (roundUp p.chunkCount 64 / 8 + roundUp p.pageCount 64 / 8) &&
    decide (p.gibbsFirst + p.gibbsSlices ≤ 512) && (List.range p.slots.length).all (s.slotOk c p b)

/-- The status of a JOB_OPEN's own checks (R469, R622). -/
def State.jobOpenStatus (s : State) (c : Nat) (b : List Byte) (paramSize : Nat) : Nat :=
  let p := parseJobParams b
  if s.mgt.defaulted && !s.mgt.allow then 0x000D
  else if !jobFormOk b paramSize then 0x000E
  else if !s.trayOk c p then 0x0309
  else if !s.cutOk c p (leAt b 122 1) then 0x0701
  else if !s.restOk c p b then 0x000E
  else 0

/-- The parameter data of JOB_OPEN (R703): the block, then its shard-slot entries. -/
def State.readJobBlock (s : State) (a : Nat) : Option (List Byte) :=
  match s.hostRead a 256 with
  | none => none
  | some b =>
    let n := Nat.min (leAt b 12 2) 256
    if n = 0 then some b else (s.hostRead (a + 256) (16 * n)).map fun e => b ++ e

/-! ## The job at its opening -/

/-- No flush yet. -/
def Durable.empty : Durable := ⟨[], [], [], []⟩

/-- A job at its opening: every stream FREE, every chunk and page free, both beds EMPTY. -/
def Job.fresh (p : JobParams) (halves : Nat) (split : Bool) (h : Head) (seed : W128) : Job :=
  { params := p, halves := halves, split := split, st := if p.seedDev then .waitSeed else .running, reason := 0, openHead := some h
    closing := none, seed := seed, stepNext := 0, run := none, lastGibbs := true, recordNeed := 0, tray := [], resident := [], fills := 0
    batchSize := 0, skipped := 0, dirty := [], dirtyPages := [], dirtySets := [], sets := [], chunks := [], chunkRel := []
    dirtyChunkW := [], pages := [], pageRel := [], dirtyPageW := [], bedA := Bed.empty, bedB := Bed.empty, denied := 0
    deniedStep := 0, xpass := 0, xrec := 0, models := [], grun := none, program := [], area := [], waiting := [], deferred := []
    nextCut := 0, cutNow := false, lastCapture := none, captured := [], writing := false, written := none, committed := none
    common := none, flushed := none, notices := [], mirror := [], unflushed := [], regrowNo := 0, regrowCount := 0, regrow := none
    elapsed := 0, refreshStall := 0, retryStall := 0, stepStartNominal := 0, overdue := false, dispHeaders := []
    dispRecords := [], outputs := [], combined := [], moe := 0, ranLayers := [], partner := none, sealedCount := 0, tagFail := 0, durable := Durable.empty, fetching := []
    lastRun := none, mossSlots := [] }

/-- The mirror set-up message of R424: the sizes of what the buddy is to hold. -/
def Job.mirrorSetUp (j : Job) : List Byte :=
  toLe 8 j.params.cutSlotSize ++ toLe 4 j.trayEntries ++ toLe 4 j.params.chunkCount ++ toLe 4 j.params.pageCount ++
    toLe 1 (b2n j.params.bedMirror) ++ toLe 3 0 ++ toLe 8 j.params.bedASize ++ toLe 8 j.params.bedBSize ++ toLe 8 0

/-- LPX_REFSTALL restarts on the controllers of a job's halves (R203). -/
def State.clearRefStall (s : State) (halves : Nat) : State :=
  (List.range 32).foldl (fun (s : State) i => if bit halves (i / 16) then s.setLpx i { s.lpxCtrl i with refStall := 0 } else s) s

/-- The job has its seed: it opens. The halves' engine starts with its accumulators zero (R413). -/
def State.startJob (s : State) (c : Nat) (seed : W128) : State :=
  match s.job c with
  | none => s
  | some j =>
    let s := s.setJob c { j with st := .running, seed := seed, openHead := none }
    let s := { s with moss := { s.moss with updates := Map.del s.moss.updates c }
                      exact := Map.erase s.exact fun k => bit j.halves (k / 4096 / 256) }
    let s := (s.clearRefStall j.halves).openLinks c
    let s := if j.params.buddy = 0xFFFF then s else s.sendMsg c 0x18 1 j.params.buddy j.mirrorSetUp
    match j.openHead with
    | some h => s.complete h 0x01 ⟨0, 0, 0, 1, [toLe 16 seed.toNat ++ toLe 8 0]⟩
    | none => s

/-- JOB_OPEN has passed its checks: a sparing point, the domains of the halves, and the job, which waits for a device-generated seed
(R207, R602, R636). -/
def State.openJob (s : State) (h : Head) (p : JobParams) (seed : W128) : State :=
  let c := h.set
  let hv := s.halvesOf c
  let s := (s.sparingPoint hv).powerOn (jobDomains hv)
  let s := s.setJob c (Job.fresh p hv s.split h seed)
  if p.seedDev then s.askRandom ⟨.jobSeed c, 0, 16, none, false, []⟩ else s.startJob c seed

/-! ## The end of a job that is closed or discarded (R474, R515, R705) -/

/-- The state of an ended job released. -/
def State.releaseJob (s : State) (c : Nat) : State :=
  match s.job c with
  | none => s
  | some j =>
    let s := (s.closeLinks c j.halves).dropJob c
    { s with kernels := s.kernels.filter fun k => k.ctx != c }

end Sys2Proof.Machine
end

