-- ==== Sys2Proof/Machine/OpsCut.lean ====
section
/-!
DEFINITION. Cuttings: capture, the image, commit and flush (R411 to R425).
-/
namespace Sys2Proof.Machine
open Sys2Proof

/-! ## Commands of the boundary group -/

/-- The head of a host command that waits for its boundary (R466). -/
def boundaryHead : Instr → Option Head
  | .jobClose h => some h
  | .open_ h _ _ _ _ => some h
  | .score h _ _ _ _ => some h
  | .fork h _ _ _ _ _ _ => some h
  | .append h _ _ _ _ => some h
  | .resume h _ _ => some h
  | .close h _ _ => some h
  | .setLoad h _ _ _ => some h
  | .bedStage h _ _ _ => some h
  | .bedLoad h _ _ _ _ => some h
  | .bedCommit h _ _ _ => some h
  | .bedDrop h _ => some h
  | .gibbsModelLoad h _ _ _ => some h
  | .gibbsModelDrop h _ => some h
  | .chainOpen h _ _ _ _ _ _ _ _ _ _ _ => some h
  | .chainSet h _ _ _ _ _ _ _ => some h
  | .chainWrite h _ _ _ _ => some h
  | .chainRead h _ _ _ _ => some h
  | .gibbsRun h _ _ _ _ _ _ _ _ _ _ => some h
  | .cutNow h => some h
  | .stepBind h _ _ => some h
  | _ => none

/-- The index of the first command-ring entry not yet applied (R413). -/
def State.cmdIndex (s : State) (c : Nat) (j : Job) : Nat :=
  (j.waiting.filterMap fun w => (boundaryHead w.cmd).map (·.seq)).foldl Nat.min (s.ring c).cmdCi

/-! ## Capture (R412, R413) -/

/-- Word w of the chunk free map: a 1 marks a free chunk. -/
def Job.chunkWord (j : Job) (w : Nat) : Nat :=
  (List.range 64).foldl (fun acc i =>
    let k := 64 * w + i
    acc + fld i 1 (b2n (decide (k < j.params.chunkCount) && (Map.find j.chunks k).isNone))) 0

/-- Word w of the page free map. -/
def Job.pageWord (j : Job) (w : Nat) : Nat :=
  (List.range 64).foldl (fun acc i =>
    let k := 64 * w + i
    acc + fld i 1 (b2n (decide (k < j.params.pageCount) && (j.page (j.params.pageFirst + k)).st == 0))) 0

/-- A set's entry (R421). -/
def setRecord (n : Nat) (ids : List Nat) : List Byte :=
  toLe 2 n ++ toLe 1 ids.length ++ toLe 1 0 ++ bytesAt ((ids.map fun t => toLe 4 t).flatten) 0 64 ++ toLe 4 0

/-- A Moss run's entry (R421). -/
def MRun.record (r : MRun) : List Byte :=
  toLe 4 r.run ++ toLe 1 r.regions.length ++ toLe 3 0 ++ toLe 8 r.cutArea ++ toLe 8 r.blockAddr ++ toLe 8 0

/-- The image copies of kernels in KERNEL_AREA, by handle. -/
def Job.kernelCopies (j : Job) : List (Nat × Nat) :=
  (j.area.filter fun a => a.handle != 0 && a.rel.isNone).map fun a => (a.handle, a.dpa)

/-- The state of context c's job at the boundary after the step before `stepNext`. -/
def State.cutImage (s : State) (c : Nat) (j : Job) : CutImage :=
  { seq := j.nextCut, step := j.stepNext - 1, prev := j.lastCapture.getD (2 ^ 64 - 1), cmdIndex := s.cmdIndex c j
    regrowNo := j.regrowNo, tsc := s.tsc, split := j.split, east := j.half == 1, epochA := j.bedA.epoch, stateA := j.bedA.st
    stateB := j.bedB.st, epochB := j.bedB.epoch, current := j.current.getD 0xFF
    bmir := b2n j.bedA.mirrored + 2 * b2n j.bedB.mirrored
    flip := bedReg j 0x10
    descs := j.dirty.map fun i => (i, j.descBytes (j.stream i))
    pageRecs := j.dirtyPages.map fun p => (p, (j.page p).bytes p)
    setRecs := j.dirtySets.map fun n => setRecord n (Map.get [] j.sets n)
    chunkWords := j.dirtyChunkW.map fun w => (w, j.chunkWord w)
    pageWords := j.dirtyPageW.map fun w => (w, j.pageWord w)
    kernels := j.kernelCopies
    models := j.models.map fun kv => (kv.1, kv.2.desc, kv.2.work)
    run := j.grun.map fun r => (r.desc, r.done, r.nextSeq)
    moss := (s.moss.runs.filter fun r => r.ctx == c && decide (r.stage < 7)).map MRun.record
    program := j.program }

/-- A stream's open page and the bytes of its written positions (log entry 61). -/
def Job.openPage (j : Job) (t : Stream) : Option (Nat × Nat) :=
  let k := t.pos % j.params.posPerPage
  if t.kind = 3 ∨ k = 0 then none
  else t.pages.getLast?.map fun p => (p, k * (0x40000 / j.params.posPerPage))

/-- The open-page lines and chain copies that a capture has the device mirror (R425, R324). -/
def State.mirrorCapture (s : State) (c : Nat) (j : Job) (q : Nat) : State :=
  if j.params.buddy = 0xFFFF then s else
  let open_ := (j.dirty.filterMap fun i => j.openPage (j.stream i)).eraseDups
  let s := open_.foldl (fun (s : State) e => s.sendMsg c 0x11 2 j.params.buddy (toLe 4 (e.1 - j.params.pageFirst) ++ toLe 4 0 ++ s.lpxRead (e.1 * 0x40000) e.2)) s
  let items := open_.map fun e => (⟨2, e.1 - j.params.pageFirst, ceilDiv e.2 4096, q⟩ : MirrorItem)
  let chains := j.dirty.filter fun i => (j.stream i).kind == 3 && (j.stream i).mirror && decide (2 ≤ (j.stream i).st)
  let s := chains.foldl (fun (s : State) i =>
    let t := j.stream i
    s.sendMsg c 0x13 2 j.params.buddy 
      (toLe 4 i ++ toLe 4 t.pages.length ++ (t.pages.map fun p => toLe 4 (p - j.params.pageFirst)).flatten ++
        (t.pages.map fun p => s.lpxRead (p * 0x40000) 0x40000).flatten)) s
  let more := chains.map fun i => (⟨4, i, 0, q⟩ : MirrorItem)
  s.onJob c fun j => { j with mirror := j.mirror ++ items ++ more }

/-- A capture into shadow storage (R412, R416). -/
def State.capture (s : State) (c : Nat) : State :=
  match s.job c with
  | none => s
  | some j =>
    let img := s.cutImage c j
    let s := s.mirrorCapture c j j.nextCut
    s.onJob c fun j =>
      { j with captured := j.captured ++ [img], nextCut := j.nextCut + 1, cutNow := false, lastCapture := some img.step
               dirty := [], dirtyPages := [], dirtyChunkW := [], dirtyPageW := [] }

/-! ## The image (R420 to R422) -/

/-- The number of sections that an image has: one of each type of R421. -/
def cutSections : Nat := 10

/-- The sections of an image (R421). -/
def CutImage.sections (i : CutImage) : List Byte :=
  sectionOf 1 (i.descs.map fun d => toLe 4 d.1 ++ toLe 4 0 ++ d.2) ++ sectionOf 2 (i.pageRecs.map (·.2)) ++ sectionOf 3 i.setRecs ++
    sectionOf 4 (i.chunkWords.map fun w => toLe 4 w.1 ++ toLe 4 0 ++ toLe 8 w.2) ++
    sectionOf 5 (i.pageWords.map fun w => toLe 4 w.1 ++ toLe 4 0 ++ toLe 8 w.2) ++
    sectionOf 6 (i.kernels.map fun k => toLe 4 k.1 ++ toLe 4 0 ++ toLe 8 k.2) ++
    sectionOf 7 (i.models.map fun m => toLe 2 m.1 ++ toLe 6 0 ++ toLe 8 m.2.1 ++ toLe 8 m.2.2 ++ toLe 8 0) ++
    sectionOf 8 (match i.run with
      | some r => [bytesAt r.1 0 64 ++ toLe 8 r.2.1 ++ toLe 4 r.2.2 ++ List.replicate 52 0#8]
      | none => []) ++
    sectionOf 9 i.moss ++ sectionOf 10 (i.program.map fun e => toLe 4 e.handle ++ toLe 4 e.argSize ++ toLe 8 e.argDpa)

/-- The 96-bit IV of an image (R422). -/
def cutIv (step rank half regrowNo : Nat) : List Byte := toLe 6 step ++ toLe 2 rank ++ toLe 1 half ++ toLe 3 regrowNo

/-- Has the buddy acknowledged every mirror of R425 up to a cutting? -/
def Job.mirrored (j : Job) (kinds : List Nat) (q : Nat) : Bool := !j.mirror.any fun m => kinds.contains m.kind && decide (m.seq ≤ q)

/-- The bytes of a cutting image. -/
def State.cutBytes (s : State) (c : Nat) (j : Job) (i : CutImage) : List Byte :=
  let sec := i.sections
  let repl := j.params.buddy != 0xFFFF && j.mirrored [1, 2, 4, 5] i.seq
  let clear := toLe 4 0x4B564354 ++ toLe 2 1 ++ toLe 2 (b2n i.split + 2 * b2n i.east + 4 * b2n repl) ++ toLe 8 i.step ++ toLe 8 i.prev ++
    toLe 4 i.regrowNo ++ toLe 2 j.params.rank ++ toLe 2 j.params.devices ++ toLe 8 i.cmdIndex ++ toLe 8 (272 + sec.length) ++
    toLe 4 s.sec.fwNumeric ++ toLe 4 cutSections ++ toLe 8 i.tsc
  let head := j.params.digest ++ s.planDigest ++ toLe 16 j.seed.toNat ++ toLe 2 i.epochA ++ toLe 1 i.stateA ++ toLe 1 i.stateB ++
    toLe 2 i.epochB ++ toLe 1 i.current ++ toLe 1 i.bmir ++ toLe 8 i.flip ++ toLe 8 i.seq ++ List.replicate 56 0#8
  let r := gcmSeal (s.jobKey c j cutLabel) (cutIv i.step j.params.rank (b2n i.east) i.regrowNo) clear (head ++ sec)
  clear ++ r.1 ++ r.2

/-- The host address of slot q mod 2 (R416, R469). -/
def Job.cutSlot (j : Job) (q : Nat) : Nat := j.params.cutHost + (q % 2) * j.params.cutSlotSize

/-! ## Commit, common and flush (R414 to R419) -/

/-- The completions that a common cutting releases (R419), in the order of their commands. -/
def State.releaseDeferred (s : State) (c : Nat) : State :=
  match s.job c with
  | none => s
  | some j =>
    match j.common with
    | none => s
    | some (q, _) =>
      let ready := fun (d : Deferred) => match d.need with | some n => decide (n ≤ q) && d.waits.isEmpty | none => false
      let due := j.deferred.filter ready
      let s := s.setJob c { j with deferred := j.deferred.filter fun d => !ready d }
      due.foldl (fun (s : State) d => s.complete d.head d.opcode ⟨d.status, d.result, d.flags, 0, d.ext⟩) s

/-- The cutting is common once every device's notice for it is here (R415). -/
def State.checkCommon (s : State) (c : Nat) : State :=
  match s.job c with
  | none => s
  | some j =>
    match j.committed with
    | none => s
    | some (q, n) =>
      let here := fun r => r == j.params.rank || j.notices.contains (r, n)
      if j.common = some (q, n) || !(List.range j.params.devices).all here then s
      else
        let s := s.setJob c { j with common := some (q, n), notices := j.notices.filter fun x => decide (n < x.2) }
        s.releaseDeferred c

/-- A cutting whose image is written is committed once the buddy has what R414 names. -/
def State.checkCommit (s : State) (c : Nat) : State :=
  match s.job c with
  | none => s
  | some j =>
    match j.written, j.unflushed.getLast? with
    | some q, some img =>
      if img.seq != q || (j.params.buddy != 0xFFFF && !j.mirrored [1, 2, 3] q) then s
      else
        let s := s.setJob c { j with written := none, committed := some (q, img.step) }
        let s := s.postJob c 0x0701 0 (toLe 8 img.step ++ toLe 1 (q % 2))
        let s := s.sendJob c 0x30 (toLe 2 j.params.rank ++ toLe 8 img.step)
        s.checkCommon c
    | _, _ => s

/-- A flush: the cutting's values go into the durable tables (R417). -/
def State.flushTables (s : State) (c : Nat) (i : CutImage) : State :=
  match s.job c with
  | none => s
  | some j =>
    let p := j.params
    let s := i.descs.foldl (fun (s : State) d => s.lpxWrite (p.trayBase + 128 * d.1) 3 d.2) s
    let s := i.pageRecs.foldl (fun (s : State) r => s.lpxWrite (p.pagedirBase + 32 * (r.1 - p.pageFirst)) 1 r.2) s
    let s := i.chunkWords.foldl (fun (s : State) w => s.lpxWrite (p.mapBase + 8 * w.1) 1 (toLe 8 w.2)) s
    let base := p.mapBase + roundUp p.chunkCount 64 / 8
    let s := i.pageWords.foldl (fun (s : State) w => s.lpxWrite (base + 8 * w.1) 1 (toLe 8 w.2)) s
    let d := j.durable
    s.onJob c fun j =>
      { j with durable :=
          { descs := i.descs.foldl (fun m e => Map.put m e.1 e.2) d.descs
            pages := i.pageRecs.foldl (fun m e => Map.put m e.1 e.2) d.pages
            chunkWords := i.chunkWords.foldl (fun m e => Map.put m e.1 e.2) d.chunkWords
            pageWords := i.pageWords.foldl (fun m e => Map.put m e.1 e.2) d.pageWords } }

/-- What the flush of cutting q frees (R418, R702). -/
def Job.freeFlushed (j : Job) (q : Nat) : Job :=
  { j with chunkRel := j.chunkRel.filter fun r => decide (q < r.2)
           pageRel := j.pageRel.filter fun r => decide (q < r.2)
           area := j.area.filter fun a => match a.rel with | some n => decide (q < n) | none => true }

end Sys2Proof.Machine
end

