-- ==== Sys2Proof/Machine/OpsSample.lean ====
section
/-!
DEFINITION. The draw of a token and its log-probabilities (R261 to R269), and the batch of a step (R245, R246).
-/
namespace Sys2Proof.Machine

/-! ## Logits and the allowed set (R262 to R264) -/

/-- A sanitised logit (R262). -/
def sanitise (z : W32) : W32 := if f32IsNaN z then f32NegInf else if z = f32Inf then f32Max else z

/-- The token id of a mask entry (R234). -/
def maskId (m : W32) : Nat := bits m.toNat 19 0

/-- Is the entry a forced token? -/
def maskForced (m : W32) : Bool := bit m.toNat 31

/-- Banned ids of a list of mask entries. -/
def bannedIds (ms : List W32) : List Nat := (ms.filter fun m => !maskForced m).map maskId

/-- Forced ids of a list of mask entries. -/
def forcedIds (ms : List W32) : List Nat := (ms.filter maskForced).map maskId

/-- Does a forced entry restrict the draw (R263)? -/
def hasForced (ms : List W32) : Bool := ms.any maskForced

/-- The allowed set Ω below a vocabulary size, ascending (R263). -/
def allowedSet (v : Nat) (ms : List W32) : List Nat :=
  let ban := bannedIds ms
  if hasForced ms then
    let f := forcedIds ms
    (List.range v).filter fun t => f.contains t && !ban.contains t
  else (List.range v).filter fun t => !ban.contains t

/-- Is Ω empty? Stated without building Ω. -/
def allowedEmpty (v : Nat) (ms : List W32) : Bool :=
  let ban := (bannedIds ms).filter fun t => decide (t < v)
  if hasForced ms then (forcedIds ms).all fun t => ban.contains t || decide (v ≤ t)
  else decide (v ≤ ban.eraseDups.length)

/-- A scaled logit (R264): one rounding; an overflow saturates. -/
def scaleLogit (s invT : W32) : W32 :=
  let y := f32Mul s invT
  if f32Finite s then (if y = f32Inf then f32Max else if y = f32NegInf then f32NegMax else y) else y

/-! ## The draw (R265 to R268) -/

/-- The winner of MAX_F32_IDX over pairs (value, id); (−∞, 0) over none. -/
def xmax (ps : List (W32 × Nat)) : W32 × Nat :=
  match bestPair true (ps.map fun p => ⟨p.1, BitVec.ofNat 32 p.2⟩) with
  | some w => (w.value, w.index.toNat)
  | none => (f32NegInf, 0)

/-- The exact sum of FP32 terms, rounded once. -/
def xsum (xs : List W32) : W32 := (xs.foldl ExactAcc.addF32 ExactAcc.zero).rounded

/-- (x − m) − ln_k(S). -/
def logProb (x m S : W32) : W32 := f32Sub (f32Sub x m) (lnK S)

/-- The Gumbel noise of a token id in a domain (R213, R221). -/
def tokenGumbel (key : W128) (domain index pos t : Nat) : W32 := sporeGumbel (sporeDraw key domain index pos t)

/-- What the truncation of R265 leaves: the nucleus N and NUCLEUS_TRUNC. -/
structure Nucleus where
  ids : List Nat
  short : Bool
  deriving DecidableEq, Repr

/-- The prefix of the candidates at which W first reaches `th` (exact sums in units of 2^-149). -/
def nucleusPrefix (x : Nat → W32) (mT : W32) (th : Int) : Int → List Nat → List Nat × Bool
  | _, [] => ([], false)
  | w, c :: cs =>
    let w' := w + f32ToFixed (expK (f32Sub (x c) mT))
    if th ≤ w' then ([c], true)
    else
      let r := nucleusPrefix x mT th w' cs
      (c :: r.1, r.2)

/-- The nucleus of Ω (R265). -/
def nucleusOf (omega : List Nat) (x : Nat → W32) (mT ST topP : W32) (topK : Nat) : Nucleus :=
  let C := ((sortPairs (omega.map fun t => ⟨x t, BitVec.ofNat 32 t⟩)).take 256).map fun p => p.index.toNat
  let K := if topK = 0 then C.length else Nat.min topK C.length
  if f32Lt topP f32One then
    let r := nucleusPrefix x mT (f32ToFixed (f32Mul topP ST)) 0 (C.take K)
    ⟨r.1, !r.2 && K == 256 && decide (256 < omega.length)⟩
  else ⟨C.take K, false⟩

/-- What a draw or a scoring gives for a token record. -/
structure TokenDraw where
  tok : Nat
  lpBeh : W32
  lpBase : W32
  flags : Nat
  deriving DecidableEq, Repr

/-- The target distribution of a stream for one position: Ω, the logits, their scaled values, and the maxima. -/
structure Target where
  v : Nat
  omega : List Nat
  s : Nat → W32
  x : Nat → W32
  greedy : Bool
  plain : Bool
  mT : W32
  forced : Bool

/-- The target distribution that a stream's parameters give raw logits `z` (R262 to R265). -/
def Stream.target (t : Stream) (z : List W32) : Target :=
  let v := z.length
  let omega := allowedSet v t.masks
  let sv := z.map sanitise
  let s := fun i => sv.getD i f32NegInf
  let greedy := t.temp == 0#32
  let invT := f32Div f32One t.temp
  let x := fun i => if greedy then s i else scaleLogit (s i) invT
  { v := v, omega := omega, s := s, x := x, greedy := greedy, plain := t.topK == 0 && t.topP == f32One
    mT := (xmax (omega.map fun i => (x i, i))).1, forced := hasForced t.masks }

/-- LP_BASE of a token (R265, R266, R268); an id at or beyond the vocabulary has no logit, and the value is free (log entry 6). -/
def Target.lpBase (g : Target) (tok : Nat) : W32 :=
  let all := (List.range g.v).map fun i => (g.s i, i)
  let m1 := (xmax all).1
  if m1 = f32NegInf then 0#32
  else if g.v ≤ tok then Config.lpBaseBeyond (all.map (·.1)) tok
  else logProb (g.s tok) m1 (xsum (all.map fun p => expK (f32Sub p.1 m1)))

/-- The exact sum of exp_k(x − mT) over ids. -/
def Target.mass (g : Target) (ids : List Nat) : W32 := xsum (ids.map fun i => expK (f32Sub (g.x i) g.mT))

/-- The flags GREEDY and FORCED (R256). -/
def Target.flags (g : Target) : Nat := 64 * b2n g.greedy + 128 * b2n g.forced

/-- The winner of the noisy keys over ids in a domain. -/
def Target.noisy (g : Target) (key : W128) (domain index pos : Nat) (ids : List Nat) : Nat :=
  (xmax (ids.map fun i => (f32Add (g.x i) (tokenGumbel key domain index pos i), i))).2

/-- The nucleus of the target under a stream's truncation. -/
def Target.nucleus (g : Target) (t : Stream) : Nucleus := nucleusOf g.omega g.x g.mT (g.mass g.omega) t.topP t.topK

/-- The token that a TOKEN stream draws at a position (R265, R266). -/
def Stream.draw (t : Stream) (key : W128) (index pos : Nat) (z : List W32) : TokenDraw :=
  let g := t.target z
  if g.greedy then
    let tok := (xmax (g.omega.map fun i => (g.s i, i))).2
    ⟨tok, 0#32, g.lpBase tok, g.flags⟩
  else if g.mT = f32NegInf then
    let tok := g.omega.headD 0
    ⟨tok, 0#32, g.lpBase tok, g.flags⟩
  else if g.plain then
    let tok := g.noisy key 0x01 index pos g.omega
    ⟨tok, logProb (g.x tok) g.mT (g.mass g.omega), g.lpBase tok, g.flags⟩
  else
    let n := g.nucleus t
    let tok := g.noisy key 0x02 index pos n.ids
    ⟨tok, logProb (g.x tok) g.mT (g.mass n.ids), g.lpBase tok, g.flags + 4 * b2n n.short⟩

/-- The record values of a given token (R268). -/
def Stream.scoreToken (t : Stream) (tok : Nat) (z : List W32) : TokenDraw :=
  let g := t.target z
  let base := g.lpBase tok
  let fl := g.flags + 256
  let zeroOr := fun (b : Bool) => if b then 0#32 else f32NegInf
  if g.mT = f32NegInf then ⟨tok, zeroOr (tok == g.omega.headD 0), base, fl⟩
  else if g.greedy then ⟨tok, zeroOr (tok == (xmax (g.omega.map fun i => (g.s i, i))).2), base, fl⟩
  else if g.plain then
    ⟨tok, if g.omega.contains tok then logProb (g.x tok) g.mT (g.mass g.omega) else f32NegInf, base, fl⟩
  else
    let n := g.nucleus t
    ⟨tok, if n.ids.contains tok then logProb (g.x tok) g.mT (g.mass n.ids) else f32NegInf, base, fl + 4 * b2n n.short⟩

/-! ## Ingest, pages and chunks of a step (R246, R254) -/

/-- Pending tokens that a stream ingests in one step (R246). -/
def Job.ingest (j : Job) (t : Stream) : Nat :=
  Nat.min (if t.hold then t.pending.length - 1 else t.pending.length) j.params.ingestChunk

/-- Pages that positions below `pos` need. -/
def Job.pagesFor (j : Job) (pos : Nat) : Nat := ceilDiv pos j.params.posPerPage

/-- Pages that a stream opens in the step (R245). -/
def Job.opens (j : Job) (t : Stream) : Nat := j.pagesFor (t.pos + j.ingest t) - t.pages.length

/-- Does the stream draw a token in the step (R247)? -/
def Job.draws (j : Job) (t : Stream) : Bool :=
  t.kind == 1 && j.ingest t == t.pending.length

/-- The range of chunk numbers of list positions from `lo` below `hi`. -/
def chunkRange (lo hi : Nat) : Nat × Nat := (lo / chunkEntries, lo / chunkEntries + chunksFor lo hi)

/-- Old chunks kept when a pending list moves from positions [lo, hi) to [lo', hi'). -/
def keptChunks (lo hi lo' hi' : Nat) : Nat :=
  let a := chunkRange lo hi
  let b := chunkRange lo' hi'
  Nat.min a.2 b.2 - Nat.max a.1 b.1

/-- New chunks that the step needs for a stream's lists. -/
def Job.chunkNeed (j : Job) (t : Stream) : Nat :=
  let lo := t.pos
  let hi := t.pos + t.pending.length
  let lo' := t.pos + j.ingest t
  let hi' := if j.draws t then hi + 1 else hi
  chunksFor lo' hi' - keptChunks lo hi lo' hi' + (chunksFor 0 (t.pages.length + j.opens t) - t.pageChunks.length)

/-! ## The batch (R245, R257) -/

/-- Does (READY_STEP, index) of a stream order before another's? -/
def readyBefore (a b : Nat × Stream) : Bool :=
  decide (a.2.readyStep < b.2.readyStep) || (a.2.readyStep == b.2.readyStep && decide (a.1 < b.1))

/-- Insertion in ascending (READY_STEP, index). -/
def insertReady (a : Nat × Stream) : List (Nat × Stream) → List (Nat × Stream)
  | [] => [a]
  | b :: r => if readyBefore a b then a :: b :: r else b :: insertReady a r

/-- READY streams in ascending (READY_STEP, index). -/
def Job.readyOrder (j : Job) : List (Nat × Stream) :=
  (j.tray.filter fun kv => kv.2.st == 2).foldl (fun acc kv => insertReady kv acc) []

/-- Descriptors that the cache holds for the tray entries of one parity, or of the half in split mode (R257). -/
def cacheShare : Nat := 32768

/-- The entries among `xs` that fit the cache: at most 32,768 of each half's share (R257). -/
def fitCache (split : Bool) (xs : List Nat) : List Nat :=
  if split then xs.take cacheShare
  else
    let e := (xs.filter fun i => i % 2 == 0).take cacheShare
    let o := (xs.filter fun i => i % 2 == 1).take cacheShare
    xs.filter fun i => if i % 2 = 0 then e.contains i else o.contains i

/-- The refill of the tray cache at a boundary (R257): non-READY descriptors leave it; the READY ones in order fill it. -/
def Job.refill (j : Job) : Job :=
  let want := fitCache j.split (j.readyOrder.map (·.1))
  { j with resident := want
           fills := (j.fills + (want.filter fun i => !j.resident.contains i).length) % 2 ^ 64 }

/-- A batch being formed: its streams in the order of the scan, and what they take. -/
structure BatchAcc where
  batch : List Nat
  ingest : Nat
  pages : Nat
  chunks : Nat
  skipped : Nat
  deriving DecidableEq, Repr

/-- One stream of the scan (R245); the scan has ended once the batch is full. -/
def Job.scanOne (j : Job) (a : BatchAcc) (kv : Nat × Stream) : BatchAcc :=
  if j.params.batchMax ≤ a.batch.length then a else
  let n := j.ingest kv.2
  let p := j.opens kv.2
  let c := j.chunkNeed kv.2
  if a.ingest + n ≤ j.params.ingestBudget ∧ a.pages + p ≤ j.freePages ∧ a.chunks + c ≤ j.freeChunks then
    ⟨a.batch ++ [kv.1], a.ingest + n, a.pages + p, a.chunks + c, a.skipped⟩
  else { a with skipped := a.skipped + 1 }

/-- The token batch of the next step (R245, R291, R473): none while no bed is CURRENT or no step program is bound. -/
def Job.formBatch (j : Job) : BatchAcc :=
  let none_ : BatchAcc := ⟨[], 0, 0, 0, 0⟩
  if j.current.isNone || j.program.isEmpty then none_
  else (j.readyOrder.filter fun kv => kv.2.kind != 3 && j.resident.contains kv.1).foldl j.scanOne none_

end Sys2Proof.Machine
end

