-- ==== Sys2Proof/Machine/OpsStream.lean ====
section
/-!
DEFINITION. The stream commands as a step boundary applies them (R235, R239, R241 to R244, R250, R252, R253, R294, R471, R704).
-/
namespace Sys2Proof.Machine
open Sys2Proof

/-! ## Completions of the boundary group (R419, R475) -/

/-- A command that has taken effect completes once the next cutting is common; RESULT is the step that follows the boundary. -/
def Job.defer (j : Job) (h : Head) (op : Nat) : Job :=
  { j with deferred := j.deferred ++ [⟨h, op, 0, j.stepNext, [], some j.nextCut, [], 0⟩] }

/-- As `defer`, for a command whose completion waits until entries have entered READY. -/
def Job.deferReady (j : Job) (h : Head) (op : Nat) (waits : List Nat) : Job :=
  { j with deferred := j.deferred ++ [⟨h, op, 0, j.stepNext, [], if waits.isEmpty then some j.nextCut else none, waits, 0⟩] }

/-- A closed entry leaves the commands that wait for it (R704): one that waits for nothing else completes directly before the CLOSE,
whose completion is about to be queued. -/
def Job.closeWaits (j : Job) (i : Nat) : Job :=
  let step := fun (d : Deferred) => if d.waits.contains i then { d with waits := d.waits.filter (· != i) } else d
  let ends := fun (d : Deferred) => d.waits.contains i && (d.waits.filter (· != i)).isEmpty
  let moved := (j.deferred.filter ends).map fun d => { d with waits := [], need := some j.nextCut }
  { j with deferred := (j.deferred.filter fun d => !ends d).map step ++ moved }

/-! ## Object seeds -/

/-- Why `n` stochastic requests cannot be taken now: the class has FAILED, or the queue is full (R575, R583). -/
def State.seedRefused (s : State) (n : Nat) : Option Nat :=
  if s.ens.stoch = 3 then some 0x0902 else if !s.ens.ready && decide (64 < s.earlyHeld + n) then some 0x000B else none

/-! ## The stream parameter block (R471) -/

/-- The stream that a parameter block describes; the command adds KIND, POS and the tokens. -/
structure StreamParams where
  seed : Nat
  maxLen : Nat
  temp : W32
  topP : W32
  topK : Nat
  stopSet : Nat
  parkSet : Nat
  oflags : Nat
  scoreFrom : Nat
  user : Nat
  masks : List W32
  maskCount : Nat
  tailZero : Bool
  deriving DecidableEq, Repr

/-- A parameter block read: the 64-byte head and its mask entries. -/
def parseStreamParams (b : List Byte) : StreamParams :=
  let n := leAt b 26 1
  { seed := leAt b 0 8, maxLen := leAt b 8 4, temp := BitVec.ofNat 32 (leAt b 12 4), topP := BitVec.ofNat 32 (leAt b 16 4)
    topK := leAt b 20 2, stopSet := leAt b 22 2, parkSet := leAt b 24 2, oflags := leAt b 27 1, scoreFrom := leAt b 28 4
    user := leAt b 32 8, masks := (List.range (Nat.min n 64)).map fun i => BitVec.ofNat 32 (leAt b (64 + 4 * i) 4)
    maskCount := n, tailZero := zeroAt b 40 24 }

/-- The parameter data of OPEN and SCORE (R703). -/
def State.readStreamBlock (s : State) (a : Nat) : Option (List Byte) :=
  match s.hostRead a 64 with
  | none => none
  | some b =>
    let n := Nat.min (leAt b 26 1) 64
    if n = 0 then some b else (s.hostRead (a + 64) (4 * n)).map fun e => b ++ e

/-- TEMP (R264): +0, or a finite value from 2^-10 to 64. -/
def tempOk (t : W32) : Bool := t == 0#32 || (f32Le 0x3A800000#32 t && f32Le t 0x42800000#32)

/-- A set number: 0 to 4,095, or 0xFFFF for none. -/
def setOk (n : Nat) : Bool := decide (n ≤ 4095) || n == 0xFFFF

/-- Mask entries with a vocabulary of v (R234, R261): ids below v, bits [30:20] zero, an allowed set that is not empty. -/
def masksOk (v : Nat) (ms : List W32) : Bool := (ms.all fun m => decide (maskId m < v) && bits m.toNat 30 20 == 0) && !allowedEmpty v ms

/-- Check 4 of R242 on the parameters, with R261. -/
def StreamParams.ok (p : StreamParams) (kind v : Nat) : Bool :=
  decide ((if kind = 1 then 2 else 1) ≤ p.maxLen) && decide (p.maxLen ≤ 2 ^ 23) && tempOk p.temp && f32Lt 0#32 p.topP &&
    f32Le p.topP f32One && decide (p.topK ≤ 256) && setOk p.stopSet && setOk p.parkSet && decide (p.maskCount ≤ 64) &&
    decide (p.oflags < 8) && (kind == 1 || decide (p.scoreFrom < 2 ^ 23)) && p.tailZero &&
    masksOk v p.masks

/-- The vocabulary of the CURRENT bed. -/
def Job.vocab (j : Job) : Nat :=
  match j.current with
  | some b => (match (j.bed b).manifest with | some m => m.vocab | none => 0)
  | none => 0

/-- The epoch of the CURRENT bed. -/
def Job.epoch (j : Job) : Nat := match j.current with | some b => (j.bed b).epoch | none => 0

/-! ## OPEN and SCORE -/

/-- The status of OPEN (kind 1) or SCORE (kind 2) (R242). -/
def State.openStatus (s : State) (j : Job) (kind index count : Nat) (p : StreamParams) : Nat :=
  let t := j.stream index
  if j.trayEntries ≤ index then 0x0301
  else if t.st != 0 || t.seedWait || j.current.isNone then 0x0303
  else if count = 0 || !p.ok kind j.vocab then 0x0304
  else if (if kind = 1 then p.maxLen - 1 else p.maxLen) < count then 0x0305
  else if j.freeChunks < chunksFor 0 count then 0x0306
  else if bit p.oflags 2 then (s.seedRefused 1).getD 0 else 0

/-- OPEN or SCORE applied: the entry is taken, and its prompt is fetched once its seed is fixed. -/
def State.applyOpen (s : State) (c kind op : Nat) (h : Head) (index count tokens : Nat) (data : List Byte) : State :=
  match s.job c with
  | none => s
  | some j =>
    let p := parseStreamParams data
    let st := s.openStatus j kind index count p
    if st != 0 then s.done h op st 0 else
    let dev := bit p.oflags 2
    let ch := j.takeChunks (chunksFor 0 count)
    let j := ch.2
    let t : Stream :=
      { Stream.free with
        kind := kind, st := if dev then 0 else 1, gen := ((j.stream index).gen + 1) % 4096, parent := 0xFFFFFFFF
        seed := if dev then 0#64 else BitVec.ofNat 64 p.seed, maxLen := p.maxLen, scoreFrom := if kind = 2 then p.scoreFrom else 0
        pin := bit p.oflags 0, hold := bit p.oflags 1, seedDev := dev, seedWait := dev, epoch := j.epoch, stopSet := p.stopSet
        parkSet := p.parkSet, temp := p.temp, topP := p.topP, topK := p.topK, pendChunks := ch.1, masks := p.masks
        user := BitVec.ofNat 64 p.user, fetch := (tokens, count) }
    let j := (j.setStream index t).deferReady h op [index]
    let s := (s.setJob c j).writeMasks j index p.masks
    if dev then s.askSeed c index else s

/-- The fetch of a TOKEN or SCORE stream's tokens ends (R237): they form its pending list, or the entry is FREE again and its command
completes with HOST_READ_FAULT. -/
def State.promptFetched (s : State) (c index : Nat) : State :=
  match s.job c with
  | none => s
  | some j =>
    let t := j.stream index
    match s.hostRead t.fetch.1 (4 * t.fetch.2) with
    | some bs =>
      let toks := (List.range t.fetch.2).map fun i => leAt bs (4 * i) 4 % 2 ^ 20
      let t := { t with pending := toks, fetched := true }
      let j := j.setStream index t
      (s.setJob c j).writePending j t 0 toks
    | none =>
      let due := j.deferred.filter fun d => d.waits.contains index
      let j := { (j.freeStream index) with deferred := j.deferred.filter fun d => !d.waits.contains index }
      due.foldl (fun (s : State) d => s.done d.head d.opcode 0x0007 0) (s.setJob c j)

/-! ## FORK -/

/-- The child indices and, in mode 0, their seeds: the parameter data of FORK (R703). -/
def State.readFork (s : State) (mode count children seeds : Nat) : Option (List Byte) :=
  match s.hostRead children (4 * count) with
  | none => none
  | some b => if mode = 0 then (s.hostRead seeds (8 * count)).map fun e => b ++ e else some b

/-- Child indices of a FORK's data. -/
def forkChildren (count : Nat) (data : List Byte) : List Nat := (List.range count).map fun k => leAt data (4 * k) 4

/-- Does a parent hold an OPEN page? -/
def Job.openTail (j : Job) (t : Stream) : Bool := t.pos % j.params.posPerPage != 0

/-- The status of FORK (R242, R252). -/
def State.forkStatus (s : State) (j : Job) (parent gen mode count : Nat) (kids : List Nat) : Nat :=
  let t := j.stream parent
  let size := j.trayEntries
  if size ≤ parent || kids.any (fun k => decide (size ≤ k)) then 0x0301
  else if t.st != 0 && t.gen != gen then 0x0302
  else if !(t.st == 2 || t.st == 4 || t.st == 5) || t.kind == 3 ||
      !(kids.all fun k => (j.stream k).st == 0 && !(j.stream k).seedWait && k != parent) || kids.eraseDups.length != kids.length then 0x0303
  else if count = 0 || decide (256 < count) || decide (2 < mode) || !masksOk j.vocab t.masks then 0x0304
  else if t.maxLen - 1 < t.pos + t.pending.length then 0x0305
  else if j.freeChunks < count * (chunksFor t.pos (t.pos + t.pending.length) + chunksFor 0 t.pages.length) ||
      (j.openTail t && decide (j.freePages < count)) then 0x0306
  else if mode = 1 then (s.seedRefused count).getD 0 else 0

/-- The seed of child k (R252). -/
def forkSeed (mode : Nat) (parentSeed : W64) (count k : Nat) (data : List Byte) : W64 :=
  if mode = 0 then BitVec.ofNat 64 (leAt data (4 * count + 8 * k) 8)
  else if mode = 1 then 0#64
  else parentSeed + 0x9E3779B97F4A7C15#64 * BitVec.ofNat 64 (k + 1)

/-- One child (R253): the parent's descriptor, its own lists, a copy of the parent's OPEN page, and a copy of its mask entries. -/
def State.forkChild (s : State) (c parent mode : Nat) (kid : Nat × W64) : State :=
  match s.job c with
  | none => s
  | some j =>
    let t := j.stream parent
    let i := kid.1
    let a := j.takeChunks (chunksFor t.pos (t.pos + t.pending.length))
    let b := a.2.takeChunks (chunksFor 0 t.pages.length)
    let j := b.2
    let shared := if j.openTail t then t.pages.dropLast else t.pages
    let j := shared.foldl (fun (j : Job) p => j.setPage p { j.page p with refs := (j.page p).refs + 1 }) j
    let own := if j.openTail t then let r := j.takePage; ([r.1], r.2) else ([], j)
    let j := own.2
    let dev := mode == 1
    let u : Stream :=
      { t with st := if dev then 0 else 2, gen := ((j.stream i).gen + 1) % 4096, parent := parent, seed := kid.2, seedDev := dev
               seedWait := dev, hold := false, readyStep := j.stepNext, pendChunks := a.1, pageChunks := b.1
               pages := shared ++ own.1, fetched := false }
    let j := j.setStream i u
    let s := s.setJob c j
    let s := match j.openPage t, own.1.head? with
      | some (src, n), some dst => s.lpxWrite (dst * 0x40000) 2 (s.lpxRead (src * 0x40000) n)
      | _, _ => s
    let s := (s.writePending j u u.pos u.pending).writePages j u 0
    let s := s.writeMasks j i u.masks
    if dev then s.askSeed c i else s

/-- FORK applied (R252, R253). -/
def State.applyFork (s : State) (c : Nat) (h : Head) (parent gen mode count : Nat) (data : List Byte) : State :=
  match s.job c with
  | none => s
  | some j =>
    let kids := forkChildren count data
    let st := s.forkStatus j parent gen mode count kids
    if st != 0 then s.done h 0x12 st 0 else
    let seed := (j.stream parent).seed
    let ks := kids.zipIdx.map fun k => (k.1, forkSeed mode seed count k.2 data)
    let s := s.onJob c fun j => j.deferReady h 0x12 (if mode = 1 then kids else [])
    ks.foldl (fun (s : State) k => s.forkChild c parent mode k) s

/-! ## APPEND, RESUME, CLOSE, SET_LOAD -/

/-- Checks 1 and 2 of R242, and the states that a command allows. -/
def Job.nameStatus (j : Job) (index gen : Nat) (allowed : Stream → Bool) : Nat :=
  let t := j.stream index
  if j.trayEntries ≤ index then 0x0301
  else if t.st != 0 && t.gen != gen then 0x0302
  else if allowed t then 0 else 0x0303

/-- The status of APPEND (R242). -/
def Job.appendStatus (j : Job) (index gen count : Nat) : Nat :=
  let t := j.stream index
  let st := j.nameStatus index gen fun t => t.st == 4
  let hi := t.pos + t.pending.length
  if st != 0 then st
  else if count = 0 || decide (65536 < count) then 0x0304
  else if (if t.kind = 1 then t.maxLen - 1 else t.maxLen) < hi + count then 0x0305
  else if j.freeChunks < chunksFor t.pos (hi + count) - t.pendChunks.length then 0x0306
  else 0

/-- APPEND applied. -/
def State.applyAppend (s : State) (c : Nat) (h : Head) (index gen count tokens : Nat) : State :=
  match s.job c with
  | none => s
  | some j =>
    let st := j.appendStatus index gen count
    if st != 0 then s.done h 0x13 st 0 else
    match s.hostRead tokens (4 * count) with
    | none => s.done h 0x13 0x0007 0
    | some bs =>
      let t := j.stream index
      let hi := t.pos + t.pending.length
      let toks := (List.range count).map fun i => leAt bs (4 * i) 4 % 2 ^ 20
      let a := j.takeChunks (chunksFor t.pos (hi + count) - t.pendChunks.length)
      let t := { t with pending := t.pending ++ toks, pendChunks := t.pendChunks ++ a.1 }
      let j := (a.2.setStream index t).defer h 0x13
      (s.setJob c j).writePending j t hi toks

/-- RESUME applied. -/
def State.applyResume (s : State) (c : Nat) (h : Head) (index gen : Nat) : State :=
  match s.job c with
  | none => s
  | some j =>
    let st := j.nameStatus index gen fun t => t.st == 4
    if st != 0 then s.done h 0x14 st 0 else s.setJob c ((j.makeReady index).defer h 0x14)

/-- A chain closed while it runs leaves the run (R324). -/
def Job.leaveRun (j : Job) (i : Nat) : Job :=
  match j.grun with
  | some r => if r.chains.contains i then { j with grun := some { r with chains := r.chains.filter (· != i), closed := r.closed + 1 } } else j
  | none => j

/-- CLOSE applied (R239, R243, R244, R704). -/
def State.applyClose (s : State) (c : Nat) (h : Head) (index gen : Nat) : State :=
  match s.job c with
  | none => s
  | some j =>
    let st := j.nameStatus index gen fun t => t.st != 0 || t.seedWait
    if st != 0 then s.done h 0x15 st 0 else
    let s := if (j.stream index).seedWait then s.cancelSeed c index else s
    s.setJob c ((((j.leaveRun index).freeStream index).closeWaits index).defer h 0x15)

/-- SET_LOAD applied (R250); `data` are its token entries. -/
def State.applySetLoad (s : State) (c : Nat) (h : Head) (set count : Nat) (data : List Byte) : State :=
  match s.job c with
  | none => s
  | some j =>
    if 4095 < set ∨ 16 < count then s.done h 0x16 0x0304 0 else
    let ids := (List.range count).map fun i => leAt data (4 * i) 4 % 2 ^ 20
    s.setJob c (({ j with sets := Map.set [] j.sets set ids, dirtySets := noteOnce j.dirtySets set }).defer h 0x16)

end Sys2Proof.Machine
end

