-- ==== Sys2Proof/Machine/OpsBed.lean ====
section
/-!
DEFINITION. Weight beds: the bed commands as a boundary applies them, the manifest and its verification, the flip (R282 to R297).
-/
namespace Sys2Proof.Machine
open Sys2Proof

/-! ## The manifest (R285 to R287) -/

/-- Shard entry i of a manifest's bytes (R286). -/
def parseShard (b : List Byte) (i : Nat) : Shard :=
  let o := 64 + 96 * i
  ⟨leAt b o 1, leAt b (o + 1) 1, leAt b (o + 2) 2, leAt b (o + 4) 2, leAt b (o + 6) 2, leAt b (o + 8) 8, leAt b (o + 16) 8, bytesAt b (o + 32) 48⟩

/-- The manifest that a header with its entries spells, with a home map (R285 to R287). -/
def parseManifest (b : List Byte) (home : List Nat) : Manifest :=
  { epoch := leAt b 6 2, vocab := leAt b 12 4, hidden := leAt b 16 4, layers := leAt b 20 2, experts := leAt b 22 2, topk := leAt b 24 1
    gate := leAt b 25 1, actFmt := leAt b 26 1, cap := leAt b 28 4, homeOfs := leAt b 32 8
    shards := (List.range (leAt b 8 4)).map (parseShard b), home := home }

/-- Does the header obey R285 and R281? -/
def manifestHeaderOk (b : List Byte) (epoch : Nat) : Bool :=
  let inR := fun v lo hi => decide (lo ≤ v) && decide (v ≤ hi)
  leAt b 0 4 == 0x4B564244 && leAt b 4 2 == 1 && leAt b 6 2 == epoch && inR (leAt b 8 4) 1 65536 && inR (leAt b 12 4) 1 (2 ^ 20) &&
    inR (leAt b 16 4) 64 65536 && leAt b 16 4 % 64 == 0 && decide (leAt b 20 2 ≤ 256) && inR (leAt b 22 2) 1 4096 &&
    inR (leAt b 24 1) 1 16 && decide (leAt b 25 1 ≤ 1) && decide (leAt b 26 1 ≤ 0x0B) && leAt b 27 1 == 0 && inR (leAt b 28 4) 1 4096 &&
    leAt b 32 8 % 64 == 0 && zeroAt b 40 24

/-- Does shard entry i obey R286, inside a bed of `size` bytes? -/
def shardOk (b : List Byte) (m : Manifest) (size i : Nat) : Bool :=
  let e := parseShard b i
  let o := 64 + 96 * i
  (formatOf e.fmt).isSome && e.offset % 4096 == 0 && decide (e.offset + e.size ≤ size) && zeroAt b (o + 24) 8 && zeroAt b (o + 80) 16 &&
    (if e.kind = 1 then e.layer == 0 && e.expert == 0 && e.slot == 0xFFFF
     else e.kind == 2 && decide (e.layer < m.layers) && decide (e.expert < m.experts) && decide (e.slot ≤ 255))

/-- Is the shard an expert shard? -/
def Shard.isExpert (e : Shard) : Bool := e.kind == 2

/-- The home rank of (layer, expert). -/
def Manifest.homeOf (m : Manifest) (layer expert : Nat) : Nat := m.home.getD (layer * m.experts + expert) 0xFFFF

/-- The first index below n that fails a check. -/
def firstBad (n : Nat) (ok : Nat → Bool) : Option Nat := (List.range n).find? fun i => !ok i

/-! ## Verification (R288) -/

/-- The (layer, expert) pairs whose home is a rank. -/
def Manifest.homed (m : Manifest) (rank : Nat) : List (Nat × Nat) :=
  ((List.range m.layers).map fun l => (List.range m.experts).map fun e => (l, e)).flatten.filter fun p => m.homeOf p.1 p.2 == rank

/-- The other bed where it serves streams. -/
def Job.otherServing (j : Job) (b : Nat) : Option Manifest :=
  let o := j.bed (1 - b)
  if o.st = 4 ∨ o.st = 5 then o.manifest else none

/-- Check 3: an expert shard of another home, or a second one of a pair. -/
def Manifest.shardHomeOk (m : Manifest) (rank i : Nat) : Bool :=
  match m.shards[i]? with
  | none => true
  | some e => !e.isExpert || (m.homeOf e.layer e.expert == rank &&
      !((m.shards.take i).any fun x => x.isExpert && x.layer == e.layer && x.expert == e.expert))

/-- Check 5 for entry i. -/
def Job.slotFree (j : Job) (b : Nat) (m : Manifest) (i : Nat) : Bool :=
  match m.shards[i]? with
  | none => true
  | some e => !e.isExpert || (
      !((m.shards.take i).any fun x => x.isExpert && x.slot == e.slot) &&
      (match j.otherServing b with | some o => !(o.shards.any fun x => x.isExpert && x.slot == e.slot) | none => true) &&
      (match j.params.slots[e.slot]? with | some sl => decide (e.size ≤ sl.bytes) | none => false))

/-- The outcome of a verification: the status with the entry number, or the manifest. -/
inductive Verdict where
  | bad (status entry : Nat)
  | good (m : Manifest)
  deriving DecidableEq, Repr

/-- The checks of R288 on bed b in their order. -/
def State.verifyBed (s : State) (j : Job) (b : Nat) : Verdict :=
  let r := j.bedRange b
  let bed := j.bed b
  let none_ := 0xFFFFFFFF
  let n := s.lpxLe (r.1 + 8) 4
  if r.2 < 64 + 96 * n then .bad 0x0405 none_ else
  let bytes := s.lpxRead r.1 (64 + 96 * n)
  if sha384 bytes != bed.digest then .bad 0x0405 none_
  else if !manifestHeaderOk bytes bed.epoch then .bad 0x0406 none_ else
  let m0 := parseManifest bytes []
  match firstBad n (shardOk bytes m0 r.2) with
  | some i => .bad 0x0406 i
  | none =>
  let homes := m0.layers * m0.experts
  if r.2 < m0.homeOfs + 4 * homes then .bad 0x0406 none_ else
  let home := (List.range homes).map fun i => s.lpxLe (r.1 + m0.homeOfs + 4 * i) 4
  if home.any fun h => decide (j.params.devices ≤ h) then .bad 0x0406 none_ else
  let m := parseManifest bytes home
  match firstBad n (m.shardHomeOk j.params.rank) with
  | some i => .bad 0x0406 i
  | none =>
  if !((m.homed j.params.rank).all fun p => m.shards.any fun x => x.isExpert && x.layer == p.1 && x.expert == p.2) then .bad 0x0406 none_
  else if (match j.otherServing b with | some o => o.vocab != m.vocab | none => false) then .bad 0x0406 none_
  else
  match firstBad n (j.slotFree b m) with
  | some i => .bad 0x0407 i
  | none =>
  match firstBad n (fun i => match m.shards[i]? with
      | some e => sha384 (s.lpxRead (r.1 + e.offset) e.size) == e.digest
      | none => true) with
  | some i => .bad 0x0405 i
  | none => .good m

/-- The expert shards of a manifest copied into their slots (R288). -/
def State.copyShards (s : State) (j : Job) (b : Nat) (m : Manifest) : State :=
  let r := j.bedRange b
  m.shards.foldl (fun (s : State) e =>
    if e.isExpert then
      match j.params.slots[e.slot]? with
      | some sl => { s with slices := Memory.writeBytes s.slices (sl.first * 2 ^ 24) (s.lpxRead (r.1 + e.offset) e.size) }
      | none => s
    else s) s

/-- The completion of the BED_COMMIT that waits for bed b: it now needs the next cutting, or fails at once with its entry number. -/
def State.endCommit (s : State) (c : Nat) (bed : Bed) (status entry : Nat) : State :=
  match bed.commit, s.job c with
  | some h, some j =>
    if status = 0 then
      s.setJob c { j with deferred := j.deferred.map fun d => if d.head = h ∧ d.need = none then { d with need := some j.nextCut } else d }
    else
      (s.setJob c { j with deferred := j.deferred.filter fun d => !(d.head == h && d.need == none) }).done h 0x32 status entry
  | _, _ => s

/-- Bed b of context c's job leaves VERIFYING (R288). -/
def State.endVerify (s : State) (c b : Nat) : State :=
  match s.job c with
  | none => s
  | some j =>
    let bed := j.bed b
    match s.verifyBed j b with
    | .bad st entry =>
      let s := s.setJob c (j.setBed b { bed with st := 1, commit := none, manifest := none })
      let s := s.postJob c 0x0402 st (toLe 1 b ++ toLe 1 0 ++ toLe 2 bed.epoch ++ toLe 4 entry)
      s.endCommit c bed st entry
    | .good m =>
      let s := s.copyShards j b m
      let s := s.setJob c (j.setBed b { bed with st := 3, commit := none, manifest := some m })
      let s := s.postJob c 0x0401 0 (toLe 1 b ++ toLe 1 0 ++ toLe 2 bed.epoch)
      let s := s.endCommit c bed 0 0
      if j.params.bedMirror && j.params.buddy != 0xFFFF then
        let s := s.sendMsg c 0x14 2 j.params.buddy (toLe 1 b ++ toLe 7 0 ++ toLe 8 0 ++ s.lpxRead (j.bedRange b).1 (j.bedRange b).2)
        s.onJob c fun j => { j with mirror := j.mirror ++ [⟨5, b, 0, j.nextCut⟩] }
      else s

/-! ## The flip and the release of a HELD bed (R290, R291, R295) -/

/-- Does an ARMED bed flip at the boundary before step n (R290, R291)? -/
def Job.flips (j : Job) (n b : Nat) : Bool := (j.bed b).st == 3 && (decide ((j.bed b).flip ≤ n) || j.current.isNone)

/-- Streams that pin an epoch. -/
def Job.anyPins (j : Job) (epoch : Nat) : Bool := j.tray.any fun kv => kv.2.pins epoch

/-- The flip of bed b. -/
def State.flipBed (s : State) (c : Nat) (j : Job) (b : Nat) : State :=
  let nb := j.bed b
  let j' := match j.current with
    | some o => j.setBed o { (j.bed o) with st := if j.anyPins (j.bed o).epoch then 5 else 6 }
    | none => j
  let old := match j.current with | some o => some (j.bed o).epoch | none => none
  let j' := j'.setBed b { (j'.bed b) with st := 4 }
  (s.setJob c j').postJob c 0x0403 0
    (toLe 2 nb.epoch ++ toLe 2 (old.getD 0) ++ toLe 1 (b2n old.isSome) ++ toLe 3 0 ++ toLe 8 nb.flip)

/-- Action 1 of R290. -/
def State.flip (s : State) (c : Nat) : State :=
  match s.job c with
  | none => s
  | some j =>
    if j.flips j.stepNext 0 then s.flipBed c j 0
    else if j.flips j.stepNext 1 then s.flipBed c j 1
    else s

/-- Action 3 of R290: a HELD bed that no stream pins is SPARE. -/
def Job.spareHeld (j : Job) : Job :=
  match j.heldBed with
  | some b => if j.anyPins (j.bed b).epoch then j else j.setBed b { (j.bed b) with st := 6 }
  | none => j

/-! ## The bed commands (R283, R284, R296) -/

/-- The pins of a bed's epoch released by force (R296). -/
def Job.forceUnpin (j : Job) (epoch : Nat) : Job :=
  (j.tray.filter fun kv => kv.2.pins epoch).foldl (fun (j : Job) kv => j.setStream kv.1 { kv.2 with pin := false, forcedNote := true }) j

/-- The status of BED_STAGE. -/
def Job.bedStageStatus (j : Job) (bed flags epoch : Nat) : Nat :=
  if 2 ≤ bed then 0x0403 else
  let x := j.bed bed
  let o := j.bed (1 - bed)
  if x.st = 5 ∧ bit flags 0 = false then 0x0401
  else if !(x.st == 0 || x.st == 1 || x.st == 6 || x.st == 5) then 0x0402
  else if o.st ≠ 0 ∧ o.epoch = epoch then 0x0403 else 0

/-- BED_STAGE applied. -/
def State.applyBedStage (s : State) (c : Nat) (h : Head) (bed flags epoch : Nat) : State :=
  match s.job c with
  | none => s
  | some j =>
    let st := j.bedStageStatus bed flags epoch
    if st != 0 then s.done h 0x30 st 0 else
    let j := if (j.bed bed).st = 5 then j.forceUnpin (j.bed bed).epoch else j
    s.setJob c ((j.setBed bed { Bed.empty with st := 1, epoch := epoch }).defer h 0x30)

/-- BED_LOAD applied. -/
def State.applyBedLoad (s : State) (c : Nat) (h : Head) (bed host offset length : Nat) : State :=
  match s.job c with
  | none => s
  | some j =>
    let r := j.bedRange bed
    if 2 ≤ bed then s.done h 0x31 0x0403 0
    else if (j.bed bed).st ≠ 1 then s.done h 0x31 0x0402 0
    else if r.2 < offset + length then s.done h 0x31 0x0403 0
    else match s.hostRead host length with
      | none => s.done h 0x31 0x0007 0
      | some bs =>
        let j := (j.setBed bed { (j.bed bed) with loaded := (j.bed bed).loaded + length }).defer h 0x31
        (s.setJob c j).lpxWrite (r.1 + offset) 4 bs

/-- BED_COMMIT applied; `data` is the manifest digest. A poisoned write fails it with BED_DIGEST (R444). -/
def State.applyBedCommit (s : State) (c : Nat) (h : Head) (bed flip : Nat) (data : List Byte) : State :=
  match s.job c with
  | none => s
  | some j =>
    let x := j.bed bed
    if 2 ≤ bed then s.done h 0x32 0x0403 0
    else if x.st ≠ 1 then s.done h 0x32 0x0402 0
    else if j.current.isSome = true ∧ flip ≤ j.stepNext then s.done h 0x32 0x0404 0
    else if x.poisoned then (s.setJob c (j.setBed bed { x with poisoned := false })).done h 0x32 0x0405 0xFFFFFFFF
    else
      let j := j.setBed bed { x with st := 2, flip := flip, digest := data, commit := some h }
      s.setJob c { j with deferred := j.deferred ++ [⟨h, 0x32, 0, j.stepNext, [], none, [], 0⟩] }

/-- BED_DROP applied. -/
def State.applyBedDrop (s : State) (c : Nat) (h : Head) (bed : Nat) : State :=
  match s.job c with
  | none => s
  | some j =>
    let x := j.bed bed
    if 2 ≤ bed then s.done h 0x33 0x0403 0
    else if !(x.st == 1 || x.st == 3 || x.st == 6) then s.done h 0x33 0x0402 0
    else s.setJob c ((j.setBed bed { Bed.empty with epoch := x.epoch }).defer h 0x33)

end Sys2Proof.Machine
end

