-- ==== Sys2Proof/Machine/OpsGibbs.lean ====
section
/-!
DEFINITION. Dense Gibbs: models, chains, the update, sample records and runs (R300 to R328).
-/
namespace Sys2Proof.Machine
open Sys2Proof

/-! ## Model descriptors (R300 to R308) -/

/-- The width of a layer (R301). -/
def GLayer.width (l : GLayer) : Nat := if l.potts then l.count * l.q else l.count

/-- Layer entry i of a descriptor (R305). -/
def parseGLayer (b : List Byte) (i : Nat) : GLayer :=
  let o := 32 + 16 * i
  ⟨leAt b o 4, leAt b (o + 4) 1 == 1, leAt b (o + 5) 1, leAt b (o + 8) 8⟩

/-- Block entry k of a descriptor with n layers (R306). -/
def parseGBlock (b : List Byte) (n k : Nat) : GBlock :=
  let o := 32 + 16 * n + 32 * k
  ⟨leAt b o 1, leAt b (o + 1) 1, leAt b (o + 8) 8, leAt b (o + 16) 8⟩

/-- Elements of one stored row of weights: a row of an MX block is padded to whole blocks (R307). -/
def weightRow (fmt width : Nat) : Nat := if isMx fmt then roundUp width 32 else width

/-- Bytes of the weights of a block (R307). -/
def weightBytes (fmt rows width : Nat) : Nat :=
  let n := rows * weightRow fmt width
  packedBytes fmt n + (if isMx fmt then n / 32 else 0)

/-- Does the 32-byte header obey R304? -/
def gibbsHeaderOk (b : List Byte) : Bool :=
  let inR := fun v lo hi => decide (lo ≤ v) && decide (v ≤ hi)
  leAt b 0 4 == 0x4B56474D && leAt b 4 2 == 1 && inR (leAt b 6 1) 2 16 && inR (leAt b 7 1) 1 32 && inR (leAt b 8 1) 1 10 &&
    zeroAt b 9 7 && zeroAt b 24 8 && decide (32 + 16 * leAt b 6 1 + 32 * leAt b 7 1 ≤ leAt b 16 8)

/-- Does layer entry i obey R300 and R305? -/
def gibbsLayerOk (b : List Byte) (i : Nat) : Bool :=
  let o := 32 + 16 * i
  let l := parseGLayer b i
  decide (leAt b (o + 4) 1 ≤ 1) && (if l.potts then decide (2 ≤ l.q) && decide (l.q ≤ 64) else l.q == 0) && zeroAt b (o + 6) 2 &&
    decide (l.width ≤ 2 ^ 20) && l.biasOff % 64 == 0 && decide (l.biasOff + 4 * l.width ≤ leAt b 16 8)

/-- Does block entry k obey R302, R306 and R307? -/
def gibbsBlockOk (b : List Byte) (k : Nat) : Bool :=
  let n := leAt b 6 1
  let o := 32 + 16 * n + 32 * k
  let x := parseGBlock b n k
  decide (x.lower < x.upper) && decide (x.upper < n) && (x.upper - x.lower) % 2 == 1 && zeroAt b (o + 2) 6 && zeroAt b (o + 24) 8 &&
    !((List.range k).any fun i => (parseGBlock b n i).lower == x.lower && (parseGBlock b n i).upper == x.upper) &&
    x.wOff % 4096 == 0 && decide (x.wOff + x.wSize ≤ leAt b 16 8) &&
    x.wSize == weightBytes (leAt b 8 1) (parseGLayer b x.lower).width (parseGLayer b x.upper).width

/-- The outcome of a descriptor's check: the number of the first failing entry, or the model. -/
inductive GibbsCheck where
  | bad (entry : Nat)
  | good (m : GModel)
  deriving DecidableEq, Repr

/-- The check of R308. Entries count on from layer 0 through the blocks; the header names 0xFFFFFFFF (log entry 28). -/
def State.checkModel (s : State) (desc work : Nat) : GibbsCheck :=
  let head := s.lpxRead desc 32
  if !gibbsHeaderOk head then .bad 0xFFFFFFFF else
  let n := leAt head 6 1
  let k := leAt head 7 1
  let b := s.lpxRead desc (32 + 16 * n + 32 * k)
  match firstBad n (gibbsLayerOk b) with
  | some i => .bad i
  | none =>
  match firstBad k (gibbsBlockOk b) with
  | some i => .bad (n + i)
  | none => .good ⟨desc, work, leAt b 8 1, (List.range n).map (parseGLayer b), (List.range k).map (parseGBlock b n)⟩

/-- Bytes of working area that a model needs (R308). -/
def GModel.need (m : GModel) : Nat := m.blocks.foldl (fun a (b : GBlock) => a + 2 * b.wSize) 0

/-- Where block k's lower-major copy stands in the working area; its upper-major copy follows (log entry 28). -/
def GModel.blockAt (m : GModel) (k : Nat) : Nat := m.work + (m.blocks.take k).foldl (fun a (b : GBlock) => a + 2 * b.wSize) 0

/-- Layer i of a model. -/
def GModel.layer (m : GModel) (i : Nat) : GLayer := m.layers.getD i ⟨0, false, 0, 0⟩

/-- The upper-major copy of a block: its element codes by upper position, then the scales as they stand. -/
def upperMajor (fmt rows cols : Nat) (bs : List Byte) : List Byte :=
  let w := weightRow fmt cols
  let codes := unpackCodes (formatBits fmt) (rows * w) bs
  let turned := ((List.range w).map fun b => (List.range rows).map fun a => codes.getD (a * w + b) 0).flatten
  packCodes (formatBits fmt) turned ++ bs.drop (packedBytes fmt (rows * w))

/-- Both copies of every block written into the working area (R308). -/
def State.copyModel (s : State) (m : GModel) : State :=
  (List.range m.blocks.length).foldl (fun (s : State) k =>
    match m.blocks[k]? with
    | some b =>
      let bs := s.lpxRead (m.desc + b.wOff) b.wSize
      let s := s.lpxWrite (m.blockAt k) 1 bs
      s.lpxWrite (m.blockAt k + b.wSize) 1 (bytesAt (upperMajor m.wfmt (m.layer b.lower).width (m.layer b.upper).width bs) 0 b.wSize)
    | none => s) s

/-! ## State images (R317, R318) -/

/-- Bytes of a layer's part of the state image before padding. -/
def GLayer.bytes (l : GLayer) : Nat := if l.potts then l.count else 4 * ceilDiv l.count 32

/-- Bytes of a layer's part of the state image. -/
def GLayer.padded (l : GLayer) : Nat := roundUp l.bytes 64

/-- Bytes of the layers that `sel` names. -/
def GModel.partBytes (m : GModel) (sel : Nat → Bool) : Nat :=
  (m.layers.zipIdx.filter fun p => sel p.2).foldl (fun a (p : GLayer × Nat) => a + p.1.padded) 0

/-- Bytes of the state image. -/
def GModel.imageBytes (m : GModel) : Nat := m.partBytes fun _ => true

/-- A layer's units or group states as its part of the image holds them. -/
def GLayer.values (l : GLayer) (bs : List Byte) : List Nat :=
  if l.potts then (bytesAt bs 0 l.count).map (·.toNat) else (List.range l.count).map fun i => b2n (packedBit bs i)

/-- A layer's part of the image. -/
def GLayer.image (l : GLayer) (vs : List Nat) : List Byte :=
  bytesAt (if l.potts then vs.map (BitVec.ofNat 8) else packBits (vs.map (· == 1))) 0 l.padded

/-- The values of every layer, from bytes that hold the layers that `sel` names one after the other; the others keep `old`. -/
def GModel.readLayers (m : GModel) (sel : Nat → Bool) (bs : List Byte) (old : List (List Nat)) : List (List Nat) :=
  m.layers.zipIdx.map fun p =>
    if sel p.2 then p.1.values (bytesAt bs (m.partBytes fun i => sel i && decide (i < p.2)) p.1.padded) else old.getD p.2 []

/-- The image of the layers that `sel` names. -/
def GModel.writeLayers (m : GModel) (sel : Nat → Bool) (vals : List (List Nat)) : List Byte :=
  ((m.layers.zipIdx.filter fun p => sel p.2).map fun p => p.1.image (vals.getD p.2 [])).flatten

/-- The pieces of a chain's page list that hold `n` bytes at offset `off`: DPA and length. -/
def Stream.spans (t : Stream) (off n : Nat) : List (Nat × Nat) :=
  let P := 0x40000
  if n = 0 then [] else
  (List.range ((off + n - 1) / P - off / P + 1)).map fun i =>
    let k := off / P + i
    let lo := Nat.max off (k * P)
    (t.pages.getD k 0 * P + (lo - k * P), Nat.min (off + n) (k * P + P) - lo)

/-- Bytes of a chain's pages. -/
def State.chainRead (s : State) (t : Stream) (off n : Nat) : List Byte :=
  ((t.spans off n).map fun p => s.lpxRead p.1 p.2).flatten

/-- Pieces written one after the other. -/
def State.writeSpans (s : State) : List (Nat × Nat) → List Byte → State
  | [], _ => s
  | p :: ps, bs => State.writeSpans (s.lpxWrite p.1 1 (bs.take p.2)) ps (bs.drop p.2)

/-- Bytes written into a chain's pages, line kind 1. -/
def State.chainWrite (s : State) (t : Stream) (off : Nat) (bs : List Byte) : State := s.writeSpans (t.spans off bs.length) bs

/-- The copy that holds the state after `sweep` sweeps (R318). -/
def chainCopy (sweep : Nat) : Nat := (sweep + 2) % 3

/-- The layer values of a chain. -/
def State.chainValues (s : State) (m : GModel) (t : Stream) : List (List Nat) :=
  m.readLayers (fun _ => true) (s.chainRead t (chainCopy t.sweep * m.imageBytes) m.imageBytes) []

/-- A chain's values written into the copy that `sweep` names. -/
def State.putChain (s : State) (m : GModel) (t : Stream) (sweep : Nat) (vals : List (List Nat)) : State :=
  s.chainWrite t (chainCopy sweep * m.imageBytes) (m.writeLayers (fun _ => true) vals)

/-- Pages of a chain's three copies. -/
def GModel.pages (m : GModel) : Nat := ceilDiv (3 * m.imageBytes) 0x40000

/-! ## Fields (R301, R311) -/

/-- x[p] of a layer (R301). -/
def GLayer.x (l : GLayer) (vs : List Nat) (p : Nat) : Bool :=
  if l.potts then vs.getD (p / l.q) 0xFF == p % l.q else vs.getD p 0 == 1

/-- W[a][b] of block k, from its lower-major copy (R307). -/
def State.weight (s : State) (m : GModel) (k a b : Nat) : FVal :=
  match m.blocks[k]? with
  | none => .fin false 0 0
  | some x =>
    let base := m.blockAt k
    let row := weightRow m.wfmt (m.layer x.upper).width
    let i := a * row + b
    let nb := formatBits m.wfmt
    let raw := (s.lpxLe (base + nb * i / 8) 3 >>> (nb * i % 8)) % 2 ^ nb
    let scale := if isMx m.wfmt then s.lpxLe (base + packedBytes m.wfmt ((m.layer x.lower).width * row) + i / 32) 1 else 0
    elemVal m.wfmt raw scale

/-- The block that joins two layers. -/
def GModel.joins (m : GModel) (l o : Nat) : Option Nat :=
  m.blocks.findIdx? fun x => (x.lower == l && x.upper == o) || (x.lower == o && x.upper == l)

/-- The terms of layer o in the field at position b of layer l. -/
def State.fieldTerms (s : State) (m : GModel) (vals : List (List Nat)) (k l o b : Nat) : List FVal :=
  (List.range (m.layer o).width).map fun a =>
    mulExact (if l < o then s.weight m k b a else s.weight m k a b)
      (if (m.layer o).x (vals.getD o []) a then .fin false 1 0 else .fin false 0 0)

/-- The field at position b of layer l (R311). -/
def State.field (s : State) (m : GModel) (vals : List (List Nat)) (l b : Nat) : W32 :=
  let acc := (List.range m.layers.length).foldl (fun (acc : W32) o =>
    match m.joins l o with
    | some k => canonicalSum acc (s.fieldTerms m vals k l o b)
    | none => acc) 0#32
  f32Add acc (BitVec.ofNat 32 (s.lpxLe (m.desc + (m.layer l).biasOff + 4 * b) 4))

/-! ## Draws (R312, R314, R325) -/

/-- What one redraw of a layer gives: its values, the probabilities that its draws used, and the flags SAT (1) and NAN_LOST (2). -/
structure Redraw where
  vals : List Nat
  probs : List W32
  flags : Nat
  deriving DecidableEq, Repr

/-- Redraws one after the other. -/
def Redraw.append (a b : Redraw) : Redraw := ⟨a.vals ++ b.vals, a.probs ++ b.probs, a.flags ||| b.flags⟩

/-- A chain's draw of one sweep: key, tray index, sweep number, inverse temperature. -/
structure GDraw where
  key : W128
  index : Nat
  sweep : Nat
  temp : W32
  deriving DecidableEq, Repr

/-- inv_T. -/
def GDraw.invT (d : GDraw) : W32 := f32Div f32One d.temp

/-- The uniform of element i of layer l (R213, R214). -/
def GDraw.u (d : GDraw) (l i : Nat) : Nat := sporeDraw d.key 0x20 d.index (2 * d.sweep + l % 2) (l / 2 * 2 ^ 40 + i)

/-- SAT and NAN_LOST of a field's sanitisation (R262). -/
def saniFlags (f : W32) : Nat := if f32IsNaN f then 2 else if f = f32Inf then 1 else 0

/-- 1.0 or 0.0. -/
def f32Bit (b : Bool) : W32 := if b then f32One else 0#32

/-- A binary unit redrawn from its raw field. -/
def GDraw.unit (d : GDraw) (l b : Nat) (raw : W32) : Redraw :=
  let f := sanitise raw
  if d.temp = 0#32 then
    let on := f32Lt 0#32 f
    ⟨[b2n on], [f32Bit on], saniFlags raw⟩
  else
    let r := bernField f d.invT (d.u l b)
    ⟨[b2n r.1], [sigmoidK (f32Mul f d.invT)], saniFlags raw ||| (if r.2 then 2 else 0)⟩

/-- The probabilities of a Potts group (R325). -/
def pottsProbs (ys : List W32) : List W32 :=
  let m := (xmax ys.zipIdx).1
  let ts := ys.map fun y => expK (f32Sub y m)
  let S := xsum ts
  ts.map fun t => f32Div t S

/-- A Potts group redrawn from its raw fields. -/
def GDraw.group (d : GDraw) (l g : Nat) (raw : List W32) : Redraw :=
  let fs := raw.map sanitise
  let fl := raw.foldl (fun a x => a ||| saniFlags x) 0
  if d.temp = 0#32 then
    let st := (xmax fs.zipIdx).2
    ⟨[st], (List.range raw.length).map fun i => f32Bit (i == st), fl⟩
  else
    let st := (xmax (fs.zipIdx.map fun p => (gumbelAdd p.1 d.invT (d.u l (g * 64 + p.2)), p.2))).2
    ⟨[st], pottsProbs (fs.map fun f => f32Mul f d.invT), fl⟩

/-- Is the unit or group i of layer l of a chain clamped (R314)? -/
def State.clamped (s : State) (m : GModel) (t : Stream) (l i : Nat) : Bool :=
  bit t.clampLayers l || (l == 0 && t.clampUnits &&
    (let p := if (m.layer 0).potts then i * (m.layer 0).q else i
     bit (s.lpxLe (t.clampPtr + p / 8) 1) (p % 8)))

/-- The probabilities of a unit or group that is not redrawn. -/
def GLayer.kept (l : GLayer) (v : Nat) : List W32 :=
  if l.potts then (List.range l.q).map fun st => f32Bit (st == v) else [f32Bit (v == 1)]

/-- Layer l of a chain redrawn: every unit or group that is not clamped. -/
def State.redrawLayer (s : State) (m : GModel) (t : Stream) (d : GDraw) (vals : List (List Nat)) (l : Nat) : Redraw :=
  let y := m.layer l
  let old := vals.getD l []
  (List.range y.count).foldl (fun (acc : Redraw) i =>
    acc.append (
      if s.clamped m t l i then ⟨[old.getD i 0], y.kept (old.getD i 0), 0⟩
      else if y.potts then d.group l i ((List.range y.q).map fun st => s.field m vals l (i * y.q + st))
      else d.unit l i (s.field m vals l i))) ⟨[], [], 0⟩

/-- The state of a sweep in progress: values and probabilities by layer, and flags. -/
structure SweepAcc where
  vals : List (List Nat)
  probs : List (List W32)
  flags : Nat
  deriving DecidableEq, Repr

/-- Half-sweep q: every layer of the colour from the values of the other colour (R310). -/
def State.halfSweep (s : State) (m : GModel) (t : Stream) (d : GDraw) (a : SweepAcc) (q : Nat) : SweepAcc :=
  (List.range m.layers.length).foldl (fun (b : SweepAcc) l =>
    if l % 2 = q then
      let r := s.redrawLayer m t d a.vals l
      ⟨b.vals.set l r.vals, b.probs.set l r.probs, b.flags ||| r.flags⟩
    else b) a

/-- One sweep of a chain. -/
def State.sweepChain (s : State) (m : GModel) (t : Stream) (key : W128) (index : Nat) : SweepAcc :=
  let d : GDraw := ⟨key, index, t.sweep, t.temp⟩
  let a : SweepAcc := ⟨s.chainValues m t, m.layers.map fun _ => [], 0⟩
  s.halfSweep m t d (s.halfSweep m t d a 0) 1

/-! ## Initial states (R319) -/

/-- The element that mode 2 draws for unit or state i of layer l. -/
def initDraw (key : W128) (index l i : Nat) : Nat := sporeDraw key 0x40 index 0 (l / 2 * 2 ^ 40 + i)

/-- A layer's initial values in mode 2. -/
def GLayer.initial (y : GLayer) (key : W128) (index l : Nat) : List Nat :=
  if l % 2 = 0 then List.replicate y.count 0
  else if y.potts then (List.range y.count).map fun g =>
    (xmax ((List.range y.q).map fun st => (gumbelAdd 0#32 f32One (initDraw key index l (g * 64 + st)), st))).2
  else (List.range y.count).map fun i => b2n (decide (initDraw key index l i < 0x800000))

/-- A chain's initial values: `img` is the host's state image where the mode or a clamped layer needs one. -/
def GModel.initialValues (m : GModel) (mode : Nat) (t : Stream) (key : W128) (index : Nat) (img : List Byte) : List (List Nat) :=
  let base := m.layers.zipIdx.map fun p =>
    if mode = 2 then p.1.initial key index p.2 else List.replicate p.1.count 0
  let given := m.readLayers (fun _ => true) img []
  if mode = 1 then given
  else base.zipIdx.map fun p => if bit t.clampLayers p.2 then given.getD p.2 [] else p.1

/-- Does the initial state need an image from the host? -/
def initNeedsImage (mode clampLayers : Nat) : Bool := mode == 1 || clampLayers != 0

/-- The model that a chain names. -/
def Job.model (j : Job) (h : Nat) : Option GModel := Map.find j.models h

/-- A chain's initial state is fetched or formed (R316, R319): copy 2 holds it, or the entry is FREE again and the CHAIN_OPEN completes
with HOST_READ_FAULT. -/
def State.chainFetched (s : State) (c index : Nat) : State :=
  match s.job c with
  | none => s
  | some j =>
    let t := j.stream index
    match j.model t.model with
    | none => s
    | some m =>
      let img := if initNeedsImage t.fetch.2 t.clampLayers then s.hostRead t.fetch.1 m.imageBytes else some []
      match img with
      | some bs =>
        let vals := m.initialValues t.fetch.2 t (sporeKey j.seed t.seed) index bs
        (s.setJob c (j.setStream index { t with fetched := true })).putChain m t 0 vals
      | none =>
        let due := j.deferred.filter fun d => d.waits.contains index
        let j := { (j.freeStream index) with deferred := j.deferred.filter fun d => !d.waits.contains index }
        due.foldl (fun (s : State) d => s.done d.head d.opcode 0x0007 0) (s.setJob c j)

/-! ## The commands (R320, R321) -/

/-- As `defer`, with a RESULT and CFLAGS of the command's own. -/
def Job.deferWith (j : Job) (h : Head) (op status result flags : Nat) : Job :=
  { j with deferred := j.deferred ++ [⟨h, op, status, result, [], some j.nextCut, [], flags⟩] }

/-- The lowest handle from 1 to 16 that names no model. -/
def Job.freeModel (j : Job) : Option Nat := ((List.range 16).map (· + 1)).find? fun h => (j.model h).isNone

/-- A DPA outside the partition: CONTEXT_DENIED and PARTITION_DENIED (R531). -/
def State.denied (s : State) (c : Nat) (h : Head) (op dpa : Nat) : State := (s.postDenied c dpa).done h op 0x0801 0

/-- GIBBS_MODEL_LOAD applied (R308). -/
def State.applyModelLoad (s : State) (c : Nat) (h : Head) (desc work workSize : Nat) : State :=
  match s.job c with
  | none => s
  | some j =>
    if !s.inPartition c desc 32 then s.denied c h 0x40 desc
    else if !s.inPartition c work workSize then s.denied c h 0x40 work
    else if gibbsHeaderOk (s.lpxRead desc 32) && !s.inPartition c desc (s.lpxLe (desc + 16) 8) then s.denied c h 0x40 desc
    else
    match s.checkModel desc work with
    | .bad e => s.done h 0x40 0x0501 e
    | .good m =>
      if workSize < m.need then s.done h 0x40 0x0502 0 else
      match j.freeModel with
      | none => s.done h 0x40 0x000B 0
      | some k => (s.setJob c ({ j with models := Map.put j.models k m }.deferWith h 0x40 0 k 0)).copyModel m

/-- GIBBS_MODEL_DROP applied. -/
def State.applyModelDrop (s : State) (c : Nat) (h : Head) (handle : Nat) : State :=
  match s.job c with
  | none => s
  | some j =>
    if handle = 0 ∨ 16 < handle then s.done h 0x41 0x0502 0
    else if (j.model handle).isNone then s.done h 0x41 0x0501 0
    else if j.tray.any fun kv => kv.2.kind == 3 && kv.2.model == handle && (kv.2.st != 0 || kv.2.seedWait) then s.done h 0x41 0x0503 0
    else s.setJob c ({ j with models := Map.del j.models handle }.defer h 0x41)

/-- Are a chain's temperature, clamp mask and flags in range for a model? -/
def chainFieldsOk (m : Option GModel) (temp clampLayers cflags : Nat) : Bool :=
  tempOk (BitVec.ofNat 32 temp) && decide (cflags < 4) &&
    (match m with | some m => decide (clampLayers < 2 ^ m.layers.length) | none => true)

/-- Bytes of the unit mask of layer 0. -/
def GModel.maskBytes (m : GModel) : Nat := 4 * ceilDiv (m.layer 0).width 32

/-- The status of CHAIN_OPEN. -/
def State.chainOpenStatus (s : State) (j : Job) (index handle init seedMode temp clampLayers cflags : Nat) : Nat :=
  let t := j.stream index
  if j.trayEntries ≤ index then 0x0301
  else if t.st != 0 || t.seedWait then 0x0303
  else if 2 < init || 1 < seedMode || handle = 0 || 16 < handle || !chainFieldsOk (j.model handle) temp clampLayers cflags then 0x0502
  else match j.model handle with
    | none => 0x0501
    | some m =>
      if j.freePages < m.pages || j.freeChunks < chunksFor 0 m.pages then 0x0306
      else if seedMode = 1 then (s.seedRefused 1).getD 0 else 0

/-- CHAIN_OPEN applied (R315, R319). -/
def State.applyChainOpen (s : State) (c : Nat) (h : Head)
    (index handle init seedMode seed temp clampLayers cflags clampPtr host user : Nat) : State :=
  match s.job c with
  | none => s
  | some j =>
    let st := s.chainOpenStatus j index handle init seedMode temp clampLayers cflags
    if st != 0 then s.done h 0x42 st 0 else
    match j.model handle with
    | none => s
    | some m =>
      let units := bit cflags 0
      if units && !s.inPartition c clampPtr m.maskBytes then s.denied c h 0x42 clampPtr else
      let dev := seedMode == 1
      let a := j.takePages m.pages
      let b := a.2.takeChunks (chunksFor 0 m.pages)
      let j := b.2
      let t : Stream :=
        { Stream.free with
          kind := 3, st := if dev then 0 else 1, gen := ((j.stream index).gen + 1) % 4096, parent := 0xFFFFFFFF
          seed := if dev then 0#64 else BitVec.ofNat 64 seed, seedDev := dev, seedWait := dev, temp := BitVec.ofNat 32 temp
          model := handle, clampLayers := clampLayers, clampUnits := units, mirror := bit cflags 1
          clampPtr := if units then clampPtr else 0, pages := a.1, pageChunks := b.1, user := BitVec.ofNat 64 user
          fetch := (host, init) }
      let j := (j.setStream index t).deferReady h 0x42 [index]
      let s := (s.setJob c j).writePages j t 0
      if dev then s.askSeed c index else s

/-- The status of a command that names a chain in one of the states that `allowed` names. -/
def Job.chainStatus (j : Job) (index gen : Nat) (allowed : Nat → Bool) : Nat :=
  j.nameStatus index gen fun t => t.kind == 3 && allowed t.st

/-- CHAIN_SET applied. -/
def State.applyChainSet (s : State) (c : Nat) (h : Head) (index gen select temp clampLayers cflags clampPtr : Nat) : State :=
  match s.job c with
  | none => s
  | some j =>
    let t := j.stream index
    let st := j.chainStatus index gen (· == 2)
    if st != 0 then s.done h 0x43 st 0 else
    let pick := fun (i : Nat) (new old : Nat) => if bit select i then new else old
    let temp := pick 0 temp t.temp.toNat
    let layers := pick 1 clampLayers t.clampLayers
    let flags := pick 2 cflags (b2n t.clampUnits + 2 * b2n t.mirror)
    let ptr := pick 3 clampPtr t.clampPtr
    if 15 < select || !chainFieldsOk (j.model t.model) temp layers flags then s.done h 0x43 0x0502 0 else
    match j.model t.model with
    | none => s.done h 0x43 0x0501 0
    | some m =>
      let units := bit flags 0
      if units && !s.inPartition c ptr m.maskBytes then s.denied c h 0x43 ptr else
      let t := { t with temp := BitVec.ofNat 32 temp, clampLayers := layers, clampUnits := units, mirror := bit flags 1
                        clampPtr := if units then ptr else 0 }
      s.setJob c ((j.setStream index t).defer h 0x43)

/-- CHAIN_WRITE applied. -/
def State.applyChainWrite (s : State) (c : Nat) (h : Head) (index gen layers host : Nat) : State :=
  match s.job c with
  | none => s
  | some j =>
    let t := j.stream index
    let st := j.chainStatus index gen (· == 2)
    if st != 0 then s.done h 0x44 st 0 else
    match j.model t.model with
    | none => s.done h 0x44 0x0501 0
    | some m =>
      if 2 ^ m.layers.length ≤ layers then s.done h 0x44 0x0502 0 else
      match s.hostRead host (m.partBytes (bit layers)) with
      | none => s.done h 0x44 0x0007 0
      | some bs =>
        let vals := m.readLayers (bit layers) bs (s.chainValues m t)
        (s.setJob c ((j.setStream index t).defer h 0x44)).putChain m t t.sweep vals

/-- CHAIN_READ applied; a write that cannot be sent fails the command (R699). -/
def State.applyChainRead (s : State) (c : Nat) (h : Head) (index gen layers host : Nat) : State :=
  match s.job c with
  | none => s
  | some j =>
    let t := j.stream index
    let st := j.chainStatus index gen fun x => x == 2 || x == 6
    if st != 0 then s.done h 0x45 st 0 else
    match j.model t.model with
    | none => s.done h 0x45 0x0501 0
    | some m =>
      if 2 ^ m.layers.length ≤ layers then s.done h 0x45 0x0502 0
      else if !s.hostCanWrite then s.done h 0x45 0x0008 0
      else (s.setJob c (j.defer h 0x45)).hostWrite host (m.writeLayers (bit layers) (s.chainValues m t))

/-! ## Runs (R322 to R327) -/

/-- Bytes of one sample record's payload. -/
def GModel.payload (m : GModel) (prob : Bool) (layers : Nat) : Nat :=
  if prob then (m.layers.zipIdx.filter fun p => bit layers p.2).foldl (fun a (p : GLayer × Nat) => a + roundUp (4 * p.1.width) 64) 0
  else m.partBytes (bit layers)

/-- Bytes of a chain's records of one sample point (R325, R326). -/
def GModel.recordBytes (m : GModel) (output layers : Nat) : Nat :=
  (if output = 1 then 0 else 64 + m.payload false layers) + (if output = 0 then 0 else 64 + m.payload true layers)

/-- The chains that a GIBBS_RUN's list names: index in [19:0], GEN in [31:20] of each 4 bytes (log entry 28). -/
def gibbsList (n : Nat) (data : List Byte) : List (Nat × Nat) :=
  (List.range n).map fun i => (leAt data (4 * i) 4 % 2 ^ 20, leAt data (4 * i) 4 / 2 ^ 20)

/-- The operands of GIBBS_RUN. -/
structure GRunOps where
  chains : Nat
  layers : Nat
  output : Nat
  list : Nat
  sweeps : Nat
  burn : Nat
  interval : Nat
  progressEvery : Nat
  result : Nat
  resultSize : Nat
  deriving DecidableEq, Repr

/-- The 64 bytes of the descriptor (R464, R468). -/
def GRunOps.desc (o : GRunOps) (h : Head) : List Byte :=
  toLe 1 0x46 ++ toLe 1 1 ++ toLe 2 0 ++ toLe 4 h.tag.toNat ++ toLe 4 o.chains ++ toLe 2 o.layers ++ toLe 1 o.output ++ toLe 1 0 ++
    toLe 8 o.list ++ toLe 4 o.sweeps ++ toLe 4 o.burn ++ toLe 4 o.interval ++ toLe 4 o.progressEvery ++ toLe 8 o.result ++
    toLe 8 o.resultSize ++ toLe 8 0

/-- Chains that a run may have (R322). -/
def Job.runMax (j : Job) : Nat := if j.split then 32768 else 65536

/-- Are the parameters of R322 and R326 in range for the model of its chains? -/
def GRunOps.ok (o : GRunOps) (max : Nat) (m : Option GModel) (oneModel : Bool) : Bool :=
  decide (1 ≤ o.chains) && decide (o.chains ≤ max) && oneModel && decide (1 ≤ o.sweeps) && decide (o.burn ≤ o.sweeps) &&
    decide (1 ≤ o.interval) && o.layers != 0 && decide (o.output ≤ 2) &&
    (match m with
     | some m => decide (o.layers < 2 ^ m.layers.length) &&
         decide ((o.sweeps - o.burn) / o.interval * o.chains * m.recordBytes o.output o.layers ≤ o.resultSize)
     | none => true)

/-- The status of GIBBS_RUN (R321 to R323). -/
def Job.gibbsRunStatus (j : Job) (o : GRunOps) (ls : List (Nat × Nat)) : Nat :=
  let ts := ls.map fun p => j.stream p.1
  let h := (ts.headD Stream.free).model
  if ls.any fun p => decide (j.trayEntries ≤ p.1) then 0x0301
  else if ls.any fun p => (j.stream p.1).st != 0 && (j.stream p.1).gen != p.2 then 0x0302
  else if ts.any (fun t => t.kind != 3 || t.st != 2) || (ls.map (·.1)).eraseDups.length != ls.length then 0x0303
  else if !o.ok j.runMax (j.model h) (ts.all fun t => t.model == h) then 0x0502
  else if (j.model h).isNone then 0x0501
  else if j.grun.isSome then 0x0503 else 0

/-- Insertion into an ascending list. -/
def insertNat (x : Nat) : List Nat → List Nat
  | [] => [x]
  | y :: ys => if x ≤ y then x :: y :: ys else y :: insertNat x ys

/-- A list of numbers in ascending order. -/
def sortNat (xs : List Nat) : List Nat := xs.foldl (fun acc x => insertNat x acc) []

/-- GIBBS_RUN applied: its chains move to RUNNING (R323). -/
def State.applyGibbsRun (s : State) (c : Nat) (h : Head) (o : GRunOps) (data : List Byte) : State :=
  match s.job c with
  | none => s
  | some j =>
    let ls := gibbsList o.chains data
    let st := j.gibbsRunStatus o ls
    if st != 0 then s.done h 0x46 st 0 else
    let idx := sortNat (ls.map (·.1))
    let j := idx.foldl (fun (j : Job) i => j.setStream i { j.stream i with st := 3 }) j
    let run : GRun :=
      { head := h, desc := o.desc h, chains := idx, total := o.chains, sweeps := o.sweeps, burn := o.burn, interval := o.interval
        layers := o.layers, output := o.output, result := o.result, progressEvery := o.progressEvery, done := 0, nextSeq := 0
        closed := 0, faulted := 0, writeFault := false, flags := 0 }
    s.setJob c { j with grun := some run }

/-! ## The Gibbs step -/

/-- Is sweep n of the run, counted from 1, a sample point (R325)? -/
def GRun.samplePoint (r : GRun) (n : Nat) : Bool := decide (r.burn < n) && (n - r.burn) % r.interval == 0

/-- Does a sample record of a step carry REPLAY (R434)? -/
def Job.sampleReplay (j : Job) (step : Nat) : Bool :=
  match j.regrow with
  | some r => r.replaySample != 2 ^ 64 - 1 && decide (step ≤ r.replaySample)
  | none => false

/-- A sample record (R326). -/
def sampleRecord (t : Stream) (index layers : Nat) (prob : Bool) (seq step : Nat) (replay : Bool) (payload : List Byte) : List Byte :=
  toLe 4 (index + t.gen * 2 ^ 20) ++ toLe 2 layers ++ toLe 1 (b2n prob) ++ toLe 1 0 ++ toLe 8 t.sweep ++ toLe 4 payload.length ++
    toLe 4 seq ++ toLe 8 step ++ toLe 1 (b2n replay) ++ List.replicate 31 0#8 ++ payload

/-- The probability payload of the layers that a mask names. -/
def GModel.probPayload (m : GModel) (layers : Nat) (probs : List (List W32)) : List Byte :=
  ((m.layers.zipIdx.filter fun p => bit layers p.2).map fun p =>
    padTo 64 (((probs.getD p.2 []).map fun (x : W32) => toLe 4 x.toNat).flatten)).flatten

/-- The records of one chain at a sample point, bits first. -/
def GRun.records (r : GRun) (m : GModel) (t : Stream) (index step : Nat) (replay : Bool) (a : SweepAcc) : List Byte :=
  (if r.output = 1 then [] else sampleRecord t index r.layers false r.nextSeq step replay (m.writeLayers (bit r.layers) a.vals)) ++
    (if r.output = 0 then [] else sampleRecord t index r.layers true r.nextSeq step replay (m.probPayload r.layers a.probs))

/-- What a chain's sweep adds to the step: the records so far, the flags, and the chains that FAULTED. -/
structure GStepAcc where
  records : List Byte
  flags : Nat
  faulted : List Nat
  deriving DecidableEq, Repr

/-- STREAM_FAULTED (R240, R481). -/
def State.postFaulted (s : State) (c index gen step : Nat) : State :=
  s.postJob c 0x0301 0x0307 (toLe 4 (index + gen * 2 ^ 20) ++ toLe 4 0 ++ toLe 8 step)

/-- One chain of the run sweeps (R310, R318, R324, R325). -/
def State.stepChain (s : State) (c : Nat) (r : GRun) (step : Nat) (acc : GStepAcc) (i : Nat) : State × GStepAcc :=
  match s.job c with
  | none => (s, acc)
  | some j =>
    let t := j.stream i
    if t.pages.any (fun p => (j.page p).st == 3) then
      ((s.setJob c (j.setStream i { t with st := 6, fault := 0x0307 })).postFaulted c i t.gen step,
        { acc with faulted := acc.faulted ++ [i] })
    else
    match j.model t.model with
    | none => (s, acc)
    | some m =>
      let a := s.sweepChain m t (sporeKey j.seed t.seed) i
      let point := r.samplePoint (r.done + 1)
      let n := if point then (if r.output = 2 then 2 else 1) else 0
      let t := { t with sweep := t.sweep + 1, samples := t.samples + n }
      let s := (s.setJob c (j.setStream i t)).putChain m t t.sweep a.vals
      (s, { acc with records := if point then acc.records ++ r.records m t i step (j.sampleReplay step) a else acc.records
                     flags := acc.flags ||| a.flags })

/-- Every chain of the run, in ascending index. -/
def State.stepChains (c : Nat) (r : GRun) (step : Nat) : List Nat → State × GStepAcc → State × GStepAcc
  | [], x => x
  | i :: is, x => State.stepChains c r step is (x.1.stepChain c r step x.2 i)

/-- The run has ended (R324): its chains are READY again, and its completion needs the next cutting. -/
def State.endGibbsRun (s : State) (c : Nat) (r : GRun) (step : Nat) : State :=
  s.onJob c fun j =>
    let j := r.chains.foldl (fun (j : Job) i =>
      let t := j.stream i
      j.setStream i { t with st := 2, runs := (t.runs + 1) % 2 ^ 32, readyStep := step }) j
    let j := { j with grun := none }
    j.deferWith r.head 0x46 (if r.writeFault then 0x0008 else 0)
      (r.done % 2 ^ 32 + fld 32 16 r.closed + fld 48 16 r.faulted) r.flags

/-- A run without chains is over (R324). -/
def State.endEmptyRun (s : State) (c : Nat) : State :=
  match s.job c with
  | some j => (match j.grun with
      | some r => if r.chains.isEmpty then s.endGibbsRun c r j.stepNext else s
      | none => s)
  | none => s

/-- Bytes of a chain's records of one sample point for the model that a run samples. -/
def Job.runBytes (j : Job) (r : GRun) : Nat :=
  match r.chains with
  | [] => 0
  | i :: _ => (match j.model (j.stream i).model with | some m => m.recordBytes r.output r.layers | none => 0)

/-- One Gibbs step: a sweep of every chain of the run (R323 to R327). The records of sample point SEQ start at
RESULT + SEQ × CHAINS × their size (log entry 28). -/
def State.gibbsStep (s : State) (c step : Nat) : State :=
  match s.job c with
  | none => s
  | some j =>
    match j.grun with
    | none => s
    | some r =>
      let x := State.stepChains c r step r.chains (s, ⟨[], 0, []⟩)
      let a := x.2
      let point := r.samplePoint (r.done + 1)
      let s := if point then x.1.hostWrite (r.result + r.nextSeq * r.total * j.runBytes r) a.records else x.1
      let r' := { r with
        chains := r.chains.filter fun i => !a.faulted.contains i
        done := r.done + 1
        nextSeq := if point then r.nextSeq + 1 else r.nextSeq
        faulted := r.faulted + a.faulted.length
        writeFault := r.writeFault || (point && !s.hostCanWrite)
        flags := r.flags ||| a.flags }
      let s := s.onJob c fun j => { j with grun := some r' }
      let s := if r.progressEvery != 0 && r'.done % r.progressEvery == 0 then s.postJob c 0x0501 0 (toLe 8 r'.done ++ toLe 8 r.sweeps) else s
      if r'.done = r.sweeps || r'.chains.isEmpty then s.endGibbsRun c r' step else s

end Sys2Proof.Machine
end

