-- ==== Sys2Proof/Machine/OpsKernel.lean ====
section
/-!
DEFINITION. Kernel images, their load and unload, KERNEL_AREA, the step program, and the launch of a kernel (R119, R120, R152 to R155,
R161 to R166, R473, R702).
-/
namespace Sys2Proof.Machine
open Sys2Proof

/-! ## Images (R152 to R154) -/

/-- A 4-byte field of an image's header. -/
def imgField (b : List Byte) (o : Nat) : Nat := leAt b o 4

/-- The sections that an image's header locates: offset and size. -/
def imgSections (b : List Byte) : List (Nat × Nat) :=
  [(imgField b 12, 8 * imgField b 16), (imgField b 24, imgField b 28)] ++
    (if bit (leAt b 6 2) 0 then [(imgField b 36, imgField b 40)] else [])

/-- Is every pair of a list of ranges disjoint? -/
def rangesApart : List (Nat × Nat) → Bool
  | [] => true
  | r :: rs => rs.all (fun x => !overlaps r x) && rangesApart rs

/-- Do the sections lie inside the image, clear of the header, the trailer and one another? An empty section overlaps nothing. -/
def imgLayoutOk (b : List Byte) (size : Nat) : Bool :=
  let ss := imgSections b
  ss.all (fun r => decide (r.1 + r.2 ≤ size)) && rangesApart ((0, 128) :: (size - 48, 48) :: ss.filter fun r => r.2 != 0)

/-- The sixteen tile entries. -/
def imgTiles (b : List Byte) : List W32 := (List.range 16).map fun t => BitVec.ofNat 32 (leAt b (48 + 4 * t) 4)

/-- Does the tile map obey R89? -/
def tileMapOk (es : List W32) : Bool :=
  let vs := es.filterMap tileOfEntry
  vs.all (fun t => t.rows != 0 && t.cols != 0 && decide (t.base + t.extent ≤ 262144)) &&
    rangesApart (vs.map fun t => (t.base, t.extent))

/-- The checks of R154 but those of the phase-table entries. -/
def imgOk (b : List Byte) (size : Nat) : Bool :=
  let fl := leAt b 6 2
  let n := imgField b 16
  imgField b 0 == 0x4B564B49 && leAt b 4 2 == 1 && imgField b 8 == size && decide (176 ≤ size) && decide (fl < 2) && zeroAt b 112 16 &&
    (imgTiles b).all (fun e => bits e.toNat 15 6 == 0) && imgField b 12 % 8 == 0 && imgField b 28 % 64 == 0 && imgField b 32 % 64 == 0 &&
    decide (0x100 ≤ imgField b 32) && decide (imgField b 44 ≤ 256) &&
    (if bit fl 0 then imgField b 36 != 0 && imgField b 40 != 0 else imgField b 36 == 0 && imgField b 40 == 0) &&
    imgLayoutOk b size && decide (1 ≤ n) && decide (n ≤ 8192) && decide (imgField b 20 < n) &&
    decide (imgField b 32 + imgField b 28 ≤ 0x100000) && tileMapOk (imgTiles b) && sha384 (b.take (size - 48)) == b.drop (size - 48)

/-- Does the phase-table section header obey R161? -/
def phaseHeaderOk (b : List Byte) : Bool :=
  let o := imgField b 36
  let n := leAt b (o + 4) 4
  !bit (leAt b 6 2) 0 ||
    (decide (16 ≤ imgField b 40) && decide (1 ≤ leAt b o 2) && decide (leAt b o 2 ≤ 4096) && zeroAt b (o + 2) 2 && decide (1 ≤ n) &&
      decide (n ≤ 1048576) && zeroAt b (o + 8) 8 && imgField b 40 == 16 + 8 * n)

/-- The phase table of an image. -/
def imgTable (b : List Byte) : Option PhaseTable :=
  if bit (leAt b 6 2) 0 then
    let o := imgField b 36
    some ⟨leAt b o 2, (List.range (leAt b (o + 4) 4)).map fun i => BitVec.ofNat 64 (leAt b (o + 16 + 8 * i) 8)⟩
  else none

/-- The image as the device keeps it. -/
def imgParse (b : List Byte) (handle c size : Nat) : KImage :=
  { handle := handle, ctx := c, size := size, codeOfs := imgField b 12
    code := (List.range (imgField b 16)).map fun i => BitVec.ofNat 64 (leAt b (imgField b 12 + 8 * i) 8)
    entry := imgField b 20, consts := bytesAt b (imgField b 24) (imgField b 28), constLs := imgField b 32, argSize := imgField b 44
    tileMap := imgTiles b, table := imgTable b }

/-! ## The check of a phase table (R164) -/

/-- RANGE (kind 5). -/
def PhEntry.outOfRange (e : PhEntry) (period : Nat) : Bool :=
  e.dir == 0 || decide (period ≤ e.slot + e.run) || e.rsv != 0 || (e.dir == 2 && e.space == 1) ||
    (if e.dir = 1 ∧ e.space = 1 then decide (2 ≤ e.view) else e.view != 0 || e.clr) ||
    (e.rot != 0 && !(e.space == 0 && (e.dir == 1 || e.dir == 2)))

/-- Do two entries share a slot (R163)? -/
def PhEntry.meets (a b : PhEntry) : Bool := decide (a.slot ≤ b.slot + b.run) && decide (b.slot ≤ a.slot + a.run)

/-- Do two entries move data in the same direction? -/
def PhEntry.sameWay (a b : PhEntry) : Bool := (a.dir == 1) == (b.dir == 1)

/-- The kind of rule that an entry breaks against those before it, with the port of the entry that it meets. -/
def PhEntry.breaks (e : PhEntry) (period : Nat) (split : Bool) (half : Nat) (before : List PhEntry) : Option (Nat × Nat) :=
  let hit := fun (same : PhEntry → Bool) => (before.find? fun x => x.meets e && x.sameWay e && same x).map fun x => x.port
  let low := match before.getLast? with | some x => decide (e.slot < x.slot) || (e.slot == x.slot && decide (e.port < x.port)) | none => false
  if e.outOfRange period then some (5, 0)
  else if low then some (6, 0)
  else if controlSlice e.slice then some (7, 0)
  else if split && e.slice / 256 != half then some (8, 0)
  else match hit (fun x => x.slice == e.slice), hit (fun x => x.port == e.port) with
    | some p, _ => some (if e.dir = 1 then 1 else 2, p)
    | none, some p => some (if e.dir = 1 then 3 else 4, p)
    | none, none => none

/-- A table's first conflict: the entry's index, the ESP_CONFLICT value. -/
def tableConflict (period : Nat) (split : Bool) (half : Nat) : List PhEntry → Nat → List PhEntry → Option (Nat × Nat)
  | _, _, [] => none
  | before, i, e :: es =>
    match e.breaks period split half before with
    | some (k, p) => some (i, fld 0 12 e.slot + fld 12 4 k + fld 16 9 e.port + fld 32 9 e.slice + fld 48 9 p)
    | none => tableConflict period split half (before ++ [e]) (i + 1) es

/-! ## KERNEL_AREA (R702) -/

/-- Is a range of KERNEL_AREA free? -/
def Job.areaFree (j : Job) (dpa n : Nat) : Bool :=
  decide (dpa + n ≤ j.params.kernelArea + j.params.kernelAreaSize) && j.area.all fun a => !overlaps (dpa, n) (a.dpa, a.size)

/-- The lowest DPA at which a copy of n bytes fits. -/
def Job.place (j : Job) (n : Nat) : Option Nat :=
  let starts := sortNat (j.params.kernelArea :: j.area.map fun a => a.dpa + a.size)
  starts.find? fun d => j.areaFree d (roundUp n 4096)

/-- A copy placed. -/
def Job.addBlock (j : Job) (dpa n handle : Nat) : Job := { j with area := j.area ++ [⟨dpa, roundUp n 4096, handle, none⟩] }

/-- The lowest free handle. -/
def Job.freeHandle (j : Job) : Nat := lowestGap (0 :: j.area.map (·.handle))

/-- Instructions of the resident images of a context. -/
def State.codeCount (s : State) (c : Nat) : Nat := ((s.kernels.filter fun k => k.ctx == c).map fun k => k.code.length).foldl (· + ·) 0

/-- Do the stores hold one more image (R155, R165)? -/
def State.storesHold (s : State) (c halves : Nat) (k : KImage) : Bool :=
  decide (s.codeCount c + k.code.length ≤ 8192) && (match k.table with
    | none => true
    | some t => decide ((s.kernels.filter fun x => x.table.isSome).length < 16) &&
        (List.range 2).all fun h => !bit halves h || decide (s.tableEntries h + t.entries.length ≤ 1048576))

/-- An image resident: its code in the instruction store of every core of the halves. -/
def State.addImage (s : State) (halves : Nat) (k : KImage) : State :=
  let s := s.onCores (inHalves halves) fun _ x => { x with images := x.images ++ [k.handle] }
  { s with kernels := s.kernels ++ [k] }

/-- KERNEL_LOAD after R465 (R154, R702). -/
def State.loadKernel (s : State) (c : Nat) (h : Head) (host size : Nat) : State :=
  match s.job c with
  | none => s
  | some j =>
    match s.hostRead host size with
    | none => s.done h 0x80 0x0007 0
    | some b =>
      if !(imgOk b size && phaseHeaderOk b) then s.done h 0x80 0x0205 0 else
      let k := imgParse b j.freeHandle c size
      let bad := match k.table with
        | some t => tableConflict t.period j.split (maskHalf j.halves) [] 0 (t.entries.map phEntry)
        | none => none
      match bad with
      | some (i, v) =>
        ({ s with espConflict := v }).complete h 0x80 ⟨0x0206, 0, 0, 2, [toLe 8 v ++ toLe 4 i ++ toLe 12 0]⟩
      | none =>
        if 0xFFFF < k.handle || !s.storesHold c j.halves k then s.done h 0x80 0x000B 0 else
        match j.place size with
        | none => s.done h 0x80 0x000B 0
        | some dpa =>
          let s := ((s.setJob c (j.addBlock dpa size k.handle)).addImage j.halves k).lpxWrite dpa 1 b
          s.done h 0x80 0 k.handle

/-- KERNEL_UNLOAD after R465 (R468, R702). -/
def State.unloadKernel (s : State) (c : Nat) (h : Head) (handle : Nat) : State :=
  match s.job c with
  | none => s
  | some j =>
    if (s.image c handle).isNone then s.done h 0x81 0x0205 0
    else if j.program.any fun e => e.handle == handle then s.done h 0x81 0x0207 0
    else
      let j := { j with area := j.area.map fun a => if a.handle = handle then { a with rel := some j.nextCut } else a }
      let s := (s.setJob c j).onCores (inHalves j.halves) fun _ x => { x with images := x.images.filter (· != handle) }
      { s with kernels := s.kernels.filter fun k => !(k.ctx == c && k.handle == handle) }.done h 0x81 0 0

/-- Resident images loaded again from their copies in KERNEL_AREA (R121). -/
def State.reloadKernels (s : State) (c : Nat) : State :=
  match s.job c with
  | none => s
  | some j =>
    let s := { s with kernels := s.kernels.filter fun k => k.ctx != c }
    let s := s.onCores (inHalves j.halves) fun _ x => { x with images := [] }
    j.kernelCopies.foldl (fun (s : State) e =>
      let size := s.lpxLe (e.2 + 8) 4
      s.addImage j.halves (imgParse (s.lpxRead e.2 size) e.1 c size)) s

/-! ## The step program (R473) -/

/-- An entry of a STEP_BIND list: handle, argument size and host address. -/
def bindEntry (data : List Byte) (i : Nat) : Nat × Nat × Nat := (leAt data (16 * i) 4, leAt data (16 * i + 4) 4, leAt data (16 * i + 8) 8)

/-- Bytes of an entry's argument block that the device reads: no image takes more than 256. -/
def bindArgs (e : Nat × Nat × Nat) : Nat := Nat.min e.2.1 256

/-- The argument blocks of a list, read one after the other. -/
def State.readArgs (s : State) : List (Nat × Nat × Nat) → Option (List Byte)
  | [] => some []
  | e :: es =>
    match s.hostRead e.2.2 (bindArgs e), State.readArgs s es with
    | some a, some r => some (a ++ r)
    | _, _ => none

/-- The parameter data of STEP_BIND (R703): the list, then its argument blocks. -/
def State.readBind (s : State) (count list : Nat) : Option (List Byte) :=
  match s.hostRead list (16 * count) with
  | none => none
  | some l => (s.readArgs ((List.range count).map (bindEntry l))).map fun a => l ++ a

/-- The argument copies of entries placed in order: the job with its blocks, and the DPAs. -/
def Job.placeArgs (j : Job) : List (Nat × Nat × Nat) → Option (Job × List Nat)
  | [] => some (j, [])
  | e :: es =>
    if e.2.1 = 0 then (Job.placeArgs j es).map fun r => (r.1, 0 :: r.2)
    else match j.place e.2.1 with
      | none => none
      | some d => (Job.placeArgs (j.addBlock d e.2.1 0) es).map fun r => (r.1, d :: r.2)

/-- STEP_BIND applied; `data` is its parameter data. -/
def State.applyStepBind (s : State) (c : Nat) (h : Head) (count : Nat) (data : List Byte) : State :=
  match s.job c with
  | none => s
  | some j =>
    let es := (List.range count).map (bindEntry data)
    if !(es.all fun e => match s.image c e.1 with | some k => k.argSize == e.2.1 | none => false) then s.done h 0x82 0x0205 0 else
    match j.placeArgs es with
    | none => s.done h 0x82 0x000B 0
    | some (j', ds) =>
      let old := j.area.filter fun a => a.handle == 0 && a.rel.isNone
      let area := j'.area.map fun a => if old.contains a then { a with rel := some j.nextCut } else a
      let prog := es.zipWith (fun e d => (⟨e.1, e.2.1, d⟩ : ProgEntry)) ds
      let s := s.setJob c ({ j' with area := area, program := prog }.defer h 0x82)
      (prog.foldl (fun (acc : State × Nat) e =>
        (if e.argSize = 0 then acc.1 else acc.1.lpxWrite e.argDpa 1 (bytesAt data acc.2 e.argSize), acc.2 + e.argSize)) (s, 16 * count)).1

/-! ## Launch (R119, R120, R166) -/

/-- A logical core at a kernel's launch. -/
def Core.launch (x : Core) (k : KImage) (seed : W128) (args : List Byte) : Core :=
  let ls := Memory.writeBytes (Memory.writeBytes x.ls k.constLs k.consts) 0 args
  { x with
    st := .running, sregs := Map.set 0#64 (Map.set 0#64 [] 2 (seed.extractLsb' 0 64)) 3 (seed.extractLsb' 64 64), vregs := []
    tags := [], blocks := [], ls := ls, pc := k.entry, ended := false, stall := .none, flight := [], handle := k.handle }

/-- A logical core at the start of a step (R72, R87, R120, R159). -/
def Core.stepStart (x : Core) : Core :=
  { x with ls := [], sat := false, nanLost := false, accBound := false, intWrap := false, cycles := 0, issued := 0, stallQ := 0, stallH := 0 }

/-- Is physical core p a logical core of the halves that a launch can use? -/
def State.launchable (s : State) (halves p : Nat) : Bool :=
  inHalves halves p && (s.core p).st == .idle && (s.core p).logical != 0xFFFF

/-- A program entry launched on every logical core of the job's halves; its table becomes the active one. -/
def State.launch (s : State) (c : Nat) (j : Job) (e : ProgEntry) : State :=
  match s.image c e.handle with
  | none => s
  | some k =>
    let args := s.lpxRead e.argDpa e.argSize
    let s := s.onCores (s.launchable j.halves) fun _ x => x.launch k j.seed args
    let s := s.onHalves j.halves fun _ x => { x with phase := 0 }
    let hd := if k.table.isSome then k.handle else 0
    { s with espHandleW := if bit j.halves 0 then hd else s.espHandleW
             espHandleE := if bit j.halves 1 then hd else s.espHandleE }

/-- Is a core of the halves still at work? -/
def State.coresBusy (s : State) (halves : Nat) : Bool :=
  s.cores.any fun kv => inHalves halves kv.1 && kv.2.st == .running && !(kv.2.ended && kv.2.flight.isEmpty)

/-- The next entry of the step program is launched once no core of the halves is at work. -/
def State.launchNext (s : State) (c : Nat) : State :=
  match s.job c with
  | none => s
  | some j =>
    match j.run with
    | none => s
    | some r =>
      match j.program[r.launched]? with
      | some e =>
        if r.gibbs || s.coresBusy j.halves then s
        else
          let s := s.onCores (inHalves j.halves) fun _ x => if x.st = .running then x.stopped else x
          (s.setJob c { j with run := some { r with launched := r.launched + 1 } }).launch c j e
      | none => s

end Sys2Proof.Machine
end

