-- ==== Sys2Proof/Machine/OpsExpert.lean ====
section
/-!
DEFINITION. Experts: routing, dispatch, passes and combination (R272 to R281).
-/
namespace Sys2Proof.Machine
open Sys2Proof

/-! ## Routing and combination (R273, R279) -/

/-- The best n of a list of (logit, expert), best first. -/
def routeOrder : Nat → List (W32 × Nat) → List (W32 × Nat)
  | 0, _ => []
  | n + 1, rs =>
    if rs.isEmpty then [] else
    let w := xmax rs
    w :: routeOrder n (rs.filter fun r => r.2 != w.2)

/-- The experts and gates of a token from its router logits (R273). -/
def expertGates (logits : List W32) (topk gate : Nat) : List (Nat × W32) :=
  let rs := logits.zipIdx.map fun r => (sanitise r.1, r.2)
  let top := routeOrder topk rs
  let r0 := (top.head?.map (·.1)).getD f32NegInf
  let flat := r0 == f32NegInf
  let ex := fun (r : W32 × Nat) => if flat then f32One else expK (f32Sub r.1 r0)
  let sum := if flat then f32OfNat (if gate = 0 then topk else logits.length) 0 else xsum ((if gate = 0 then top else rs).map ex)
  top.map fun r => (r.2, f32Div (ex r) sum)

/-- The combined vector of a token's k outputs (R279): each product rounded once, added exactly, read once. -/
def combineOutputs (hidden : Nat) (ys : List (W32 × List W32)) : List W32 :=
  (List.range hidden).map fun h => xsum (ys.map fun y => f32Mul y.1 (y.2.getD h 0#32))

/-! ## Rows, beds and records -/

/-- The manifest of the bed that serves an epoch: CURRENT or HELD (R280). -/
def Job.servingManifest (j : Job) (epoch : Nat) : Option Manifest :=
  if (j.bedA.st = 4 ∨ j.bedA.st = 5) ∧ j.bedA.epoch = epoch then j.bedA.manifest
  else if (j.bedB.st = 4 ∨ j.bedB.st = 5) ∧ j.bedB.epoch = epoch then j.bedB.manifest
  else none

/-- The epochs of the rows of a token step: one row for each token ingested, in the order of the batch. -/
def Job.rowEpochs (j : Job) : List Nat :=
  match j.run with
  | some r => if r.gibbs then [] else ((r.batch.zip r.ingest).map fun p =>
      List.replicate p.2 (let t := j.stream p.1; if t.pin then t.epoch else j.epoch)).flatten
  | none => []

/-- MoE layers of the CURRENT bed. -/
def Job.moeLayers (j : Job) : Nat := match j.servingManifest j.epoch with | some m => m.layers | none => 0

/-- The step number of the step in progress. -/
def Job.stepNo (j : Job) : Nat := match j.run with | some r => r.number | none => j.stepNext

/-- Bytes of a vector of n elements in a format (R48, R49). -/
def vectorBytes (fmt n : Nat) : Nat := packedBytes fmt n + (if isMx fmt then n / 32 else 0)

/-- The bytes of a dispatch record or an expert output (R275). -/
def recordBytes (r : DispRecord) (hidden : Nat) : List Byte :=
  toLe 2 r.origin ++ toLe 2 r.layer ++ toLe 2 r.expert ++ toLe 1 r.rank ++ toLe 1 r.fmt ++ toLe 4 r.row ++ toLe 2 r.epoch ++ toLe 2 0 ++
    toLe 4 hidden ++ List.replicate 12 0#8 ++ r.vector

/-- The bytes of a dispatch header (R274). -/
def headerBytes (h : DispHeader) : List Byte := toLe 2 h.rank ++ toLe 2 h.layer ++ toLe 4 h.count ++ toLe 2 h.epoch

/-- The routes of a row: experts with their gates. -/
def Job.routes (c : Nat) (j : Job) (m : Manifest) (layer row : Nat) : List (Nat × W32) :=
  expertGates ((List.range m.experts).map fun e => Config.routerLogit c j.stepNo layer row e) m.topk m.gate

/-- The dispatch records of a layer, with their homes (R275). -/
def Job.layerRecords (c : Nat) (j : Job) (layer : Nat) : List (Nat × DispRecord) :=
  (j.rowEpochs.zipIdx.map fun re =>
    match j.servingManifest re.1 with
    | none => []
    | some m => (j.routes c m layer re.2).zipIdx.map fun g =>
        (m.homeOf layer g.1.1,
          ⟨j.params.rank, layer, g.1.1, g.2, m.actFmt, re.2, re.1,
            (List.range (vectorBytes m.actFmt m.hidden)).map fun k => Config.activation c j.stepNo layer re.2 k⟩)).flatten

/-- The home ranks of a layer. -/
def Manifest.layerHomes (m : Manifest) (layer : Nat) : List Nat := ((m.home.drop (layer * m.experts)).take m.experts).eraseDups

/-- The dispatch records of one home as they arrive here (R275). -/
def Job.addRecords (j : Job) (rs : List DispRecord) : Job :=
  { j with dispRecords := j.dispRecords ++ rs, xrec := (j.xrec + rs.length) % 2 ^ 64 }

/-- The headers and records of a layer leave for their homes (R274, R275); those for this device stay. -/
def State.dispatchLayer (s : State) (c layer : Nat) : State :=
  match s.job c with
  | none => s
  | some j =>
    match j.servingManifest j.epoch with
    | none => s
    | some m =>
      let recs := j.layerRecords c layer
      (m.layerHomes layer).foldl (fun (s : State) home =>
        let mine := (recs.filter fun r => r.1 == home).map (·.2)
        let h : DispHeader := ⟨j.params.rank, layer, mine.length, j.epoch⟩
        if home = j.params.rank then s.onJob c fun j => { j with dispHeaders := j.dispHeaders ++ [h] }.addRecords mine
        else mine.foldl (fun (s : State) r => s.sendMsg c 0x02 1 home (recordBytes r m.hidden)) (s.sendMsg c 0x01 1 home (headerBytes h))) s

/-- Layers dispatched from `layer` on: the next one follows once every row of a layer is combined, at once when there is no row. -/
def State.dispatchFrom (c : Nat) : Nat → Nat → State → State
  | 0, _, s => s
  | n + 1, layer, s =>
    let s := s.dispatchLayer c layer
    match s.job c with
    | some j => if j.rowEpochs.isEmpty then State.dispatchFrom c n (layer + 1) (s.setJob c { j with moe := layer + 1 }) else s
    | none => s

/-- The MoE layers of a token step begin (R273). -/
def State.startExperts (s : State) (c : Nat) : State :=
  match s.job c with
  | some j => State.dispatchFrom c j.moeLayers 0 (s.setJob c { j with outputs := [], combined := [], moe := 0, ranLayers := [] })
  | none => s

/-- Has every MoE layer of the step been run here, where this device is a home, and combined for its own rows? -/
def Job.expertsDone (j : Job) : Bool :=
  j.moe == j.moeLayers && (List.range j.moeLayers).all fun l =>
    j.ranLayers.contains l || !(match j.servingManifest j.epoch with | some m => (m.layerHomes l).contains j.params.rank | none => false)

/-! ## Arrivals -/

/-- MSG_AUTH_FAIL: the message is discarded and the job ends (R512). -/
def State.msgAuthFail (s : State) (c src kind mseq : Nat) : State :=
  (s.postJob c 0x0B07 0x0805 (toLe 2 src ++ toLe 1 kind ++ toLe 5 0 ++ toLe 8 mseq)).endJob c 0x0805

/-- Is context c's job at work: open and not regrowing before REPLAY? -/
def Job.atWork (j : Job) : Bool := j.st == .running || (j.st == .regrow && (j.regrow.map (·.stage)) == some 8)

/-- A dispatch header arrives (R274, R280). -/
def State.gotHeader (s : State) (c : Nat) (h : DispHeader) : State :=
  match s.job c with
  | none => s
  | some j =>
    if !j.atWork then s
    else if j.current.isSome ∧ h.epoch ≠ j.epoch then
      (s.postJob c 0x0406 0x0409 (toLe 2 h.rank ++ toLe 2 h.epoch ++ toLe 2 j.epoch)).endJob c 0x0409
    else s.setJob c { j with dispHeaders := j.dispHeaders ++ [h] }

/-- The outputs of a row that are here, by route rank. -/
def Job.rowOutputs (j : Job) (layer row : Nat) : List DispRecord := j.outputs.filter fun r => r.layer == layer && r.row == row

/-- The FP32 elements of a returned vector. -/
def recordElements (r : DispRecord) (hidden : Nat) : List W32 := (List.range hidden).map fun k => BitVec.ofNat 32 (leAt r.vector (4 * k) 4)

/-- An expert output arrives (R279): once all k outputs of a row are here the vector is combined; once every row of the layer is, the next
layer follows. -/
def State.gotOutput (s : State) (c : Nat) (r : DispRecord) : State :=
  match s.job c with
  | none => s
  | some j =>
    if !j.atWork || j.run.isNone then s else
    let j := { j with outputs := j.outputs ++ [r] }
    match j.servingManifest r.epoch with
    | none => s.setJob c j
    | some m =>
      let here := j.rowOutputs r.layer r.row
      if here.length < m.topk then s.setJob c j else
      let gates := j.routes c m r.layer r.row
      let ys := here.map fun o => (((gates[o.rank]?).map (·.2)).getD 0#32, recordElements o m.hidden)
      let j := { j with outputs := j.outputs.filter fun o => !(o.layer == r.layer && o.row == r.row)
                        combined := j.combined ++ [(r.layer, r.row, combineOutputs m.hidden ys)] }
      if (j.combined.filter fun x => x.1 == r.layer).length < j.rowEpochs.length then s.setJob c j
      else State.dispatchFrom c (j.moeLayers - (r.layer + 1)) (r.layer + 1) (s.setJob c { j with moe := r.layer + 1 })

/-! ## Passes (R276 to R278) -/

/-- Does record a order before b: (ORIGIN, ROW) ascending? -/
def recBefore (a b : DispRecord) : Bool := decide (a.origin < b.origin) || (a.origin == b.origin && decide (a.row < b.row))

/-- Insertion after every record that does not order after it. -/
def insertRec (r : DispRecord) : List DispRecord → List DispRecord
  | [] => [r]
  | x :: xs => if recBefore r x then r :: x :: xs else x :: insertRec r xs

/-- Records in the order of R276. -/
def sortRecs (rs : List DispRecord) : List DispRecord := rs.foldl (fun acc r => insertRec r acc) []

/-- The passes that a layer runs over the records that one bed serves. -/
def layerPasses (cap : Nat) (recs : List DispRecord) : Nat :=
  ((recs.map (·.expert)).eraseDups.map fun e => ceilDiv (recs.filter fun r => r.expert == e).length (Nat.max 1 cap)).foldl Nat.max 1

/-- Are all inputs of a layer here: a header of every other device, and its records? -/
def Job.layerReady (j : Job) (layer : Nat) : Bool :=
  let hs := j.dispHeaders.filter fun h => h.layer == layer
  ((List.range j.params.devices).all fun r => r == j.params.rank || hs.any fun h => h.rank == r) &&
    hs.all fun h => decide (h.count ≤ (j.dispRecords.filter fun r => r.origin == h.rank && r.layer == layer).length)

/-- The output of a record (R278). -/
def Manifest.output (m : Manifest) (r : DispRecord) : DispRecord :=
  let digest := ((m.shards.find? fun e => e.isExpert && e.layer == r.layer && e.expert == r.expert).map (·.digest)).getD []
  { r with fmt := 0, vector := ((List.range m.hidden).map fun k => toLe 4 (Config.expertElement digest r.vector k).toNat).flatten }

/-- One output goes to its origin. -/
def State.sendOutput (s : State) (c : Nat) (j : Job) (r : DispRecord) : State :=
  match j.servingManifest r.epoch with
  | none => s
  | some m =>
    let o := m.output r
    if r.origin = j.params.rank then s.gotOutput c o else s.sendMsg c 0x03 3 r.origin (recordBytes o m.hidden)

/-- The layer's passes run as home device. -/
def State.runLayer (s : State) (c layer : Nat) : State :=
  match s.job c with
  | none => s
  | some j =>
    if !j.atWork || j.run.isNone || !j.layerReady layer || j.ranLayers.contains layer || decide (j.moeLayers ≤ layer) then s else
    let recs := sortRecs (j.dispRecords.filter fun r => r.layer == layer)
    match recs.find? fun r => (j.servingManifest r.epoch).isNone with
    | some r => (s.postJob c 0x0405 0x0408 (toLe 2 r.origin ++ toLe 2 r.layer ++ toLe 2 r.epoch)).endJob c 0x0408
    | none =>
      let epochs := (recs.map (·.epoch)).eraseDups
      let passes := epochs.map fun e => match j.servingManifest e with
        | some m => layerPasses m.cap (recs.filter fun r => r.epoch == e)
        | none => 1
      let extra := passes.foldl (fun a p => a + (p - 1)) 0
      let s := s.setJob c
        { j with dispHeaders := j.dispHeaders.filter (fun h => h.layer != layer), dispRecords := j.dispRecords.filter (fun r => r.layer != layer)
                 ranLayers := j.ranLayers ++ [layer], xpass := (j.xpass + extra) % 2 ^ 64 }
      recs.foldl (fun (s : State) r => s.sendOutput c j r) s

end Sys2Proof.Machine
end

