-- ==== Sys2Proof/Machine/OpsStep.lean ====
section
/-!
DEFINITION. The step engine: the boundary's actions, the start of a step, the transfers of KV pages, token records and the end of a
step (R237 to R256, R290 to R296, R404 to R412, R434, R461, R466).
-/
namespace Sys2Proof.Machine
open Sys2Proof

/-! ## Boundary commands (R466) -/

/-- CUT_NOW applied (R412, R419): the next capture is the one it causes. -/
def State.applyCutNow (s : State) (c : Nat) (h : Head) : State :=
  s.onJob c fun j => { j with cutNow := true }.defer h 0x60

/-- JOB_CLOSE applied (R705): the job starts no further step; what the commands before it did is captured, and every Moss run of the
job is asked to stop. -/
def State.applyClosing (s : State) (c : Nat) (h : Head) : State :=
  let s := s.onJob c fun j => { j with closing := some h, cutNow := true }
  { s with moss := { s.moss with runs := s.moss.runs.map fun r => if r.ctx = c then { r with stopping := true } else r } }

/-- One command of the boundary group takes its effect (R241, R290). -/
def State.applyWaiting (s : State) (c : Nat) (w : Waiting) : State :=
  match w.cmd with
  | .jobClose h => s.applyClosing c h
  | .open_ h i n t _ => s.applyOpen c 1 0x10 h i n t w.data
  | .score h i n t _ => s.applyOpen c 2 0x11 h i n t w.data
  | .fork h p g m n _ _ => s.applyFork c h p g m n w.data
  | .append h i g n t => s.applyAppend c h i g n t
  | .resume h i g => s.applyResume c h i g
  | .close h i g => s.applyClose c h i g
  | .setLoad h n k _ => s.applySetLoad c h n k w.data
  | .bedStage h b f e => s.applyBedStage c h b f e
  | .bedLoad h b a o n => s.applyBedLoad c h b a o n
  | .bedCommit h b f _ => s.applyBedCommit c h b f w.data
  | .bedDrop h b => s.applyBedDrop c h b
  | .gibbsModelLoad h d a n => s.applyModelLoad c h d a n
  | .gibbsModelDrop h k => s.applyModelDrop c h k
  | .chainOpen h i k n m sd t cl cf cp a u => s.applyChainOpen c h i k n m sd t cl cf cp a u
  | .chainSet h i g sel t cl cf cp => s.applyChainSet c h i g sel t cl cf cp
  | .chainWrite h i g l a => s.applyChainWrite c h i g l a
  | .chainRead h i g l a => s.applyChainRead c h i g l a
  | .gibbsRun h n l o a sw b iv p r rs => s.applyGibbsRun c h ⟨n, l, o, a, sw, b, iv, p, r, rs⟩ w.data
  | .cutNow h => s.applyCutNow c h
  | .stepBind h n _ => s.applyStepBind c h n w.data
  | _ => s

/-- Actions 1 to 3 of R290 with the commands of `ws`, and the runs that lost their last chain. -/
def State.boundaryActions (s : State) (c : Nat) (ws : List Waiting) : State :=
  let s := (s.flip c).onJob c Job.promptsReady
  let s := ws.foldl (fun (s : State) w => s.applyWaiting c w) s
  (s.onJob c Job.spareHeld).endEmptyRun c

/-- The capture that is due at the boundary (R412); one that a waiting image holds up is taken when that image's write begins. -/
def State.captureIfDue (s : State) (c : Nat) : State :=
  match s.job c with
  | some j => if j.captureDue && j.canCapture then s.capture c else s
  | none => s

/-- Has a closing job nothing left to wait for (R419, R705): no Moss run, and its last cutting common? -/
def State.closeDone (s : State) (c : Nat) (j : Job) : Bool :=
  !(s.moss.runs.any fun r => r.ctx == c) &&
    (j.stepNext == 0 || (j.lastCapture == some (j.stepNext - 1) && (j.common.map (·.2)) == j.lastCapture))

/-- The end of a closed job (R338, R466, R705): its regions are cleared, its state is released, its command completes. -/
def State.tryClose (s : State) (c : Nat) : State :=
  match s.job c with
  | none => s
  | some j =>
    match j.closing with
    | none => s
    | some h =>
      if j.run.isSome || !s.closeDone c j then s else
      let s := (s.windJob c 0 j).releaseJob c
      s.done h 0x02 0 j.lastStep

/-- Does the context's engine stand at a boundary? -/
def Job.atBoundary (j : Job) : Bool := j.run.isNone && (j.st == .running || (j.st == .regrow && (j.regrow.map (·.stage)) == some 8))

/-- The boundary's actions while the engine stands at it: a command that arrives then takes effect at once. -/
def State.idleBoundary (s : State) (c : Nat) (ws : List Waiting) : State := ((s.boundaryActions c ws).captureIfDue c).tryClose c

/-- A command of the boundary group that has passed the checks of R465 and R703. -/
def State.boundaryCommand (s : State) (c : Nat) (cmd : Instr) (data : List Byte) : State :=
  match s.job c with
  | none => s
  | some j =>
    if j.atBoundary && j.waiting.isEmpty && j.closing.isNone then s.idleBoundary c [⟨cmd, data⟩]
    else s.setJob c { j with waiting := j.waiting ++ [⟨cmd, data⟩] }

/-! ## The start of a step (R29, R245, R323, R461) -/

/-- Token records that a stream writes in a step (R247). -/
def Job.recordsOf (j : Job) (i : Nat) : Nat :=
  let t := j.stream i
  let n := j.ingest t
  if t.kind = 2 then t.pos + n - Nat.max t.pos t.scoreFrom else b2n (j.draws t)

/-- Does a switch of contexts wait for one of the job's halves (R535)? -/
def State.switchWaits (s : State) (halves : Nat) : Bool :=
  match s.sec.switch with | some w => (w.halves &&& halves) != 0 | none => false

/-- May context c's job start a step (R292, R416, R461, R535, R539, R603)? -/
def State.mayStart (s : State) (c : Nat) (j : Job) : Bool :=
  j.atBoundary && j.closing.isNone && !(j.params.regrowTarget && j.regrowCount == 0) && s.halvesOf c != 0 && s.unitsReady j.halves &&
    s.boot.aligned && s.sec.scrub.isNone && !s.mgt.changing && !s.boot.activating && !s.switchWaits j.halves && !j.captureDue &&
    !j.verifyHolds

/-- The kind of the next step (R323): token and Gibbs steps alternate while both have work. -/
def Job.nextGibbs (j : Job) (batch : List Nat) : Bool := j.grun.isSome && (batch.isEmpty || !j.lastGibbs)

/-- Bytes of KV that one position holds. -/
def Job.posBytes (j : Job) : Nat := 0x40000 / j.params.posPerPage

/-- The transfers that bring a stream's stored positions to the slices (R26). -/
def Job.pageLoads (j : Job) (t : Stream) : List (Nat × Nat) :=
  t.pages.zipIdx.filterMap fun p =>
    let n := Nat.min 0x40000 ((t.pos - p.2 * j.params.posPerPage) * j.posBytes)
    if n = 0 then none else some (p.1, n)

/-- The transfers that store the positions from `pos` on: page, first byte, bytes. -/
def Job.pageStores (j : Job) (pages : List Nat) (pos n : Nat) : List (Nat × Nat × Nat) :=
  pages.zipIdx.filterMap fun p =>
    let lo := Nat.max pos (p.2 * j.params.posPerPage) - p.2 * j.params.posPerPage
    let hi := Nat.min (pos + n) ((p.2 + 1) * j.params.posPerPage) - p.2 * j.params.posPerPage
    if hi ≤ lo then none else some (p.1, lo * j.posBytes, (hi - lo) * j.posBytes)

/-- A page's place in slice storage. -/
def kvSlice (c page : Nat) : Nat := Config.kvPlace c page % (512 * 2 ^ 24)

/-- A transfer enters the streamers under the next number. -/
def State.addStreamer (s : State) (c dpa slice size : Nat) (toSlice : Bool) : State :=
  let id := (s.streamers.map (·.id)).foldl Nat.max 0 + 1
  { s with streamers := s.streamers ++ [⟨id, c, dpa, slice, size, toSlice, false, 0⟩] }

/-- A stream of the batch enters RUNNING: it opens its pages, and its transfers are set up. -/
def State.runStream (s : State) (c i : Nat) : State :=
  match s.job c with
  | none => s
  | some j =>
    let t := j.stream i
    let n := j.ingest t
    let a := j.takePages (j.opens t)
    let b := a.2.takeChunks (chunksFor 0 (t.pages.length + a.1.length) - t.pageChunks.length)
    let j := b.2
    let u := { t with st := 3, pages := t.pages ++ a.1, pageChunks := t.pageChunks ++ b.1 }
    let j := j.setStream i u
    let s := s.setJob c j
    let s := if a.1.isEmpty then s else s.writePages j u t.pages.length
    let s := (j.pageLoads t).foldl (fun (s : State) p => s.addStreamer c (p.1 * 0x40000) (kvSlice c p.1) p.2 true) s
    (j.pageStores u.pages t.pos n).foldl (fun (s : State) p =>
      s.addStreamer c (p.1 * 0x40000 + p.2.1) (kvSlice c p.1 + p.2.1) p.2.2 false) s

/-- REGROW_DONE at the first step that REPLAY_STEP does not cover (R430). -/
def State.replayDone (s : State) (c : Nat) : State :=
  match s.job c with
  | none => s
  | some j =>
    match j.regrow with
    | some r =>
      if r.stage = 8 ∧ r.replayStep < j.stepNext then
        let s := s.postJob c 0x0702 0 (toLe 4 r.number ++ toLe 4 0 ++ toLe 8 j.stepNext)
        s.onJob c fun j => { j with regrow := some { r with stage := 0 } }
      else s
    | none => s

/-- The step begins with a batch of the given kind. -/
def State.beginStep (s : State) (c : Nat) (j : Job) (gibbs : Bool) (a : BatchAcc) : State :=
  let batch := if gibbs then [] else sortNat a.batch
  let run : StepRun := ⟨gibbs, j.stepNext, batch, batch.map fun i => j.ingest (j.stream i), 0, s.xcOf c⟩
  let s := s.setJob c
    { j with
      run := some run, lastGibbs := gibbs, overdue := false, stepStartNominal := j.elapsed - j.refreshStall - j.retryStall
      batchSize := if gibbs then j.batchSize else batch.length, skipped := if gibbs then j.skipped else a.skipped }
  let s := batch.foldl (fun (s : State) i => s.runStream c i) s
  let s := s.onCores (fun p => inHalves j.halves p && (s.core p).logical != 0xFFFF && (s.core p).st != .off) fun _ x => x.stepStart
  let s := if gibbs then s else s.startExperts c
  s.launchNext c

/-- The token records of the step that the boundary forms, for which the ring must have room (R461). -/
def Job.noteNeed (j : Job) (gibbs : Bool) (a : BatchAcc) : Job :=
  { j with recordNeed := if gibbs then 0 else (a.batch.map j.recordsOf).foldl (· + ·) 0 }

/-- STEP_START: the boundary's actions stand repeated for what has happened since, the batch is formed, and the step begins once nothing
holds the engine. -/
def State.startStep (s : State) (c : Nat) : State :=
  match s.job c with
  | none => s
  | some j0 =>
    if !j0.atBoundary || s.halvesOf c == 0 then s else
    let s := (s.setJob c { j0 with waiting := [] }).idleBoundary c j0.waiting
    match s.job c with
    | none => s
    | some j =>
      if !s.mayStart c j then s
      else if 2 ^ 48 ≤ j.stepNext then s.endJob c 0x0701 else
      let j := j.refill
      let a := j.formBatch
      let gibbs := j.nextGibbs a.batch
      let need := if gibbs then 0 else (a.batch.map j.recordsOf).foldl (· + ·) 0
      if (s.ring c).room 1 < need then s.setJob c (j.noteNeed gibbs a)
      else
        let s := (s.setJob c j).replayDone c
        match s.job c with
        | some j => s.beginStep c j gibbs a
        | none => s

/-! ## Streamer transfers (R194 to R198) -/

/-- A page of the buddy asked for (R432, R433). -/
def State.fetchPage (s : State) (c p : Nat) : State :=
  match s.job c with
  | some j =>
    if j.params.buddy = 0xFFFF ∨ j.fetching.contains p = true then s
    else (s.setJob c { j with fetching := j.fetching ++ [p] }).sendMsg c 0x16 2 j.params.buddy (toLe 4 (p - j.params.pageFirst))
  | none => s

/-- Must a sealed page be checked before its first read after a regrow (R198)? -/
def Job.needsCheck (j : Job) (p : Nat) : Bool := (j.page p).st == 2 && !(j.page p).validated && j.regrowCount != 0

/-- Does the page stand only at the buddy (R432)? -/
def Job.onlyBuddy (j : Job) : Bool := match j.regrow with | some r => r.replace | none => false

/-- The first read of a sealed page after a regrow (R198, R432): its tag is checked; a replacement device asks the buddy for it. -/
def State.checkPage (s : State) (c p : Nat) : State :=
  match s.job c with
  | none => s
  | some j =>
    let r := j.page p
    if j.onlyBuddy then s.fetchPage c p
    else if s.pageTag c j p r.sealSeq (s.lpxRead (p * 0x40000) 0x40000) = r.tag then
      s.setJob c (j.setPage p { r with validated := true })
    else
      let s := s.setJob c { j.setPage p { r with st := 3 } with tagFail := satAdd 32 j.tagFail 1 }
      (s.postJob c 0x0303 0 (toLe 4 p ++ toLe 4 r.sealSeq)).fetchPage c p

/-- A transfer into a slice delivers its bytes, unless its page has still to be checked or replaced. -/
def State.loadDone (s : State) (t : Streamer) : State :=
  let p := t.dpa / 0x40000
  let s := match s.job t.ctx with | some j => if j.needsCheck p then s.checkPage t.ctx p else s | none => s
  match s.job t.ctx with
  | some j =>
    if j.needsCheck p || (j.page p).st == 3 then s
    else { s with slices := Memory.writeBytes s.slices t.slice (s.lpxRead t.dpa t.size) }
  | none => s

/-- A transfer into LPDDR5X: a SEALED or SUSPECT page takes nothing, and the job ends (R197). -/
def State.storeDone (s : State) (t : Streamer) : State :=
  let p := t.dpa / 0x40000
  match s.job t.ctx with
  | some j =>
    if (j.page p).st = 2 ∨ (j.page p).st = 3 then (s.postJob t.ctx 0x0302 0x0308 (toLe 4 p)).endJob t.ctx 0x0308
    else s.lpxWrite t.dpa 2 (Memory.readBytes s.slices t.slice t.size)
  | none => s

/-- A transfer completes. -/
def State.transferDone (s : State) (t : Streamer) : State :=
  let s := { s with streamers := s.streamers.filter fun x => x.id != t.id }
  if t.toSlice then s.loadDone t else s.storeDone t

/-- The transfers of context c that nothing has reported complete without an error. -/
def State.finishTransfers (s : State) (c : Nat) : State :=
  (s.streamers.filter fun t => t.ctx == c).foldl (fun (s : State) t => s.transferDone t) s

/-! ## The end of a token step (R240, R247 to R256) -/

/-- The logits that a boundary brings: stream, position, values. -/
abbrev Logits := List (Nat × Nat × List W32)

/-- The V logits of a stream at a position; what the operand does not give is a free value. -/
def logitsOf (ls : Logits) (c v i pos last : Nat) : List W32 :=
  let given := ((ls.find? fun x => x.1 == i && x.2.1 == pos).map fun x => x.2.2).getD []
  (List.range v).map fun k => if h : k < given.length then given[k] else Config.logit c i pos (last * 2 ^ 20 + k)

/-- Does a token record repeat one that the ring holds (R434)? -/
def Job.tokenReplay (j : Job) (step i pos : Nat) : Bool :=
  match j.regrow with
  | some r =>
    decide (step < r.replayStep) || (step == r.replayStep && (decide (i < r.replayIndex) || (i == r.replayIndex && decide (pos ≤ r.replayPos))))
  | none => false

/-- A token record (R255). -/
def tokenRecord (t : Stream) (i epoch flags pos step tsc : Nat) (d : TokenDraw) : List Byte :=
  toLe 4 (i + t.gen * 2 ^ 20) ++ toLe 2 epoch ++ toLe 2 flags ++ toLe 4 pos ++ toLe 4 d.tok ++ toLe 4 d.lpBeh.toNat ++
    toLe 4 d.lpBase.toNat ++ toLe 4 step ++ toLe 4 (tsc / 2 ^ 20)

/-- What the end of a stream's step leaves: the entry and its token records. -/
structure StreamEnd where
  stream : Stream
  records : List (List Byte)
  deriving DecidableEq, Repr

/-- The epoch that a stream's step used (R294). -/
def Job.epochOf (j : Job) (t : Stream) : Nat := if t.pin then t.epoch else j.epoch

/-- A record's flags beyond the draw's: REPLAY and EPOCH_FORCED. -/
def Job.recordFlags (j : Job) (t : Stream) (step i pos : Nat) : Nat := b2n (j.tokenReplay step i pos) + 2 * b2n t.forcedNote

/-- A TOKEN stream draws at its position and goes on (R247, R251). -/
def State.endDraw (s : State) (c : Nat) (j : Job) (step i : Nat) (t : Stream) (last : Nat) (ls : Logits) : StreamEnd :=
  let p := t.pos
  let d := t.draw (sporeKey j.seed t.seed) i p (logitsOf ls c j.vocab i p last)
  let inSet := fun n => n != 0xFFFF && (Map.get [] j.sets n).contains d.tok
  let stop := inSet t.stopSet
  let full := p == t.maxLen - 1
  let park := !stop && !full && inSet t.parkSet
  let e := j.epochOf t
  let fl := d.flags + j.recordFlags t step i p + 8 * b2n stop + 16 * b2n full + 32 * b2n park
  let rec_ := tokenRecord t i e fl p step s.tsc d
  ⟨{ t with pending := [d.tok], epoch := e, forcedNote := false, st := if stop || full then 5 else if park then 4 else 2
            readyStep := if stop || full || park then t.readyStep else step }, [rec_]⟩

/-- The records of a SCORE stream for the tokens ingested from position `p` on; only the first carries EPOCH_FORCED. -/
def State.scoreRecords (s : State) (c : Nat) (j : Job) (step i : Nat) (ls : Logits) : Stream → Nat → List Nat → Nat → StreamEnd
  | t, _, [], _ => ⟨t, []⟩
  | t, p, g :: gs, last =>
    if p < t.scoreFrom then State.scoreRecords s c j step i ls t (p + 1) gs g
    else
      let d := t.scoreToken g (logitsOf ls c j.vocab i p last)
      let e := j.epochOf t
      let rec_ := tokenRecord t i e (d.flags + j.recordFlags t step i p) p step s.tsc d
      let r := State.scoreRecords s c j step i ls { t with epoch := e, forcedNote := false } (p + 1) gs g
      ⟨r.stream, rec_ :: r.records⟩

/-- The entry after its step: `t` holds what it held before, `n` is what it ingested. -/
def State.endEntry (s : State) (c : Nat) (j : Job) (step i n : Nat) (t : Stream) (ls : Logits) : StreamEnd :=
  let taken := t.pending.take n
  let u := { t with pos := t.pos + n, pending := t.pending.drop n }
  let r := if t.kind = 2 then s.scoreRecords c j step i ls u t.pos taken 0 else ⟨u, []⟩
  let u := r.stream
  if u.hold && u.pending.length == 1 then ⟨{ u with hold := false, st := 4 }, r.records⟩
  else if !u.pending.isEmpty then ⟨{ u with st := 2, readyStep := step }, r.records⟩
  else if t.kind = 2 then ⟨{ u with st := 5 }, r.records⟩
  else s.endDraw c j step i u (taken.getLastD 0) ls

/-- The chunks of a pending list that has moved from `old` to `new`. -/
def Job.moveChunks (j : Job) (old new : Stream) : List Nat × Job :=
  let a := chunkRange old.pos (old.pos + old.pending.length)
  let b := chunkRange new.pos (new.pos + new.pending.length)
  let kept := (old.pendChunks.drop (b.1 - a.1)).take (b.2 - b.1)
  let gone := old.pendChunks.filter fun x => !kept.contains x
  let r := j.takeChunks (b.2 - b.1 - kept.length)
  (kept ++ r.1, r.2.releaseChunks gone)

/-- Pages that the step filled (R254). -/
def Job.filled (j : Job) (pages : List Nat) (lo hi : Nat) : List Nat :=
  (pages.zipIdx.filter fun p => decide (lo < (p.2 + 1) * j.params.posPerPage) && decide ((p.2 + 1) * j.params.posPerPage ≤ hi)).map (·.1)

/-- One stream of the batch leaves RUNNING; its records. -/
def State.endStream (s : State) (c step : Nat) (ls : Logits) (i n : Nat) : State × List (List Byte) :=
  match s.job c with
  | none => (s, [])
  | some j =>
    let t := j.stream i
    if t.pages.any fun p => (j.page p).st == 3 then
      ((s.setJob c (j.setStream i { t with st := 6, fault := 0x0307 })).postFaulted c i t.gen step, [])
    else
    let r := s.endEntry c j step i n t ls
    let m := j.moveChunks t r.stream
    let u := { r.stream with pendChunks := m.1 }
    let j' := m.2.setStream i u
    let s := (s.setJob c j').writePending j' u u.pos u.pending
    ((j.filled u.pages t.pos u.pos).foldl (fun (s : State) p => s.sealPage c p) s, r.records)

/-- Every stream of the batch, in ascending index (R248). -/
def State.endStreams (c step : Nat) (ls : Logits) : List (Nat × Nat) → State × List (List Byte) → State × List (List Byte)
  | [], x => x
  | p :: ps, x =>
    let r := x.1.endStream c step ls p.1 p.2
    State.endStreams c step ls ps (r.1, x.2 ++ r.2)

/-- Token records written with their vector and the writeback area (R460); a write that cannot be sent is a ring fault. -/
def State.putTokens (s : State) (c : Nat) (recs : List (List Byte)) : State :=
  if recs.isEmpty then s
  else if !s.hostCanWrite then s.ringFault c 6
  else
    let s := recs.foldl (fun (s : State) r => (s.putRecord c 1 r).recordIrq c 1) s
    s.putWriteback c

/-- BED_WRITE_DENIED once per step in which window writes were discarded (R289). -/
def State.postBedDenied (s : State) (c step : Nat) : State :=
  match s.job c with
  | some j =>
    if j.deniedStep = 0 then s
    else (s.setJob c { j with deniedStep := 0 }).postJob c 0x0404 0 (toLe 4 j.deniedStep ++ toLe 4 0 ++ toLe 8 step)
  | none => s

/-- Is the step's work done: every kernel launched and ended, every record of a peer and every page of the buddy here? -/
def State.stepDone (s : State) (j : Job) (r : StepRun) : Bool :=
  (r.gibbs || (decide (j.program.length ≤ r.launched) && !s.coresBusy j.halves && j.expertsDone)) && !j.missingRecords && j.fetching.isEmpty

/-- The step number advances, and the boundary acts (R290). -/
def State.boundary (s : State) (c step : Nat) : State :=
  let s := s.postBedDenied c step
  let s := s.onJob c fun j =>
    { j with run := none, stepNext := step + 1
             regrow := j.regrow.map fun r => if r.stage = 8 then { r with done := r.done + 1 } else r }
  match s.job c with
  | none => s
  | some j =>
    if j.st = .ended then s else
    let s := (s.setJob c { j with waiting := [] }).boundaryActions c j.waiting
    let s := (s.onJob c fun j => let j := j.refill; j.noteNeed (j.nextGibbs j.formBatch.batch) j.formBatch).takeSnaps j.halves
    (s.captureIfDue c).tryClose c

/-- STEP_BOUNDARY: the step in progress ends. -/
def State.endStep (s : State) (c : Nat) (ls : Logits) : State :=
  match s.job c with
  | none => s
  | some j =>
    match j.run with
    | none => s
    | some r =>
      if !s.stepDone j r then s else
      let s := (s.finishTransfers c).onCores (inHalves j.halves) fun _ x => x.stopped
      match s.job c with
      | none => s
      | some j =>
        if j.st = .ended || !j.fetching.isEmpty then s else
        let s := if r.gibbs then s.gibbsStep c r.number
          else
            let x := State.endStreams c r.number ls (r.batch.zip r.ingest) (s, [])
            x.1.putTokens c x.2
        s.boundary c r.number

end Sys2Proof.Machine
end

