-- ==== Sys2Proof/Machine/OpsCmd.lean ====
section
/-!
DEFINITION. What every host command has in common: the state of its ring set, checks 4 to 6 of R465, the hold of R467 and the parameter
data of R703.
-/
namespace Sys2Proof.Machine
open Sys2Proof

/-! ## The checks of R465 -/

/-- The commands that ring set 0 accepts (R453). -/
def zeroAccepts (op : Nat) : Bool :=
  op == 0x00 || op == 0x03 || op == 0x04 || op == 0x61 || (decide (0x70 ≤ op) && decide (op ≤ 0x72)) || (decide (0x90 ≤ op) && decide (op ≤ 0x92))

/-- The commands that only ring set 0 accepts (R468, R524). -/
def onlyZero (op : Nat) : Bool := op == 0x04 || op == 0x61 || (decide (0x70 ≤ op) && decide (op ≤ 0x72))

/-- The job-bound commands of R465. -/
def jobBound (op : Nat) : Bool :=
  op == 0x02 || op == 0x03 || (decide (0x10 ≤ op) && decide (op ≤ 0x16)) || (decide (0x30 ≤ op) && decide (op ≤ 0x33)) ||
    (decide (0x40 ≤ op) && decide (op ≤ 0x46)) || (decide (0x50 ≤ op) && decide (op ≤ 0x55)) || op == 0x60 ||
    (decide (0x80 ≤ op) && decide (op ≤ 0x82))

/-- The commands that stop their ring set's fetching until they complete (R467). -/
def holdsFetch (op : Nat) : Bool := op == 0x01 || op == 0x02 || op == 0x61 || (decide (0x70 ≤ op) && decide (op ≤ 0x72))

/-- The status of checks 4 to 6 of R465: `set` is the ring set, `c` the context of the command. -/
def State.gateStatus (s : State) (set op c : Nat) : Nat :=
  if (if set = 0 then !zeroAccepts op else onlyZero op) then 0x0801
  else if jobBound op && !s.liveJob c then 0x0004
  else if op == 0x01 && s.holdsJob c then 0x0005
  else 0

/-- May the device take a command of the ring set (R461, R467): ACTIVE, no command that holds the fetches, room for four more completion
records than are reserved? -/
def RingSet.takes (r : RingSet) : Bool := r.st == 1 && r.hold.isNone && decide (r.reserved + 4 ≤ r.room 0)

/-- The ring set with the four records of one more command reserved; `op` may hold its fetches. -/
def RingSet.reserve (r : RingSet) (h : Head) (op : Nat) : RingSet :=
  { r with reserved := r.reserved + 4, hold := if holdsFetch op then some h.seq else r.hold }

/-- A host command on its ring set: nothing while the ring set cannot take it; else the checks of R465, then `k`. -/
def State.hostCmd (s : State) (h : Head) (op c : Nat) (k : State → State) : State :=
  if !(s.ring h.set).takes then s
  else
    let st := s.gateStatus h.set op c
    let s := s.setRing h.set ((s.ring h.set).reserve h op)
    if st != 0 then s.done h op st 0 else k s

/-- Parameter data (R703): a read that fails completes the command with HOST_READ_FAULT. -/
def State.withData (s : State) (h : Head) (op : Nat) (data : Option (List Byte)) (k : List Byte → State) : State :=
  match data with
  | none => s.done h op 0x0007 0
  | some d => k d

/-- A command of the boundary group without parameter data. -/
def State.boundaryCmd (s : State) (h : Head) (op : Nat) (cmd : Instr) : State :=
  s.hostCmd h op h.set fun s => s.boundaryCommand h.set cmd []

/-- A command of the boundary group with parameter data. -/
def State.boundaryData (s : State) (h : Head) (op : Nat) (cmd : Instr) (data : State → Option (List Byte)) : State :=
  s.hostCmd h op h.set fun s => s.withData h op (data s) fun d => s.boundaryCommand h.set cmd d

/-! ## Job commands (R427, R469, R474) -/

/-- JOB_OPEN after R465: the block, its checks, the room that R461 asks for, and the seed's request. -/
def State.cmdJobOpen (s : State) (h : Head) (params paramSize : Nat) : State :=
  s.withData h 0x01 (s.readJobBlock params) fun b =>
    let p := parseJobParams b
    let st := s.jobOpenStatus h.set b paramSize
    if st != 0 then s.done h 0x01 st 0
    else if 2 ^ (s.ring h.set).szTok < p.batchMax + p.ingestBudget then s.done h 0x01 0x0006 0
    else
      let sr := if p.seedDev then s.seedRefused 1 else none
      match sr with
      | some st => s.done h 0x01 st 0
      | none => s.openJob h p (BitVec.ofNat 128 (leAt b 16 16))

/-- JOB_END after R465. -/
def State.cmdJobEnd (s : State) (h : Head) (c : Nat) : State :=
  let last := match s.job c with | some j => j.lastStep | none => 0
  (s.endJob c 0x0009).done h 0x03 0 last

/-- The ring set of a discarded job (R474): its pending entries are skipped; ENDED becomes ACTIVE, unless a cause holds it PAUSED. -/
def State.discardRing (s : State) (c : Nat) : State :=
  let r := s.ring c
  let s := s.setRing c { r with cmdCi := r.cmdPi }
  if r.st = 3 then (if s.pauseCause c then s.setRingState c 2 else s.activate c) else s

/-- JOB_DISCARD after R465 (R474). -/
def State.cmdJobDiscard (s : State) (h : Head) (c : Nat) : State :=
  match s.job c with
  | none => s.done h 0x04 0x0004 0
  | some j =>
    if j.st = .waitSeed then s.done h 0x04 0x0004 0
    else if j.st ≠ .ended then s.done h 0x04 0x0005 0
    else ((s.releaseJob c).discardRing c).done h 0x04 0 0

/-- The context that JOB_END names. -/
def jobEndCtx (set ctx : Nat) : Nat := if set = 0 then ctx else set

end Sys2Proof.Machine
end

