-- ==== Sys2Proof/Machine/CmdJob.lean ====
section
/-!
DEFINITION. The host commands of the job, stream, bed and Gibbs groups, CUT_NOW, the kernel commands and STEP_BIND (R468).
-/
namespace Sys2Proof.Machine
open Sys2Proof

/-- A host command names an existing ring set. -/
def onSet (h : Head) (r : State) : Out := noUnit (decide (h.set < 16)) r

/-- NOP. -/
def execNop (h : Head) (s : State) : Out := onSet h (s.hostCmd h 0x00 h.set fun s => s.done h 0x00 0 0)

/-- JOB_OPEN (R469). -/
def execJobOpen (h : Head) (params paramSize : Nat) (s : State) : Out :=
  onSet h (s.hostCmd h 0x01 h.set fun s => s.cmdJobOpen h params paramSize)

/-- JOB_CLOSE (R705): applied at the next step boundary. -/
def execJobClose (h : Head) (s : State) : Out := onSet h (s.boundaryCmd h 0x02 (.jobClose h))

/-- JOB_END (R427, R474). -/
def execJobEnd (h : Head) (ctx : Nat) (s : State) : Out :=
  onSet h (s.hostCmd h 0x03 (jobEndCtx h.set ctx) fun s => s.cmdJobEnd h (jobEndCtx h.set ctx))

/-- JOB_DISCARD (R474). -/
def execJobDiscard (h : Head) (ctx : Nat) (s : State) : Out :=
  onSet h (s.hostCmd h 0x04 h.set fun s => s.cmdJobDiscard h ctx)

/-- OPEN (R242, R471). -/
def execOpen (h : Head) (index count tokens params : Nat) (s : State) : Out :=
  onSet h (s.boundaryData h 0x10 (.open_ h index count tokens params) fun s => s.readStreamBlock params)

/-- SCORE (R242, R471). -/
def execScore (h : Head) (index count tokens params : Nat) (s : State) : Out :=
  onSet h (s.boundaryData h 0x11 (.score h index count tokens params) fun s => s.readStreamBlock params)

/-- FORK (R252, R253). -/
def execFork (h : Head) (parent gen mode count children seeds : Nat) (s : State) : Out :=
  onSet h (s.boundaryData h 0x12 (.fork h parent gen mode count children seeds) fun s => s.readFork mode count children seeds)

/-- APPEND (R243). -/
def execAppend (h : Head) (index gen count tokens : Nat) (s : State) : Out :=
  onSet h (s.boundaryCmd h 0x13 (.append h index gen count tokens))

/-- RESUME (R243). -/
def execResume (h : Head) (index gen : Nat) (s : State) : Out := onSet h (s.boundaryCmd h 0x14 (.resume h index gen))

/-- CLOSE (R244, R704). -/
def execClose (h : Head) (index gen : Nat) (s : State) : Out := onSet h (s.boundaryCmd h 0x15 (.close h index gen))

/-- SET_LOAD (R250). -/
def execSetLoad (h : Head) (set count tokens : Nat) (s : State) : Out :=
  onSet h (s.boundaryData h 0x16 (.setLoad h set count tokens) fun s => s.hostRead tokens (4 * count))

/-- BED_STAGE (R283, R296). -/
def execBedStage (h : Head) (bed flags epoch : Nat) (s : State) : Out :=
  onSet h (s.boundaryCmd h 0x30 (.bedStage h bed flags epoch))

/-- BED_LOAD (R283). -/
def execBedLoad (h : Head) (bed host offset length : Nat) (s : State) : Out :=
  onSet h (s.boundaryCmd h 0x31 (.bedLoad h bed host offset length))

/-- BED_COMMIT (R283, R288). -/
def execBedCommit (h : Head) (bed flipStep digest : Nat) (s : State) : Out :=
  onSet h (s.boundaryData h 0x32 (.bedCommit h bed flipStep digest) fun s => s.hostRead digest 48)

/-- BED_DROP (R283). -/
def execBedDrop (h : Head) (bed : Nat) (s : State) : Out := onSet h (s.boundaryCmd h 0x33 (.bedDrop h bed))

/-- GIBBS_MODEL_LOAD (R304 to R308). -/
def execGibbsModelLoad (h : Head) (desc work workSize : Nat) (s : State) : Out :=
  onSet h (s.boundaryCmd h 0x40 (.gibbsModelLoad h desc work workSize))

/-- GIBBS_MODEL_DROP (R320). -/
def execGibbsModelDrop (h : Head) (handle : Nat) (s : State) : Out := onSet h (s.boundaryCmd h 0x41 (.gibbsModelDrop h handle))

/-- CHAIN_OPEN (R316, R319, R320). -/
def execChainOpen (h : Head) (index handle init seedMode seed temp clampLayers cflags clampPtr host user : Nat) (s : State) : Out :=
  onSet h (s.boundaryCmd h 0x42 (.chainOpen h index handle init seedMode seed temp clampLayers cflags clampPtr host user))

/-- CHAIN_SET (R313, R320). -/
def execChainSet (h : Head) (index gen select temp clampLayers cflags clampPtr : Nat) (s : State) : Out :=
  onSet h (s.boundaryCmd h 0x43 (.chainSet h index gen select temp clampLayers cflags clampPtr))

/-- CHAIN_WRITE (R320). -/
def execChainWrite (h : Head) (index gen layers host : Nat) (s : State) : Out :=
  onSet h (s.boundaryCmd h 0x44 (.chainWrite h index gen layers host))

/-- CHAIN_READ (R320). -/
def execChainRead (h : Head) (index gen layers host : Nat) (s : State) : Out :=
  onSet h (s.boundaryCmd h 0x45 (.chainRead h index gen layers host))

/-- GIBBS_RUN (R322 to R327); no more entries of its list are read than a run may have. -/
def execGibbsRun (h : Head) (chains layers output list sweeps burn interval progressEvery result resultSize : Nat) (s : State) : Out :=
  onSet h (s.boundaryData h 0x46 (.gibbsRun h chains layers output list sweeps burn interval progressEvery result resultSize)
    fun s => s.hostRead list (4 * Nat.min chains 65536))

/-- CUT_NOW (R412). -/
def execCutNow (h : Head) (s : State) : Out := onSet h (s.boundaryCmd h 0x60 (.cutNow h))

/-- KERNEL_LOAD (R154, R702). -/
def execKernelLoad (h : Head) (host size : Nat) (s : State) : Out :=
  onSet h (s.hostCmd h 0x80 h.set fun s => s.loadKernel h.set h host size)

/-- KERNEL_UNLOAD (R702). -/
def execKernelUnload (h : Head) (handle : Nat) (s : State) : Out :=
  onSet h (s.hostCmd h 0x81 h.set fun s => s.unloadKernel h.set h handle)

/-- STEP_BIND (R473): the entry count is checked before the parameter data is read. -/
def execStepBind (h : Head) (count list : Nat) (s : State) : Out :=
  onSet h (s.hostCmd h 0x82 h.set fun s =>
    if count = 0 ∨ 64 < count then s.done h 0x82 0x0003 0
    else s.withData h 0x82 (s.readBind count list) fun d => s.boundaryCommand h.set (.stepBind h count list) d)

end Sys2Proof.Machine
end

