-- ==== Sys2Proof/Machine/OpsCtx.lean ====
section
/-!
DEFINITION. The registration of contexts, scrubs, and the switch of a half from one context to another (R524 to R540).
-/
namespace Sys2Proof.Machine
open Sys2Proof

/-! ## Registration (R526 to R529) -/

/-- Does a block keep the form of R526? -/
def ctxBlockOk (split : Bool) (b : List Byte) : Bool :=
  let base := leAt b 8 8
  let size := leAt b 16 8
  leAt b 0 4 == 0x4B564358 && leAt b 4 2 == 1 && zeroAt b 6 2 && zeroAt b 140 4 && zeroAt b 208 48 && base % 2 ^ 30 == 0 &&
    size % 2 ^ 30 == 0 && size != 0 && decide (base + size ≤ dpaBytes) &&
    (!split || decide (base + size ≤ eastBase) || decide (eastBase ≤ base))

/-- Does the partition overlap that of a registered context? -/
def State.partitionTaken (s : State) (base size : Nat) : Bool :=
  s.sec.ctxs.any fun kv => kv.1 != 0 && kv.2.st != 0 && decide (kv.2.base < base + size) && decide (base < kv.2.base + kv.2.size)

/-- "KV-CTX-WRAP". -/
def wrapLabel : List Byte := [0x4B#8, 0x56#8, 0x2D#8, 0x43#8, 0x54#8, 0x58#8, 0x2D#8, 0x57#8, 0x52#8, 0x41#8, 0x50#8]

/-- The context secret of a block, none when its tag fails (R527, R544). In RETURNED the identity key is refused (log entry 29). -/
def State.openSecret (s : State) (c : Nat) (b : List Byte) : Option (List Byte) :=
  if s.fuses.lc = 2 then none else
  match ecdhX s.fuses.identity (ofBe (bytesAt b 32 48), ofBe (bytesAt b 80 48)) with
  | some x =>
    let key := hkdf32 x (List.replicate 48 0#8) (wrapLabel ++ toLe 1 c ++ toLe 8 s.fuses.serial)
    gcmOpen key (bytesAt b 128 12) (b.take 144) (bytesAt b 144 48) (bytesAt b 192 16)
  | none => none

/-- Generations that contexts hold. -/
def State.heldGens (s : State) : List Nat := (s.sec.ctxs.filter fun kv => kv.1 != 0 && kv.2.st != 0).map fun kv => kv.2.gen

/-- The next generation: the counter's values from `g` on, at most `n` of them, without 0 and without those held (R529). -/
def nextGen (held : List Nat) : Nat → Nat → Option Nat
  | 0, _ => none
  | n + 1, g => if g % 65536 = 0 ∨ held.contains (g % 65536) = true then nextGen held n (g + 1) else some (g % 65536)

/-- CTX_REGISTER after R465 (R528, R557). -/
def State.cmdRegister (s : State) (h : Head) (c block : Nat) : State :=
  s.withData h 0x70 (s.hostRead block 256) fun b =>
    let base := leAt b 8 8
    let size := leAt b 16 8
    if c = 0 ∨ 15 < c ∨ ctxBlockOk s.split b = false then s.done h 0x70 0x0802 0
    else if (s.ctx c).st ≠ 0 ∨ s.partitionTaken base size = true then s.done h 0x70 0x0803 0
    else match s.openSecret c b with
      | none => s.done h 0x70 0x0805 0
      | some secret =>
        if s.fuses.lc = 3 then s.done h 0x70 0x0804 0
        else match nextGen s.heldGens 18 s.sec.nextGen with
          | none => s.done h 0x70 0x0802 0
          | some g =>
            let s := s.setCtx c ⟨1, base, size, g, leAt b 24 8, secret⟩
            (({ s with sec := { s.sec with nextGen := (g + 1) % 65536 } }).measure 6).done h 0x70 0 g

/-! ## Scrubs (R537 to R540) -/

/-- A core whose stores a scrub clears. -/
def Core.scrubbed (c : Core) : Core :=
  { Core.init with st := if c.st = .running ∨ c.st = .faulted then .idle else c.st, logical := c.logical }

/-- Every store of R537 in the halves of a mask. -/
def State.clearStores (s : State) (mask : Nat) : State :=
  let owns := fun c => (s.halvesOf c &&& mask) != 0
  let s := s.onCores (inHalves mask) fun _ c => c.scrubbed
  let s := (s.clearRegions fun g => g.tiles.any fun t => bit mask (t / 64)).mossIdle
  let s := s.onHalves mask fun _ x => { x with phase := 0 }
  { s with
    slices := Map.erase s.slices fun k => bit mask (k / 2 ^ 24 / 256)
    exact := Map.erase s.exact fun k => bit mask (k / 4096 / 256)
    streamers := s.streamers.filter fun t => !owns t.ctx
    kernels := s.kernels.filter fun k => !owns k.ctx
    espHandleW := if bit mask 0 then 0 else s.espHandleW
    espHandleE := if bit mask 1 then 0 else s.espHandleE
    espConflict := 0
    links := Map.mapVals (fun c (l : JobLink) => if owns c then { l with secret := none, key := none } else l) s.links }

/-- A scrub of the halves of a mask begins: ring sets are PAUSED (R462, R539). -/
def State.beginScrub (s : State) (mask reason : Nat) : State :=
  let s := s.onHalves mask fun _ x => { x with flags := 2 }
  ({ s with sec := { s.sec with scrub := some ⟨mask, reason, 67036⟩ } }).pauseRings

/-! ## Switches (R534 to R536) -/

/-- The first step of a resumed or regrown job needs its images and its expert shards in place again (R430 stage RELOAD). -/
def State.reloadJob (s : State) (c : Nat) : State :=
  let s := s.reloadKernels c
  match s.job c with
  | none => s
  | some j =>
    let beds := (List.range 2).filter fun b => 3 ≤ (j.bed b).st && (j.bed b).st ≤ 5
    (sortNat (beds.map fun b => (if (j.bed b).st = 5 then 0 else (j.bed b).st) * 2 + b)).foldl (fun (s : State) k =>
      match (j.bed (k % 2)).manifest with
      | some m => s.copyShards j (k % 2) m
      | none => s) s

/-- What the switched halves' command leads to once the new owner is in place. -/
def State.endSwitch (s : State) (w : Switch) (mask : Nat) : State :=
  let s := { s with sec := { s.sec with switch := none } }
  let s := s.resumeRings
  let s := s.postDev 0 0x0801 0
    (toLe 1 mask ++ toLe 1 w.outgoing ++ toLe 1 w.incoming ++ toLe 5 0 ++ toLe 8 (w.outStep.getD (2 ^ 64 - 1)))
  match w.destroy with
  | some c => ((s.setCtx c { s.ctx c with st := 3 }).measure 7).done w.head w.opcode 0 0
  | none => s.done w.head w.opcode 0 0

/-- Orders 7 and 8 of R535, once the domains of a resumed job are ready. -/
def State.finishSwitch (s : State) (w : Switch) : State :=
  match s.job w.incoming with
  | some j =>
    if j.st = JobSt.suspended then
      if !s.unitsReady j.halves then s
      else ((s.setJob w.incoming { j with st := .running }).reloadJob w.incoming).endSwitch w w.halves
    else s.endSwitch w w.halves
  | none => s.endSwitch w w.halves

/-- Orders 4 and 5: the outgoing job is suspended, and the scrub begins; a sparing point of the halves (R636). -/
def State.beginSwitchScrub (s : State) (w : Switch) : State :=
  let s := s.onJob w.outgoing fun j => if j.st = JobSt.running then { j with st := .suspended } else j
  let s := { s with sec := { s.sec with switch := some { w with scrubbing := true } } }
  (s.sparingPoint w.halves).beginScrub w.halves (if w.destroy.isSome then 3 else 1)

/-- Does the outgoing job hold back the switch: its seed or its close is awaited, a step or a Moss run has not ended, or its last cutting is
not flushed? -/
def State.outBusy (s : State) (w : Switch) : Bool :=
  match s.job w.outgoing with
  | some j =>
    j.st == .waitSeed || j.st == .regrow ||
      (j.st == .running &&
        (j.run.isSome || j.closing.isSome || (s.moss.runs.any fun r => r.ctx == w.outgoing) ||
          (s.moss.regions.any fun kv => kv.2.ctx == w.outgoing && kv.2.await.isSome) ||
          (j.stepNext != 0 && (j.flushed.map (·.2)) != some (j.stepNext - 1))))
  | none => false

/-- Order 2 and the capture of order 3 at the outgoing job's boundary. -/
def State.beginSwitch (s : State) (w : Switch) (j : Job) : State :=
  let s := { s with moss := { s.moss with runs := s.moss.runs.map fun (r : MRun) => if r.ctx = w.outgoing then { r with stopping := true } else r } }
  let due := j.stepNext != 0 && j.lastCapture != some (j.stepNext - 1)
  let s := s.setJob w.outgoing (if due && !(s.moss.runs.any fun r => r.ctx == w.outgoing) then { j with cutNow := true } else j)
  let s := s.captureIfDue w.outgoing
  { s with sec := { s.sec with switch := some { w with outStep := some j.lastStep } } }

/-- The switch goes on as far as it can. -/
def State.switchStep (s : State) : State :=
  match s.sec.switch with
  | none => s
  | some w =>
    if s.sec.scrub.isSome || !s.boot.aligned || s.rst.busy.isSome then s
    else if w.scrubbing then s.finishSwitch w
    else match s.job w.outgoing with
      | some j =>
        if j.st = JobSt.running ∧ 1 < j.params.devices then
          ({ s with sec := { s.sec with switch := none } }).done w.head w.opcode 0x0803 0
        else if j.st = JobSt.running ∧ j.run.isNone = true ∧ j.closing.isNone = true then
          let s := s.beginSwitch w j
          let w := { w with outStep := some j.lastStep }
          if s.outBusy w then s else s.beginSwitchScrub w
        else if s.outBusy w then s else s.beginSwitchScrub w
      | none => s.beginSwitchScrub w

/-- Order 6, when the scrub of a switch has ended: the halves change hands (R525). -/
def State.handOver (s : State) (w : Switch) : State :=
  let s := s.onHalves w.halves fun _ x => { x with owner := w.incoming }
  let s := if w.outgoing ≠ 0 ∧ s.halvesOf w.outgoing = 0 then s.setCtx w.outgoing { s.ctx w.outgoing with st := 1 } else s
  let s := if w.incoming = 0 then s else s.setCtx w.incoming { s.ctx w.incoming with st := 2 }
  let g := if w.incoming = 0 then 0 else (s.ctx w.incoming).gen
  let s := (List.range 32).foldl (fun (s : State) i => if bit w.halves (i / 16) then s.setLpx i { s.lpxCtrl i with gen := g } else s) s
  match s.job w.incoming with
  | some j =>
    if j.st = JobSt.suspended then (s.setJob w.incoming { j with halves := s.halvesOf w.incoming }).powerOn (jobDomains (s.halvesOf w.incoming)) else s
  | none => s

/-- A mode change gives both halves to context 0 (log entry 30). -/
def State.vacate (s : State) : State :=
  let run := (List.range 16).filter fun c => c != 0 && s.halvesOf c != 0
  let s := run.foldl (fun (s : State) c => s.setCtx c { s.ctx c with st := 1 }) s
  let s := s.onHalves 3 fun _ x => { x with owner := 0 }
  (List.range 32).foldl (fun (s : State) i => s.setLpx i { s.lpxCtrl i with gen := 0 }) s

/-- A switch of the halves of a mask to a context is asked for. -/
def State.askSwitch (s : State) (h : Head) (op inc mask : Nat) (destroy : Option Nat) : State :=
  ({ s with sec := { s.sec with switch := some ⟨h, op, inc, mask, destroy, s.ownerOf (maskHalf mask), none, false⟩ } }).switchStep

/-- CTX_RUN after R465 (R534, R535). -/
def State.cmdCtxRun (s : State) (h : Head) (c mask : Nat) : State :=
  let form := if s.split then (mask == 1 || mask == 2) && (c == 0 || (s.halvesOf c &&& (3 - mask)) == 0) else mask == 3
  if 15 < c ∨ form = false then s.done h 0x72 0x0802 0
  else if c ≠ 0 ∧ ((s.ctx c).st = 0 ∨ (s.ctx c).st = 3) then s.done h 0x72 0x0803 0
  else if (s.halvesOf c &&& mask) = mask then s.done h 0x72 0 0
  else s.askSwitch h 0x72 c mask none

/-- CTX_DESTROY after R465 (R532, R557). -/
def State.cmdDestroy (s : State) (h : Head) (c : Nat) : State :=
  let x := s.ctx c
  if c = 0 ∨ 15 < c ∨ x.st = 0 then s.done h 0x71 0x0802 0
  else if x.st = 3 ∨ s.holdsJob c = true then s.done h 0x71 0x0803 0
  else if s.halvesOf c = 0 then ((s.setCtx c { x with st := 3 }).measure 7).done h 0x71 0 0
  else s.askSwitch h 0x71 0 (s.halvesOf c) (some c)

end Sys2Proof.Machine
end

