-- ==== Sys2Proof/Machine/OpsMoss.lean ====
section
/-!
DEFINITION. Moss runs: half-sweeps, the actions at a sweep boundary, anneal cuttings, result sets, and runs extended across devices
(R347 to R369, R382 to R397).
-/
namespace Sys2Proof.Machine
open Sys2Proof

/-! ## Runs and their regions -/

/-- The running run of a number in context c. -/
def State.mossRun (s : State) (c n : Nat) : Option MRun :=
  s.moss.runs.find? fun r => r.ctx == c && r.run == n && decide (r.stage < 7)

/-- The running extended run of an EXT_ID in context c. -/
def State.mossExt (s : State) (c id : Nat) : Option MRun :=
  s.moss.runs.find? fun r => r.ctx == c && decide (r.stage < 7) && (match r.ext with | some x => x.extId == id | none => false)

/-- A running run replaced. -/
def State.putRun (s : State) (r : MRun) : State :=
  { s with moss := { s.moss with
    runs := s.moss.runs.map fun (x : MRun) => if x.ctx = r.ctx ∧ x.run = r.run ∧ x.stage < 7 then r else x } }

/-- A running run removed. -/
def State.dropRun (s : State) (r : MRun) : State :=
  { s with moss := { s.moss with
    runs := s.moss.runs.filter fun (x : MRun) => !(x.ctx == r.ctx && x.run == r.run && decide (x.stage < 7)) } }

/-- Regions changed. -/
def State.onRegions (s : State) (ns : List Nat) (f : MRegion → MRegion) : State :=
  { s with moss := { s.moss with
    regions := ns.foldl (fun m n => Map.set MRegion.free m n (f (Map.get MRegion.free m n))) s.moss.regions } }

/-- One region stored. -/
def State.setRegion (s : State) (n : Nat) (g : MRegion) : State :=
  { s with moss := { s.moss with regions := Map.set MRegion.free s.moss.regions n g } }

/-- The region of replica k. -/
def State.replica (s : State) (r : MRun) (k : Nat) : MRegion := s.region (r.regions.getD k 0)

/-- Replicas of a run. -/
def MRun.replicas (r : MRun) : Nat := r.regions.length

/-- A segment of the schedule. -/
def MRun.segment (r : MRun) (k : Nat) : MSegment := r.segments.getD k ⟨0#32, 0, 0, false⟩

/-- Sweeps of the run (R352). -/
def MRun.total (r : MRun) : Nat := totalSweeps r.segments

/-- What a part knows beyond its columns in half-sweep h of replica k: with the last faces, or with the snapshot faces (R391, R393). -/
def MRun.edge (r : MRun) (g : MRegion) (k h : Nat) (snap : Bool) : Option Edge :=
  r.ext.map fun x =>
    let p := if snap then x.snapPrev else x.facePrev
    let n := if snap then x.snapNext else x.faceNext
    { hasPrev := x.hasPrev, hasNext := x.hasNext, prev := p.map fun f => (f.spins.getD k [], f.jx),
      next := n.map fun f => f.spins.getD k [], own := g.edge, xOffset := x.xOffset, xTotal := x.xTotal,
      at_ := (r.ctx, r.run, h * 128 + k) }

/-- The Spore key of the run (R204, R351). -/
def State.mossKey (s : State) (r : MRun) : W128 :=
  sporeKey (match s.job r.ctx with | some j => j.seed | none => 0#128) r.seed

/-- VBYTES of the run's section: none on a part that does not hold the lead of a run with chains (R385, R394). -/
def MRun.vbytes (r : MRun) (g : MRegion) : Nat :=
  if r.chains != 0 && (match r.ext with | some x => !x.isLead | none => false) then 0 else vBytes r.chains g.imageBytes

/-- Bytes of the run's result section. -/
def MRun.sectionBytes (r : MRun) (g : MRegion) : Nat := sectionSize r.depth (r.vbytes g)

/-- The result section as bytes. -/
def MRun.section (r : MRun) (g : MRegion) : List Byte := r.resBytes (r.vbytes g) (eExp g.ej g.eh)

/-- A state image. -/
def MRegion.stateImage (g : MRegion) : List Byte := Memory.readBytes g.spins 0 g.imageBytes

/-! ## Cuttings (R360 to R362) -/

/-- I of R360. -/
def initBytes (replicas image : Nat) : Nat := roundUp (replicas * image) 4096

/-- Z of R360. -/
def slotRoom (replicas image sec : Nat) : Nat := roundUp (384 + initBytes replicas image + sec + 48) 4096

/-- Bytes of a slot, trailer included. -/
def slotBytes (replicas image sec : Nat) : Nat := 384 + replicas * image + sec + 48

/-- The DPA of slot k. -/
def slotDpa (cutArea replicas image sec k : Nat) : Nat := cutArea + initBytes replicas image + k * slotRoom replicas image sec

/-- A slot without its trailer (R362). -/
def State.slotBody (s : State) (r : MRun) (g : MRegion) : List Byte :=
  let n := r.replicas
  toLe 4 0x4B564143 ++ toLe 2 1 ++ toLe 1 n ++ toLe 1 (b2n g.exact) ++ toLe 2 (g.tx1 - g.tx0 + 1) ++ toLe 2 (g.ty1 - g.ty0 + 1) ++
    toLe 4 r.seg ++ toLe 8 r.sweep ++ toLe 4 r.segSweep ++ toLe 4 0 ++ toLe 8 r.exchanges ++
    toLe 8 (slotBytes n g.imageBytes (r.sectionBytes g)) ++ r.digest ++ g.digest ++ List.replicate 112 0#8 ++
    ((List.range 128).map fun k => toLe 1 (r.rungs.getD k 0xFF)).flatten ++
    ((List.range n).map fun k => (s.replica r k).stateImage).flatten ++ r.section g

/-- An anneal cutting is taken (R361): the slot is written but for its trailer, which reads as zeros until the write is done. -/
def State.takeCutting (s : State) (r : MRun) : State :=
  let g := s.replica r 0
  let body := s.slotBody r g
  let at_ := slotDpa r.cutArea r.replicas g.imageBytes (r.sectionBytes g) r.nextSlot
  let s := s.lpxWrite at_ 5 (body ++ List.replicate 48 0#8)
  s.putRun { r with cut := some (r.nextSlot, r.sweep, at_ + body.length, sha384 body), cutHere := true, nextSlot := 1 - r.nextSlot }

/-! ## The result registers (R398, R399) -/

/-- The registers of the run's regions after a decision. -/
def MRun.viewOf (r : MRun) (g : MRegion) : ResView :=
  let e := fun (o : Option MossCand) => match o with | some c => c.e | none => 0
  { g.view with best := e r.set.best, feas := e r.set.feas, count := r.set.res.length, bestValid := r.set.best.isSome,
                feasValid := r.set.feas.isSome, eExp := eExp g.ej g.eh, samples := r.set.samples }

/-- The registers of a run that starts or resumes. -/
def MRun.firstView (r : MRun) : ResView :=
  match r.ext with
  | none => ResView.zero
  | some x => { ResView.zero with extended := true, lead := x.isLead, part := x.part, parts := x.parts }

/-- The working section written to RES_AREA (R386). -/
def State.putSection (s : State) (r : MRun) : State := s.lpxWrite r.resArea 1 (r.section (s.replica r 0))

/-! ## Sample points (R382 to R384, R393) -/

/-- Is sweep s of a schedule a sample point by SAMPLE_EVERY? -/
def sampleAt : List MSegment → Nat → Bool
  | [], _ => false
  | g :: gs, s => if s ≤ g.sweeps then g.sampleEvery != 0 && s % g.sampleEvery == 0 else sampleAt gs (s - g.sweeps)

/-- Is a sample point due at sweep s (R355)? -/
def MRun.sampleDue (r : MRun) (s : Nat) : Bool := sampleAt r.segments s || s == r.total

/-- Is an exchange due at sweep s (R355)? -/
def MRun.exchangeDue (r : MRun) (s : Nat) : Bool := r.exchEvery != 0 && s % r.exchEvery == 0

/-- The local site of a global site index, where the part holds it (R389). -/
def MRegion.localSite (g : MRegion) (e : Option Edge) (i : Nat) : Option Nat :=
  match e with
  | none => if i < g.sites then some i else none
  | some d =>
    let x := i % d.xTotal
    if d.xOffset ≤ x ∧ x < d.xOffset + g.wx then some (g.index (x - d.xOffset) (i / d.xTotal % g.wy) (i / d.xTotal / g.wy)) else none

/-- The chain map's entries of the region's own sites. -/
def MRun.ownMap (r : MRun) (g : MRegion) (e : Option Edge) : List Nat :=
  (List.range g.sites).map fun i => r.chainMap.getD (g.element e i) 0

/-- What a device can say of one replica's snapshot: energy sums, tallies of the chains, sums of the constraints over sites, and equality of its
vector with the reservoir's entries and with earlier replicas of the sample (R377, R375, R381, R394). -/
def MRun.partialOf (r : MRun) (g : MRegion) (e : Option Edge) (earlier : List (List Byte)) : MossPartial :=
  let val := fun i => match g.localSite e i with | some k => spinBit g.spins k | none => false
  { cj := g.cj g.spins e, ch := g.ch g.spins
    sums := if r.chains = 0 then r.constrs.map fun c => constrSum c val else []
    chains := (List.range r.chains).map fun c => chainTally (r.ownMap g e) c (spinBit g.spins) (g.element e)
    equalRes := r.set.res.map fun x => x.vec == g.stateImage
    equalRep := earlier.map fun x => x == g.stateImage }

/-- The partials of every replica. -/
def State.partials (s : State) (r : MRun) : List MossPartial :=
  (List.range r.replicas).map fun k =>
    let g := s.replica r k
    r.partialOf g (r.edge g k (r.half - 1) true) ((List.range k).map fun i => (s.replica r i).stateImage)

/-- Two parts' partials of one replica added (R393). -/
def MossPartial.add (a b : MossPartial) : MossPartial :=
  { cj := a.cj + b.cj, ch := a.ch + b.ch, sums := List.zipWith (· + ·) a.sums b.sums, chains := List.zipWith addTally a.chains b.chains
    equalRes := List.zipWith (· && ·) a.equalRes b.equalRes, equalRep := List.zipWith (· && ·) a.equalRep b.equalRep }

/-- The candidate of replica k at sweep t from its partial sums (R377, R375, R381). -/
def MRun.judge (r : MRun) (g : MRegion) (t k : Nat) (p : MossPartial) (image : List Byte) (closed : Bool) : MossCand :=
  let votes := p.chains.map chainVote
  let bits_ := votes.map (·.1)
  let sums := if r.chains = 0 then p.sums else r.constrs.map fun c => constrSum c fun v => bits_.getD v false
  let v := violations r.constrs sums
  { e := eInt g.ej g.eh p.cj p.ch, sweep := t, replica := k, vec := if r.chains = 0 then image else voteVector bits_,
    feasible := v.1 == 0, closed := closed, violated := v.1, firstViol := v.2, broken := (votes.filter (·.2)).length }

/-- Candidates offered in replica order (R382); `same` names what equals each one among the stored entries. -/
def MRun.offerAll (r : MRun) (cands : List MossCand) (same : List (Option (Nat × Nat))) : ResSet :=
  let set := (cands.zip same).foldl (fun (s : ResSet) c =>
    s.offer r.depth r.feasOnly (fun x => c.2 == some (x.sweep, x.replica)) c.1) r.set
  { set with samples := set.samples + 1, finals := (List.range 128).map fun k => (cands.map (·.e)).getD k 0 }

/-- What equals each candidate at the moment it is offered: `eq x c k` says whether candidate k equals the stored entry x. -/
def MRun.findSame (r : MRun) (eq : MossCand → MossCand → Nat → Bool) (cands : List MossCand) : List (Option (Nat × Nat)) :=
  (cands.zipIdx.foldl (fun (a : ResSet × List (Option (Nat × Nat))) ck =>
    let hit := a.1.res.find? fun x => eq x ck.1 ck.2
    (a.1.offer r.depth r.feasOnly (fun x => eq x ck.1 ck.2) ck.1, a.2 ++ [hit.map fun x => (x.sweep, x.replica)])) (r.set, [])).2

/-- The stored candidates of a set by sweep and replica. -/
def ResSet.keys (x : ResSet) : List (Option (Nat × Nat)) :=
  (x.best :: x.feas :: x.res.map some).map fun o => o.map fun c => (c.sweep, c.replica)

/-- A sample point's decision takes effect: the result set and its registers; new result vectors are then written to RES_AREA, and with
none the section is up to date (R383, R386). -/
def State.applySample (s : State) (r : MRun) (cands : List MossCand) (same : List (Option (Nat × Nat))) : State :=
  let set := r.offerAll cands same
  let busy := set.keys != r.set.keys
  let r := { r with set := set, resBusy := busy }
  let s := (s.putRun r).onRegions r.regions fun g => { g with view := r.viewOf g }
  if busy then s else s.putSection r

/-- The sample point of a run on this device (R382). -/
def State.sampleHere (s : State) (r : MRun) : State :=
  let ps := s.partials r
  let cands := ps.zipIdx.map fun pk => let g := s.replica r pk.2; r.judge g r.sweep pk.2 pk.1 g.stateImage false
  s.applySample r cands (r.findSame (fun x c _ => x.vec == c.vec) cands)

/-! ## Exchange (R356, R357) -/

/-- The rungs after exchange number n with the energies by replica, and the swaps made. -/
def MRun.swapRungs (r : MRun) (key : W128) (ee : Int) (es : List Int) : List Nat × Nat :=
  let seg := r.segment r.seg
  (List.range (r.replicas - 1)).foldl (fun (a : List Nat × Nat) g =>
    if g % 2 != r.exchanges % 2 then a else
    let ra := a.1.findIdx (· == g)
    let rb := a.1.findIdx (· == g + 1)
    let u := sporeDraw key 0x31 r.run r.exchanges g
    if exchangeSwaps (rungBeta seg r.ladder g) (rungBeta seg r.ladder (g + 1)) (es.getD ra 0 - es.getD rb 0) ee u then
      ((a.1.set ra (g + 1)).set rb g, a.2 + 1)
    else a) (r.rungs, 0)

/-- Pairs that exchange number n visits. -/
def MRun.pairs (r : MRun) : Nat := ((List.range (r.replicas - 1)).filter fun g => g % 2 == r.exchanges % 2).length

/-- An exchange takes effect. -/
def State.applySwaps (s : State) (r : MRun) (rungs : List Nat) (swaps : Nat) : State :=
  s.putRun { r with rungs := rungs, exchanges := r.exchanges + 1, attempted := r.attempted + r.pairs, accepted := r.accepted + swaps,
                    stage := 3 }

/-- The exchange of a run on this device: with the sample point's energies where the sweep is one (R357, R383). -/
def State.exchangeHere (s : State) (r : MRun) : State :=
  let g := s.replica r 0
  let es := if r.sampleDue r.sweep then r.set.finals else
    (List.range r.replicas).map fun k => let x := s.replica r k; eInt x.ej x.eh (x.cj x.spins none) (x.ch x.spins)
  let w := r.swapRungs (s.mossKey r) (eExp g.ej g.eh) es
  s.applySwaps r w.1 w.2

/-! ## Messages of an extended run (R388 to R395; their byte layouts are the model's) -/

/-- A packed border column of replica k: x is the local column. -/
def MRegion.column (g : MRegion) (x : Nat) : List Byte :=
  packBits ((List.range (8 * g.wy)).map fun k => spinBit g.spins (g.index x (k % g.wy) (k / g.wy)))

/-- The body of a face. -/
def MossFaceMsg.bytes (m : MossFaceMsg) : List Byte :=
  toLe 4 m.extId ++ toLe 1 m.part ++ toLe 1 (b2n m.snapshot + 2 * b2n m.closing) ++ toLe 2 0 ++ toLe 8 m.halfSweep ++ m.spins.flatten ++
    (m.jx.map fun v => toLe 2 (unsigned 16 v)).flatten

/-- The body of a set-up. -/
def MossSetupMsg.bytes (m : MossSetupMsg) : List Byte :=
  toLe 4 m.extId ++ toLe 1 m.parts ++ toLe 1 m.part ++ toLe 1 m.stale ++ toLe 1 m.replicas ++ toLe 4 m.xOffset ++ toLe 4 m.xTotal ++
    toLe 2 m.lead ++ toLe 2 m.ty0 ++ toLe 4 m.width ++ toLe 4 m.wy ++ toLe 1 (unsigned 8 m.ej) ++ toLe 1 (unsigned 8 m.eh) ++ toLe 2 0 ++
    toLe 8 m.sweep ++ m.runDigest ++ m.chainDigest

/-- The bytes of one replica's partials. -/
def MossPartial.bytes (p : MossPartial) : List Byte :=
  toLe 8 (unsigned 64 p.cj) ++ toLe 8 (unsigned 64 p.ch) ++ (p.sums.map fun v => toLe 8 (unsigned 64 v)).flatten ++
    (p.chains.map fun t => toLe 4 t.1 ++ toLe 4 t.2.1 ++ toLe 8 t.2.2.1 ++ toLe 1 (b2n t.2.2.2)).flatten ++
    packBits (p.equalRes ++ p.equalRep)

/-- The body of the partials. -/
def MossPartialsMsg.bytes (m : MossPartialsMsg) : List Byte :=
  toLe 4 m.extId ++ toLe 1 m.part ++ toLe 3 0 ++ toLe 8 m.sweep ++ (m.replicas.map MossPartial.bytes).flatten

/-- The body of a decision. -/
def MossDecisionMsg.bytes : MossDecisionMsg → List Byte
  | .start i => toLe 4 i ++ toLe 4 0
  | .mismatch i => toLe 4 i ++ toLe 4 1
  | .sample i t cands same => toLe 4 i ++ toLe 4 2 ++ toLe 8 t ++ ((cands.zip same).map fun c => candSlot 0 (some c.1) ++
      (match c.2 with | some k => toLe 8 k.1 ++ toLe 1 k.2 ++ toLe 1 1 | none => toLe 10 0)).flatten
  | .swaps i n rungs => toLe 4 i ++ toLe 4 3 ++ toLe 8 n ++ (rungs.map fun g => toLe 1 g).flatten
  | .cut i t => toLe 4 i ++ toLe 4 4 ++ toLe 8 t
  | .stop i t => toLe 4 i ++ toLe 4 5 ++ toLe 8 t

/-- A decision of the lead part, on VC0 to every part (R394). -/
def State.sendDecision (s : State) (c : Nat) (m : MossDecisionMsg) : State := s.sendJob c 0x23 (MossDecisionMsg.bytes m)

/-- The border columns sent to the neighbours on VC2 (R391, R393): the first to part p - 1, the last with its Jx to part p + 1. -/
def State.sendFaces (s : State) (r : MRun) (snapshot closing : Bool) : State :=
  match r.ext with
  | none => s
  | some x =>
    let g := s.replica r 0
    let face := fun (col : Nat) (jx : List Int) => MossFaceMsg.bytes ⟨x.extId, x.part, r.half - 1, snapshot, closing,
      (List.range r.replicas).map fun k => (s.replica r k).column col, jx⟩
    let s := if x.hasPrev then s.sendMsg r.ctx 0x20 2 x.prev (face 0 []) else s
    if x.hasNext then s.sendMsg r.ctx 0x20 2 x.next (face (g.wx - 1) g.edge) else s

/-- The run with its extension changed. -/
def MRun.onExt (r : MRun) (f : MExt → MExt) : MRun := { r with ext := r.ext.map f }

end Sys2Proof.Machine
end

