-- ==== Sys2Proof/Machine/OpsMossRun.lean ====
section
/-!
DEFINITION. Moss runs at a sweep boundary: the actions of R355, the end and the stop of a run (R358, R359, R705), and the decisions of an
extended run (R388, R393 to R395).
-/
namespace Sys2Proof.Machine
open Sys2Proof

/-! ## Reads, progress, end and stop -/

/-- A region's state image delivered to the host (R367): a write that cannot be sent fails the read alone (R699). -/
def State.copyRegion (s : State) (h : Head) (n host result : Nat) : State :=
  if s.hostCanWrite then (s.hostWrite host (s.region n).stateImage).done h 0x55 0 result else s.done h 0x55 0x0008 0

/-- The reads that wait for the boundary. -/
def State.serveReads (s : State) (r : MRun) : State :=
  r.reads.foldl (fun (s : State) x => s.copyRegion x.1 x.2.1 x.2.2 r.sweep) (s.putRun { r with reads := [] })

/-- MOSS_PROGRESS (R397); the lead part alone posts it. -/
def State.postProgress (s : State) (r : MRun) : State :=
  if r.progress = 0 ∨ r.sweep % r.progress ≠ 0 ∨ (match r.ext with | some x => !x.isLead | none => false) = true then s else
  let e := fun (o : Option MossCand) => match o with | some c => unsigned 64 c.e | none => 0
  s.postJob r.ctx 0x0601 0 (toLe 4 r.run ++ toLe 1 (b2n r.set.best.isSome + 2 * b2n r.set.feas.isSome) ++ toLe 3 0 ++ toLe 8 r.sweep ++
    toLe 8 r.total ++ toLe 8 (e r.set.best) ++ toLe 8 (e r.set.feas))

/-- The completion of a run that ends or stops (R476). -/
def MRun.cpl (r : MRun) (status : Nat) : Cpl :=
  let e := fun (o : Option MossCand) => match o with | some c => unsigned 64 c.e | none => 0
  if status = 0 then
    ⟨0, r.run + 2 ^ 32 * (b2n r.set.best.isSome + 2 * b2n r.set.feas.isSome), 0, 4,
      [toLe 8 (e r.set.best) ++ toLe 8 (e r.set.feas) ++ toLe 8 r.set.samples]⟩
  else Cpl.plain status 0

/-- The run's regions return to LOADED, and their tiles to ASSIGNED (R337, R365). -/
def State.freeRun (s : State) (r : MRun) : State :=
  let ts := (r.regions.map fun n => (s.region n).tiles).flatten
  (s.setTiles ts 3).onRegions r.regions fun g => { g with st := 2 }

/-- The result set written at an end or a stop (R358, R386): RES_AREA and RESULT, with the status of the second write. -/
def State.writeResult (s : State) (r : MRun) : State × Nat :=
  let s := s.putSection r
  if s.hostCanWrite then (s.hostWrite r.result (r.section (s.replica r 0)), 0) else (s, 0x0008)

/-- What may go on once a run has ended: a JOB_CLOSE or a context switch that waited for it (R705, R528). -/
def State.afterRun (s : State) (c : Nat) : State := (s.tryClose c).switchStep

/-- The payload of MOSS_RUN_DONE and MOSS_STOPPED (R481). -/
def MRun.donePayload (r : MRun) : List Byte := toLe 4 r.run ++ toLe 4 0 ++ toLe 8 r.sweep

/-- The end of a run (R358). A pending stop completes with MOSS_STATE (R359). A cutting that is still being written goes on. -/
def State.endRun (s : State) (r : MRun) : State :=
  let w := s.writeResult r
  let s := w.1.freeRun r
  let s := s.postJob r.ctx 0x0602 0 r.donePayload
  let s := if r.cut.isSome then s.putRun { r with stage := 8, stop := none, reads := [] } else s.dropRun r
  let s := match r.stop with | some h => s.done h 0x53 0x0602 0 | none => s
  (s.complete r.head r.opcode (r.cpl w.2)).afterRun r.ctx

/-- The completions of a stopped run once its cutting is written (R359). -/
def State.endStop (s : State) (r : MRun) : State :=
  let s := match r.stop with | some h => s.done h 0x53 0 r.sweep | none => s
  (s.complete r.head r.opcode (r.cpl r.fin)).afterRun r.ctx

/-- The stop of a run after its cutting is taken (R359). -/
def State.stopRun (s : State) (r : MRun) : State :=
  let w := s.writeResult r
  let s := w.1.freeRun r
  let s := s.postJob r.ctx 0x0603 0 r.donePayload
  if r.cut.isSome then s.putRun { r with stage := 7, fin := w.2, reads := [] }
  else (s.dropRun r).endStop { r with fin := w.2 }

/-- A run that fails before its first sweep (R388). -/
def State.failRun (s : State) (r : MRun) (status : Nat) : State :=
  let s := (s.serveReads r).freeRun r
  let s := s.dropRun r
  let s := match r.stop with | some h => s.done h 0x53 0x0602 0 | none => s
  (s.done r.head r.opcode status 0).afterRun r.ctx

/-! ## The lead part (R388, R393 to R395) -/

/-- The run sweep in progress, or the one just completed at a boundary. -/
def MRun.current (r : MRun) : Nat := if r.stage = 0 then r.sweep + 1 else r.sweep

/-- The lead part chooses its stop sweep and sends it (R395). -/
def State.chooseStop (s : State) (r : MRun) : State :=
  match r.ext with
  | some x =>
    if x.isLead && x.stopAt.isNone then
      let t := r.current + 2
      (s.putRun (r.onExt fun x => { x with stopAt := some t })).sendDecision r.ctx (.stop x.extId t)
    else s
  | none => s

/-- Does the run stop at this boundary (R359, R395)? Its last boundary is its end. -/
def MRun.stopHere (r : MRun) : Bool :=
  r.sweep != r.total && (match r.ext with
    | some x => x.stopAt.any fun t => decide (t ≤ r.sweep)
    | none => r.stopping)

/-- Do the set-ups of all parts agree (R388, R392)? -/
def setupsAgree (ms : List MossSetupMsg) : Bool :=
  match ms with
  | [] => true
  | a :: rest =>
    (rest.all fun b => { b with part := a.part, xOffset := a.xOffset, width := a.width } == a) &&
    ms.all fun m => ms.all fun n => m.part + 1 != n.part || n.xOffset == m.xOffset + m.width

/-- The lead part starts the run on every part, or fails it, once every part's set-up is here (R388). -/
def State.leadStart (s : State) (r : MRun) : State :=
  match r.ext with
  | none => s
  | some x =>
    if x.isLead && !x.ready && (List.range x.parts).all (fun p => x.setups.any fun m => m.part == p) then
      if setupsAgree x.setups then
        (s.putRun (r.onExt fun x => { x with ready := true })).sendDecision r.ctx (.start x.extId)
      else (s.sendDecision r.ctx (.mismatch x.extId)).failRun r 0x0605
    else s

/-- The sum of all parts' partials of replica k. -/
def sumPartials (ms : List MossPartialsMsg) (k : Nat) : MossPartial :=
  match ms.filterMap fun m => m.replicas[k]? with
  | [] => ⟨0, 0, [], [], [], []⟩
  | p :: ps => ps.foldl MossPartial.add p

/-- Which stored entries equal candidate k at a lead part: those that every part reports equal, or whose votes are equal (R394). -/
def MRun.leadSame (r : MRun) (t : Nat) (totals : List MossPartial) : MossCand → MossCand → Nat → Bool := fun x c k =>
  if r.chains != 0 then x.vec == c.vec
  else
    let p := totals.getD k ⟨0, 0, [], [], [], []⟩
    if x.sweep = t then p.equalRep.getD x.replica false
    else p.equalRes.getD (r.set.res.findIdx fun y => y.sweep == x.sweep && y.replica == x.replica) false

/-- A part applies the decision of a sample point (R394): the shares come from its snapshot. -/
def State.applyDecision (s : State) (r : MRun) (cands : List MossCand) (same : List (Option (Nat × Nat))) : State :=
  let images := match r.ext with | some x => (match x.snap with | some p => p.2 | none => []) | none => []
  let cands := cands.zipIdx.map fun ck => if r.chains = 0 then { ck.1 with vec := images.getD ck.2 [] } else ck.1
  s.applySample (r.onExt fun x => { x with snap := none }) cands same

/-- The lead part decides sweep t once the partials of every part are here (R393 to R395). -/
def State.leadDecide (s : State) (r : MRun) : State :=
  match r.ext with
  | none => s
  | some x =>
    if !x.isLead then s else
    match x.partials.find? (fun m => (List.range x.parts).all fun p => x.partials.any fun q => q.sweep == m.sweep && q.part == p) with
    | none => s
    | some m =>
      let t := m.sweep
      let ms := x.partials.filter fun q => q.sweep == t
      let totals := (List.range r.replicas).map (sumPartials ms)
      let g := s.replica r 0
      let closed := t == r.total || x.stopAt.any fun z => decide (z ≤ t)
      let cands := totals.zipIdx.map fun pk => r.judge g t pk.2 pk.1 [] closed
      let r := r.onExt fun x => { x with partials := x.partials.filter fun q => q.sweep != t }
      let s := s.putRun r
      let s := if r.sampleDue t then
          let same := r.findSame (r.leadSame t totals) cands
          (s.applyDecision r cands same).sendDecision r.ctx (.sample x.extId t (cands.map fun c => { c with vec := [] }) same)
        else s
      match s.mossRun r.ctx r.run with
      | some r =>
        if r.exchangeDue t && r.stage == 2 && r.sweep == t then
          let w := r.swapRungs (s.mossKey r) (eExp g.ej g.eh) (cands.map (·.e))
          (s.applySwaps r w.1 w.2).sendDecision r.ctx (.swaps x.extId r.exchanges w.1)
        else s
      | none => s

/-! ## The actions at a sweep boundary (R355) -/

/-- Has a snapshot face of this boundary come from a neighbour? -/
def MRun.faceHere (r : MRun) (f : Option MossFaceMsg) : Bool :=
  match f with
  | some m => m.halfSweep + 1 == r.half || (m.closing && r.stopHere)
  | none => false

/-- Are the snapshot faces of every neighbour here (R393)? -/
def MExt.facesHere (x : MExt) (r : MRun) : Bool :=
  (!x.hasPrev || r.faceHere x.snapPrev) && (!x.hasNext || r.faceHere x.snapNext)

/-- Step 1 on a part of an extended run: snapshot faces to the neighbours, then the partials to the lead part (R393). -/
def State.samplePart (s : State) (r : MRun) (x : MExt) : Option State :=
  let due := r.sampleDue r.sweep
  if !(due || r.exchangeDue r.sweep || r.stopHere) then some (s.putRun { r with stage := 2 })
  else if due && (r.resBusy || x.snap.isSome) then none
  else
    let closing := r.sweep == r.total || r.stopHere
    if x.asked ≠ some r.sweep then
      some ((s.putRun (r.onExt fun x => { x with asked := some r.sweep })).sendFaces r true closing)
    else if !x.facesHere r then none
    else
      let wants := due || r.exchangeDue r.sweep
      let m : MossPartialsMsg := ⟨x.extId, x.part, r.sweep, if wants then s.partials r else []⟩
      let images := (List.range r.replicas).map fun k => (s.replica r k).stateImage
      let next := r.onExt fun x => { x with asked := none, snapPrev := none, snapNext := none,
                                            snap := if due then some (r.sweep, images) else x.snap }
      let next := { next with stage := 2 }
      if !wants then some (s.putRun next)
      else if x.isLead then
        let lead := next.onExt fun x => { x with partials := x.partials ++ [m] }
        some ((s.putRun lead).leadDecide lead)
      else some ((s.putRun next).sendMsg r.ctx 0x21 1 x.lead (MossPartialsMsg.bytes m))

/-- Step 3 of R355: the next segment when this one has completed its sweeps, with its RESET_STATE from the initial images. -/
def State.nextSegment (s : State) (r : MRun) : State :=
  if r.segSweep < (r.segment r.seg).sweeps ∨ r.segments.length ≤ r.seg + 1 then s.putRun { r with stage := 4 } else
  let s := s.putRun { r with stage := 4, seg := r.seg + 1, segSweep := 0 }
  if (r.segment (r.seg + 1)).reset then
    let img := (s.replica r 0).imageBytes
    r.regions.zipIdx.foldl (fun (s : State) nk =>
      s.setRegion nk.1 { s.region nk.1 with spins := Memory.writeBytes [] 0 (s.lpxRead (r.cutArea + nk.2 * img) img) }) s
  else s

/-- Has the cutting order of this sweep come (R395)? -/
def MRun.cutOrdered (r : MRun) : Bool :=
  match r.ext with
  | none => true
  | some x => x.isLead || r.stopHere || x.cutAt.any fun t => decide (r.sweep ≤ t)

/-- Step 4 of R355, with the cutting of a stop (R359, R361): it waits for the one before to be written. -/
def State.cutStep (s : State) (r : MRun) : Option State :=
  if !(r.cutEvery != 0 && r.sweep % r.cutEvery == 0) && !r.stopHere then some (s.putRun { r with stage := 5 })
  else if r.cut.isSome || !r.cutOrdered then none
  else
    let s := s.takeCutting { r with stage := 5 }
    match r.ext with
    | some x => some (if x.isLead && !r.stopHere then s.sendDecision r.ctx (.cut x.extId r.sweep) else s)
    | none => some s

/-- The end of a boundary: the run ends, stops, or goes on sweeping. -/
def State.endStage (s : State) (r : MRun) : Option State :=
  if r.ext.any (fun x => !x.ready || (x.snap.isSome && (r.sweep == r.total || r.stopHere))) then none
  else if r.sweep = r.total then some (s.endRun r)
  else if r.stopHere then
    if r.cutHere then some (s.stopRun r) else if r.cut.isSome then none else some (s.takeCutting r)
  else some (s.putRun { r with stage := 0, cutHere := false })

/-- One action of a run that stands at a sweep boundary; none when it waits. -/
def State.mossStage (s : State) (r : MRun) : Option State :=
  match r.stage with
  | 1 => (match r.ext with
      | some x => if r.stopping && x.isLead && x.stopAt.isNone then some (s.chooseStop r) else s.samplePart r x
      | none => if !r.sampleDue r.sweep then some (s.putRun { r with stage := 2 })
          else if r.resBusy then none else some (s.sampleHere { r with stage := 2 }))
  | 2 => if !r.exchangeDue r.sweep then some (s.putRun { r with stage := 3 })
      else if r.ext.isSome then none else some (s.exchangeHere r)
  | 3 => some (s.nextSegment r)
  | 4 => s.cutStep r
  | 5 => some ((s.serveReads { r with stage := 6 }).postProgress r)
  | 6 => s.endStage r
  | _ => none

/-- The actions at a boundary as far as they go. -/
def State.mossAdvance : Nat → State → Nat → Nat → State
  | 0, s, _, _ => s
  | fuel + 1, s, c, n =>
    match s.mossRun c n with
    | none => s
    | some r => match s.mossStage r with
      | none => s
      | some t => State.mossAdvance fuel t c n

/-- Actions that one boundary can take. -/
def mossFuel : Nat := 16

/-- One half-sweep of a run (R347, R355, R371, R391). -/
def State.halfSweepOf (s : State) (r : MRun) : State :=
  let q := r.half % 2
  let k := r.half / 2
  let key := s.mossKey r
  let seg := r.segment r.seg
  let s := r.regions.zipIdx.foldl (fun (s : State) nk =>
    let g := s.region nk.1
    s.setRegion nk.1 (g.halfSweep key r.rule (rungBeta seg r.ladder (r.rungs.getD nk.2 0)) (r.edge g nk.2 r.half false) nk.2 k q)) s
  let sites := r.replicas * ((s.replica r 0).sites / 2)
  let s := { s with moss := { s.moss with updates := Map.set 0 s.moss.updates r.ctx ((Map.get 0 s.moss.updates r.ctx + sites) % 2 ^ 64) } }
  let r := { r with half := r.half + 1, ext := r.ext.map fun x => { x with started := false } }
  let r := if q = 1 then { r with sweep := r.sweep + 1, segSweep := r.segSweep + 1, stage := 1 } else r
  let s := (s.putRun r).sendFaces r false false
  if q = 1 then State.mossAdvance mossFuel s r.ctx r.run else s

/-- nc slots that extended runs wait for another part (R391, R393, R399). -/
def State.mossWaits (s : State) : State :=
  s.moss.runs.foldl (fun (s : State) r =>
    if r.extWaits then
      let r := r.onExt fun x => { x with waited := (x.waited + 2) % 2 ^ 64 }
      (s.putRun r).onRegions r.regions fun g => { g with view := { g.view with extWait := (g.view.extWait + 2) % 2 ^ 64 } }
    else s) s

end Sys2Proof.Machine
end

