-- ==== Sys2Proof/Machine/OpsRand.lean ====
section
/-!
DEFINITION. The health tests, the allocation of stochastic blocks, the DRBG's service, and what becomes of a request of the random
service when it is served or fails (R563 to R587).
-/
namespace Sys2Proof.Machine
open Sys2Proof

/-! ## Samples and health tests (R563 to R567, R587) -/

/-- Oscillator k after a restart: no sample yet, the pattern's register at its seed. -/
def Osc.start (k : Nat) : Osc := ⟨0, 0, k + 1⟩

/-- One step of the pattern's Galois register (R587). -/
def lfsrStep (x : Nat) : Nat := if x % 2 = 1 then Nat.xor (x / 2) 0x80200003 else x / 2

/-- Eight samples of the register as a byte, and the register after them. -/
def lfsrByte (x : Nat) : Nat × Nat :=
  (List.range 8).foldl (fun (a : Nat × Nat) i => (a.1 + a.2 % 2 * 2 ^ i, lfsrStep a.2)) (0, x)

/-- `n` bytes of samples of the register, and the register after them. -/
def lfsrBytes : Nat → Nat → List Byte × Nat
  | 0, x => ([], x)
  | n + 1, x =>
    let b := lfsrByte x
    let r := lfsrBytes n b.2
    (BitVec.ofNat 8 b.1 :: r.1, r.2)

/-- The 128 bytes of a window that the test pattern makes for one oscillator, and its register after them. -/
def patternBlock (pattern sample lfsr : Nat) : List Byte × Nat :=
  if pattern = 0 then (List.replicate 128 0#8, lfsr)
  else if pattern = 1 then (List.replicate 128 (if sample % 2 = 0 then 0xAA#8 else 0x55#8), lfsr)
  else lfsrBytes 128 lfsr

/-- What the tests carry through a block: the last sample, the run, whether the run has reached 41 in the block, and the samples equal
to sample 0. -/
structure Scan where
  last : Nat
  run : Nat
  hit : Bool
  same : Nat
  deriving DecidableEq, Repr

/-- One sample under both tests; `ref` is sample 0 of the block. -/
def Scan.next (ref : Nat) (x : Scan) (b : Nat) : Scan :=
  let run := if x.run != 0 && x.last == b then x.run + 1 else 1
  { last := b, run := run, hit := x.hit || decide (41 ≤ run), same := if b = ref then x.same + 1 else x.same }

/-- A block under both tests: the scan at its end. -/
def scanBlock (o : Osc) (block : List Byte) : Scan :=
  let ref := (block.headD 0#8).toNat % 2
  block.foldl (fun (x : Scan) b => (List.range 8).foldl (fun (x : Scan) i => x.next ref (b2n (bit b.toNat i))) x) ⟨o.last, o.run, false, 0⟩

/-- The tests that a block failed: bit 0 repetition count, bit 1 adaptive proportion. -/
def Scan.failed (x : Scan) : Nat := b2n x.hit + 2 * b2n (decide (800 ≤ x.same))

/-- One oscillator's block of a window: its bytes, the tests it failed, and the oscillator after it. -/
def Ens.block (e : Ens) (samples : List (List Byte)) (k : Nat) : List Byte × Nat × Osc :=
  let o := match e.oscs[k]? with | some o => o | none => Osc.start k
  let p := if e.testEn then patternBlock e.pattern e.sample o.lfsr else (bytesAt (samples.getD k []) 0 128, o.lfsr)
  let x := scanBlock o p.1
  (p.1, x.failed, ⟨x.last, x.run, p.2⟩)

/-- A restart of the oscillators (R568). -/
def Ens.restart (e : Ens) : Ens :=
  { e with settling := true, startup := true, sample := 0, oscs := [], secOsc := none
           restarts := Nat.min (e.restarts + 1) 65535 }

/-- The oscillator whose block of the window that begins is the security block (R570). -/
def Ens.decideSec (e : Ens) : Ens :=
  { e with startup := false, secOsc := if e.secWanted && e.ready && !e.secHalt then some (e.taken % 32) else none }

/-! ## What a served or failed request means -/

/-- Random bytes written for a ring command. -/
def State.randDone (s : State) (h : Head) (op host : Nat) (bs : List Byte) : State :=
  if s.hostCanWrite then (s.hostWrite host bs).done h op 0 bs.length else s.done h op 0x0008 0

/-- A request is full: its bytes reach the one who asked (R548, R577, R581). -/
def State.served (s : State) (r : RandReq) : State :=
  match r.who with
  | .command h op host => s.randDone h op host r.got
  | .jobSeed c =>
    (match s.job c with
    | some j => if j.st = JobSt.waitSeed then s.startJob c (BitVec.ofNat 128 (ofLe r.got)) else s
    | none => s)
  | .objectSeed c i =>
    s.onJob c fun j => if (j.stream i).seedWait then
      (j.setStream i { j.stream i with seed := BitVec.ofNat 64 (ofLe r.got) }).seedFixed i else j
  | .trainNonce p => s.gotNonce p r.got
  | .lcNonce => { s with sec := { s.sec with nonce := ofLe r.got } }
  | .memKey => { s with sec := { s.sec with memKey := r.got } }
  | .secretIv p => s.sendSecret p r.got
  | .jobSecret c => s.gotSecret c 0xFF r.got

/-- The commands that wait for an object seed complete with a status; the entry is FREE again (R575). -/
def State.seedFailed (s : State) (c i status : Nat) : State :=
  match s.job c with
  | none => s
  | some j =>
    if !(j.stream i).seedWait then s else
    let due := j.deferred.filter fun d => d.waits.contains i
    let j := { (j.freeStream i) with deferred := j.deferred.filter fun d => !d.waits.contains i }
    due.foldl (fun (s : State) d => s.done d.head d.opcode status 0) (s.setJob c j)

/-- A request that its class cannot serve any more (R571, R575): a command completes with the status; a job that waits for its seed does
not open; what else the device draws does not come. -/
def State.failed (s : State) (r : RandReq) (status : Nat) : State :=
  match r.who with
  | .command h op _ => s.done h op status 0
  | .jobSeed c => s.endJob c status
  | .objectSeed c i => s.seedFailed c i status
  | _ => s

/-- Every waiting request of a class fails: the security class is kind 1. -/
def State.failClass (s : State) (security : Bool) (status : Nat) : State :=
  let gone := s.ens.queue.filter fun r => (r.kind == 1) == security
  let s := { s with ens := { s.ens with queue := s.ens.queue.filter fun r => (r.kind == 1) != security } }
  gone.foldl (fun (s : State) r => s.failed r status) s

/-! ## The allocation of R576 -/

/-- `n` bytes in block order. -/
def takeBytes : Nat → List (Nat × List Byte) → List Byte × List (Nat × List Byte)
  | _, [] => ([], [])
  | n, (o, b) :: rest =>
    if n = 0 then ([], (o, b) :: rest)
    else if b.length ≤ n then
      let r := takeBytes (n - b.length) rest
      (b ++ r.1, r.2)
    else (b.take n, (o, b.drop n) :: rest)

/-- The raw record of a block (R586). -/
def rawRecord (window osc : Nat) (test : Bool) (b : List Byte) : List Byte :=
  toLe 4 window ++ toLe 1 osc ++ toLe 1 (b2n test) ++ toLe 2 0 ++ b

/-- `n` records of whole blocks that the filter allows. -/
def takeRaw (window : Nat) (test : Bool) (osc : Option Nat) : Nat → List (Nat × List Byte) → List Byte × List (Nat × List Byte)
  | _, [] => ([], [])
  | n, b :: rest =>
    if n = 0 then ([], b :: rest)
    else if b.2.length = 128 && (match osc with | some o => o == b.1 | none => true) then
      let r := takeRaw window test osc (n - 1) rest
      (rawRecord window b.1 test b.2 ++ r.1, r.2)
    else
      let r := takeRaw window test osc n rest
      (r.1, b :: r.2)

/-- The queue after the allocation, the requests that are full, and the bytes of blocks taken. -/
structure Alloc where
  blocks : List (Nat × List Byte)
  queue : List RandReq
  full : List RandReq
  taken : Nat
  deriving DecidableEq, Repr

/-- One request's turn. -/
def Alloc.visit (window : Nat) (test : Bool) (a : Alloc) (r : RandReq) : Alloc :=
  if r.kind = 1 then { a with queue := a.queue ++ [r] } else
  let need := r.need - r.got.length
  let t := if r.kind = 2 then takeRaw window test r.osc (need / 136) a.blocks else takeBytes need a.blocks
  let r' := { r with got := r.got ++ t.1 }
  let n := if r.kind = 2 then t.1.length / 136 * 128 else t.1.length
  if r.need ≤ r'.got.length then { a with blocks := t.2, full := a.full ++ [r'], taken := a.taken + n }
  else { a with blocks := t.2, queue := a.queue ++ [r'], taken := a.taken + n }

/-- The window's passing stochastic blocks are allocated, and the requests that are full complete. -/
def State.deliverBlocks (s : State) (window : Nat) (blocks : List (Nat × List Byte)) : State :=
  let a := s.ens.queue.foldl (Alloc.visit window s.ens.testEn) ⟨blocks, [], [], 0⟩
  let s := { s with ens := { s.ens with queue := a.queue, delivered := (s.ens.delivered + a.taken) % 2 ^ 64 } }
  a.full.foldl State.served s

/-! ## The DRBG (R579 to R583) -/

/-- BASE of R581. -/
def Drb.base (d : Drb) : Nat := 2 ^ (if 10 ≤ d.log2Base ∧ d.log2Base ≤ 48 then d.log2Base else 20)

/-- Material for a reseed is asked for when it is due, or when the request at the front needs a fresh block (R581, R582). -/
def State.wantBlock (s : State) : State :=
  let d := s.drb
  if d.st ≠ 1 ∨ s.ens.secBlock.isSome = true then s else
  let due := decide (d.base ≤ d.count)
  let front := match s.ens.queue.find? fun r => r.kind == 1 with | some r => r.fresh | none => false
  if due || front then { s with drb := { d with due := d.due || due }, ens := { s.ens with secWanted := true } } else s

/-- The request at the front of the security class, when the DRBG may serve it, and the queue without it. -/
def State.nextGenerate (s : State) : Option RandReq :=
  if s.drb.st ≠ 1 ∨ 2 ^ 48 ≤ s.drb.count ∨ s.sec.islandFail = true then none
  else match s.ens.queue.find? fun r => r.kind == 1 with
    | some r => if r.fresh then none else some r
    | none => none

/-- The first security request leaves the queue. -/
def dropFirst : List RandReq → List RandReq
  | [] => []
  | r :: rs => if r.kind = 1 then rs else r :: dropFirst rs

/-- One generate call for the request at the front. -/
def State.generate (s : State) (r : RandReq) : State :=
  let d := s.drb
  let g := drbgGenerate d.key d.v r.need
  let s := { s with
    drb := { d with key := g.2.1, v := g.2.2, count := d.count + 1, generates := (d.generates + 1) % 2 ^ 64 }
    ens := { s.ens with queue := dropFirst s.ens.queue } }
  s.served { r with got := g.1 }

/-- Generate requests served in order of arrival, at most `n` of them. -/
def State.serveDrbg : Nat → State → State
  | 0, s => s
  | n + 1, s =>
    let s := s.wantBlock
    match s.nextGenerate with
    | some r => State.serveDrbg n (s.generate r)
    | none => s

/-- The random service at one moment: a halted security class fails what waits, else the DRBG serves. -/
def State.serveRandom (s : State) : State :=
  if s.ens.queue.isEmpty then s
  else if s.ens.secHalt then s.failClass true 0x0901
  else s.serveDrbg (s.ens.queue.length + 64)

/-- The personalization string of R579. -/
def State.personalization (s : State) : List Byte :=
  toLe 8 s.fuses.serial ++ [0x4B#8, 0x56#8, 0x2D#8, 0x44#8, 0x52#8, 0x42#8, 0x47#8]

/-- The DRBG may reseed with the block it holds (R581, R582): no generate request waits, the limit is reached, or the request at the
front is PRED_RESIST. -/
def State.mayReseed (s : State) : Bool :=
  match s.ens.queue.find? fun r => r.kind == 1 with
  | none => true
  | some r => r.fresh || decide (2 ^ 48 ≤ s.drb.count)

/-- The request at the front of the security class no longer waits for a block. -/
def clearFresh : List RandReq → List RandReq
  | [] => []
  | r :: rs => if r.kind = 1 then { r with fresh := false } :: rs else r :: clearFresh rs

/-- The DRBG reseeds (R581). -/
def State.reseed (s : State) (block : List Byte) : State :=
  let d := s.drb
  let kv := drbgReseedKV d.key d.v (block.take 96)
  { s with drb := { d with key := kv.1, v := kv.2, count := 0, due := false, reseeds := (d.reseeds + 1) % 2 ^ 64 }
           ens := { s.ens with secBlock := none, secWanted := false, queue := clearFresh s.ens.queue } }

/-- The security island stops: every service of it ends, and every job (R559). -/
def State.islandStop (s : State) : State :=
  ({ s with sec := { s.sec with islandFail := true } }).deviceFatal 0 0x23 0x0A04 8

/-! ## The commands of R585 -/

/-- A request of a ring command joins its class, or completes at once (R571, R575, R583). -/
def State.askCommand (s : State) (h : Head) (op : Nat) (r : RandReq) : State :=
  if r.kind ≠ 1 ∧ s.ens.stoch = 3 then s.done h op 0x0902 0
  else if r.kind = 1 ∧ s.ens.secHalt = true then s.done h op 0x0901 0
  else if s.randFull r.kind then s.done h op 0x000B 0
  else s.askRandom r

end Sys2Proof.Machine
end

