-- ==== Sys2Proof/Machine/Steps.lean ====
section
/-!
DEFINITION. The events of the step engine: steps, transfers, refresh, dispatch and expert outputs, verification, the limits on waiting
(R29, R193 to R198, R237, R274 to R280, R288, R644, R645).
-/
namespace Sys2Proof.Machine
open Sys2Proof

/-- A command that names a context. -/
def onCtx (c : Nat) (r : State) : Out := noUnit (decide (c < 16)) r

/-- STEP_START (R29, R245, R323, R461). -/
def execStepStart (ctx : Nat) (s : State) : Out := onCtx ctx (s.startStep ctx)

/-- STEP_BOUNDARY (R290): the step in progress ends with the logits that its kernels have left. -/
def execStepBoundary (ctx : Nat) (logits : List (Nat × Nat × List W32)) (s : State) : Out := onCtx ctx (s.endStep ctx logits)

/-- CORE_DRAINED (R156): after END the core becomes IDLE once its queues are empty; the last one of its job has the next entry of the step
program launched. -/
def execCoreDrained (p : Nat) (s : State) : Out :=
  noUnit (decide (p < 544)) (
    let c := s.core p
    if c.st = .running && c.ended && c.flight.isEmpty then
      (s.setCore p { c with st := .idle, ended := false }).launchNext (s.ownerOf (coreHalf p))
    else s)

/-- PROMPT_FETCH_DONE (R237, R316). -/
def execPromptFetchDone (ctx index : Nat) (s : State) : Out :=
  onCtx ctx (match s.job ctx with
    | some j =>
      let t := j.stream index
      if !j.atWork || t.st != 1 || t.fetched || t.seedWait then s
      else if t.kind = 3 then s.chainFetched ctx index else s.promptFetched ctx index
    | none => s)

/-- LPX_TRANSFER_DONE (R194 to R198, R628): the transfer reads or writes its lines; `e` is what ECC finds in them. -/
def execLpxTransferDone (ctx id : Nat) (e : Ecc) (s : State) : Out :=
  onCtx ctx (match s.streamers.find? fun t => t.id == id && t.ctx == ctx with
    | none => s
    | some t =>
      match e with
      | .clean => s.transferDone t
      | .corrected a => (s.lpxCe (t.dpa + a)).transferDone t
      | .uncorrectable a => s.lpxUe ctx (t.dpa + a)
      | .control => s.controlUe (dpaHalf t.dpa))

/-- Does a transfer use a controller? -/
def Streamer.uses (t : Streamer) (ctrl : Nat) : Bool :=
  (List.range (Nat.min 64 (ceilDiv (t.dpa % 256 + t.size) 256))).any fun k => dpaCtrl (t.dpa + 256 * k) == ctrl

/-- LPX_REFRESH (R193, R194): a refresh at the rate that the device reports delays the controller's transfers. -/
def execLpxRefresh (ctrl rate : Nat) (s : State) : Out :=
  noUnit (decide (ctrl < 32)) (
    let x := s.lpxCtrl ctrl
    if x.st ≠ 2 then s else
    let s := s.setLpx ctrl { x with refRate := rate % 4 }
    { s with streamers := s.streamers.map fun t => if t.uses ctrl then { t with late := true, waits := ctrl } else t })

/-- DISPATCH_HEADER (R274, R280). -/
def execDispatchHeader (ctx : Nat) (h : DispHeader) (s : State) : Out := onCtx ctx (s.gotHeader ctx h)

/-- DISPATCH_RECORD (R275, R512). -/
def execDispatchRecord (ctx : Nat) (r : DispRecord) (mseq : Nat) (auth : Bool) (s : State) : Out :=
  onCtx ctx (match s.job ctx with
    | some j =>
      if !j.atWork then s
      else if auth then s.setJob ctx (j.addRecords [r]) else s.msgAuthFail ctx r.origin 0x02 mseq
    | none => s)

/-- EXPERT_LAYER_RUN (R276 to R278, R280). -/
def execExpertLayerRun (ctx layer : Nat) (s : State) : Out := onCtx ctx (s.runLayer ctx layer)

/-- The rank that sent an expert output: the home of its expert. -/
def Job.outputSource (j : Job) (r : DispRecord) : Nat :=
  match j.servingManifest r.epoch with | some m => m.homeOf r.layer r.expert | none => 0xFFFF

/-- EXPERT_OUTPUT (R275, R279, R512). -/
def execExpertOutput (ctx : Nat) (r : DispRecord) (mseq : Nat) (auth : Bool) (s : State) : Out :=
  onCtx ctx (match s.job ctx with
    | some j =>
      if !j.atWork then s
      else if auth then s.gotOutput ctx r else s.msgAuthFail ctx (j.outputSource r) 0x03 mseq
    | none => s)

/-- BED_VERIFY_DONE (R288). -/
def execBedVerifyDone (ctx bed : Nat) (s : State) : Out :=
  onCtx ctx (match s.job ctx with
    | some j => if j.atWork && decide (bed < 2) && (j.bed bed).st == 2 then s.endVerify ctx bed else s
    | none => s)

/-- Does the engine wait for data from a peer (R406, R644): its records, pages, commit notice, regrow notice, or an extended run? -/
def State.waitsOn (s : State) (c : Nat) (j : Job) (rank : Nat) : Bool :=
  rank != j.params.rank && decide (rank < j.params.devices) && (
    (j.run.isSome && j.dispHeaders.any fun h => h.rank == rank && !j.ranLayers.contains h.layer &&
      decide ((j.dispRecords.filter fun r => r.origin == rank && r.layer == h.layer).length < h.count)) ||
    (j.run.isSome && !j.expertsDone) ||
    (!j.fetching.isEmpty && rank == j.params.buddy) ||
    (match j.committed with | some x => j.common != some x && !j.notices.contains (rank, x.2) | none => false) ||
    (j.st == .regrow && !(match j.regrow with | some r => r.ready.contains rank | none => true)) ||
    s.moss.runs.any fun r => r.ctx == c && r.extWaits)

/-- PEER_WAIT_LIMIT (R644). -/
def execPeerWaitLimit (ctx rank : Nat) (s : State) : Out :=
  onCtx ctx (match s.job ctx with
    | some j =>
      if j.st = .ended ∨ j.st = .suspended ∨ s.waitsOn ctx j rank = false then s
      else (s.postJob ctx 0x0A09 0x000A (toLe 2 rank)).jobFatal ctx (s.schedulerSource ctx) 0x17 0x000A 0 rank
    | none => s)

/-- STEP_WATCHDOG_EXPIRE (R645): the step's nominal xc exceed the limit. -/
def execStepWatchdogExpire (ctx : Nat) (s : State) : Out :=
  onCtx ctx (match s.job ctx with
    | some j =>
      let nominal := j.elapsed - j.refreshStall - j.retryStall - j.stepStartNominal
      match j.run with
      | some r =>
        if s.ras.wdog = 0 || j.overdue || decide (nominal ≤ s.ras.wdog * 2 ^ 20) then s
        else (s.setJob ctx { j with overdue := true }).postJob ctx 0x0A08 0 (toLe 8 r.number)
      | none => s
    | none => s)

end Sys2Proof.Machine
end

