-- ==== Sys2Proof/Machine/MossCmd.lean ====
section
/-!
DEFINITION. The Moss commands of a ring set (R335 to R345, R351 to R354, R359, R360, R363, R366 to R368, R372 to R374, R378, R380, R386,
R387, R395, R472).
-/
namespace Sys2Proof.Machine
open Sys2Proof

/-! ## Regions (R335, R366 to R368) -/

/-- The tile columns of a job's halves in split mode, all columns in joined mode (R31). -/
def State.columnsOk (s : State) (c tx0 tx1 : Nat) : Bool :=
  !s.split || (match s.job c with
    | some j => if j.half = 0 then decide (tx1 ≤ 7) else decide (8 ≤ tx0)
    | none => false)

/-- Does a rectangle mix tile kinds (R335)? An exact region is one column. -/
def mixesKinds (tx0 tx1 : Nat) : Bool := (exactColumn tx0 || exactColumn tx1) && tx0 != tx1

/-- DEFINE applied (R335, R365, R366, R368): tiles of a domain that is off are powered first, and the command waits for their check. -/
def State.defineRegion (s : State) (h : Head) (n tx0 tx1 ty0 ty1 : Nat) : State :=
  let g0 := s.region n
  let ts := rectTiles tx0 tx1 ty0 ty1
  let st := ts.map fun t => Map.get 0 s.moss.tiles t
  if g0.st ≠ 0 ∨ g0.await.isSome = true then s.done h 0x50 0x0602 0
  else if st.any (fun x => decide (3 ≤ x)) || mixesKinds tx0 tx1 || !s.columnsOk h.set tx0 tx1 then s.done h 0x50 0x0604 0
  else
    let g := { MRegion.free with ctx := h.set, tx0 := tx0, tx1 := tx1, ty0 := ty0, ty1 := ty1, exact := exactColumn tx0 }
    if st.all (· == 2) then ((s.setRegion n { g with st := 1 }).setTiles ts 3).done h 0x50 0 0
    else (s.setRegion n { g with await := some h }).powerOn ((if ts.any (· < 64) then [11] else []) ++ if ts.any (64 ≤ ·) then [12] else [])

/-- MOSS_REGION after R465 (R367, R368). -/
def State.cmdMossRegion (s : State) (h : Head) (n action tx0 tx1 ty0 ty1 : Nat) : State :=
  if 127 < n ∨ 1 < action ∨ (action = 0 ∧ ¬ (tx0 ≤ tx1 ∧ tx1 ≤ 15 ∧ ty0 ≤ ty1 ∧ ty1 ≤ 7)) then s.done h 0x50 0x0601 0
  else if action = 0 then s.defineRegion h n tx0 tx1 ty0 ty1
  else
    let g := s.region n
    if g.st = 0 ∨ g.ctx ≠ h.set then s.done h 0x50 0x0602 0
    else if g.st = 3 then s.done h 0x50 0x0603 0
    else ((s.setTiles g.tiles 2).setRegion n MRegion.free).done h 0x50 0 0

/-! ## Loads (R339 to R345) -/

/-- MOSS_LOAD after R465. -/
def State.cmdMossLoad (s : State) (h : Head) (n format flags ej eh source : Nat) : State :=
  let g := s.region n
  if 127 < n ∨ ¬ (format = 0 ∨ format = 0x0E ∨ format = 0xFF) ∨ 1 < flags then s.done h 0x51 0x0601 0
  else if g.st = 0 ∨ g.ctx ≠ h.set then s.done h 0x51 0x0602 0
  else if g.st = 3 then s.done h 0x51 0x0603 0
  else match s.hostRead source (g.sourceBytes format) with
    | none => s.done h 0x51 0x0007 0
    | some src =>
      if g.fpBad format src || (format == 0xFF && g.rawBad src) then s.done h 0x51 0x0606 0
      else
        let g := g.load format src (bit flags 0) (signed 8 ej) (signed 8 eh)
        let sat := fun v => satAdd 32 v 0
        (s.setRegion n g).complete h 0x51 ⟨0, g.qerrJ.toNat + 2 ^ 32 * g.qerrH.toNat, 0, 3,
          [g.digest.take 24, g.digest.drop 24,
            toLe 4 (sat g.flushed) ++ toLe 4 (sat g.saturated) ++ toLe 4 (sat g.dropped) ++ toLe 12 0]⟩

/-! ## The parameters of a run (R351 to R353, R372, R387, R472, R703) -/

/-- The parameter data of MOSS_RUN and MOSS_RESUME: parameter block, run block, region numbers, extension block, chain map and constraint
table, as read. -/
structure MossData where
  p : List Byte
  block : List Byte
  list : List Byte
  ext : List Byte
  map : List Byte
  constr : List Byte
  deriving DecidableEq, Repr

/-- Sites that the chain map and the variables of a run count: all of them in an extended run (R374, R389). -/
def runSites (g : MRegion) (ext : List Byte) : Nat :=
  if ext.isEmpty then g.sites else 8 * g.wy * Nat.min (leAt ext 12 4) 57344

/-- Reads the constraint table (R380), within its limits. -/
def State.readConstr (s : State) (a : Nat) : Option (List Byte) := do
  let head ← s.hostRead a 16
  let rest ← s.hostRead (a + 16) (16 * Nat.min (leAt head 0 4) 4096 + 8 * Nat.min (leAt head 4 4) 4194304)
  pure (head ++ rest)

/-- Reads the parameter data (R703). -/
def State.readMoss (s : State) (params : Nat) : Option MossData := do
  let p ← s.hostRead params 128
  let head ← s.hostRead (leAt p 0 8) 64
  let rest ← s.hostRead (leAt p 0 8 + 64) (512 + 16 * Nat.min (leAt head 12 4) 4096)
  let list ← s.hostRead (leAt p 8 8) (leAt head 7 1)
  let ext ← if leAt p 104 8 = 0 then pure [] else s.hostRead (leAt p 104 8) 64
  let g := s.region (leAt list 0 1)
  let map ← if leAt p 40 8 = 0 ∨ g.st = 0 then pure [] else s.hostRead (leAt p 40 8) (4 * runSites g ext)
  let constr ← if leAt p 56 8 = 0 then pure [] else s.readConstr (leAt p 56 8)
  pure ⟨p, head ++ rest, list, ext, map, constr⟩

/-- Is a β in range (R348): +0, or 2^-24 to 2^32? -/
def betaOk (w : Nat) : Bool := w == 0 || (decide (0x33800000 ≤ w) && decide (w ≤ 0x4F800000))

/-- Is a ladder entry in range (R356): 2^-16 to 2^16? -/
def rungOk (w : Nat) : Bool := decide (0x37800000 ≤ w) && decide (w ≤ 0x47800000)

/-- Segment k of a run block (R352). -/
def parseSegment (b : List Byte) (k : Nat) : MSegment :=
  let o := 576 + 16 * k
  ⟨BitVec.ofNat 32 (leAt b o 4), leAt b (o + 4) 4, leAt b (o + 8) 4, bit (leAt b (o + 12) 2) 0⟩

/-- The segments of a run block. -/
def parseSegments (b : List Byte) : List MSegment := (List.range (leAt b 12 4)).map (parseSegment b)

/-- Does the run block obey R348, R351, R352 and R356? -/
def runBlockOk (b : List Byte) : Bool :=
  let n := leAt b 7 1
  let k := leAt b 12 4
  leAt b 0 4 == 0x4B564D52 && leAt b 4 2 == 1 && decide (leAt b 6 1 ≤ 1) && decide (1 ≤ n) && decide (n ≤ 128) && decide (1 ≤ k) &&
    decide (k ≤ 4096) && decide (leAt b 32 1 ≤ 1) && zeroAt b 33 31 &&
    (List.range n).all (fun r => rungOk (leAt b (64 + 4 * r) 4)) &&
    (List.range k).all (fun i => let o := 576 + 16 * i
      betaOk (leAt b o 4) && leAt b (o + 4) 4 != 0 && decide (leAt b (o + 12) 2 ≤ 1) && zeroAt b (o + 14) 2) &&
    decide (totalSweeps (parseSegments b) < 2 ^ 39)

/-- Does the extension block obey R387, for a job of `devices` devices in which this one is `rank`? -/
def extOk (x : List Byte) (rank devices : Nat) : Bool :=
  let d := leAt x 4 1
  let p := leAt x 5 1
  let r := fun o => leAt x o 2
  decide (2 ≤ d) && decide (d ≤ 64) && decide (p < d) && decide (1 ≤ leAt x 6 1) && decide (leAt x 6 1 ≤ 64) && zeroAt x 7 1 &&
    leAt x 8 4 % 64 == 0 && zeroAt x 22 42 && decide (r 20 < devices) && (p != 0 || r 20 == rank) &&
    (if p = 0 then r 16 == 0xFFFF else decide (r 16 < devices)) && (if p + 1 = d then r 18 == 0xFFFF else decide (r 18 < devices))

/-- The checks of MOSS_PARAM that need no region (R368 order 1). -/
def MossData.staticOk (d : MossData) (rank devices : Nat) : Bool :=
  let p := d.p
  let regs : List Nat := d.list.map fun x => x.toNat
  runBlockOk d.block && zeroAt p 54 2 && zeroAt p 100 4 && zeroAt p 112 16 && decide (1 ≤ leAt p 52 1) && decide (leAt p 52 1 ≤ 64) &&
    decide (leAt p 53 1 ≤ 1) && leAt p 24 8 % 4096 == 0 && leAt p 64 8 % 4096 == 0 &&
    (if leAt p 40 8 = 0 then leAt p 48 4 == 0 else decide (1 ≤ leAt p 48 4) && decide (leAt p 48 4 ≤ 1048576)) &&
    regs.all (· ≤ 127) && decide (List.Nodup regs) && (d.ext.isEmpty || extOk d.ext rank devices)

/-- The chain map's entries. -/
def MossData.entries (d : MossData) : List Nat := (List.range (d.map.length / 4)).map fun i => leAt d.map (4 * i) 4

/-- Variables of the run (R376). -/
def MossData.vars (d : MossData) (g : MRegion) : Nat := if leAt d.p 40 8 = 0 then runSites g d.ext else leAt d.p 48 4

/-- The constraints, none when the table breaks R380. -/
def MossData.constrs (d : MossData) (g : MRegion) : Option (List MConstraint × Nat) :=
  if d.constr.isEmpty then some ([], 0) else parseConstr d.constr (d.vars g)

/-- The run as the parameters give it, before its first sweep. -/
def MossData.run (d : MossData) (h : Head) (opcode : Nat) (g : MRegion) : MRun :=
  let b := d.block
  let p := d.p
  let cs := (d.constrs g).getD ([], 0)
  let n := leAt b 7 1
  { ctx := h.set, head := h, opcode := opcode, run := leAt b 8 4, rule := leAt b 6 1, regions := d.list.map (·.toNat)
    segments := parseSegments b, ladder := (List.range n).map fun r => BitVec.ofNat 32 (leAt b (64 + 4 * r) 4)
    seed := BitVec.ofNat 64 (leAt b 16 8), exchEvery := leAt b 24 4, cutEvery := leAt b 28 4, init := leAt b 32 1, digest := sha384 b
    blockAddr := leAt p 0 8, cutArea := leAt p 24 8, chainMap := d.entries, chains := leAt p 48 4
    chainDigest := if leAt p 40 8 = 0 then List.replicate 48 0#8 else sha384 d.map
    constrs := cs.1, terms := cs.2, constrDigest := if d.constr.isEmpty then List.replicate 48 0#8 else sha384 d.constr
    depth := leAt p 52 1, feasOnly := leAt p 53 1 == 1, resArea := leAt p 64 8, result := leAt p 80 8, progress := leAt p 96 4
    rungs := List.range n, seg := 0, segSweep := 0, sweep := 0, half := 0, stage := 0, exchanges := 0, attempted := 0, accepted := 0
    nextSlot := 0, cut := none, fin := 0, lastCut := none, cutHere := false, set := ResSet.empty, resBusy := false, stopping := false
    stop := none, reads := []
    ext := if d.ext.isEmpty then none else some
      { extId := leAt d.ext 0 4, parts := leAt d.ext 4 1, part := leAt d.ext 5 1, stale := leAt d.ext 6 1, xOffset := leAt d.ext 8 4
        xTotal := leAt d.ext 12 4, prev := leAt d.ext 16 2, next := leAt d.ext 18 2, lead := leAt d.ext 20 2, facePrev := none
        faceNext := none, snapPrev := none, snapNext := none, setups := [], partials := [], first := 0, ready := false, started := false
        asked := none, snap := none, cutAt := none, stopAt := none, waited := 0, maxStale := 0 } }

/-- The checks of MOSS_PARAM that need the region (R360, R374, R378, R380, R386, R387). -/
def MossData.regionOk (d : MossData) (r : MRun) (g : MRegion) : Bool :=
  let sec := r.sectionBytes g
  let gap := (g.ej - g.eh).natAbs
  (leAt d.p 40 8 == 0 || chainMapOk r.chains r.chainMap) && (d.constrs g).isSome && decide (gap ≤ if r.ext.isSome then 17 else 23) &&
    decide (initBytes r.replicas g.imageBytes + 2 * slotRoom r.replicas g.imageBytes sec ≤ leAt d.p 32 8) &&
    decide (sec ≤ leAt d.p 72 8) && decide (sec ≤ leAt d.p 88 8) &&
    (match r.ext with | some x => !g.exact && decide (x.xOffset + g.wx ≤ x.xTotal) | none => true)

/-- The first range of the run that the partition does not hold (R531). -/
def State.deniedRange (s : State) (r : MRun) (g : MRegion) (slot : Option Nat) : Option Nat :=
  let sec := r.sectionBytes g
  let rs := [(r.cutArea, initBytes r.replicas g.imageBytes + 2 * slotRoom r.replicas g.imageBytes sec), (r.resArea, sec)] ++
    (match slot with | some a => [(a, slotBytes r.replicas g.imageBytes sec)] | none => [])
  (rs.find? fun x => !s.inPartition r.ctx x.1 x.2).map (·.1)

/-- Does a listed line of line kind 5 lie in a slot (R632)? -/
def State.slotHit (s : State) (dpa n : Nat) : Bool :=
  s.ras.ue.any fun e => !e.rewritten && decide (dpa < e.dpa + 64) && decide (e.dpa < dpa + n)

/-- Does a slot belong to the run (R363, R373)? -/
def State.slotMatches (s : State) (r : MRun) (g : MRegion) (b : List Byte) : Bool :=
  let sec := r.sectionBytes g
  let n := slotBytes r.replicas g.imageBytes sec
  let gs := (List.range r.replicas).map (s.replica r)
  let at_ := 384 + r.replicas * g.imageBytes
  sha384 (b.take (n - 48)) == b.drop (n - 48) && leAt b 0 4 == 0x4B564143 && leAt b 4 2 == 1 && leAt b 40 8 == n &&
    bytesAt b 48 48 == r.digest && leAt b 6 1 == r.replicas &&
    gs.all (fun x => leAt b 8 2 == x.tx1 - x.tx0 + 1 && leAt b 10 2 == x.ty1 - x.ty0 + 1 && leAt b 7 1 == b2n x.exact &&
      bytesAt b 96 48 == x.digest) &&
    bytesAt b (at_ + 32) 48 == r.chainDigest && bytesAt b (at_ + 80) 48 == r.constrDigest

/-- The run as a slot holds it (R363, R386); later cuttings alternate from there. -/
def MRun.fromSlot (r : MRun) (g : MRegion) (b : List Byte) (slot : Nat) : MRun :=
  let sec := r.sectionBytes g
  let sweep := leAt b 16 8
  { r with
    seg := leAt b 12 4, sweep := sweep, segSweep := leAt b 24 4, half := 2 * sweep, exchanges := leAt b 32 8,
    rungs := (List.range r.replicas).map fun k => leAt b (256 + k) 1, set := parseResSet (b.drop (384 + r.replicas * g.imageBytes)),
    nextSlot := if slot = slotDpa r.cutArea r.replicas g.imageBytes sec 1 then 0 else 1,
    stage := if sweep = r.total then 6 else 0,
    ext := r.ext.map fun x => { x with first := 2 * sweep } }

/-! ## The start of a run (R354, R388) -/

/-- The set-up message of a part (R388). -/
def MRun.setup (r : MRun) (x : MExt) (g : MRegion) : MossSetupMsg :=
  { extId := x.extId, parts := x.parts, part := x.part, stale := x.stale, xOffset := x.xOffset, xTotal := x.xTotal, lead := x.lead
    sweep := r.sweep, width := g.wx, wy := g.wy, ty0 := g.ty0, ej := g.ej, eh := g.eh, replicas := r.replicas, runDigest := r.digest
    chainDigest := r.chainDigest }

/-- A set-up received by the lead part: one per part, the last one. -/
def MExt.gotSetup (x : MExt) (m : MossSetupMsg) : MExt := { x with setups := (x.setups.filter fun y => y.part != m.part) ++ [m] }

/-- An extended run sends its set-up to the lead part, which looks whether all are there (R388). -/
def State.setUpRun (s : State) (r : MRun) (g : MRegion) : State :=
  match r.ext with
  | none => s
  | some x =>
    let m := r.setup x g
    if x.isLead then
      let mine := s.moss.early.filter fun e => e.1 == r.ctx && e.2.extId == x.extId
      let s := { s with moss := { s.moss with early := s.moss.early.filter fun e => !(e.1 == r.ctx && e.2.extId == x.extId) } }
      let r := { r with ext := some ((m :: mine.map (·.2)).foldl MExt.gotSetup x) }
      (s.putRun r).leadStart r
    else s.sendMsg r.ctx 0x22 1 x.lead (MossSetupMsg.bytes m)

/-- The run takes its regions with the spins given (R337, R365, R398), its section is written to RES_AREA, and it goes on from its sweep. -/
def State.startRun (s : State) (r : MRun) (images : List (List Byte)) : State :=
  let s := r.regions.zipIdx.foldl (fun (s : State) nk =>
    let g := s.region nk.1
    s.setRegion nk.1 { g with st := 3, run := r.run, spins := Memory.writeBytes [] 0 (images.getD nk.2 []), view := r.firstView }) s
  let s := s.setTiles ((r.regions.map fun n => (s.region n).tiles).flatten) 4
  let s := { s with moss := { s.moss with runs := s.moss.runs ++ [r] } }
  let g := s.replica r 0
  let slot := slotDpa r.cutArea r.replicas g.imageBytes (r.sectionBytes g)
  let s := s.onJob r.ctx fun j =>
    { j with mossSlots := (j.mossSlots.filter fun x => !(x.1 == r.run && x.2.1 == r.cutArea)) ++ [(r.run, r.cutArea, slot 0, slot 1)] }
  let s := (s.putSection r).setUpRun r (s.replica r 0)
  if r.stage = 0 then s else State.mossAdvance mossFuel s r.ctx r.run

/-- The initial images of the replicas (R354): drawn, or the host's; none when reading them fails. -/
def State.initialImages (s : State) (r : MRun) (d : MossData) : Option (List (List Byte)) :=
  let img := (s.replica r 0).imageBytes
  if r.init = 0 then
    some ((List.range r.replicas).map fun k => let g := s.replica r k; g.randomImage (s.mossKey r) (r.edge g k 0 false) k)
  else (s.hostRead (leAt d.p 16 8) (r.replicas * img)).map fun b => (List.range r.replicas).map fun k => bytesAt b (k * img) img

/-- MOSS_RUN, and MOSS_RESUME with its slot, once the parameter data are read (R368, R703). -/
def State.mossStart (s : State) (h : Head) (op : Nat) (slot : Option Nat) (d : MossData) : State :=
  let bad := fun st => s.done h op st 0
  let j := (s.job h.set).map (·.params)
  if !d.staticOk ((j.map (·.rank)).getD 0) ((j.map (·.devices)).getD 1) then bad 0x0601 else
  let gs := d.list.map fun n => s.region n.toNat
  let g := gs.headD MRegion.free
  if gs.any (fun x => decide (x.st < 2) || x.ctx != h.set) ||
      s.moss.runs.any (fun r => r.ctx == h.set && r.run == leAt d.block 8 4 && r.stage != 8) then bad 0x0602
  else if gs.any (fun x => x.st == 3) then bad 0x0603
  else if gs.any (fun x => x.wx != g.wx || x.wy != g.wy || x.exact != g.exact || x.digest != g.digest) then bad 0x0605
  else
    let r := d.run h op g
    if !d.regionOk r g then bad 0x0601 else
    match s.deniedRange r g slot with
    | some dpa => (s.postDenied h.set dpa).done h op 0x0801 0
    | none =>
      match slot with
      | some a =>
        let img := g.imageBytes
        let b := s.lpxRead a (slotBytes r.replicas img (r.sectionBytes g))
        if s.slotHit a b.length || !s.slotMatches r g b then bad 0x0607
        else s.startRun (r.fromSlot g b a) ((List.range r.replicas).map fun k => bytesAt b (384 + k * img) img)
      | none =>
        match s.initialImages r d with
        | none => bad 0x0007
        | some images => (s.lpxWrite r.cutArea 5 images.flatten).startRun r images

/-- MOSS_RUN after R465. -/
def State.cmdMossRun (s : State) (h : Head) (params : Nat) : State :=
  match s.readMoss params with
  | none => s.done h 0x52 0x0007 0
  | some d => s.mossStart h 0x52 none d

/-- MOSS_RESUME after R465. -/
def State.cmdMossResume (s : State) (h : Head) (params slot : Nat) : State :=
  match s.readMoss params with
  | none => s.done h 0x54 0x0007 0
  | some d => s.mossStart h 0x54 (some slot) d

/-- MOSS_STOP after R465 (R359, R395): of a part that does not hold the lead it fails. -/
def State.cmdMossStop (s : State) (h : Head) (n : Nat) : State :=
  match s.mossRun h.set n with
  | none => s.done h 0x53 0x0602 0
  | some r =>
    if r.stop.isSome || (match r.ext with | some x => !x.isLead | none => false) then s.done h 0x53 0x0602 0
    else
      let r := { r with stopping := true, stop := some h }
      (s.putRun r).chooseStop r

/-- MOSS_READ after R465 (R367). -/
def State.cmdMossRead (s : State) (h : Head) (n host : Nat) : State :=
  let g := s.region n
  if 127 < n then s.done h 0x55 0x0601 0
  else if g.st = 0 ∨ g.ctx ≠ h.set then s.done h 0x55 0x0602 0
  else match s.runOf g with
    | some r => s.putRun { r with reads := r.reads ++ [(h, n, host)] }
    | none => s.copyRegion h n host 0

/-! ## The rows -/

/-- MOSS_REGION (R335, R366 to R368). -/
def execMossRegion (h : Head) (region action tx0 tx1 ty0 ty1 : Nat) (s : State) : Out :=
  onSet h (s.hostCmd h 0x50 h.set fun s => s.cmdMossRegion h region action tx0 tx1 ty0 ty1)

/-- MOSS_LOAD (R339 to R345). -/
def execMossLoad (h : Head) (region format flags ej eh source : Nat) (s : State) : Out :=
  onSet h (s.hostCmd h 0x51 h.set fun s => s.cmdMossLoad h region format flags ej eh source)

/-- MOSS_RUN (R351 to R356, R372, R373). -/
def execMossRun (h : Head) (params : Nat) (s : State) : Out := onSet h (s.hostCmd h 0x52 h.set fun s => s.cmdMossRun h params)

/-- MOSS_STOP (R359, R395). -/
def execMossStop (h : Head) (run : Nat) (s : State) : Out := onSet h (s.hostCmd h 0x53 h.set fun s => s.cmdMossStop h run)

/-- MOSS_RESUME (R363, R373). -/
def execMossResume (h : Head) (params slot : Nat) (s : State) : Out :=
  onSet h (s.hostCmd h 0x54 h.set fun s => s.cmdMossResume h params slot)

/-- MOSS_READ (R367). -/
def execMossRead (h : Head) (region host : Nat) (s : State) : Out :=
  onSet h (s.hostCmd h 0x55 h.set fun s => s.cmdMossRead h region host)

end Sys2Proof.Machine
end

