-- ==== Sys2Proof/Machine/OpsMirror.lean ====
section
/-!
DEFINITION. The mirror that this device holds for its partner, and the acknowledgements of its own buddy (R414, R424, R425, R432, R433).
-/
namespace Sys2Proof.Machine
open Sys2Proof

/-! ## The mirror area (R424) -/

/-- Bytes of the two slots and the tables. -/
def PartnerMirror.tables (m : PartnerMirror) : Nat :=
  2 * m.slotSize + 128 * m.trayEntries + 32 * m.pageCount + roundUp m.chunkCount 64 / 8 + roundUp m.pageCount 64 / 8

/-- Bytes that the area must hold. -/
def PartnerMirror.need (m : PartnerMirror) : Nat :=
  m.tables + m.pageCount * 0x40000 + (if m.bedMirror then m.bedA + m.bedB else 0)

/-- The set-up that a message spells. -/
def parseMirrorSetUp (b : List Byte) : PartnerMirror :=
  ⟨true, leAt b 0 8, leAt b 8 4, leAt b 12 4, leAt b 16 4, leAt b 20 1 == 1, leAt b 24 8, leAt b 32 8⟩

/-- The DPA of the copy of the partner's page PAGE_FIRST + k. -/
def Job.mirrorPage (j : Job) (m : PartnerMirror) (k : Nat) : Nat := j.params.mirrorBase + m.tables + k * 0x40000

/-- The DPA of a partner's bed. -/
def Job.mirrorBed (j : Job) (m : PartnerMirror) (b : Nat) : Nat := j.mirrorPage m m.pageCount + (if b = 0 then 0 else m.bedA)

/-- The job with the mirror it holds for its partner. -/
def State.holder (s : State) (c : Nat) : Option (Job × PartnerMirror) :=
  match s.job c with
  | some j => if j.params.partner = 0xFFFF ∨ j.st = .ended then none else j.partner.map fun m => (j, m)
  | none => none

/-- An acknowledgement to the partner (KIND 0x15). -/
def State.ack (s : State) (c : Nat) (j : Job) (kind id : Nat) : State := s.sendMsg c 0x15 3 j.params.partner (toLe 1 kind ++ toLe 4 id)

/-- A copy written and acknowledged. -/
def State.mirrorWrite (s : State) (c : Nat) (j : Job) (kind id dpa line : Nat) (data : List Byte) : State :=
  (s.lpxWrite dpa line data).ack c j kind id

/-- The pages of a chain state copy: index, page count, page numbers, then the pages. -/
def State.mirrorChain (s : State) (c : Nat) (j : Job) (m : PartnerMirror) (data : List Byte) : State :=
  let n := leAt data 4 4
  let s := (List.range n).foldl (fun (s : State) k =>
    let p := leAt data (8 + 4 * k) 4
    if p < m.pageCount then s.lpxWrite (j.mirrorPage m p) 1 (bytesAt data (8 + 4 * n + k * 0x40000) 0x40000) else s) s
  s.ack c j 4 (leAt data 0 4)

/-! ## Acknowledgements (R414, R425) -/

/-- What an acknowledgement changes: the page's MIRRORED, or the bed's mirror. -/
def Job.acked (j : Job) (kind id : Nat) : Job :=
  let j := { j with mirror := j.mirror.eraseIdx ((j.mirror.findIdx? fun m => m.kind == kind && m.id == id).getD j.mirror.length) }
  let p := j.params.pageFirst + id
  if kind = 1 ∧ (j.page p).st = 2 then j.setPage p { j.page p with mirrored := true }
  else if kind = 5 ∧ id < 2 then j.setBed id { j.bed id with mirrored := true }
  else j

/-- What may follow a change of a cutting's conditions: commit, common, and the end of a job that closes. -/
def State.cutProgress (s : State) (c : Nat) : State := ((s.checkCommit c).checkCommon c).tryClose c

/-! ## Pages from the buddy (R432, R433) -/

/-- The buddy's copy of a page arrives: where its tag matches the page is SEALED and VALIDATED and its bytes go to the slices that wait for
them; else it is SUSPECT. -/
def State.gotPage (s : State) (c p : Nat) (data : List Byte) : State :=
  match s.job c with
  | none => s
  | some j =>
    if !j.fetching.contains p then s else
    let r := j.page p
    let j := { j with fetching := j.fetching.filter (· != p) }
    if s.pageTag c j p r.sealSeq data = r.tag then
      let s := (s.setJob c (j.setPage p { r with st := 2, validated := true })).lpxWrite (p * 0x40000) 2 data
      let s := { s with slices := Memory.writeBytes s.slices (kvSlice c p) data }
      if r.st = 3 then s.postJob c 0x0304 0 (toLe 4 p) else s
    else if r.st = 3 then s.setJob c j
    else
      let s := s.setJob c { j.setPage p { r with st := 3 } with tagFail := satAdd 32 j.tagFail 1 }
      s.postJob c 0x0303 0 (toLe 4 p ++ toLe 4 r.sealSeq)

end Sys2Proof.Machine
end

