-- ==== Sys2Proof/Machine/OpsRegrow.lean ====
section
/-!
DEFINITION. Regrow: the stages of R430, the checks of R429, and the state that a cutting restores (R413, R427 to R439, R632).
-/
namespace Sys2Proof.Machine
open Sys2Proof

/-! ## Reading a slot (R416, R420 to R422) -/

/-- A cutting as read back: the items of R413 with the seed, the digests and the versions of its headers. -/
structure CutRead where
  img : CutImage
  seed : W128
  planDigest : List Byte
  fwNumeric : Nat
  replaceable : Bool
  size : Nat
  deriving DecidableEq, Repr

/-- The bytes of slot k: at the host, or those that the buddy holds. -/
def State.slotBytesOf (s : State) (c : Nat) (j : Job) (source k : Nat) : Option (List Byte) :=
  let a := j.params.cutHost + k * j.params.cutSlotSize
  if source = 0 then
    match s.hostRead a 64 with
    | some h =>
      let n := leAt h 40 8
      if 272 ≤ n ∧ n ≤ j.params.cutSlotSize then s.hostRead a n else none
    | none => none
  else if source = 1 ∧ j.params.buddy ≠ 0xFFFF then
    let at_ := fun i => Config.buddyByte c k i
    let n := leAt ((List.range 64).map at_) 40 8
    if 272 ≤ n ∧ n ≤ j.params.cutSlotSize then some ((List.range n).map at_) else none
  else none

/-- The sections of an image's plaintext: type and entries' bytes. -/
def readSections : Nat → List Byte → List (Nat × Nat × List Byte)
  | 0, _ => []
  | fuel + 1, b =>
    if b.length < 16 then [] else
    let n := leAt b 8 8
    (leAt b 0 2, leAt b 4 4, bytesAt b 16 n) :: readSections fuel (b.drop (16 + n))

/-- The entries of a section type, each of a fixed size. -/
def sectionEntries (ss : List (Nat × Nat × List Byte)) (type size : Nat) : List (List Byte) :=
  match ss.find? fun x => x.1 == type with
  | some x => (List.range x.2.1).map fun i => bytesAt x.2.2 (i * size) size
  | none => []

/-- A cutting from its clear header and its plaintext. -/
def parseCut (h p : List Byte) : CutRead :=
  let ss := readSections (leAt h 52 4) (p.drop 192)
  let es := sectionEntries ss
  let word := fun (e : List Byte) => (leAt e 0 4, leAt e 8 8)
  { img :=
      { seq := leAt p 128 8, step := leAt h 8 8, prev := leAt h 16 8, cmdIndex := leAt h 32 8, regrowNo := leAt h 24 3, tsc := leAt h 56 8
        split := bit (leAt h 6 2) 0, east := bit (leAt h 6 2) 1, epochA := leAt p 112 2, stateA := leAt p 114 1, stateB := leAt p 115 1
        epochB := leAt p 116 2, current := leAt p 118 1, bmir := leAt p 119 1, flip := leAt p 120 8
        descs := (es 1 136).map fun e => (leAt e 0 4, bytesAt e 8 128)
        pageRecs := (es 2 32).map fun e => (leAt e 0 4, e)
        setRecs := es 3 72, chunkWords := (es 4 16).map word, pageWords := (es 5 16).map word
        kernels := (es 6 16).map word
        models := (es 7 32).map fun e => (leAt e 0 2, leAt e 8 8, leAt e 16 8)
        run := (es 8 128).head?.map fun e => (bytesAt e 0 64, leAt e 64 8, leAt e 72 4)
        moss := es 9 32, program := (es 10 16).map fun e => ⟨leAt e 0 4, leAt e 4 4, leAt e 8 8⟩ }
    seed := BitVec.ofNat 128 (leAt p 96 16), planDigest := bytesAt p 48 48, fwNumeric := leAt h 48 4, replaceable := bit (leAt h 6 2) 2
    size := leAt h 40 8 }

/-- The cutting in slot k, none when the slot is unreadable or its tag does not verify. -/
def State.readCut (s : State) (c : Nat) (j : Job) (source k : Nat) : Option CutRead :=
  match s.slotBytesOf c j source k with
  | none => none
  | some b =>
    let h := b.take 64
    let iv := cutIv (leAt h 8 8) (leAt h 28 2) (leAt h 6 2 / 2 % 2) (leAt h 24 3)
    if leAt h 0 4 != 0x4B564354 || leAt h 4 2 != 1 then none else
    (gcmOpen (s.jobKey c j cutLabel) iv h ((b.drop 64).take (b.length - 80)) (b.drop (b.length - 16))).map (parseCut h)

/-! ## Restoring the job state (R413, R431) -/

/-- Chunk numbers of a list of n chunks from its first DPA (R231). -/
def State.readChunks (s : State) (j : Job) : Nat → Nat → List Nat
  | 0, _ => []
  | n + 1, dpa =>
    if dpa = 0 then [] else
    ((dpa - j.params.chunkBase) / 4096) :: State.readChunks s j n (s.lpxLe dpa 8)

/-- The list entries at positions lo to hi - 1 of chunks whose first entry is position `base`. -/
def State.readEntries (s : State) (j : Job) (cs : List Nat) (base lo hi : Nat) : List Nat :=
  (List.range (hi - lo)).map fun i =>
    let p := lo + i
    s.lpxLe (j.chunkDpa (cs.getD ((p - base) / chunkEntries) 0) + 8 + 4 * (p % chunkEntries)) 4

/-- A tray entry from its descriptor and its lists in LPDDR5X (R231, R232, R234, R315). An entry that was in PROMPT before the job ended fetches
again what it was to fetch. -/
def State.readStream (s : State) (j : Job) (i : Nat) (b : List Byte) : Stream :=
  let chain := leAt b 0 1 == 3
  let pos := if chain then 0 else leAt b 16 4
  let pend := if chain then 0 else leAt b 20 4
  let fl := leAt b 32 2
  let pcs := s.readChunks j (chunksFor pos (pos + pend)) (leAt b 56 8)
  let gcs := s.readChunks j (chunksFor 0 (leAt b 72 4)) (leAt b 64 8)
  let old := j.stream i
  let same := old.gen == leAt b 2 2 && old.kind == leAt b 0 1
  { Stream.free with
    kind := leAt b 0 1, st := leAt b 1 1, gen := leAt b 2 2, parent := leAt b 4 4, seed := BitVec.ofNat 64 (leAt b 8 8)
    pos := pos, maxLen := if chain then 0 else leAt b 24 4, scoreFrom := if chain then 0 else leAt b 28 4
    pin := !chain && bit fl 0, hold := !chain && bit fl 1, forcedNote := !chain && bit fl 2, seedDev := bit fl 3, seedWait := bit fl 4
    epoch := if chain then 0 else leAt b 34 2, stopSet := if chain then 0 else leAt b 36 2, parkSet := if chain then 0 else leAt b 38 2
    temp := BitVec.ofNat 32 (leAt b (if chain then 28 else 40) 4), topP := if chain then 0#32 else BitVec.ofNat 32 (leAt b 44 4)
    topK := if chain then 0 else leAt b 48 2, fault := leAt b 52 4
    pending := s.readEntries j pcs (chunkBaseOf pos) pos (pos + pend), pendChunks := pcs
    pages := s.readEntries j gcs 0 0 (leAt b 72 4), pageChunks := gcs
    masks := if chain then [] else (List.range (leAt b 50 1)).map fun k => BitVec.ofNat 32 (s.lpxLe (j.params.maskBase + 256 * i + 4 * k) 4)
    readyStep := leAt b 80 8, user := BitVec.ofNat 64 (leAt b 88 8), sweep := if chain then leAt b 16 8 else 0
    model := if chain then leAt b 24 2 else 0, clampLayers := if chain then leAt b 26 2 else 0, clampUnits := chain && bit fl 0
    mirror := chain && bit fl 1, runs := if chain then leAt b 36 4 else 0, clampPtr := if chain then leAt b 40 8 else 0
    samples := if chain then leAt b 96 8 else 0, fetch := if same then old.fetch else (0, 0), fetched := false }

/-- A page record: VALIDATED is clear since the regrow (R199); of a common cutting every sealed page has its mirror (R414). -/
def readPage (j : Job) (b : List Byte) : PageRec :=
  ⟨leAt b 4 1, bit (leAt b 5 1) 0 || (j.params.buddy != 0xFFFF && leAt b 4 1 == 2), false, leAt b 8 4, leAt b 12 4, BitVec.ofNat 128 (leAt b 16 16)⟩

/-- Bed b after a regrow from a cutting (R282, R297). -/
def State.restoreBed (s : State) (j : Job) (r : CutRead) (replace : Bool) (b : Nat) : Bed :=
  let old := j.bed b
  let st := if b = 0 then r.img.stateA else r.img.stateB
  let epoch := if b = 0 then r.img.epochA else r.img.epochB
  let mir := bit r.img.bmir b
  let now := if replace then st else old.st
  if 4 ≤ st ∧ st ≤ 6 then
    let keep := old.epoch == epoch && old.manifest.isSome && !replace
    let base := (j.bedRange b).1
    let n := s.lpxLe (base + 8) 4
    let m0 := parseManifest (s.lpxRead base (64 + 96 * n)) []
    let m := { m0 with home := (List.range (m0.layers * m0.experts)).map fun i => s.lpxLe (base + m0.homeOfs + 4 * i) 4 }
    { old with st := st, epoch := epoch, flip := r.img.flip, commit := none, manifest := if keep then old.manifest else some m, mirrored := mir }
  else if now = 0 then { Bed.empty with epoch := epoch }
  else if now = 3 ∨ (4 ≤ now ∧ st = 3) then
    { old with st := 2, epoch := epoch, flip := if st = 3 then r.img.flip else old.flip, commit := none, manifest := none, mirrored := mir }
  else if 4 ≤ now ∧ st = 0 then { Bed.empty with epoch := epoch }
  else { old with st := 1, loaded := 0, commit := none, manifest := none, mirrored := false }

/-- The GIBBS_RUN of a cutting goes on (R436, R437): its chains are those that the cutting holds RUNNING. What section 8 does not record is a
free value, but for a run that this device itself was running. -/
def restoreRun (c : Nat) (j : Job) (img : CutImage) : Option GRun :=
  img.run.map fun x =>
    let d := x.1
    let chains := (j.tray.filter fun kv => kv.2.kind == 3 && kv.2.st == 3).map (·.1)
    let free := fun k => Config.regrowRun c img.step k
    let gone := leAt d 8 4 - chains.length
    let faulted := Nat.min gone (free 1)
    let head : Head := match j.lastRun with
      | some y => if y.2 = d then y.1 else ⟨c, free 0, BitVec.ofNat 32 (leAt d 4 4)⟩
      | none => ⟨c, free 0, BitVec.ofNat 32 (leAt d 4 4)⟩
    { head := head, desc := d, chains := chains, total := leAt d 8 4, sweeps := leAt d 24 4, burn := leAt d 28 4, interval := leAt d 32 4
      layers := leAt d 12 2, output := leAt d 14 1, result := leAt d 40 8, progressEvery := leAt d 36 4, done := x.2.1, nextSeq := x.2.2
      closed := gone - faulted, faulted := faulted, writeFault := free 3 % 2 == 1, flags := free 2 % 16 }

/-- The blocks of KERNEL_AREA that a cutting names (R702). -/
def State.restoreArea (s : State) (j : Job) (img : CutImage) : List AreaBlock :=
  let size := fun (dpa n : Nat) => match j.area.find? (fun a => a.dpa == dpa) with | some a => a.size | none => roundUp n 4096
  (img.kernels.map fun (k : Nat × Nat) => ⟨k.2, size k.2 (s.lpxLe (k.2 + 8) 4), k.1, none⟩) ++
    (img.program.filter fun e => e.argSize != 0).map fun e => ⟨e.argDpa, size e.argDpa e.argSize, 0, none⟩

/-- The models of a cutting, their weights as the working areas hold them. -/
def State.restoreModels (s : State) (img : CutImage) : Map GModel :=
  img.models.foldl (fun (m : Map GModel) (e : Nat × Nat × Nat) => match s.checkModel e.2.1 e.2.2 with | .good g => Map.put m e.1 g | .bad _ => m) []

/-- The job as the durable tables and the cutting hold it (R413, R431, R432). -/
def State.restoreJob (s : State) (c : Nat) (j : Job) (r : CutRead) (replace : Bool) : Job :=
  let img := r.img
  let tray : Map Stream := j.durable.descs.foldl (fun m e => Map.set Stream.free m e.1 (s.readStream j e.1 e.2)) []
  let pages : Map PageRec := j.durable.pages.foldl (fun m e => Map.set PageRec.free m e.1 (readPage j e.2)) []
  let chunks := (tray.map fun (kv : Nat × Stream) => kv.2.pendChunks ++ kv.2.pageChunks).flatten
  let sets : Map (List Nat) := img.setRecs.foldl (fun m b => Map.put m (leAt b 0 2) ((List.range (leAt b 2 1)).map fun i => leAt b (4 + 4 * i) 4)) []
  let j := { j with
    seed := r.seed, stepNext := img.step + 1, run := none, lastGibbs := img.run.isNone || Config.regrowRun c img.step 4 % 2 == 1
    tray := tray, resident := [], pages := pages, pageRel := [], chunks := chunks.foldl (fun m k => Map.put m k 1) [], chunkRel := []
    sets := sets, dirtySets := sets.map (fun (kv : Nat × List Nat) => kv.1), dirty := [], dirtyPages := [], dirtyChunkW := [], dirtyPageW := []
    bedA := s.restoreBed j r replace 0, bedB := s.restoreBed j r replace 1, models := s.restoreModels img, program := img.program
    area := s.restoreArea j img, waiting := [], deferred := [], nextCut := img.seq + 1, cutNow := false, lastCapture := some img.step
    captured := [], writing := false, written := none, committed := some (img.seq, img.step), common := some (img.seq, img.step)
    flushed := some (img.seq, img.step), notices := [], mirror := [], unflushed := [], fetching := [], closing := none, overdue := false }
  { j with grun := restoreRun c j img }

/-! ## Listed lines (R631, R632) -/

/-- The entries of the UE list in context c's partition that have not been rewritten. -/
def State.listedLines (s : State) (c : Nat) : List UeEntry :=
  s.ras.ue.filter fun e => s.inPartition c e.dpa 64 && (!e.rewritten || e.hard)

/-- The bed of the job that holds a DPA. -/
def Job.bedAt (j : Job) (dpa : Nat) : Option Nat :=
  (List.range 2).find? fun b => decide ((j.bedRange b).1 ≤ dpa) && decide (dpa < (j.bedRange b).1 + (j.bedRange b).2)

/-- Does a listed line make the REGROW fail (R632)? `j` is the job as the cutting restores it. -/
def Job.lineFatal (j : Job) (e : UeEntry) : Bool :=
  e.hard || (e.line == 3 && j.params.buddy == 0xFFFF) ||
    (e.line == 4 && (match j.bedAt e.dpa with
      | some b => ((j.bed b).st == 4 || (j.bed b).st == 5) && !(j.bed b).mirrored
      | none => false))

/-- The streams whose page list names a page. -/
def Job.usersOf (j : Job) (p : Nat) : List Nat := (j.tray.filter fun kv => kv.2.pages.contains p).map (·.1)

/-- Is the line rewritten from a source (R632)? The buddy's mirrors hold what this device mirrored (R425). -/
def Job.lineSource (j : Job) (e : UeEntry) : Bool :=
  let p := e.dpa / 0x40000
  let buddy := j.params.buddy != 0xFFFF
  if e.line = 1 then buddy && (j.usersOf p).any fun i => (j.stream i).kind == 3 && (j.stream i).mirror
  else if e.line = 2 then buddy && ((j.page p).st != 2 || (j.page p).mirrored)
  else if e.line = 3 then buddy
  else if e.line = 4 then (match j.bedAt e.dpa with | some b => (j.bed b).mirrored | none => false)
  else e.line == 5

/-- One listed line in stage APPLY (R632). -/
def State.rewriteLine (s : State) (c : Nat) (e : UeEntry) : State :=
  match s.job c with
  | none => s
  | some j =>
    let p := e.dpa / 0x40000
    if j.lineSource e then
      { s with ras := { s.ras with ue := s.ras.ue.map fun x => if x.dpa = e.dpa then { x with rewritten := true } else x } }
    else if e.line = 2 ∧ (j.page p).st = 2 then s.setJob c (j.setPage p { j.page p with st := 3 })
    else if e.line = 2 ∧ (j.page p).st = 1 then
      (j.usersOf p).foldl (fun (s : State) i => match s.job c with
        | some j => let t := j.stream i
            (s.setJob c (j.setStream i { t with st := 6, fault := 0x0307 })).postFaulted c i t.gen (j.stepNext - 1)
        | none => s) s
    else if e.line = 4 then
      match j.bedAt e.dpa with
      | some b => if (j.bed b).st = 1 ∨ (j.bed b).st = 2 then s.setJob c (j.setBed b { j.bed b with st := 1, loaded := 0 }) else s
      | none => s
    else s

/-! ## Moss runs of the cutting (R436) -/

/-- The SWEEP of an anneal cutting slot, none when the slot is not valid (R364). -/
def State.slotSweep (s : State) (dpa : Nat) : Option Nat :=
  let n := s.lpxLe (dpa + 40) 8
  if s.lpxLe dpa 4 != 0x4B564143 || s.lpxLe (dpa + 4) 2 != 1 || n < 432 || dpaBytes < dpa + n then none else
  let b := s.lpxRead dpa n
  if s.slotHit dpa n || sha384 (b.take (n - 48)) != b.drop (n - 48) then none else some (leAt b 16 8)

/-- MOSS_RESUMABLE for one run of the cutting. -/
def State.postResumable (s : State) (c : Nat) (j : Job) (rec : List Byte) : State :=
  let run := leAt rec 0 4
  let best := match j.mossSlots.find? fun x => x.1 == run && x.2.1 == leAt rec 8 8 with
    | none => (0, 0)
    | some (_, _, a, b) => (match s.slotSweep a, s.slotSweep b with
        | none, none => (0, 0)
        | some x, none => (x, a)
        | none, some y => (y, b)
        | some x, some y => if x < y then (y, b) else (x, a))
  s.postJob c 0x0604 0 (toLe 4 run ++ toLe 4 0 ++ toLe 8 best.1 ++ toLe 8 best.2)

/-! ## The stages (R430) -/

/-- A stage begins with the amount that it is to do. -/
def State.setStage (s : State) (c stage done total : Nat) : State :=
  s.onJob c fun j => { j with regrow := j.regrow.map fun r => { r with stage := stage, done := done, total := total } }

/-- Bytes in whole MiB, rounded up. -/
def mib (n : Nat) : Nat := ceilDiv n (2 ^ 20)

/-- A REGROW that fails a check: the job is what it was (R429). -/
def State.regrowFail (s : State) (c status : Nat) : State :=
  match s.job c with
  | some j => (match j.regrow with
      | some r => (s.setJob c { j with st := if j.reason = 0 then .running else .ended, regrow := none }).done r.head 0x61 status 0
      | none => s)
  | none => s

/-- The ports that the route-table snapshot names (R504). -/
def State.snapshotPorts (s : State) (c : Nat) : List Nat :=
  match s.link c with
  | none => []
  | some l =>
    ((l.routes.filter fun kv => kv.1 / 4096 == s.routeHalf c && bit kv.2 4 && !bit kv.2 5 && bit (s.halvesOf c) (kv.2 % 16 / 8)).map
      fun kv => kv.2 % 16).eraseDups

/-- The status of the checks of R429 and R632, and the cutting with the other slot's. -/
def State.regrowChecks (s : State) (c : Nat) (j : Job) (r : Regrow) : Nat × Option (CutRead × Option CutRead) :=
  let slots := (List.range 2).map fun k => s.readCut c j r.source k
  let hits := slots.filterMap fun o => match o with | some x => if x.img.step = r.cut then some x else none | none => none
  let best := match hits with
    | [] => none
    | [x] => some x
    | x :: y :: _ => some (if x.img.seq < y.img.seq then y else x)
  if r.number ≤ j.regrowNo || decide (2 ^ 24 ≤ r.number) || hits.any (fun x => decide (r.number ≤ x.img.regrowNo)) then (0x0703, none)
  else match best with
    | none => (0x0702, none)
    | some x =>
      let other := (slots.filterMap id).find? fun y => y.img.step == x.img.prev
      if x.fwNumeric != s.sec.fwNumeric || x.planDigest != s.planDigest then (0x000C, none)
      else if !s.trayOk c j.params || x.img.split != s.split || (List.range 2).any (fun h => bit j.halves h && (s.half h).degraded) then
        (0x000B, none)
      else if r.replace && !x.replaceable then (0x0702, none)
      else if (s.listedLines c).any (s.restoreJob c j x r.replace).lineFatal then (0x0A01, none)
      else (0, some (x, other))

/-- Stage COPY: the partner's durable tables and mirrored beds come from the buddy (R430). -/
def State.copyTables (s : State) (c : Nat) (j : Job) (bmir : Nat) : State :=
  let p := j.params
  let obj := fun k at_ n => (List.range n).map fun i => Config.buddyByte c k (at_ + i)
  let words := fun k n => (List.range (ceilDiv n 64)).map fun w => (w, ofLe (obj k (8 * w) 8))
  let d : Durable :=
    { descs := (List.range j.trayEntries).map fun i => (i, obj 2 (128 * i) 128)
      pages := (List.range p.pageCount).map fun k => (p.pageFirst + k, obj 3 (32 * k) 32)
      chunkWords := words 4 p.chunkCount, pageWords := words 5 p.pageCount }
  let s := s.onJob c fun j => { j with durable := Durable.empty }
  let img : CutImage :=
    { seq := 0, step := 0, prev := 0, cmdIndex := 0, regrowNo := 0, tsc := 0, split := false, east := false, epochA := 0, stateA := 0
      stateB := 0, epochB := 0, current := 0, bmir := 0, flip := 0, descs := d.descs, pageRecs := d.pages, setRecs := []
      chunkWords := d.chunkWords, pageWords := d.pageWords, kernels := [], models := [], run := none, moss := [], program := [] }
  let s := s.flushTables c img
  (List.range 2).foldl (fun (s : State) b =>
    if bit bmir b then s.lpxWrite (j.bedRange b).1 4 (obj (6 + b) 0 (j.bedRange b).2) else s) s

/-- Bytes that stage COPY moves. -/
def Job.copyBytes (j : Job) (bmir : Nat) : Nat :=
  let p := j.params
  128 * j.trayEntries + 32 * p.pageCount + 8 * ceilDiv p.chunkCount 64 + 8 * ceilDiv p.pageCount 64 +
    (if bit bmir 0 then p.bedASize else 0) + (if bit bmir 1 then p.bedBSize else 0)

/-- The ring set fetches again from CMD_INDEX (R435, R462, R474). -/
def State.refetch (s : State) (c index : Nat) : State :=
  let r := s.ring c
  let s := s.setRing c { r with cmdCi := index, cmdPi := index, reserved := 4 * s.randWaiting c, hold := none, obs := [] }
  if r.st = 3 ∨ r.st = 1 then (if s.pauseCause c then s.setRingState c 2 else s.activate c) else s

/-- Stage REPLAY begins: the REGROW completes with c (R430, R434, R441, R466). -/
def State.startReplay (s : State) (c : Nat) : State :=
  match s.job c with
  | none => s
  | some j =>
    match j.regrow with
    | none => s
    | some r =>
      let total := if r.replayStep < r.cut + 1 then 0 else Nat.min (r.replayStep - r.cut) (2 ^ 32 - 1)
      let s := s.setJob c
        { j with st := .running, elapsed := 0, refreshStall := 0, retryStall := 0, stepStartNominal := 0
                 regrow := some { r with stage := 8, done := 0, total := total } }
      let waits := (j.tray.filter fun kv => kv.2.st == 0 && kv.2.seedWait).map (·.1)
      let s := waits.foldl (fun (s : State) i => s.askSeed c i) s
      (s.refetch c r.index).done r.head 0x61 0 r.cut

/-- Stage ALIGN (R430): rank 0 releases the job once every device is ready. -/
def State.tryRelease (s : State) (c : Nat) : State :=
  match s.job c with
  | none => s
  | some j =>
    match j.regrow with
    | some r =>
      if j.st = JobSt.regrow ∧ r.stage = 7 ∧ j.params.rank = 0 ∧ (List.range j.params.devices).all r.ready.contains = true then
        (s.sendJob c 0x33 (toLe 3 r.number ++ toLe 1 0)).startReplay c
      else s
    | none => s

/-- Stage ALIGN begins with the ready notice to rank 0. -/
def State.startAlign (s : State) (c : Nat) : State :=
  match s.job c with
  | none => s
  | some j =>
    let n := match j.regrow with | some r => r.number | none => 0
    let s := s.setStage c 7 0 j.params.devices
    let s := s.onJob c fun j => { j with regrow := j.regrow.map fun r =>
      if j.params.rank = 0 then { r with ready := (r.ready ++ [0]).eraseDups, done := (r.ready ++ [0]).eraseDups.length } else r }
    let s := if j.params.rank = 0 then s else s.sendMsg c 0x32 0 0 (toLe 2 j.params.rank ++ toLe 3 n ++ toLe 3 0)
    s.tryRelease c

/-- Stages COPY, APPLY and RELOAD (R430 to R432, R436, R632), and the start of ALIGN. -/
def State.applyRegrow (s : State) (c : Nat) (j : Job) (r : Regrow) (x : CutRead) (other : Option CutRead) : State :=
  let j := { j with regrowNo := r.number, regrowCount := j.regrowCount + 1, regrow := some { r with index := x.img.cmdIndex } }
  let s := s.setJob c j
  let s := if r.replace then
      let n := mib (j.copyBytes x.img.bmir)
      (s.setStage c 4 n n).copyTables c j x.img.bmir
    else s
  let lines := s.listedLines c
  let n := mib (x.size + (match other with | some y => y.size | none => 0) + 64 * lines.length)
  let s := s.setStage c 5 n n
  let s := match other with | some y => s.flushTables c y.img | none => s
  let s := s.flushTables c x.img
  let s := match s.job c with | some j => s.setJob c (s.restoreJob c j x r.replace) | none => s
  let s := x.img.moss.foldl (fun (s : State) m => s.postResumable c j m) s
  let s := lines.foldl (fun (s : State) e => s.rewriteLine c e) s
  let k := match s.job c with
    | some j => (j.kernelCopies.map fun e => s.lpxLe (e.2 + 8) 4).foldl (· + ·) 0 + (j.models.map fun m => m.2.need).foldl (· + ·) 0 +
        ((List.range 2).map fun b => match (j.bed b).manifest with
          | some m => if 3 ≤ (j.bed b).st ∧ (j.bed b).st ≤ 5 then ((m.shards.filter (·.isExpert)).map (·.size)).foldl (· + ·) 0 else 0
          | none => 0).foldl (· + ·) 0
    | none => 0
  let s := (s.setStage c 6 (mib k) (mib k)).reloadJob c
  s.startAlign c

/-- Stage FETCH: both slots are read and checked (R429). -/
def State.fetchRegrow (s : State) (c : Nat) : State :=
  match s.job c with
  | none => s
  | some j =>
    match j.regrow with
    | none => s
    | some r =>
      let bytes := ((List.range 2).filterMap fun k => (s.slotBytesOf c j r.source k).map (·.length)).foldl (· + ·) 0
      let s := s.setStage c 3 (mib bytes) (mib bytes)
      match s.regrowChecks c j r with
      | (0, some (x, other)) => s.applyRegrow c j { r with stage := 3 } x other
      | (st, _) => s.regrowFail c st

/-- Stage RESET begins once no dump is being written and no other reset runs: a job reset of the job's halves, with a sparing point (R430,
R606, R636). -/
def State.beginRegrowReset (s : State) (c : Nat) (j : Job) (r : Regrow) : State :=
  if s.dmp.st == 1 || s.rst.busy.isSome || !s.resetBegins 3 then s else
  let s := (s.sparingPoint j.halves).powerOn (jobDomains j.halves)
  let s := (s.resetHalves j.halves).setReset 3 j.halves 0 5
  s.onJob c fun j => { j with regrow := some { r with begun := 1, done := 0, total := s.pwr.round.length } }

/-- A regrow goes on as far as it can. -/
def State.regrowStep (s : State) (c : Nat) : State :=
  match s.job c with
  | none => s
  | some j =>
    match j.regrow with
    | none => s
    | some r =>
      if j.st ≠ JobSt.regrow then s
      else if r.stage = 1 then
        if r.begun = 0 then s.beginRegrowReset c j r
        else if r.begun = 2 && s.unitsReady j.halves && s.pwr.round.isEmpty then
          let s := (s.setStage c 2 0 0).openLinks c
          s.setStage c 2 0 (s.snapshotPorts c).length
        else s
      else if r.stage = 2 then
        let ps := s.snapshotPorts c
        let n := (ps.filter fun p => (s.port p).st == 4).length
        let s := s.setStage c 2 n ps.length
        if n = ps.length && s.mayTalk c then s.fetchRegrow c else s
      else s.tryRelease c

/-- Every regrow goes on. -/
def State.regrowPoll (s : State) : State := (List.range 16).foldl (fun (s : State) c => s.regrowStep c) s

/-- A reset of the halves of a mask has ended: the regrow whose stage RESET it was goes on. -/
def State.regrowAfterReset (s : State) (mask : Nat) : State :=
  (List.range 16).foldl (fun (s : State) c => match s.job c with
    | some j => (match j.regrow with
        | some r => if j.st = JobSt.regrow ∧ r.stage = 1 ∧ r.begun = 1 ∧ j.halves = mask then
              (s.setJob c { j with regrow := some { r with begun := 2, done := r.total } }).regrowStep c
            else s
        | none => s)
    | none => s) s

/-- REGROW after R465 (R428, R474): it needs an ended job, or an open one that JOB_OPEN made its target, in a context that runs on a half. -/
def State.cmdRegrow (s : State) (h : Head) (cut source replace c number replayStep replayIndex replayPos replaySample : Nat) : State :=
  match s.job c with
  | none => s.done h 0x61 0x0004 0
  | some j =>
    let target := j.st == .running && j.params.regrowTarget && j.regrowCount == 0 && j.regrow.isNone
    if !(j.st == .ended || target) || s.halvesOf c == 0 then s.done h 0x61 0x0004 0
    else
      let r : Regrow :=
        { head := h, cut := cut, source := source, replace := replace != 0, number := number, replayStep := replayStep
          replayIndex := replayIndex, replayPos := replayPos, replaySample := replaySample, stage := 1, done := 0, total := 0, ready := []
          begun := 0, index := 0 }
      (s.setJob c { j with st := .regrow, halves := s.halvesOf c, regrow := some r }).regrowStep c

end Sys2Proof.Machine
end

