-- ==== Sys2Proof/Machine/Clock.lean ====
section
/-!
DEFINITION. What the device does of itself in one nc slot: the clocks and counters of `State.tick`, the flits that its ports put on their
lines, the random requests that can be served, and the switches, regrows and Moss runs that can go on (log entry 1).
-/
namespace Sys2Proof.Machine

/-- One nc slot on an empty queue of commands. -/
def State.clock (s : State) : State := s.tick.pump.serveRandom.switchStep.regrowPoll.mossWaits

end Sys2Proof.Machine
end

