-- ==== Sys2Proof/Machine/Contexts.lean ====
section
/-!
DEFINITION. The context commands, the switch at a step boundary, the zeroing of a partition, and the start of a mode change (R36 to R39,
R524 to R536).
-/
namespace Sys2Proof.Machine
open Sys2Proof

/-- CTX_REGISTER. -/
def execCtxRegister (h : Head) (ctx block : Nat) (s : State) : Out :=
  onSet h (s.hostCmd h 0x70 h.set fun s => s.cmdRegister h ctx block)

/-- CTX_DESTROY. -/
def execCtxDestroy (h : Head) (ctx : Nat) (s : State) : Out := onSet h (s.hostCmd h 0x71 h.set fun s => s.cmdDestroy h ctx)

/-- CTX_RUN. -/
def execCtxRun (h : Head) (ctx halves : Nat) (s : State) : Out := onSet h (s.hostCmd h 0x72 h.set fun s => s.cmdCtxRun h ctx halves)

/-- CTX_SWITCH (R535): the switch that waits for the half goes on as far as its orders allow. -/
def execCtxSwitch (half : Nat) (s : State) : Out :=
  noUnit (decide (half < 2)) (match s.sec.switch with
    | some w => if bit w.halves half then s.switchStep else s
    | none => s)

/-- PARTITION_ZERO_DONE (R532, R560): the partition is zero, and the context is FREE. -/
def execPartitionZeroDone (ctx : Nat) (s : State) : Out :=
  noUnit (decide (ctx < 16)) (
    let x := s.ctx ctx
    if x.st ≠ 3 ∨ s.boot.ready = false then s else
    let s := (s.lpxZero x.base x.size).setCtx ctx Ctx.free
    s.postDev 0 0x0803 0 (toLe 1 ctx ++ toLe 1 0 ++ toLe 2 x.gen ++ toLe 4 0 ++ toLe 8 x.size))

/-- May a pending mode change begin (R36)? During boot the jobs that R427 retains do not hold it back (R39). -/
def State.modeMayChange (s : State) : Bool :=
  s.mgt.pend && !s.mgt.changing && s.sec.scrub.isNone && s.sec.switch.isNone && s.boot.aligned &&
    (if s.boot.ready then s.rst.busy.isNone && !((List.range 16).any fun c => s.holdsJob c) else s.boot.plan)

/-- MODE_CHANGE_START (R36, R37): the ring sets stop, and all on-die state is scrubbed. -/
def execModeChangeStart (s : State) : Out :=
  .next (if !s.modeMayChange then s else
    ({ s with mgt := { s.mgt with changing := true } }).beginScrub 3 2)

end Sys2Proof.Machine
end

