-- ==== Sys2Proof/Machine/Cuttings.lean ====
section
/-!
DEFINITION. The events of cuttings, mirrors, notices and pages of the buddy (R414 to R427, R432, R433).
-/
namespace Sys2Proof.Machine
open Sys2Proof

/-- Is the job one whose cuttings go on: neither ended nor regrowing before REPLAY? -/
def Job.cuts (j : Job) : Bool := j.atWork || j.st == .suspended

/-- CUTTING_WRITE_START (R416): the write of the oldest captured image begins, once the one before is common and the one before that is
flushed. The slot holds an image without its tag until the write ends (R438). A capture that was held is taken. -/
def execCuttingWriteStart (ctx : Nat) (s : State) : Out :=
  onCtx ctx (match s.job ctx with
    | some j =>
      match j.captured with
      | img :: _ =>
        let common := img.seq == 0 || (match j.common with | some x => decide (img.seq ≤ x.1 + 1) | none => false)
        let flushed := decide (img.seq < 2) || (match j.flushed with | some x => decide (img.seq ≤ x.1 + 2) | none => false)
        if !j.cuts || j.writing || !common || !flushed then s
        else
          let bs := s.cutBytes ctx j img
          let s := s.hostWrite (j.cutSlot img.seq) (bs.take (bs.length - 16) ++ List.replicate 16 0#8)
          let s := s.setJob ctx { j with writing := true }
          if j.run.isNone && j.atWork then s.captureIfDue ctx else s
      | [] => s
    | none => s)

/-- CUTTING_WRITE_DONE (R414, R416): the image lies complete in its slot; a write that cannot be sent is a ring fault. The buddy receives
its copy. -/
def execCuttingWriteDone (ctx : Nat) (s : State) : Out :=
  onCtx ctx (match s.job ctx with
    | some j =>
      match j.captured with
      | img :: rest =>
        if !j.cuts || !j.writing then s
        else if !s.hostCanWrite then s.ringFault ctx 6
        else
          let bs := s.cutBytes ctx j img
          let s := s.hostWrite (j.cutSlot img.seq) bs
          let q := img.seq % 2
          let buddy := j.params.buddy != 0xFFFF
          let s := s.setJob ctx
            { j with captured := rest, writing := false, written := some img.seq, unflushed := j.unflushed ++ [img]
                     mirror := if buddy then j.mirror ++ [⟨3, q, ceilDiv bs.length 4096, img.seq⟩] else j.mirror }
          let s := if buddy then s.sendMsg ctx 0x12 2 j.params.buddy (toLe 1 q ++ toLe 7 0 ++ bs) else s
          s.cutProgress ctx
      | [] => s
    | none => s)

/-- COMMIT_NOTICE (R415): a peer has committed the cutting of a step. -/
def execCommitNotice (ctx rank step : Nat) (s : State) : Out :=
  onCtx ctx (match s.job ctx with
    | some j =>
      if !j.cuts || rank == j.params.rank || decide (j.params.devices ≤ rank) || j.notices.contains (rank, step) then s
      else (s.setJob ctx { j with notices := j.notices ++ [(rank, step)] }).cutProgress ctx
    | none => s)

/-- CUTTING_FLUSH (R417, R418): the oldest common cutting that is not flushed goes into the durable tables. -/
def execCuttingFlush (ctx : Nat) (s : State) : Out :=
  onCtx ctx (match s.job ctx with
    | some j =>
      match j.unflushed, j.common with
      | img :: rest, some (q, _) =>
        if !j.cuts || decide (q < img.seq) then s
        else
          let s := s.flushTables ctx img
          s.onJob ctx fun j => { j.freeFlushed img.seq with unflushed := rest, flushed := some (img.seq, img.step) }
      | _, _ => s
    | none => s)

/-- SEALED_PAGE_MIRROR (R425): the partner's sealed page, by its place in the pool. -/
def execSealedPageMirror (ctx page : Nat) (data : List Byte) (s : State) : Out :=
  onCtx ctx (match s.holder ctx with
    | some (j, m) => if page < m.pageCount then s.mirrorWrite ctx j 1 page (j.mirrorPage m page) 2 data else s
    | none => s)

/-- OPEN_PAGE_LINES (R425): lines of a partner's open page, from a line on. -/
def execOpenPageLines (ctx page line : Nat) (data : List Byte) (s : State) : Out :=
  onCtx ctx (match s.holder ctx with
    | some (j, m) =>
      if page < m.pageCount ∧ 64 * line + data.length ≤ 0x40000 then s.mirrorWrite ctx j 2 page (j.mirrorPage m page + 64 * line) 2 data else s
    | none => s)

/-- CUTTING_IMAGE_MIRROR (R416): the partner's image, into the slot of its number. -/
def execCuttingImageMirror (ctx slot offset : Nat) (data : List Byte) (s : State) : Out :=
  onCtx ctx (match s.holder ctx with
    | some (j, m) =>
      if slot < 2 ∧ offset + data.length ≤ m.slotSize then
        s.mirrorWrite ctx j 3 slot (j.params.mirrorBase + slot * m.slotSize + offset) 5 data
      else s
    | none => s)

/-- CHAIN_STATE_COPY (R324, R425): the partner's chain pages. -/
def execChainStateCopy (ctx : Nat) (data : List Byte) (s : State) : Out :=
  onCtx ctx (match s.holder ctx with
    | some (j, m) => s.mirrorChain ctx j m data
    | none => s)

/-- BED_COPY (R425): bytes of a partner's bed. -/
def execBedCopy (ctx bed offset : Nat) (data : List Byte) (s : State) : Out :=
  onCtx ctx (match s.holder ctx with
    | some (j, m) =>
      if m.bedMirror ∧ bed < 2 ∧ offset + data.length ≤ (if bed = 0 then m.bedA else m.bedB) then
        s.mirrorWrite ctx j 5 bed (j.mirrorBed m bed + offset) 4 data
      else s
    | none => s)

/-- MIRROR_ACK (R414, R425): the buddy has written a copy. -/
def execMirrorAck (ctx kind id : Nat) (s : State) : Out :=
  onCtx ctx (match s.job ctx with
    | some j =>
      if !j.cuts || !(j.mirror.any fun m => m.kind == kind && m.id == id) then s
      else (s.setJob ctx (j.acked kind id)).cutProgress ctx
    | none => s)

/-- MIRROR_SET_UP (R424): the sizes of the partner's mirror; an area that is too small ends the job with CUT_PARAM. -/
def execMirrorSetUp (ctx : Nat) (data : List Byte) (s : State) : Out :=
  onCtx ctx (match s.job ctx with
    | some j =>
      if j.params.partner = 0xFFFF || j.st == .ended || j.st == .waitSeed then s
      else
        let m := parseMirrorSetUp data
        if j.params.mirrorSize < m.need then s.endJob ctx 0x0701 else s.setJob ctx { j with partner := some m }
    | none => s)

/-- PAGE_FETCH_REQUEST (R432): the partner, or its replacement, asks for a page; the copy goes back on VC3. -/
def execPageFetchRequest (ctx page : Nat) (s : State) : Out :=
  onCtx ctx (match s.holder ctx with
    | some (j, m) =>
      if page < m.pageCount then s.sendMsg ctx 0x17 3 j.params.partner (toLe 4 page ++ s.lpxRead (j.mirrorPage m page) 0x40000) else s
    | none => s)

/-- PAGE_FETCH_RESPONSE (R432, R433). -/
def execPageFetchResponse (ctx page : Nat) (data : List Byte) (s : State) : Out :=
  onCtx ctx (match s.job ctx with
    | some j => s.gotPage ctx (j.params.pageFirst + page) data
    | none => s)

/-- JOB_END_NOTICE (R427): a peer's job has ended. -/
def execJobEndNotice (ctx rank : Nat) (s : State) : Out :=
  onCtx ctx (match s.job ctx with
    | some j => if rank != j.params.rank && decide (rank < j.params.devices) then s.endJob ctx 0x000A else s
    | none => s)

end Sys2Proof.Machine
end

