-- ==== Sys2Proof/Machine/Island.lean ====
section
/-!
DEFINITION. The entropy source and the DRBG: the commands of the random service, the end of a window, the restart, and the DRBG's
seeding (R563 to R589).
-/
namespace Sys2Proof.Machine
open Sys2Proof

/-- RAND_STOCH (R585). -/
def execRandStoch (h : Head) (length flags host : Nat) (s : State) : Out :=
  onSet h (s.hostCmd h 0x90 h.set fun s =>
    if flags ≠ 0 ∨ length = 0 ∨ 65536 < length then s.done h 0x90 0x0903 0
    else s.askCommand h 0x90 ⟨.command h 0x90 host, 0, length, none, false, []⟩)

/-- RAND_DRBG (R582, R585). -/
def execRandDrbg (h : Head) (length flags host : Nat) (s : State) : Out :=
  onSet h (s.hostCmd h 0x91 h.set fun s =>
    if 1 < flags ∨ length = 0 ∨ 65536 < length then s.done h 0x91 0x0903 0
    else s.askCommand h 0x91 ⟨.command h 0x91 host, 1, length, none, bit flags 0, []⟩)

/-- RAND_RAW (R585, R586). -/
def execRandRaw (h : Head) (length flags host : Nat) (s : State) : Out :=
  onSet h (s.hostCmd h 0x92 h.set fun s =>
    if 63 < flags ∨ length = 0 ∨ length % 136 ≠ 0 ∨ 65416 < length then s.done h 0x92 0x0903 0
    else s.askCommand h 0x92 ⟨.command h 0x92 host, 2, length, if bit flags 5 then some (flags % 32) else none, false, []⟩)

/-- The class of oscillator k's block in the window that ends (R589): 0 stochastic, 1 security, 2 start-up. -/
def Ens.classOf (e : Ens) (k : Nat) : Nat := if e.startup then 2 else if e.secOsc = some k then 1 else 0

/-- Is the block of oscillator k judged? In FAILED only a security block is (R575). -/
def Ens.judged (e : Ens) (k : Nat) : Bool := e.stoch != 3 || (!e.startup && e.secOsc == some k)

/-- One failed block of window w: it is counted, noted and reported (R589, R591). -/
def State.healthFail (s : State) (w consec : Nat) (f : Nat × Nat × Nat) : State :=
  let s := { s with ens := { s.ens with fails := Nat.min (s.ens.fails + 1) (2 ^ 32 - 1), lastFail := f.1 + 32 * f.2.1 + 128 * f.2.2 + 65536 * (w % 2 ^ 48) } }
  s.postDev 0x0700 0x0902 0 (toLe 1 f.1 ++ toLe 1 f.2.1 ++ toLe 1 f.2.2 ++ toLe 1 consec ++ toLe 4 0 ++ toLe 8 w)

/-- The security class halts (R571). -/
def State.haltSecurity (s : State) (w : Nat) : State :=
  let s := { s with ens := { s.ens with secHalt := true, secWanted := false, secBlock := none }, drb := { s.drb with st := 2 } }
  (s.postDev 0 0x0903 0x0901 (toLe 8 w)).failClass true 0x0901

/-- The stochastic class fails (R575). -/
def State.failStochastic (s : State) (w : Nat) : State :=
  let s := { s with ens := { s.ens with stoch := 3 } }
  (s.postDev 0x0700 0x0904 0x0902 (toLe 8 w)).failClass false 0x0902

/-- A start-up window has passed (R569, R574). -/
def State.startupPassed (s : State) (w : Nat) : State :=
  let first := !s.ens.ready
  let s := { s with ens := { s.ens with ready := true, stoch := 1 } }
  s.postDev 0x0700 (if first then 0x0901 else 0x0905) 0 (toLe 8 w)

/-- The window that ends: its blocks with the tests they failed (R564 to R567). -/
def Ens.window32 (e : Ens) (samples : List (List Byte)) : List (List Byte × Nat × Osc) := (List.range 32).map (e.block samples)

/-- The failed blocks of a window: oscillator, tests, class. -/
def Ens.failures (e : Ens) (bs : List (List Byte × Nat × Osc)) : List (Nat × Nat × Nat) :=
  (bs.zipIdx.filter fun b => b.1.2.1 != 0 && e.judged b.2).map fun b => (b.2, b.1.2.1, e.classOf b.2)

/-- The consecutive-failure count after a window (R573); FAILED leaves it at 3 (R571). -/
def Ens.consecAfter (e : Ens) (bad : Bool) : Nat :=
  if e.stoch = 3 then e.consec else if bad then Nat.min (e.consec + 1) 3 else if e.startup then e.consec else 0

/-- The source after a window's samples. -/
def Ens.endWindow (e : Ens) (bs : List (List Byte × Nat × Osc)) (consec : Nat) : Ens :=
  { e with oscs := bs.map fun b => b.2.2, sample := e.sample + 1024, window := (e.window + 1) % 2 ^ 64, consec := consec }

/-- The security block of a window that is not a start-up window: it counts as taken; it halts the class or becomes seed material. -/
def State.takeSecurity (s : State) (w : Nat) (sec : Option Nat) (bs : List (List Byte × Nat × Osc)) : State :=
  match sec with
  | none => s
  | some k =>
    let s := { s with ens := { s.ens with taken := s.ens.taken + 1 } }
    match bs[k]? with
    | some b =>
      if b.2.1 != 0 then s.haltSecurity w
      else { s with ens := { s.ens with secBlock := some b.1, secWanted := false } }
    | none => s

/-- ENS_WINDOW_END (R564 to R576): a window of 1,024 samples of every oscillator ends. -/
def State.windowEnd (s : State) (samples : List (List Byte)) : State :=
  let e := s.ens
  let w := e.window
  let bs := e.window32 samples
  let fs := e.failures bs
  let bad := !fs.isEmpty
  let consec := e.consecAfter bad
  let s := { s with ens := e.endWindow bs consec }
  let s := fs.foldl (fun (s : State) f => s.healthFail w consec f) s
  let s := if e.startup then s else s.takeSecurity w e.secOsc bs
  let good := (bs.zipIdx.filter fun b => b.1.2.1 == 0 && e.secOsc != some b.2).map fun b => (b.2, b.1.1)
  let s := if e.startup || e.stoch == 3 then s else s.deliverBlocks w good
  if e.stoch = 3 then { s with ens := s.ens.decideSec }
  else if bad then
    if consec = 3 then let s := s.failStochastic w
                       { s with ens := s.ens.decideSec }
    else { s with ens := { s.ens.restart with stoch := 2 } }
  else
    let s := if e.startup then s.startupPassed w else s
    { s with ens := s.ens.decideSec }

/-- ENS_WINDOW_END. No window runs while the oscillators settle or the island has no power. -/
def execEnsWindowEnd (blocks : List (List Byte)) (s : State) : Out :=
  .next (if s.ens.settling || !s.pins.pwrgood then s else s.windowEnd blocks)

/-- ENS_RESTART_SETTLE (R568): the 128 ES cycles after a restart or a reset are over. -/
def execEnsRestartSettle (s : State) : Out :=
  .next (if s.pins.pwrgood then { s with ens := { s.ens with settling := false } } else s)

/-- ENS_TEST_WRITE (R587): in FACTORY a change of the pattern takes effect at once, by a restart that abandons the window in
progress. -/
def State.writeEnsTest (s : State) (v : Nat) : State :=
  if s.fuses.lc ≠ 0 then s else
  let e := s.ens
  let en := bit v 0
  let p := bits v 2 1
  if en = e.testEn ∧ p = e.pattern then s else
  let e' := { e.restart with
    testEn := en, pattern := p, window := if e.settling then e.window else (e.window + 1) % 2 ^ 64
    stoch := if e.stoch = 1 then 2 else e.stoch }
  { s with ens := e' }

/-- ENS_TEST_WRITE. -/
def execEnsTestWrite (v : W32) (s : State) : Out := .next (s.barWrite32 0x70008 v fun s => s.writeEnsTest v.toNat)

/-- DRBG_INSTANTIATE (R559, R579): the first security block instantiates the DRBG once its known-answer test has passed. -/
def execDrbgInstantiate (kat : Bool) (s : State) : Out :=
  .next (match s.ens.secBlock with
  | none => s
  | some b =>
    if s.drb.st ≠ 0 ∨ s.sec.islandFail = true then s
    else if !kat then s.islandStop
    else
      let kv := drbgInit (b.take 96) s.personalization
      ({ s with drb := { s.drb with key := kv.1, v := kv.2, count := 0, st := 1 }
                ens := { s.ens with secBlock := none } }).serveRandom)

/-- DRBG_RESEED (R581, R582). -/
def execDrbgReseed (s : State) : Out :=
  .next (match s.ens.secBlock with
  | none => s
  | some b => if s.drb.st = 1 ∧ s.sec.islandFail = false ∧ s.mayReseed = true then (s.reseed b).serveRandom else s)

end Sys2Proof.Machine
end

