-- ==== Sys2Proof/Machine/Regrow.lean ====
section
/-!
DEFINITION. REGROW, its notices, and the end of a state dump's writing, for which a REGROW waits (R427 to R437, R640, R641).
-/
namespace Sys2Proof.Machine
open Sys2Proof

/-- REGROW (R428 to R436, R474). -/
def execRegrow (h : Head) (cutStep source replace ctx regrowNo replayStep replayIndex replayPos replaySample : Nat) (s : State) : Out :=
  onSet h (s.hostCmd h 0x61 ctx fun s =>
    s.cmdRegrow h cutStep source replace ctx regrowNo replayStep replayIndex replayPos replaySample)

/-- REGROW_READY (R430): a rank's ready notice reaches rank 0. -/
def execRegrowReady (ctx rank number : Nat) (s : State) : Out :=
  onCtx ctx (match s.job ctx with
    | some j =>
      match j.regrow with
      | some r =>
        if j.st = JobSt.regrow ∧ j.params.rank = 0 ∧ r.number = number ∧ rank < j.params.devices then
          let ready := (r.ready ++ [rank]).eraseDups
          (s.setJob ctx { j with regrow := some { r with ready := ready, done := if r.stage = 7 then ready.length else r.done } }).tryRelease ctx
        else s
      | none => s
    | none => s)

/-- REGROW_RELEASE (R430): rank 0 lets the device replay. -/
def execRegrowRelease (ctx number : Nat) (s : State) : Out :=
  onCtx ctx (match s.job ctx with
    | some j =>
      match j.regrow with
      | some r =>
        if j.st = JobSt.regrow ∧ j.params.rank ≠ 0 ∧ r.stage = 7 ∧ r.number = number then s.startReplay ctx else s
      | none => s
    | none => s)

/-- The status of a dump (R640, R649): the buffer too short, or a write that cannot be sent. -/
def State.dumpStatus (s : State) : Nat := if s.dmp.size < 81920 then 0x000B else if s.hostCanWrite then 0 else 0x0008

/-- DUMP_WRITE_COMPLETE (R640, R641, R649): the dump stands in the host's buffer, ARM is clear, and a REGROW that waits goes on. -/
def execDumpWriteComplete (s : State) : Out :=
  .next (
    if s.dmp.st ≠ 1 then s else
    let st := s.dumpStatus
    let n := if st = 0 then s.dmp.image.length else 0
    let s := if st = 0 then s.hostWrite s.dmp.base s.dmp.image else s
    let s := { s.setsBit 0x140010 with dmp := { s.dmp with st := 2, doneBit := true, status := st, arm := false, doneBytes := n, image := [] } }
    (s.postWith 0 s.primarySource 0x0A0A st (toLe 4 n ++ toLe 2 0) false).regrowPoll)

end Sys2Proof.Machine
end

