-- ==== Sys2Proof/Machine/Fetch.lean ====
section
/-!
DEFINITION. The fetch of a command descriptor: its form, its operands and the command that it spells (R455, R461, R464 to R468, R699).
-/
namespace Sys2Proof.Machine
open Sys2Proof

/-- The operands of an opcode as (offset, size), none for an opcode that R468 does not list. -/
def descFields (op : Nat) : Option (List (Nat × Nat)) :=
  match op with
  | 0x00 => some []
  | 0x01 => some [(8, 8), (16, 4)]
  | 0x02 => some []
  | 0x03 => some [(8, 1)]
  | 0x04 => some [(8, 1)]
  | 0x10 => some [(8, 4), (12, 4), (16, 8), (24, 8)]
  | 0x11 => some [(8, 4), (12, 4), (16, 8), (24, 8)]
  | 0x12 => some [(8, 4), (12, 2), (14, 1), (16, 2), (24, 8), (32, 8)]
  | 0x13 => some [(8, 4), (12, 2), (16, 4), (24, 8)]
  | 0x14 => some [(8, 4), (12, 2)]
  | 0x15 => some [(8, 4), (12, 2)]
  | 0x16 => some [(8, 2), (10, 1), (16, 8)]
  | 0x30 => some [(8, 1), (9, 1), (10, 2)]
  | 0x31 => some [(8, 1), (16, 8), (24, 8), (32, 8)]
  | 0x32 => some [(8, 1), (16, 8), (24, 8)]
  | 0x33 => some [(8, 1)]
  | 0x40 => some [(8, 8), (16, 8), (24, 8)]
  | 0x41 => some [(8, 2)]
  | 0x42 => some [(8, 4), (12, 2), (14, 1), (15, 1), (16, 8), (24, 4), (28, 2), (30, 2), (32, 8), (40, 8), (48, 8)]
  | 0x43 => some [(8, 4), (12, 2), (14, 1), (24, 4), (28, 2), (30, 2), (32, 8)]
  | 0x44 => some [(8, 4), (12, 2), (14, 2), (16, 8)]
  | 0x45 => some [(8, 4), (12, 2), (14, 2), (16, 8)]
  | 0x46 => some [(8, 4), (12, 2), (14, 1), (16, 8), (24, 4), (28, 4), (32, 4), (36, 4), (40, 8), (48, 8)]
  | 0x50 => some [(8, 1), (9, 1), (10, 1), (11, 1), (12, 1), (13, 1)]
  | 0x51 => some [(8, 1), (9, 1), (10, 1), (11, 1), (12, 1), (16, 8)]
  | 0x52 => some [(8, 8)]
  | 0x53 => some [(8, 4)]
  | 0x54 => some [(8, 8), (16, 8)]
  | 0x55 => some [(8, 1), (16, 8)]
  | 0x60 => some []
  | 0x61 => some [(8, 8), (16, 1), (17, 1), (18, 1), (20, 4), (24, 8), (32, 4), (36, 4), (40, 8)]
  | 0x70 => some [(8, 1), (16, 8)]
  | 0x71 => some [(8, 1)]
  | 0x72 => some [(8, 1), (9, 1)]
  | 0x80 => some [(16, 8), (24, 4)]
  | 0x81 => some [(8, 4)]
  | 0x82 => some [(8, 2), (16, 8)]
  | 0x90 => some [(8, 4), (12, 4), (16, 8)]
  | 0x91 => some [(8, 4), (12, 4), (16, 8)]
  | 0x92 => some [(8, 4), (12, 4), (16, 8)]
  | _ => none

/-- Is byte k one of the header's named bytes or of a named operand? -/
def descNames (fs : List (Nat × Nat)) (k : Nat) : Bool :=
  decide (k < 2) || (decide (4 ≤ k) && decide (k < 8)) || fs.any fun f => decide (f.1 ≤ k) && decide (k < f.1 + f.2)

/-- Checks 1 to 3 of R465: the status, 0 when all pass. -/
def descStatus (b : List Byte) : Nat :=
  match descFields (leAt b 0 1) with
  | none => 0x0001
  | some fs =>
    if leAt b 1 1 ≠ 1 then 0x0002
    else if (List.range 64).all fun k => descNames fs k || leAt b k 1 == 0 then 0 else 0x0003

/-- The command that a descriptor spells (R468); `v` are the values of its operands in the order of `descFields`. -/
def descInstr (h : Head) (op : Nat) (v : Nat → Nat) : Option Instr :=
  match op with
  | 0x00 => some (.nop h)
  | 0x01 => some (.jobOpen h (v 0) (v 1))
  | 0x02 => some (.jobClose h)
  | 0x03 => some (.jobEnd h (v 0))
  | 0x04 => some (.jobDiscard h (v 0))
  | 0x10 => some (.open_ h (v 0) (v 1) (v 2) (v 3))
  | 0x11 => some (.score h (v 0) (v 1) (v 2) (v 3))
  | 0x12 => some (.fork h (v 0) (v 1) (v 2) (v 3) (v 4) (v 5))
  | 0x13 => some (.append h (v 0) (v 1) (v 2) (v 3))
  | 0x14 => some (.resume h (v 0) (v 1))
  | 0x15 => some (.close h (v 0) (v 1))
  | 0x16 => some (.setLoad h (v 0) (v 1) (v 2))
  | 0x30 => some (.bedStage h (v 0) (v 1) (v 2))
  | 0x31 => some (.bedLoad h (v 0) (v 1) (v 2) (v 3))
  | 0x32 => some (.bedCommit h (v 0) (v 1) (v 2))
  | 0x33 => some (.bedDrop h (v 0))
  | 0x40 => some (.gibbsModelLoad h (v 0) (v 1) (v 2))
  | 0x41 => some (.gibbsModelDrop h (v 0))
  | 0x42 => some (.chainOpen h (v 0) (v 1) (v 2) (v 3) (v 4) (v 5) (v 6) (v 7) (v 8) (v 9) (v 10))
  | 0x43 => some (.chainSet h (v 0) (v 1) (v 2) (v 3) (v 4) (v 5) (v 6))
  | 0x44 => some (.chainWrite h (v 0) (v 1) (v 2) (v 3))
  | 0x45 => some (.chainRead h (v 0) (v 1) (v 2) (v 3))
  | 0x46 => some (.gibbsRun h (v 0) (v 1) (v 2) (v 3) (v 4) (v 5) (v 6) (v 7) (v 8) (v 9))
  | 0x50 => some (.mossRegion h (v 0) (v 1) (v 2) (v 3) (v 4) (v 5))
  | 0x51 => some (.mossLoad h (v 0) (v 1) (v 2) (v 3) (v 4) (v 5))
  | 0x52 => some (.mossRun h (v 0))
  | 0x53 => some (.mossStop h (v 0))
  | 0x54 => some (.mossResume h (v 0) (v 1))
  | 0x55 => some (.mossRead h (v 0) (v 1))
  | 0x60 => some (.cutNow h)
  | 0x61 => some (.regrow h (v 0) (v 1) (v 2) (v 3) (v 4) (v 5) (v 6) (v 7) (v 8))
  | 0x70 => some (.ctxRegister h (v 0) (v 1))
  | 0x71 => some (.ctxDestroy h (v 0))
  | 0x72 => some (.ctxRun h (v 0) (v 1))
  | 0x80 => some (.kernelLoad h (v 0) (v 1))
  | 0x81 => some (.kernelUnload h (v 0))
  | 0x82 => some (.stepBind h (v 0) (v 1))
  | 0x90 => some (.randStoch h (v 0) (v 1) (v 2))
  | 0x91 => some (.randDrbg h (v 0) (v 1) (v 2))
  | 0x92 => some (.randRaw h (v 0) (v 1) (v 2))
  | _ => none

/-- The values of a descriptor's operands. -/
def descValues (b : List Byte) : Nat → Nat :=
  let vs := ((descFields (leAt b 0 1)).getD []).map fun f => leAt b f.1 f.2
  fun i => vs.getD i 0

/-- The host command that a descriptor spells, as its own row has it. -/
def State.runHost (s : State) (i : Instr) : Out :=
  match i with
  | .nop h => execNop h s
  | .jobOpen h a b => execJobOpen h a b s
  | .jobClose h => execJobClose h s
  | .jobEnd h a => execJobEnd h a s
  | .jobDiscard h a => execJobDiscard h a s
  | .open_ h a b c d => execOpen h a b c d s
  | .score h a b c d => execScore h a b c d s
  | .fork h a b c d e f => execFork h a b c d e f s
  | .append h a b c d => execAppend h a b c d s
  | .resume h a b => execResume h a b s
  | .close h a b => execClose h a b s
  | .setLoad h a b c => execSetLoad h a b c s
  | .bedStage h a b c => execBedStage h a b c s
  | .bedLoad h a b c d => execBedLoad h a b c d s
  | .bedCommit h a b c => execBedCommit h a b c s
  | .bedDrop h a => execBedDrop h a s
  | .gibbsModelLoad h a b c => execGibbsModelLoad h a b c s
  | .gibbsModelDrop h a => execGibbsModelDrop h a s
  | .chainOpen h a b c d e f g i j k l => execChainOpen h a b c d e f g i j k l s
  | .chainSet h a b c d e f g => execChainSet h a b c d e f g s
  | .chainWrite h a b c d => execChainWrite h a b c d s
  | .chainRead h a b c d => execChainRead h a b c d s
  | .gibbsRun h a b c d e f g i j k => execGibbsRun h a b c d e f g i j k s
  | .mossRegion h a b c d e f => execMossRegion h a b c d e f s
  | .mossLoad h a b c d e f => execMossLoad h a b c d e f s
  | .mossRun h a => execMossRun h a s
  | .mossStop h a => execMossStop h a s
  | .mossResume h a b => execMossResume h a b s
  | .mossRead h a b => execMossRead h a b s
  | .cutNow h => execCutNow h s
  | .regrow h a b c d e f g i j => execRegrow h a b c d e f g i j s
  | .ctxRegister h a b => execCtxRegister h a b s
  | .ctxDestroy h a => execCtxDestroy h a s
  | .ctxRun h a b => execCtxRun h a b s
  | .kernelLoad h a b => execKernelLoad h a b s
  | .kernelUnload h a => execKernelUnload h a s
  | .stepBind h a b => execStepBind h a b s
  | .randStoch h a b c => execRandStoch h a b c s
  | .randDrbg h a b c => execRandDrbg h a b c s
  | .randRaw h a b c => execRandRaw h a b c s
  | _ => .next s

/-- One fetched descriptor: CMD_CI advances, checks 1 to 3 of R465 are made, and the command runs as its row states. -/
def State.runDesc (s : State) (set : Nat) (b : List Byte) : Out :=
  let r := s.ring set
  let h : Head := ⟨set, r.cmdCi, BitVec.ofNat 32 (leAt b 4 4)⟩
  let op := leAt b 0 1
  let s := (s.setRing set { r with cmdCi := (r.cmdCi + 1) % 2 ^ 64 }).putWriteback set
  let st := descStatus b
  if st != 0 then .next ((s.setRing set ((s.ring set).reserve h 0)).done h op st 0)
  else match descInstr h op (descValues b) with
    | some i => s.runHost i
    | none => .next s

/-- CMD_FETCH (R455, R460, R461, R465, R699): the next observed entry of an ACTIVE command ring; a read that fails is a ring fault. -/
def execCmdFetch (set : Nat) (s : State) : Out :=
  let r := s.ring set
  if 16 ≤ set then .fault .noSuchUnit
  else if !r.takes || decide (r.cmdPi ≤ r.cmdCi) then .next s
  else match s.hostRead (entryAddr r.cmdBase r.szCmd r.cmdCi 64) 64 with
    | none => .next (s.ringFault set 5)
    | some b => s.runDesc set b

end Sys2Proof.Machine
end

