-- ==== Sys2Proof/Machine/IsaCtl.lean ====
section
/-!
DEFINITION. The CTL class (R141).
-/
namespace Sys2Proof.Machine
open Sys2Proof

/-- NOP (R141). -/
def execCtlNop (p : Nat) (f : CtlFields) (s : State) : Out :=
  noUnit (decide (p < 544)) (s.issueOp p (wordOf (.ctlNop p f)) (fun _ _ => opCtlNop f))

/-- ADD (R141). -/
def execAdd (p : Nat) (f : CtlFields) (s : State) : Out :=
  noUnit (decide (p < 544)) (s.issueOp p (wordOf (.add p f)) (fun _ _ => opCtlBin (· + ·) f))

/-- SUB (R141). -/
def execSub (p : Nat) (f : CtlFields) (s : State) : Out :=
  noUnit (decide (p < 544)) (s.issueOp p (wordOf (.sub p f)) (fun _ _ => opCtlBin (· - ·) f))

/-- AND (R141). -/
def execAnd (p : Nat) (f : CtlFields) (s : State) : Out :=
  noUnit (decide (p < 544)) (s.issueOp p (wordOf (.and_ p f)) (fun _ _ => opCtlBin (· &&& ·) f))

/-- OR (R141). -/
def execOr (p : Nat) (f : CtlFields) (s : State) : Out :=
  noUnit (decide (p < 544)) (s.issueOp p (wordOf (.or_ p f)) (fun _ _ => opCtlBin (· ||| ·) f))

/-- XOR (R141). -/
def execXor (p : Nat) (f : CtlFields) (s : State) : Out :=
  noUnit (decide (p < 544)) (s.issueOp p (wordOf (.xor_ p f)) (fun _ _ => opCtlBin (· ^^^ ·) f))

/-- SHL (R141). -/
def execShl (p : Nat) (f : CtlFields) (s : State) : Out :=
  noUnit (decide (p < 544)) (s.issueOp p (wordOf (.shl p f)) (fun _ _ => opCtlBin (fun x y => x <<< shiftCount y) f))

/-- SHR (R141). -/
def execShr (p : Nat) (f : CtlFields) (s : State) : Out :=
  noUnit (decide (p < 544)) (s.issueOp p (wordOf (.shr p f)) (fun _ _ => opCtlBin (fun x y => x >>> shiftCount y) f))

/-- SAR (R141). -/
def execSar (p : Nat) (f : CtlFields) (s : State) : Out :=
  noUnit (decide (p < 544)) (s.issueOp p (wordOf (.sar p f)) (fun _ _ => opCtlBin (fun x y => x.sshiftRight (shiftCount y)) f))

/-- MUL (R141). -/
def execMul (p : Nat) (f : CtlFields) (s : State) : Out :=
  noUnit (decide (p < 544)) (s.issueOp p (wordOf (.mul p f)) (fun _ _ => opCtlBin (· * ·) f))

/-- ADDI (R141). -/
def execAddi (p : Nat) (f : CtlFields) (s : State) : Out :=
  noUnit (decide (p < 544)) (s.issueOp p (wordOf (.addi p f)) (fun _ _ => opAddi f))

/-- LI (R141). -/
def execLi (p : Nat) (f : CtlFields) (s : State) : Out :=
  noUnit (decide (p < 544)) (s.issueOp p (wordOf (.li p f)) (fun _ _ => opLi f))

/-- LIH (R141). -/
def execLih (p : Nat) (f : CtlFields) (s : State) : Out :=
  noUnit (decide (p < 544)) (s.issueOp p (wordOf (.lih p f)) (fun _ _ => opLih f))

/-- LDS (R141, R149). -/
def execLds (p : Nat) (f : CtlFields) (s : State) : Out :=
  noUnit (decide (p < 544)) (s.issueOp p (wordOf (.lds p f)) (fun c _ => opLds c f))

/-- STS (R141, R149). -/
def execSts (p : Nat) (f : CtlFields) (s : State) : Out :=
  noUnit (decide (p < 544)) (s.issueOp p (wordOf (.sts p f)) (fun c _ => opSts c f))

/-- BR (R141, R145). -/
def execBr (p : Nat) (f : CtlFields) (s : State) : Out :=
  noUnit (decide (p < 544)) (s.issueOp p (wordOf (.br p f)) (fun c k => opBr c k f))

/-- GETID (R15, R141). -/
def execGetid (p : Nat) (f : CtlFields) (s : State) : Out :=
  noUnit (decide (p < 544)) (s.issueOp p (wordOf (.getid p f)) (fun _ _ => opGetid f))

/-- END (R141, R156). -/
def execEnd (p : Nat) (f : CtlFields) (s : State) : Out :=
  noUnit (decide (p < 544)) (s.issueOp p (wordOf (.end_ p f)) (fun _ _ => opEnd f))

end Sys2Proof.Machine
end

