-- ==== Sys2Proof/Machine/IsaMx.lean ====
section
/-!
DEFINITION. The MX class (R125 to R132).
-/
namespace Sys2Proof.Machine
open Sys2Proof

/-- MMA (R126 to R128). -/
def execMma (p : Nat) (f : MmaFields) (s : State) : Out :=
  noUnit (decide (p < 544)) (s.issueOp p (wordOf (.mma p f)) (fun c k => opMma c k f))

/-- ZERO (R129). -/
def execZero (p : Nat) (f : ZeroFields) (s : State) : Out :=
  noUnit (decide (p < 544)) (s.issueOp p (wordOf (.zero p f)) (fun c k => opZero c k f))

/-- TLD (R129). -/
def execTld (p : Nat) (f : TldFields) (s : State) : Out :=
  noUnit (decide (p < 544)) (s.issueOp p (wordOf (.tld p f)) (fun c k => opTld c k f))

/-- OUT (R130, R131). -/
def execOut (p : Nat) (f : OutFields) (s : State) : Out :=
  noUnit (decide (p < 544)) (s.issueOp p (wordOf (.out p f)) (fun c k => opOut c k f))

end Sys2Proof.Machine
end

