-- ==== Sys2Proof/Machine/IsaSu.lean ====
section
/-!
DEFINITION. The SU class (R135, R136).
-/
namespace Sys2Proof.Machine
open Sys2Proof

/-- SUNIF (R135, R218). -/
def execSunif (p : Nat) (f : SuFields) (s : State) : Out :=
  noUnit (decide (p < 544)) (s.issueOp p (wordOf (.sunif p f)) (fun _ _ => opSunif f))

/-- SBERNF (R135, R220). -/
def execSbernf (p : Nat) (f : SuFields) (s : State) : Out :=
  noUnit (decide (p < 544)) (s.issueOp p (wordOf (.sbernf p f)) (fun _ _ => opSbernf f))

/-- SBERNP (R135, R220). -/
def execSbernp (p : Nat) (f : SuFields) (s : State) : Out :=
  noUnit (decide (p < 544)) (s.issueOp p (wordOf (.sbernp p f)) (fun _ _ => opSbernp f))

/-- SBERNQ (R135, R219). -/
def execSbernq (p : Nat) (f : SuFields) (s : State) : Out :=
  noUnit (decide (p < 544)) (s.issueOp p (wordOf (.sbernq p f)) (fun _ _ => opSbernq f))

/-- SGUMB (R135, R221). -/
def execSgumb (p : Nat) (f : SuFields) (s : State) : Out :=
  noUnit (decide (p < 544)) (s.issueOp p (wordOf (.sgumb p f)) (fun _ _ => opSgumb f))

/-- SCAT (R135, R221). -/
def execScat (p : Nat) (f : SuFields) (s : State) : Out :=
  noUnit (decide (p < 544)) (s.issueOp p (wordOf (.scat p f)) (fun c _ => opScat c f))

end Sys2Proof.Machine
end

