-- ==== Sys2Proof/Machine/IsaSync.lean ====
section
/-!
DEFINITION. WAIT, BAR and XFENCE, and the release of a barrier (R139, R140).
-/
namespace Sys2Proof.Machine
open Sys2Proof

/-- A SYNC instruction: its checks, and what stops issue after it. It takes no place in a queue, since it completes as
soon as issue may resume. -/
def State.issueSync (s : State) (p : Nat) (w : W64) (checks : Core → List FaultCheck) (stall : Core → Stall) : State :=
  let c := s.core p
  match s.imageOf p with
  | none => s
  | some k =>
    if !c.canIssue then s else
    match k.code[c.pc]? with
    | none => s.coreFault p k 0x0F 0 5
    | some w0 =>
      if w0 ≠ w then s else
      match (IsaOp.mk 5 (checks c) [] 0 0 (fun _ c => c)).fault with
      | some cause => s.coreFault p k cause 0 5
      | none => s.setCore p { c with pc := c.pc + 1, issued := (c.issued + 1) % 2 ^ 64, stall := stall c }

/-- WAIT (R139): issue stops while an earlier instruction of a named queue has not completed. -/
def execWait (p : Nat) (f : WaitFields) (s : State) : Out :=
  noUnit (decide (p < 544)) (
    s.issueSync p (wordOf (.wait p f)) (fun _ => [⟨f.rest != 0#47, 0x03⟩])
      (fun c => if c.drained f.mask.toNat then .none else .wait f.mask.toNat))

/-- XFENCE (R139). -/
def execXfence (p : Nat) (rest : BitVec 52) (s : State) : Out :=
  noUnit (decide (p < 544)) (
    s.issueSync p (wordOf (.xfence p rest)) (fun _ => [⟨rest != 0#52, 0x03⟩]) (fun c => if c.fenced then .none else .xfence))

/-! ## Barriers -/

/-- Are two logical cores in one scope: 0 row, 1 half, 2 device (R15, R139)? -/
def sameScope (scope a b : Nat) : Bool :=
  if scope = 0 then a / 16 == b / 16 else if scope = 1 then a / 256 == b / 256 else true

/-- Physical cores that hold a logical id in core p's scope; in split mode only those of its half. -/
def State.scopePhys (s : State) (p scope l : Nat) : List Nat :=
  (s.cores.filter fun kv => kv.2.logical != 0xFFFF && sameScope scope kv.2.logical l &&
    (!s.split || coreHalf kv.1 == coreHalf p)).map (·.1)

/-- Does a core of core p's scope wait at a BAR of that scope with another ID (R140)? -/
def State.barClash (s : State) (p scope id l : Nat) : Bool :=
  (s.scopePhys p scope l).any fun q => match (s.core q).stall with
    | .bar i sc _ => sc == scope && i != id
    | _ => false

/-- BAR (R139, R140): the core waits; the nc count of its half at the arrival is kept for the release. -/
def execBar (p : Nat) (f : BarFields) (s : State) : Out :=
  noUnit (decide (p < 544)) (
    s.issueSync p (wordOf (.bar p f))
      (fun c => [⟨f.rest != 0#38 || f.scope == 3#2, 0x03⟩, ⟨s.barClash p f.scope.toNat f.id.toNat c.logical, 0x13⟩])
      (fun _ => .bar f.id.toNat f.scope.toNat (s.half (coreHalf p)).nc))

/-- The nc from the last arrival to the release (R140). -/
def barDelay (scope : Nat) : Nat := if scope = 0 then 4 else if scope = 1 then 12 else 20

/-- Logical cores of a scope (R15); a device scope in split mode holds the cores of the half. -/
def State.scopeSize (s : State) (scope : Nat) : Nat :=
  if scope = 0 then 16 else if scope = 1 then 256 else if s.split then 256 else 512

/-- Does a core wait at the barrier, and has its delay passed? -/
def State.arrived (s : State) (p : Nat) (c : Core) (id scope : Nat) : Bool :=
  match c.stall with
  | .bar i sc t => i == id && sc == scope && decide (t + barDelay scope ≤ (s.half (coreHalf p)).nc)
  | _ => false

/-- The barrier at which core p waits is released once every logical core of the scope has reached it (R140). -/
def State.releaseBar (s : State) (p : Nat) : State :=
  let c := s.core p
  match c.stall with
  | .bar id scope _ =>
    let ps := s.scopePhys p scope c.logical
    if ps.length = s.scopeSize scope ∧ (ps.all fun q => s.arrived q (s.core q) id scope) = true then
      ps.foldl (fun (s : State) q => s.setCore q { s.core q with stall := .none }) s
    else s
  | _ => s

/-- BAR_RELEASE (R140); an uncorrectable error in the runners is device-fatal (R628). -/
def execBarRelease (p : Nat) (e : Ecc) (s : State) : Out :=
  noUnit (decide (p < 544)) (
    match e with
    | .clean => s.releaseBar p
    | .corrected _ => s.releaseBar p
    | .uncorrectable _ => s.controlUe (coreHalf p)
    | .control => s.controlUe (coreHalf p))

end Sys2Proof.Machine
end

