-- ==== Sys2Proof/Machine/IsaVe.lean ====
section
/-!
DEFINITION. The VE class (R133, R134).
-/
namespace Sys2Proof.Machine
open Sys2Proof

/-- VADD (R133). -/
def execVadd (p : Nat) (f : VeFields) (s : State) : Out :=
  noUnit (decide (p < 544)) (s.issueOp p (wordOf (.vadd p f)) (fun _ _ => opVeArith f32Add (· + ·) f))

/-- VSUB (R133). -/
def execVsub (p : Nat) (f : VeFields) (s : State) : Out :=
  noUnit (decide (p < 544)) (s.issueOp p (wordOf (.vsub p f)) (fun _ _ => opVeArith f32Sub (· - ·) f))

/-- VMUL (R133). -/
def execVmul (p : Nat) (f : VeFields) (s : State) : Out :=
  noUnit (decide (p < 544)) (s.issueOp p (wordOf (.vmul p f)) (fun _ _ => opVeArith f32Mul (· * ·) f))

/-- VFMA (R133). -/
def execVfma (p : Nat) (f : VeFields) (s : State) : Out :=
  noUnit (decide (p < 544)) (s.issueOp p (wordOf (.vfma p f)) (fun _ _ => opVfma f))

/-- VMAX (R133). -/
def execVmax (p : Nat) (f : VeFields) (s : State) : Out :=
  noUnit (decide (p < 544)) (s.issueOp p (wordOf (.vmax p f)) (fun _ _ => opVeExt true f))

/-- VMIN (R133). -/
def execVmin (p : Nat) (f : VeFields) (s : State) : Out :=
  noUnit (decide (p < 544)) (s.issueOp p (wordOf (.vmin p f)) (fun _ _ => opVeExt false f))

/-- VADDS (R133). -/
def execVadds (p : Nat) (f : VeFields) (s : State) : Out :=
  noUnit (decide (p < 544)) (s.issueOp p (wordOf (.vadds p f)) (fun _ _ => opVeScalar f32Add f))

/-- VMULS (R133). -/
def execVmuls (p : Nat) (f : VeFields) (s : State) : Out :=
  noUnit (decide (p < 544)) (s.issueOp p (wordOf (.vmuls p f)) (fun _ _ => opVeScalar f32Mul f))

/-- VLD (R133). -/
def execVld (p : Nat) (f : VeFields) (s : State) : Out :=
  noUnit (decide (p < 544)) (s.issueOp p (wordOf (.vld p f)) (fun c _ => opVld c f))

/-- VST (R133). -/
def execVst (p : Nat) (f : VeFields) (s : State) : Out :=
  noUnit (decide (p < 544)) (s.issueOp p (wordOf (.vst p f)) (fun c _ => opVst c f))

/-- VCVT (R133, R134). -/
def execVcvt (p : Nat) (f : VeFields) (s : State) : Out :=
  noUnit (decide (p < 544)) (s.issueOp p (wordOf (.vcvt p f)) (fun _ _ => opVcvt f))

/-- VACT (R133). -/
def execVact (p : Nat) (f : VeFields) (s : State) : Out :=
  noUnit (decide (p < 544)) (s.issueOp p (wordOf (.vact p f)) (fun _ _ => opVact f))

/-- VLOG (R133). -/
def execVlog (p : Nat) (f : VeFields) (s : State) : Out :=
  noUnit (decide (p < 544)) (s.issueOp p (wordOf (.vlog p f)) (fun _ _ => opVlog f))

/-- VRSUM (R133). -/
def execVrsum (p : Nat) (f : VeFields) (s : State) : Out :=
  noUnit (decide (p < 544)) (s.issueOp p (wordOf (.vrsum p f)) (fun c _ => opVrsum c f))

/-- VRMAXI (R133). -/
def execVrmaxi (p : Nat) (f : VeFields) (s : State) : Out :=
  noUnit (decide (p < 544)) (s.issueOp p (wordOf (.vrmaxi p f)) (fun c _ => opVrmaxi c f))

/-- VSORT (R133, R134). -/
def execVsort (p : Nat) (f : VeFields) (s : State) : Out :=
  noUnit (decide (p < 544)) (s.issueOp p (wordOf (.vsort p f)) (fun _ _ => opVsort f))

/-- VMERGE (R133, R134). -/
def execVmerge (p : Nat) (f : VeFields) (s : State) : Out :=
  noUnit (decide (p < 544)) (s.issueOp p (wordOf (.vmerge p f)) (fun _ _ => opVmerge f))

/-- VTACC (R133, R134). -/
def execVtacc (p : Nat) (f : VeFields) (s : State) : Out :=
  noUnit (decide (p < 544)) (s.issueOp p (wordOf (.vtacc p f)) (fun c k => opVtacc c k f))

end Sys2Proof.Machine
end

