-- ==== Sys2Proof/Machine/Links.lean ====
section
/-!
DEFINITION. The Rhizome links' happenings: flits received, retry, credits, training, keys, recovery and PORT_EN (R495 to R506, R511 to
R521, R685).
-/
namespace Sys2Proof.Machine
open Sys2Proof

/-! ## Reception (R492 to R495) -/

/-- Entries of a replay buffer that an acknowledgement has not passed. -/
def stillHeld (modulus limit ack : Nat) (held : List (Nat × List Byte)) : List (Nat × List Byte) :=
  held.filter fun e => !(let d := (ack + modulus - e.1) % modulus; decide (1 ≤ d) && decide (d ≤ limit))

/-- ACK_N and ACK_U of a valid flit free the replay buffers (R494). -/
def Port.acked (x : Port) (h : FlitHead) : Port :=
  { x with heldN := stillHeld 4096 1024 h.ackN x.heldN, heldU := stillHeld 256 64 (h.ackU % 256) x.heldU }

/-- A NAK names the next expected SEQ of both spaces; no second one until a flit is accepted or 400 nc pass (R495). -/
def Port.nak (x : Port) : Port :=
  if x.nakSent then x else { (x.emit 3 (toLe 2 x.expectN ++ toLe 1 x.expectU)) with nakSent := true }

/-- Can the port receive flits at all? -/
def Port.listens (x : Port) : Bool := decide (1 ≤ x.st) && decide (x.st ≤ 4)

/-- A flit of one of the types `ts` arrives at port p. One that fails its CRC, or that is out of order, is discarded with a NAK
(R495); an accepted one acknowledges, and `k` gives its effect. A flit of another type, which this row does not carry, only
acknowledges. -/
def State.receive (s : State) (p : Nat) (m : List Byte) (ts : List Nat) (k : State → FlitHead → State) : State :=
  let x := s.port p
  if !x.listens || s.sec.scrub.isSome then s
  else if !flitOk m then s.setPort p { x with crcErr := x.crcErr + 1 }.nak
  else
    let h := flitHead m
    let x := x.acked h
    if !ts.contains h.type then (s.setPort p x).drainPort p
    else if h.type = 3 ∨ h.type = 4 then k (s.setPort p x) h
    else
      let want := if h.urgent then x.expectU else x.expectN
      if h.seq != want then (s.setPort p x.nak).drainPort p
      else
        let x := { x with nakSent := false
                          expectU := if h.urgent then (x.expectU + 1) % 256 else x.expectU
                          expectN := if h.urgent then x.expectN else (x.expectN + 1) % 4096 }
        (k (s.setPort p x) h).drainPort p

/-- One credit of a channel goes back (R500). -/
def State.returnCredit (s : State) (p vc : Nat) : State :=
  s.queueFlit p 4 0 0 (((List.range 4).map fun i => toLe 2 (b2n (i == vc))).flatten)

/-- MESSAGE_FORWARD (R505, R506): a DATA flit for this rank is delivered (what it carries comes with the row of its kind); one for another
rank goes out on the port that the route entry names. -/
def execMessageForward (port : Nat) (msg : List Byte) (s : State) : Out :=
  noUnit (decide (port < 16)) (
    s.receive port msg [1] fun s h =>
      let x := s.port port
      let s := s.setPort port { x with rxFlits := (x.rxFlits + 1) % 2 ^ 64 }
      let c := s.portCtx port
      match s.job c with
      | none => s
      | some j =>
        let s := s.returnCredit port h.vc
        if h.dest = j.params.rank then s
        else match s.route c h.dest with
          | some q => s.queueFlit q h.vc h.fl h.dest (flitPayload msg)
          | none => s.missRoute c h.dest port h.vc)

/-- CREDIT_RECEIVE (R500). -/
def execCreditReceive (port : Nat) (msg : List Byte) (s : State) : Out :=
  noUnit (decide (port < 16)) (
    s.receive port msg [2] fun s _ =>
      let x := s.port port
      s.setPort port { x with credits := (List.range 4).map fun i => x.credits.getD i 0 + leAt (flitPayload msg) (2 * i) 2 })

/-! ## Retry (R495 to R497) -/

/-- RECOVERY (R497): the replay buffers, sequence numbers and credits stay. -/
def State.enterRecovery (s : State) (p : Nat) : State :=
  let x := s.port p
  if x.st = 4 then
    s.setPort p { x with st := 5, recoveries := x.recoveries + 1, since := (s.half (p / 8)).nc, nakN := (0, 0), nakU := (0, 0) }
  else s

/-- The run of NAKs that name one SEQ. -/
def nakRun (r : Nat × Nat) (seq : Nat) : Nat × Nat := if r.2 != 0 && r.1 == seq then (seq, r.2 + 1) else (seq, 1)

/-- The held flits from a SEQ onwards. -/
def fromSeq (seq : Nat) : List (Nat × List Byte) → List (Nat × List Byte)
  | [] => []
  | e :: es => if e.1 = seq then e :: es else fromSeq seq es

/-- The flits that a NAK has the sender resend, urgent ones first (R496, R501). -/
def Port.replay (x : Port) (n u : Nat) : Port :=
  let us := if u = x.nextU then [] else fromSeq u x.heldU
  let ns := if n = x.nextN then [] else fromSeq n x.heldN
  { x with line := x.line ++ (us ++ ns).map (·.2), replays := x.replays + us.length + ns.length }

/-- NAK_RECEIVE (R496, R497): held flits are resent; the eighth NAK in a row for one SEQ is a RECOVERY. -/
def execNakReceive (port : Nat) (msg : List Byte) (s : State) : Out :=
  noUnit (decide (port < 16)) (
    s.receive port msg [3] fun s _ =>
      let b := flitPayload msg
      let n := leAt b 0 2 % 4096
      let u := leAt b 2 1
      let x := (s.port port).replay n u
      let x := { x with nakN := nakRun x.nakN n, nakU := nakRun x.nakU u }
      let s := s.setPort port x
      if 8 ≤ x.nakN.2 ∨ 8 ≤ x.nakU.2 then s.enterRecovery port else s.drainPort port)

/-- NAK_TIMEOUT (R495): 400 nc without progress; a further NAK may be sent. -/
def execNakTimeout (port : Nat) (s : State) : Out :=
  noUnit (decide (port < 16)) (s.setPort port { (s.port port) with nakSent := false })

/-- LINK_LOCK_LOSS (R497, R519): an ACTIVE port enters RECOVERY; a port in no job trains again. -/
def State.loseLock (s : State) (p : Nat) : State :=
  let x := s.port p
  if x.st = 2 then s.startTraining p else s.enterRecovery p

/-- LINK_LOCK_LOSS (R497, R519). -/
def execLinkLockLoss (port : Nat) (s : State) : Out := noUnit (decide (port < 16)) (s.loseLock port)

/-- LREFCLK_LOSS (R685): every port loses lock; the rest of the device goes on. -/
def execLrefclkLoss (s : State) : Out :=
  .next ((List.range 16).foldl (fun (s : State) p => s.loseLock p) { s with pins := { s.pins with lrefclk := false } })

/-- LINK_RECOVERED (R497): the port resumes and resends what it holds. -/
def execLinkRecovered (port : Nat) (s : State) : Out :=
  noUnit (decide (port < 16)) (
    let x := s.port port
    if x.st != 5 || !s.pins.lrefclk then s else
    let nc := (s.half (port / 8)).nc - x.since
    let c := s.portCtx port
    let x := ({ x with st := 4 } : Port)
    let n := (x.heldN.head?.map (·.1)).getD x.nextN
    let u := (x.heldU.head?.map (·.1)).getD x.nextU
    let s := s.setPort port (x.replay n u)
    (s.postWith c (0x400 + port) 0x0B02 0 (toLe 1 port ++ toLe 3 0 ++ toLe 4 nc) (s.replaying c)).drainPort port)

/-- RECOVERY_TIMEOUT (R497, R521): 1 ms without lock. -/
def execRecoveryTimeout (port : Nat) (s : State) : Out :=
  noUnit (decide (port < 16)) (if (s.port port).st = 5 then s.failPort port 1 else s)

/-! ## Training (R514, R516, R517, R519) -/

/-- TRAIN_RECEIVE (R514, R516): the peer's payload. A training port that shares no version with its peer fails; a port that is UP joins
the job whose tag matches. -/
def execTrainReceive (port : Nat) (msg : List Byte) (s : State) : Out :=
  noUnit (decide (port < 16)) (
    s.receive port msg [4] fun s _ =>
      let b := flitPayload msg
      let both := leAt b 0 1 &&& s.versions
      let v := if bit both 1 then 2 else if bit both 0 then 1 else 0
      let x := s.port port
      let y := { x with
        peerPort := leAt b 1 1 % 16, peerSerial := leAt b 4 8, peerNonce := bytesAt b 12 32, peerTag := leAt b 44 8
        peerRank := leAt b 52 2 % 4096, peerDigest := bytesAt b 56 48, version := if x.st = 1 then v else x.version }
      let s := s.setPort port y
      if x.st = 1 ∧ v = 0 then s.failPort port 2 else s.tryJoin port)

/-- LINK_TRAINING_DONE (R519): the attempt succeeds once TRAIN payloads have been exchanged. -/
def execLinkTrainingDone (port : Nat) (s : State) : Out :=
  noUnit (decide (port < 16)) (
    let x := s.port port
    if x.st != 1 || x.version == 0 || x.nonce.isEmpty || !s.pins.lrefclk || !s.isOn (17 + port / 8) then s else
    let s := s.setPort port { x with st := 2 }
    let s := s.postWith 0 (0x400 + port) 0x0B01 0
      (toLe 1 port ++ toLe 1 x.version ++ toLe 1 x.peerPort ++ toLe 5 0 ++ toLe 8 x.peerSerial) false
    s.tryJoin port)

/-- TRAINING_ATTEMPT_TIMEOUT (R519): the attempt of 500 ms failed; 100 ms later the next begins. -/
def execTrainingAttemptTimeout (port : Nat) (s : State) : Out :=
  noUnit (decide (port < 16)) (if (s.port port).st = 1 then s.startTraining port else s)

/-! ## Keys (R511, R513, R515, R546) -/

/-- The chain that fragments spell, once they hold as many bytes as its first two bytes say. -/
def chainOf (frags : List (Nat × List Byte)) : Option (List Byte) :=
  let parts := (List.range 37).map fun i => (frags.find? fun f => f.1 == i).map (·.2)
  let bs := ((parts.takeWhile (·.isSome)).filterMap id).flatten
  if 2 ≤ bs.length ∧ leAt bs 0 2 ≤ bs.length ∧ 2 ≤ leAt bs 0 2 then some (bs.take (leAt bs 0 2)) else none

/-- The peer's chain is complete: R546 decides it, and the link key is derived (R513). -/
def State.checkChain (s : State) (p : Nat) (chain : List Byte) : State :=
  let x := s.port p
  if sha384 chain != x.peerDigest || !Config.chainVerifies s.fuses.rootDigest chain x.peerSerial then s.authFail p 1
  else match ecdhX s.fuses.identity (Config.chainKey chain) with
    | none => s.authFail p 2
    | some z =>
      let k := hkdf32 z (nonceSalt x.nonce x.peerNonce) linkLabel
      (s.setPort p { x with chainOk := true, linkKey := some k }).activatePort p

/-- KEY_CHAIN_FRAGMENT (R511, R546). -/
def execKeyChainFragment (port : Nat) (msg : List Byte) (s : State) : Out :=
  noUnit (decide (port < 16)) (
    s.receive port msg [5] fun s _ =>
      let b := flitPayload msg
      let x := s.port port
      if x.st != 3 || x.chainOk || leAt b 0 1 != 1 then s else
      let fs := (x.frags.filter fun f => f.1 != leAt b 1 1) ++ [(leAt b 1 1, bytesAt b 4 (Nat.min 112 (leAt b 2 2)))]
      let s := s.setPort port { x with frags := fs }
      match chainOf fs with
      | some chain => s.checkChain port chain
      | none => s)

/-- KEY_JOB_SECRET (R511, R515): the first valid secret is kept, forwarded, and gives the traffic key. -/
def execKeyJobSecret (port : Nat) (msg : List Byte) (s : State) : Out :=
  noUnit (decide (port < 16)) (
    s.receive port msg [5] fun s _ =>
      let b := flitPayload msg
      let c := s.portCtx port
      match s.link c, (s.port port).linkKey with
      | some l, some k =>
        if leAt b 0 1 != 2 || l.secret.isSome then s
        else match gcmOpen k (bytesAt b 4 12) (b.take 4) (bytesAt b 16 48) (bytesAt b 64 16) with
          | some sec => s.gotSecret c port sec
          | none => s.authFail port 3
      | _, _ => s)

/-! ## PORT_EN (R519, R523, R602, R655) -/

/-- One port under a new PORT_EN: a disabled one goes DOWN, an enabled one that is DOWN or FAILED trains once its domain is ON. -/
def State.applyEnable (s : State) (p : Nat) : State :=
  let x := s.port p
  if bit s.rz.portEn p then
    if (x.st = 0 ∨ x.st = 6) ∧ s.isOn (17 + p / 8) = true then s.startTraining p else s
  else if x.st = 0 then s
  else if x.st = 4 ∨ x.st = 5 then (s.failPort p 3).setPort p { (Port.init) with line := x.line }
  else s.setPort p { Port.init with line := x.line }

/-- A domain follows the ports of its half (R602). -/
def State.portDomain (s : State) (h : Nat) : State :=
  if s.rz.portEn / 256 ^ h % 256 = 0 then s.domainOff (17 + h) else s.powerOn [17 + h]

/-- A write of RZL_CTRL. -/
def State.writeRzlCtrl (s : State) (v : W32) : State :=
  let s := { s with rz := { s.rz with portEn := bits v.toNat 15 0, maxVersion := bits v.toNat 17 16 } }
  let s := (List.range 16).foldl (fun (s : State) p => s.applyEnable p) s
  (s.portDomain 0).portDomain 1

/-- A write of an RWL register: discarded with GLB_LOCK.DENIED under SETUP_LOCK (R655). -/
def State.unlocked (s : State) (k : State → State) : State :=
  if s.glb.lock then (let s := s.setsBit 0x28; { s with glb := { s.glb with denied := true } }) else k s

/-- PORT_EN_WRITE (R519, R602). -/
def execPortEnWrite (v : W32) (s : State) : Out :=
  .next (s.barWrite32 0x110004 v fun s => s.unlocked fun s => s.writeRzlCtrl v)

end Sys2Proof.Machine
end

