-- ==== Sys2Proof/Machine/MossRun.lean ====
section
/-!
DEFINITION. The Moss by itself: half-sweeps, writes that end, and the messages of extended runs (R347 to R364, R369, R386 to R395).
-/
namespace Sys2Proof.Machine
open Sys2Proof

/-- Does a half-sweep of the run end now? Its job runs, no alignment or scrub holds it, and a part of an extended run has started it. -/
def State.canSweep (s : State) (r : MRun) : Bool :=
  r.stage == 0 && s.boot.aligned && s.sec.scrub.isNone && s.rst.busy.isNone &&
    (match s.job r.ctx with | some j => j.st == .running | none => false) &&
    (match r.ext with | some x => x.ready && x.started | none => true)

/-- MOSS_HALF_SWEEP (R347, R355, R369): an uncorrectable error names a tile of the run in bits 26 to 20 of its address. -/
def execMossHalfSweep (ctx run : Nat) (e : Ecc) (s : State) : Out :=
  onCtx ctx (match s.mossRun ctx run with
    | some r =>
      if !s.canSweep r then s else
      let tile := fun a => bits a 26 20
      let mine := (r.regions.map fun n => (s.region n).tiles).flatten
      match e with
      | .clean | .corrected _ => s.halfSweepOf r
      | .uncorrectable a => if mine.contains (tile a) then s.mossUe ctx (tile a) (a % 2 ^ 20) else s
      | .control => s.controlUe (mine.headD 0 / 64)
    | none => s)

/-- ANNEAL_CUT_WRITE_DONE (R359, R361, R362): the trailer is written last. -/
def execAnnealCutWriteDone (ctx run : Nat) (s : State) : Out :=
  onCtx ctx (match s.moss.runs.find? fun r => r.ctx == ctx && r.run == run && r.cut.isSome with
    | some r =>
      match r.cut with
      | some (slot, sweep, dpa, trailer) =>
        let s := s.lpxWrite dpa 5 trailer
        let r' := { r with cut := none, lastCut := some (slot, sweep) }
        if r.stage ≤ 6 then State.mossAdvance mossFuel (s.putRun r') ctx run
        else
          let s := { s with moss := { s.moss with runs := s.moss.runs.erase r } }
          if r.stage = 7 then s.endStop r' else s.afterRun ctx
      | none => s
    | none => s)

/-- RESULT_VECTOR_WRITE_DONE (R383): the section at RES_AREA is up to date; a sample point that waits goes on. -/
def execResultVectorWriteDone (ctx run : Nat) (s : State) : Out :=
  onCtx ctx (match s.mossRun ctx run with
    | some r =>
      if r.resBusy then
        let r := { r with resBusy := false }
        State.mossAdvance mossFuel ((s.putRun r).putSection r) ctx run
      else s
    | none => s)

/-- MOSS_SETUP (R388): a part's set-up reaches the lead part, perhaps before its own run starts. -/
def execMossSetup (ctx : Nat) (m : MossSetupMsg) (s : State) : Out :=
  onCtx ctx (match s.mossExt ctx m.extId with
    | some r =>
      if r.ext.any fun x => x.isLead && !x.ready then
        let r := r.onExt fun x => x.gotSetup m
        State.mossAdvance mossFuel ((s.putRun r).leadStart r) ctx r.run
      else s
    | none =>
      match s.job ctx with
      | some j => if j.st = .running then { s with moss := { s.moss with early := s.moss.early ++ [(ctx, m)] } } else s
      | none => s)

/-- A face stored by where it comes from (R391, R393). -/
def MExt.gotFace (x : MExt) (m : MossFaceMsg) : MExt :=
  if x.hasPrev ∧ m.part + 1 = x.part then (if m.snapshot then { x with snapPrev := some m } else { x with facePrev := some m })
  else if x.hasNext ∧ m.part = x.part + 1 then (if m.snapshot then { x with snapNext := some m } else { x with faceNext := some m })
  else x

/-- MOSS_FACE (R391, R393). -/
def execMossFace (ctx : Nat) (m : MossFaceMsg) (s : State) : Out :=
  onCtx ctx (match s.mossExt ctx m.extId with
    | some r => State.mossAdvance mossFuel (s.putRun (r.onExt fun x => x.gotFace m)) ctx r.run
    | none => s)

/-- MOSS_EXT_HALF_SWEEP_START (R391, R399): the part starts the next half-sweep on the latest spins received. -/
def execMossExtHalfSweepStart (ctx run : Nat) (s : State) : Out :=
  onCtx ctx (match s.mossRun ctx run with
    | some r =>
      match r.ext with
      | some x =>
        if r.stage = 0 ∧ x.ready = true ∧ x.started = false ∧ x.mayStart r.half = true then
          let of := fun has f => if has then x.staleness r.half f else 0
          let m := Nat.max x.maxStale (Nat.max (of x.hasPrev x.facePrev) (of x.hasNext x.faceNext))
          (s.putRun (r.onExt fun x => { x with started := true, maxStale := m })).onRegions r.regions
            fun g => { g with view := { g.view with maxStale := m } }
        else s
      | none => s
    | none => s)

/-- MOSS_PARTIALS (R393, R394): one part's partials reach the lead part. -/
def execMossPartials (ctx : Nat) (m : MossPartialsMsg) (s : State) : Out :=
  onCtx ctx (match s.mossExt ctx m.extId with
    | some r =>
      if r.ext.any fun x => x.isLead && decide (m.part < x.parts) then
        let r := r.onExt fun x => { x with partials := (x.partials.filter fun y => !(y.part == m.part && y.sweep == m.sweep)) ++ [m] }
        State.mossAdvance mossFuel ((s.putRun r).leadDecide r) ctx r.run
      else s
    | none => s)

/-- A decision of the lead part on another part (R388, R394, R395). -/
def State.gotDecision (s : State) (r : MRun) (x : MExt) : MossDecisionMsg → State
  | .start _ => s.putRun (r.onExt fun x => { x with ready := true })
  | .mismatch _ => if x.ready then s else s.failRun r 0x0605
  | .sample _ t cands same => if x.snap.any fun p => p.1 == t then s.applyDecision r cands same else s
  | .swaps _ n rungs =>
    if r.stage = 2 ∧ n = r.exchanges then
      s.applySwaps r rungs (((rungs.zip r.rungs).filter fun p => p.1 != p.2).length / 2)
    else s
  | .cut _ t => s.putRun (r.onExt fun x => { x with cutAt := some t })
  | .stop _ t => s.putRun (r.onExt fun x => { x with stopAt := some t })

/-- MOSS_DECISION (R388, R394, R395). -/
def execMossDecision (ctx : Nat) (m : MossDecisionMsg) (s : State) : Out :=
  let id := match m with
    | .start i | .mismatch i | .sample i _ _ _ | .swaps i _ _ | .cut i _ | .stop i _ => i
  onCtx ctx (match s.mossExt ctx id with
    | some r =>
      match r.ext with
      | some x => if x.isLead then s else State.mossAdvance mossFuel (s.gotDecision r x m) ctx r.run
      | none => s
    | none => s)

end Sys2Proof.Machine
end

