-- ==== Sys2Proof/Machine/Rings.lean ====
section
/-!
DEFINITION. Doorbells, the enabling and disabling of ring sets, host-access faults, event release and interrupts (R455 to R463,
R479 to R487, R676, R699).
-/
namespace Sys2Proof.Machine
open Sys2Proof

/-! ## Doorbells -/

/-- DOORBELL_SNOOP (R457): the host writes the doorbell line; where the device holds it in Shared state the snoop
invalidates it and a read of the line goes out. -/
def execDoorbellSnoop (set : Nat) (cmdPi tokCi cplCi evtCi : W32) (s : State) : Out :=
  noUnit (decide (set < 16)) (
    let r := s.ring set
    let bs := toLe 4 cmdPi.toNat ++ toLe 4 tokCi.toNat ++ toLe 4 cplCi.toNat ++ toLe 4 evtCi.toNat
    let s := { s with host := { s.host with mem := Memory.writeBytes s.host.mem (r.dbAddr % 2 ^ 64) bs } }
    if r.line && r.st == 1 then s.setRing set { r with line := false, await := true } else s)

/-- DOORBELL_OBSERVE (R457): the line's data arrives; a read that fails observes nothing. -/
def execDoorbellObserve (set : Nat) (s : State) : Out :=
  noUnit (decide (set < 16)) (
    let r := s.ring set
    if !r.await then s else
    match s.hostRead r.dbAddr 64 with
    | none => s.setRing set { r with await := false }
    | some _ =>
      let s := s.setRing set { r with await := false, line := true }
      if r.st = 1 then s.observeAll set (s.lineValues set) else s)

/-- A BAR2 write (R458, R676): ignored in CXL mode at minor 2 or 3 unless the ring set is DISABLED, else stored, and
observed in ACTIVE. -/
def State.bar2Write (s : State) (set i : Nat) (v : W32) (k : State → State) : State :=
  let r := s.ring set
  if r.st ≠ 0 ∧ s.usesLine set = true then s else
  let s := s.setRing set { r with bar2 := r.bar2.set i v }
  if r.st = 1 then k s else s

/-- DB_CMD_PI (R458, R461, R674). -/
def execDbCmdPi (set : Nat) (v : W32) (s : State) : Out :=
  noUnit (decide (set < 16)) (s.bar2Write set 0 v fun s => s.observeCmd set v.toNat)

/-- DB_TOK_CI (R458, R461, R674). -/
def execDbTokCi (set : Nat) (v : W32) (s : State) : Out :=
  noUnit (decide (set < 16)) (s.bar2Write set 1 v fun s => s.observeCi set 1 v.toNat)

/-- DB_CPL_CI (R458, R461, R674). -/
def execDbCplCi (set : Nat) (v : W32) (s : State) : Out :=
  noUnit (decide (set < 16)) (s.bar2Write set 2 v fun s => s.observeCi set 2 v.toNat)

/-- DB_EVT_CI (R458, R461, R674). -/
def execDbEvtCi (set : Nat) (v : W32) (s : State) : Out :=
  noUnit (decide (set < 16)) (s.bar2Write set 3 v fun s => (s.observeCi set 3 v.toNat).postLost set)

/-- HOST_ACCESS_TIMEOUT (R699): a read of a descriptor exceeds its timeout, or a write waits beyond 10 ms; a ring fault of
the ring set. -/
def execHostAccessTimeout (set : Nat) (isWrite : Bool) (s : State) : Out :=
  noUnit (decide (set < 16)) (s.ringFault set (if isWrite then 6 else 5))

/-! ## QUE_CTRL (R462, R463, R483, R487) -/

/-- The fields of QUE_CTRL other than ENABLE. -/
def RingSet.ctrlFields (r : RingSet) (v : W32) : RingSet :=
  { r with irqEn := bit v.toNat 1, hostMinor := bits v.toNat 15 8, hostMajor := bits v.toNat 23 16 }

/-- Is the set-up valid (R454, R487)? -/
def RingSet.setupOk (r : RingSet) : Bool :=
  let inR := fun v lo hi => decide (lo ≤ v) && decide (v ≤ hi)
  inR r.szCmd 6 16 && inR r.szTok 10 24 && inR r.szCpl 6 16 && inR r.szEvt 8 16 && r.cmdBase % 4096 == 0 &&
    r.tokBase % 4096 == 0 && r.cplBase % 4096 == 0 && r.evtBase % 4096 == 0 && r.dbAddr % 64 == 0 && r.wbAddr % 64 == 0

/-- The counts of a ring set whose context holds no job restart at zero at an enable (R455); the event counts restart at every
enable (R487). -/
def RingSet.fresh (r : RingSet) (held : Bool) : RingSet :=
  let r := { r with evtLost := 0, evtWait := 0, evtPosted := 0, evtLast := 0, hold := none, reserved := 0, errWait := 0,
                    await := false, line := false, unsig := [0, 0, 0] }
  if held then r else
  { r with cmdCi := 0, cmdPi := 0, tokPi := 0, tokCi := 0, cplPi := 0, cplCi := 0, evtPi := 0, evtCi := 0, obs := [] }

/-- ENABLE set on a DISABLED ring set (R462, R483): version and set-up are checked, then the state it enters. A refused
enable leaves ENABLE clear. -/
def State.enableRing (s : State) (set : Nat) : State :=
  let r := s.ring set
  if r.hostMajor ≠ 1 then s.setRing set { r with err := 1 }
  else if !r.setupOk then s.setRing set { r with err := 2 }
  else
    let r := { (r.fresh (s.holdsJob set)) with enable := true, negMinor := Nat.min r.hostMinor 3, err := 0 }
    let s := s.setRing set r
    match s.job set with
    | some j => if j.st = .ended then s.setRingState set 3
        else if s.pauseCause set then s.setRingState set 2 else s.activate set
    | none => if s.pauseCause set then s.setRingState set 2 else s.activate set

/-- ENABLE cleared (R463): ignored while the ring set is ACTIVE, PAUSED or ENDED and the context holds a job. -/
def State.disableRing (s : State) (set : Nat) : State :=
  let r := s.ring set
  if r.st ≠ 4 ∧ r.st ≠ 0 ∧ s.holdsJob set = true then s
  else (s.setRing set { r with enable := false, line := false, await := false }).setRingState set 0

/-- A write of QUE_CTRL of a ring set. -/
def State.writeQueCtrl (s : State) (set : Nat) (v : W32) : State :=
  let r := s.ring set
  let s := s.setRing set (r.ctrlFields v)
  if bit v.toNat 0 then (if r.enable then s else s.enableRing set)
  else if r.enable then s.disableRing set else s

/-- QUE_ENABLE (R462, R483): QUE_CTRL of the ring set selected and written with ENABLE set. -/
def execQueEnable (set : Nat) (v : W32) (s : State) : Out :=
  noUnit (decide (set < 16)) (
    let w := v ||| 1#32
    s.barGate [held32 0x40000 (BitVec.ofNat 32 set), held32 0x40004 w] 0x40004
      fun s => ({ s with host := { s.host with queSel := set } }).writeQueCtrl set w)

/-- QUE_DISABLE (R463): QUE_CTRL of the ring set selected and written with ENABLE clear. -/
def execQueDisable (set : Nat) (v : W32) (s : State) : Out :=
  noUnit (decide (set < 16)) (
    let w := v &&& 0xFFFFFFFE#32
    s.barGate [held32 0x40000 (BitVec.ofNat 32 set), held32 0x40004 w] 0x40004
      fun s => ({ s with host := { s.host with queSel := set } }).writeQueCtrl set w)

/-! ## Events and interrupts -/

/-- EVENT_RELEASE (R480): every source has reported a true TSC of at least `reported`. -/
def execEventRelease (reported : Nat) (s : State) : Out := .next (s.releaseEvents reported)

/-- IRQ_DELAY_EXPIRE (R487): the delay of a ring's unsignalled records has passed. -/
def execIrqDelayExpire (vec : Nat) (s : State) : Out :=
  noUnit (decide (vec < 64)) (
    let set := vec / 4
    let which := vec % 4
    let r := s.ring set
    if which < 3 && r.irqEn && r.unsig.getD which 0 != 0 then
      (s.setRing set { r with unsig := r.unsig.set which 0 }).signal vec
    else s)

end Sys2Proof.Machine
end

