-- ==== Sys2Proof/Machine/RegWrite.lean ====
section
/-!
DEFINITION. Host accesses to BAR0: access codes, the halves of 64-bit registers, SETUP_LOCK and the registers without a behaviour of
their own (R8 to R12, R486, R650 to R657, R663 to R673).
-/
namespace Sys2Proof.Machine
open Sys2Proof

/-! ## Where registers lie -/

/-- Is the offset that of a 64-bit register outside the core windows (R664 to R671)? -/
def blockReg64 (ofs : Nat) : Bool :=
  [0x10, 0x18, 0x30, 0x10018, 0x20010, 0x20018, 0x30010, 0x40010, 0x40018, 0x40020, 0x40028, 0x40030, 0x40038, 0x40048,
    0x50008, 0x50010, 0x60000, 0x60010, 0x60018, 0x60028, 0x60040, 0x60048, 0x60058, 0x70010, 0x70018, 0x70020,
    0x70028].contains ofs ||
  [0x80008, 0x80010, 0x80018, 0x90008, 0x90010, 0x90020, 0x90028, 0x90030, 0x90038, 0x90048, 0x90050, 0xA0008, 0xC0010,
    0xC0018, 0xC0028, 0xD0028, 0xD0040, 0xD0048, 0xD0058, 0xD0060, 0xD0068, 0xD0070, 0xD0078, 0xD0088, 0xD0090].contains ofs ||
  [0xE0008, 0xE0010, 0xE0018, 0xE0028, 0xE0030, 0xE0038, 0xF0010, 0xF0018, 0xF0028, 0xF0030, 0x100008, 0x100010, 0x100018,
    0x100020, 0x100028, 0x100030, 0x100038, 0x110010, 0x110018, 0x110020, 0x110028, 0x110030, 0x110038].contains ofs ||
  [0x120008, 0x120010, 0x120018, 0x120020, 0x120028, 0x120030, 0x120038, 0x130008, 0x140000].contains ofs

/-- Is the offset within the core windows (R672)? -/
def inCores (ofs : Nat) : Bool := decide (0x800000 ≤ ofs) && decide (ofs < 0x800000 + 544 * 0x1000)

/-- Is it the offset of QUE_APT (R665)? -/
def isApt (ofs : Nat) : Bool := decide (0x400C0 ≤ ofs) && decide (ofs < 0x40100) && ofs % 8 == 0

/-- Does a 64-bit register start at the offset? -/
def reg64 (ofs : Nat) : Bool :=
  if inCores ofs then ofs % 0x1000 == 0x40 || ofs % 0x1000 == 0x48 || ofs % 0x1000 == 0x50 || ofs % 0x1000 == 0x58
  else isApt ofs || blockReg64 ofs

/-- Does a 64-bit register with writable fields start at the offset? -/
def writable64 (ofs : Nat) : Bool :=
  isApt ofs || [0x10018, 0x40010, 0x40018, 0x40020, 0x40028, 0x40030, 0x40038, 0x60018, 0x60028, 0x60058, 0x90020, 0x90028,
    0x90030, 0x90038, 0x140000].contains ofs

/-- Is the access one that BAR0 takes (R11)? -/
def barFits (ofs size : Nat) : Bool := (size == 4 || size == 8) && ofs % size == 0 && decide (ofs + size ≤ 0x1000000)

/-! ## Writes -/

/-- The host port's fields changed. -/
def State.onHost (s : State) (f : HostPort → HostPort) : State := { s with host := f s.host }

/-- The ring set that QUE_SEL selects changed. -/
def State.onSel (s : State) (f : RingSet → RingSet) : State := s.setRing s.host.queSel (f (s.ring s.host.queSel))

/-- The ring set that QUE_SEL selects changed unless ENABLE is 1 (R486). -/
def State.onDisabled (s : State) (f : RingSet → RingSet) : State := s.onSel fun r => if r.enable then r else f r

/-- A write of one 32-bit register, each field under its access code. -/
def State.writeReg32 (s : State) (ofs : Nat) (w : W32) : State :=
  let v := w.toNat
  match ofs with
  | 0x00028 => s.writeGlbLock w
  | 0x10010 => s.unlocked fun s => { s with mgt := { s.mgt with allow := bit v 2 } }
  | 0x10020 => s.writePlanCmd w
  | 0x10040 => s.writeModeReq w
  | 0x20004 => s.writeCkpThr w
  | 0x20008 => s.unlocked fun s =>
      ({ s with pwr := { s.pwr with pinLevel := bits v 3 0, tThrottle := bits v 11 4, limit := bits v 27 16 } }).redecide
  | 0x2000C => s.unlocked fun s => { s with pwr := { s.pwr with idleOff := bit v 0 } }
  | 0x30000 => s.writeRstCmd w
  | 0x30004 => if bit v 7 && s.clears 0x30004 then { s with rst := { s.rst with refused := false } } else s
  | 0x40000 => s.onHost fun x => { x with queSel := bits v 3 0 }
  | 0x40004 => s.writeQueCtrl s.host.queSel w
  | 0x4000C => s.onDisabled fun r =>
      { r with szCmd := bits v 4 0, szTok := bits v 12 8, szCpl := bits v 20 16, szEvt := bits v 28 24 }
  | 0x40040 => s.onSel fun r => { r with irqDelay := bits v 15 0, irqCount := bits v 23 16 }
  | 0x40084 => s.unlocked fun s => s.onHost fun x => { x with hdmLog2 := bits v 4 0 }
  | 0x50000 => s.onHost fun x => { x with evtSel := bits v 3 0 }
  | 0x6000C => s.writeLcCmd w
  | 0x60030 => s.writeView w
  | 0x60034 => { s with sec := { s.sec with ctxSel := bits v 3 0 } }
  | 0x60060 => { s with sec := { s.sec with fwSize := bits v 24 0 } }
  | 0x60064 => s.writeFwCmd w
  | 0x70008 => s.writeEnsTest v
  | 0x80000 => s.unlocked fun s => { s with drb := { s.drb with log2Base := bits v 5 0 } }
  | 0x90000 => { s with spg := { s.spg with sel := bits v 0 0 } }
  | 0x90040 => s.writeKat w
  | 0x90044 => if bit v 1 && s.clears 0x90044 then { s with spg := { s.spg with done := false } } else s
  | 0xB0000 => { s with slcSel := bits v 8 0 }
  | 0xC0000 => { s with lpxSel := bits v 4 0 }
  | 0xD0000 => { s with moss := { s.moss with tileSel := bits v 6 0 } }
  | 0xD0010 => { s with moss := { s.moss with regionSel := bits v 6 0 } }
  | 0xE0000 => { s with trySel := bits v 0 0 }
  | 0xF0000 => { s with bedSel := bits v 0 0 }
  | 0x100000 => { s with cutSel := v &&& 0x1F1 }
  | 0x110000 => { s with rz := { s.rz with sel := bits v 4 0 } }
  | 0x110004 => s.unlocked fun s => s.writeRzlCtrl w
  | 0x110040 => { s with rz := { s.rz with routeIdx := bits v 12 0 } }
  | 0x110044 => { s with rz := { s.rz with routes := Map.set 0 s.rz.routes s.rz.routeIdx (bits v 5 0) } }
  | 0x11004C => s.unlocked fun s => { s with rz := { s.rz with w1 := bits v 3 0, w2 := bits v 7 4 } }
  | 0x120004 => { s with ras := { s.ras with idx := bits v 7 0 } }
  | 0x120040 => s.unlocked fun s =>
      { s with ras := { s.ras with thCore := bits v 7 0, thSram := bits v 19 8, thLpx := bits v 31 20 } }
  | 0x120044 => { s with ras := { s.ras with spareSel := bits v 5 0 } }
  | 0x12004C => s.writeRetire w
  | 0x120050 => s.unlocked fun s => { s with ras := { s.ras with peerTo := bits v 15 0 } }
  | 0x120054 => { s with ras := { s.ras with wdog := bits v 15 0 } }
  | 0x130000 => { s with tel := { s.tel with sel := bits v 3 0 } }
  | 0x140008 => { s with dmp := { s.dmp with size := v } }
  | 0x14000C => s.writeDmpCtrl w
  | 0x140010 => if bit v 2 && s.clears 0x140010 then { s with dmp := { s.dmp with doneBit := false } } else s
  | _ => s

/-- A write of one aperture (R487). -/
def State.writeApt (s : State) (a v : Nat) : State :=
  s.onHost fun x => { x with apts := Map.set Aperture.none x.apts a ⟨bits v 2 0, bits v 7 4, bits v 51 12 * 0x1000⟩ }

/-- A write of all 64 bits of a register. -/
def State.writeReg64 (s : State) (ofs v : Nat) : State :=
  match ofs with
  | 0x10018 => { s with mgt := { s.mgt with src := v } }
  | 0x40010 => s.onDisabled fun r => { r with cmdBase := v }
  | 0x40018 => s.onDisabled fun r => { r with tokBase := v }
  | 0x40020 => s.onDisabled fun r => { r with cplBase := v }
  | 0x40028 => s.onDisabled fun r => { r with evtBase := v }
  | 0x40030 => s.onDisabled fun r => { r with dbAddr := v }
  | 0x40038 => s.onDisabled fun r => { r with wbAddr := v }
  | 0x60018 => { s with sec := { s.sec with lcSrc := v } }
  | 0x60028 => { s with sec := { s.sec with viewKey := v } }
  | 0x60058 => { s with sec := { s.sec with fwSrc := v } }
  | 0x90020 => { s with spg := { s.spg with keyLo := BitVec.ofNat 64 v } }
  | 0x90028 => { s with spg := { s.spg with keyHi := BitVec.ofNat 64 v } }
  | 0x90030 => { s with spg := { s.spg with ctrLo := BitVec.ofNat 64 v } }
  | 0x90038 => { s with spg := { s.spg with ctrHi := BitVec.ofNat 64 v } }
  | 0x140000 => { s with dmp := { s.dmp with base := v } }
  | _ => if isApt ofs then s.writeApt ((ofs - 0x400C0) / 8) v else s

/-- What a 64-bit register holds. -/
def State.now64 (s : State) (ofs : Nat) : Nat := if ofs = 0x60028 then s.sec.viewKey else s.regVal ofs (s.selected (ofs / 0x10000))

/-- A 4-byte write (R12): the low half of a 64-bit register is held until its high half is written. A high half without a held low half
goes with the low half that the register holds. -/
def State.write4 (s : State) (ofs : Nat) (w : W32) : State :=
  if reg64 ofs then
    if writable64 ofs then { s with glb := { s.glb with low := Map.put s.glb.low ofs w.toNat } } else s
  else if ofs % 8 = 4 ∧ reg64 (ofs - 4) = true then
    if !writable64 (ofs - 4) then s else
    let lo := match Map.find s.glb.low (ofs - 4) with
      | some l => l
      | none => s.now64 (ofs - 4) % 2 ^ 32
    ({ s with glb := { s.glb with low := Map.del s.glb.low (ofs - 4) } }).writeReg64 (ofs - 4) (lo + w.toNat * 2 ^ 32)
  else s.writeReg32 ofs w

/-- A write that BAR0 takes, applied (R652). -/
def State.applyWrite (s : State) (ofs size : Nat) (v : W64) : State :=
  if size = 4 then s.write4 ofs (v.setWidth 32)
  else if reg64 ofs then (if writable64 ofs then s.writeReg64 ofs v.toNat else s)
  else (s.write4 ofs (v.setWidth 32)).write4 (ofs + 4) (v.extractLsb' 32 32)

/-- A host write to BAR0: answered, held or discarded by the state of the device (R11, R539, R614, R700). -/
def State.hostWriteReg (s : State) (ofs size : Nat) (v : W64) : State :=
  if !barFits ofs size then s
  else s.barGate [.bar0Write ofs size v] ofs fun s => s.applyWrite ofs size v

/-- The writes that a scrub has held, in arrival order (R539, R657). -/
def State.releaseWrites (s : State) : State :=
  let due := s.host.accesses.filterMap fun a => match a with | .bar0Write o n v => some (o, n, v) | _ => none
  let s := { s with host := { s.host with accesses := s.host.accesses.filter fun a => match a with | .bar0Write _ _ _ => false | _ => true } }
  due.foldl (fun (s : State) (a : Nat × Nat × W64) => s.hostWriteReg a.1 a.2.1 a.2.2) s

/-- REG_WRITE (R8, R9, R11, R12, R651 to R656). -/
def execRegWrite (offset size : Nat) (v : W64) (s : State) : Out := .next (s.hostWriteReg offset size v)

/-- RW1C_WRITE (R8, R10): a write of a register that holds RW1C bits. -/
def execRw1cWrite (offset size : Nat) (v : W64) (s : State) : Out := .next (s.hostWriteReg offset size v)

/-! ## Reads -/

/-- A 4-byte read with the latch of R12: the low half of a 64-bit register latches its high half, and the next read of the high half
returns and releases what was latched. -/
def State.read4 (s : State) (ofs : Nat) : State × Nat :=
  if reg64 ofs then
    let v := s.regRead ofs
    ({ s with glb := { s.glb with latch := Map.put s.glb.latch ofs (v / 2 ^ 32) } }, v % 2 ^ 32)
  else if ofs % 8 = 4 ∧ reg64 (ofs - 4) = true then
    match Map.find s.glb.latch (ofs - 4) with
    | some v => ({ s with glb := { s.glb with latch := Map.del s.glb.latch (ofs - 4) } }, v)
    | none => (s, s.regRead (ofs - 4) / 2 ^ 32)
  else (s, s.regRead ofs)

/-- A read that BAR0 takes (R652). -/
def State.readBar (s : State) (ofs size : Nat) : State × Nat :=
  if size = 4 then s.read4 ofs
  else if reg64 ofs then (s, s.regRead ofs)
  else
    let a := s.read4 ofs
    let b := a.1.read4 (ofs + 4)
    (b.1, a.2 + b.2 * 2 ^ 32)

/-- REG_READ_LOW_LATCH (R8, R11, R12, R652): the bytes of a host read of BAR0; zeros where BAR0 does not answer. -/
def execRegReadLowLatch (offset size : Nat) (s : State) : Out :=
  .next (
    if !barFits offset size || !s.barAnswers offset then s.answer (List.replicate size 0#8)
    else let r := s.readBar offset size
      r.1.answer (toLe size r.2))

/-! ## Select registers (R654) -/

/-- The select registers of the blocks that a half or job reset includes return to zero. -/
def State.resetHalfSelects (s : State) : State :=
  { s with slcSel := 0, lpxSel := 0, trySel := 0, bedSel := 0, cutSel := 0, moss := { s.moss with tileSel := 0, regionSel := 0 }
           rz := { s.rz with sel := 0, routeIdx := 0 } }

/-- Every select register returns to zero, as a scrub does. -/
def State.resetSelects (s : State) : State :=
  let s := s.resetHalfSelects
  { s with host := { s.host with queSel := 0, evtSel := 0 }, sec := { s.sec with ctxSel := 0 }, spg := { s.spg with sel := 0 }
           ras := { s.ras with idx := 0, spareSel := 0 }, tel := { s.tel with sel := 0 } }

end Sys2Proof.Machine
end

