-- ==== Sys2Proof/Machine/Resets.lean ====
section
/-!
DEFINITION. The end of a scrub, the end of a reset or a boot, and the training of the host link (R37 to R39, R445, R535 to R540, R606 to
R614, R633).
-/
namespace Sys2Proof.Machine
open Sys2Proof

/-! ## The end of a scrub (R535 to R539) -/

/-- Can the scrub end: its xc are counted, and no reset is under way but a boot? -/
def State.scrubEnds (s : State) (sc : Scrub) : Bool :=
  sc.left == 0 && s.boot.aligned && (match s.rst.busy with | some r => r.kind == 5 | none => true)

/-- Every PAUSED ring set whose cause has ended resumes, but for that of the incoming context of a switch that goes on (R535 order 8). -/
def State.resumeOthers (s : State) : State :=
  (List.range 16).foldl (fun (s : State) c => match s.sec.switch with
    | some w => if c = w.incoming ∧ c ≠ 0 then s else s.resumeRing c
    | none => s.resumeRing c) s

/-- What the end of a scrub leads to: the alignment of a mode change, or order 6 of a switch; then held writes and requests proceed. -/
def State.afterScrub (s : State) (reason : Nat) : State :=
  if reason = 2 then
    let s := s.vacate.releaseWrites
    { s with boot := { s.boot with aligned := false } }
  else
    let s := match s.sec.switch with
      | some w => s.handOver w
      | none => s
    s.releaseWrites.releaseHdm.switchStep.resumeOthers

/-- SCRUB_COMPLETE (R537 to R539): the stores are clear, SCRUB_DONE is posted. -/
def execScrubComplete (s : State) : Out :=
  .next (match s.sec.scrub with
    | none => s
    | some sc =>
      if !s.scrubEnds sc then s else
      let s := (s.clearStores sc.halves).onHalves sc.halves fun _ x => { x with flags := 0 }
      let s := ({ s with sec := { s.sec with scrub := none, scrubs := satAdd 16 s.sec.scrubs 1 } }).resetSelects
      let s := s.postDev 0 0x0802 0 (toLe 1 sc.halves ++ toLe 1 sc.reason ++ toLe 2 0 ++ toLe 4 67036)
      s.afterScrub sc.reason)

/-! ## The end of a reset (R606 to R613) -/

/-- Has the boot come to its end (R612): firmware, primacy and plan, trained controllers, zeroed lines, domains and rejoin checks, the
boot mode (R39)? -/
def State.bootDone (s : State) : Bool :=
  s.boot.aligned && s.boot.firmware && s.mgt.agreed && s.boot.plan && s.boot.zeroed && s.boot.halt == .none && !s.boot.ready &&
    ((List.range 32).all fun i => (s.lpxCtrl i).st == 2) && (((jobDomains 3).all fun d => s.isOn d)) && s.pwr.round.isEmpty &&
    !s.mgt.pend && !s.mgt.changing && s.sec.scrub.isNone

/-- RST_COUNT after a reset of a kind (R626). -/
def Rst.counted (r : Rst) (kind : Nat) : Rst :=
  if kind = 2 then { r with half := satAdd 8 r.half 1 }
  else if kind = 3 then { r with job := satAdd 8 r.job 1 }
  else if kind = 4 then { r with flr := satAdd 8 r.flr 1 }
  else if kind = 5 then { r with device := satAdd 8 r.device 1 }
  else r

/-- The source of RESET_DONE (R701): the core, the half of a reset of one half, or the primary half. -/
def State.resetSource (s : State) (r : ResetRun) : Nat :=
  if r.kind = 1 then 0x10 + r.core
  else if r.halves = 1 then 1
  else if r.halves = 2 then 2
  else s.primarySource

/-- A reset of any kind ends: RST_STATUS, RST_COUNT, RST_LAST_TSC, RESET_DONE and the measurement log (R611, R624, R626). -/
def State.endReset (s : State) (r : ResetRun) : State :=
  let s := { s with rst := { s.rst.counted r.kind with busy := none, lastKind := r.kind, lastCause := r.cause, lastTsc := s.tsc } }
  let s := s.onHalves 3 fun h x =>
    { x with flags := match s.sec.scrub with | some sc => if bit sc.halves h then 2 else 0 | none => 0 }
  let s := s.postDev (s.resetSource r) 0x0C05 0 (toLe 1 r.kind ++ toLe 1 r.halves ++ toLe 2 r.core)
  if r.kind = 1 then s else s.measure (if 5 ≤ r.kind then 1 else 8)

/-- The device is READY. -/
def State.endBoot (s : State) (failed : List Nat) : State :=
  let s := s.testWords 3 failed
  let s := { s with boot := { s.boot with ready := true, wasReady := true, rejoined := true } }
  match s.rst.busy with
  | some r => (s.endReset r).regrowPoll
  | none => s.endReset ⟨6, 3, 0, 1⟩

/-- A scrub that the reset interrupted starts again (R540); a mode change that it interrupted starts again from its scrub (R39). -/
def State.restartScrub (s : State) : State :=
  match s.sec.scrub with
  | some sc => { s with sec := { s.sec with scrub := some { sc with left := 67036 } } }
  | none => if s.mgt.changing then s.beginScrub 3 2 else s

/-- A reset narrower than a device reset ends once its halves are aligned and its units are checked. -/
def State.endPartial (s : State) (failed : List Nat) (r : ResetRun) : State :=
  let s := if r.kind = 1 then s else (s.testWords r.halves failed).restartScrub
  let s := (s.endReset r)
  let s := if 2 ≤ r.kind ∧ r.halves ≠ 0 then s.resetHalfSelects else s
  let s := if r.cause = 5 then s.regrowAfterReset r.halves else s
  s.regrowPoll.switchStep

/-- RESET_COMPLETE (R606 to R613, R633): `failed` are the slices in which a word that met an uncorrectable error meets a further one. -/
def execResetComplete (failed : List Nat) (s : State) : Out :=
  .next (
    if !s.boot.ready then (if s.bootDone then s.endBoot failed else s)
    else match s.rst.busy with
      | some r => if s.boot.aligned && s.pwr.round.isEmpty then s.endPartial failed r else s
      | none => s)

/-! ## The host link (R445, R614) -/

/-- HOST_LINK_TRAINED (R445): QUE_LINK takes the width, the rate and the protocols in force; in fallback CXL.cache, CXL.mem and their
encryption are absent. The link trains while PD19 is ON. -/
def execHostLinkTrained (cxl : Bool) (width rate : Nat) (cacheEn memEn ideIo ideCm busMaster : Bool) (s : State) : Out :=
  .next (
    if s.pins.perst || !s.pins.pwrgood || !s.isOn 19 || s.boot.halt == .refclk then s else
    { s with host := { s.host with
        trained := true, cxl := cxl, width := width, rate := rate, cacheEn := cxl && cacheEn, memEn := cxl && memEn
        ideIo := ideIo, ideCm := cxl && ideCm, busMaster := busMaster } })

end Sys2Proof.Machine
end

