-- ==== Sys2Proof/Machine/Dispatch.lean ====
section
/-!
DEFINITION. One arm per command: a direct call of the command's meaning.
-/
namespace Sys2Proof.Machine
open Sys2Proof

/-- The effect of a command on everything but the queue. -/
def exec (i : Instr) (s : State) : Host.Outcome State Fault Refusal :=
  match i with
  | .nop h => Sys2Proof.Machine.execNop h s
  | .jobOpen h params paramSize => Sys2Proof.Machine.execJobOpen h params paramSize s
  | .jobClose h => Sys2Proof.Machine.execJobClose h s
  | .jobEnd h ctx => Sys2Proof.Machine.execJobEnd h ctx s
  | .jobDiscard h ctx => Sys2Proof.Machine.execJobDiscard h ctx s
  | .open_ h index count tokens params => Sys2Proof.Machine.execOpen h index count tokens params s
  | .score h index count tokens params => Sys2Proof.Machine.execScore h index count tokens params s
  | .fork h parent gen mode count children seeds => Sys2Proof.Machine.execFork h parent gen mode count children seeds s
  | .append h index gen count tokens => Sys2Proof.Machine.execAppend h index gen count tokens s
  | .resume h index gen => Sys2Proof.Machine.execResume h index gen s
  | .close h index gen => Sys2Proof.Machine.execClose h index gen s
  | .setLoad h set count tokens => Sys2Proof.Machine.execSetLoad h set count tokens s
  | .bedStage h bed flags epoch => Sys2Proof.Machine.execBedStage h bed flags epoch s
  | .bedLoad h bed host offset length => Sys2Proof.Machine.execBedLoad h bed host offset length s
  | .bedCommit h bed flipStep digest => Sys2Proof.Machine.execBedCommit h bed flipStep digest s
  | .bedDrop h bed => Sys2Proof.Machine.execBedDrop h bed s
  | .gibbsModelLoad h desc work workSize => Sys2Proof.Machine.execGibbsModelLoad h desc work workSize s
  | .gibbsModelDrop h handle => Sys2Proof.Machine.execGibbsModelDrop h handle s
  | .chainOpen h index handle init seedMode seed temp clampLayers cflags clampPtr host user => Sys2Proof.Machine.execChainOpen h index handle init seedMode seed temp clampLayers cflags clampPtr host user s
  | .chainSet h index gen select temp clampLayers cflags clampPtr => Sys2Proof.Machine.execChainSet h index gen select temp clampLayers cflags clampPtr s
  | .chainWrite h index gen layers host => Sys2Proof.Machine.execChainWrite h index gen layers host s
  | .chainRead h index gen layers host => Sys2Proof.Machine.execChainRead h index gen layers host s
  | .gibbsRun h chains layers output list sweeps burn interval progressEvery result resultSize => Sys2Proof.Machine.execGibbsRun h chains layers output list sweeps burn interval progressEvery result resultSize s
  | .mossRegion h region action tx0 tx1 ty0 ty1 => Sys2Proof.Machine.execMossRegion h region action tx0 tx1 ty0 ty1 s
  | .mossLoad h region format flags ej eh source => Sys2Proof.Machine.execMossLoad h region format flags ej eh source s
  | .mossRun h params => Sys2Proof.Machine.execMossRun h params s
  | .mossStop h run => Sys2Proof.Machine.execMossStop h run s
  | .mossResume h params slot => Sys2Proof.Machine.execMossResume h params slot s
  | .mossRead h region host => Sys2Proof.Machine.execMossRead h region host s
  | .cutNow h => Sys2Proof.Machine.execCutNow h s
  | .regrow h cutStep source replace ctx regrowNo replayStep replayIndex replayPos replaySample => Sys2Proof.Machine.execRegrow h cutStep source replace ctx regrowNo replayStep replayIndex replayPos replaySample s
  | .ctxRegister h ctx block => Sys2Proof.Machine.execCtxRegister h ctx block s
  | .ctxDestroy h ctx => Sys2Proof.Machine.execCtxDestroy h ctx s
  | .ctxRun h ctx halves => Sys2Proof.Machine.execCtxRun h ctx halves s
  | .kernelLoad h host size => Sys2Proof.Machine.execKernelLoad h host size s
  | .kernelUnload h handle => Sys2Proof.Machine.execKernelUnload h handle s
  | .stepBind h count list => Sys2Proof.Machine.execStepBind h count list s
  | .randStoch h length flags host => Sys2Proof.Machine.execRandStoch h length flags host s
  | .randDrbg h length flags host => Sys2Proof.Machine.execRandDrbg h length flags host s
  | .randRaw h length flags host => Sys2Proof.Machine.execRandRaw h length flags host s
  | .cmdFetch set => Sys2Proof.Machine.execCmdFetch set s
  | .doorbellSnoop set cmdPi tokCi cplCi evtCi => Sys2Proof.Machine.execDoorbellSnoop set cmdPi tokCi cplCi evtCi s
  | .doorbellObserve set => Sys2Proof.Machine.execDoorbellObserve set s
  | .dbCmdPi set v => Sys2Proof.Machine.execDbCmdPi set v s
  | .dbTokCi set v => Sys2Proof.Machine.execDbTokCi set v s
  | .dbCplCi set v => Sys2Proof.Machine.execDbCplCi set v s
  | .dbEvtCi set v => Sys2Proof.Machine.execDbEvtCi set v s
  | .hostAccessTimeout set isWrite => Sys2Proof.Machine.execHostAccessTimeout set isWrite s
  | .queEnable set v => Sys2Proof.Machine.execQueEnable set v s
  | .queDisable set v => Sys2Proof.Machine.execQueDisable set v s
  | .eventRelease reported => Sys2Proof.Machine.execEventRelease reported s
  | .irqDelayExpire vec => Sys2Proof.Machine.execIrqDelayExpire vec s
  | .hdmWrite offset data poison => Sys2Proof.Machine.execHdmWrite offset data poison s
  | .hdmRead offset size e => Sys2Proof.Machine.execHdmRead offset size e s
  | .mma p f => Sys2Proof.Machine.execMma p f s
  | .zero p f => Sys2Proof.Machine.execZero p f s
  | .tld p f => Sys2Proof.Machine.execTld p f s
  | .out p f => Sys2Proof.Machine.execOut p f s
  | .vadd p f => Sys2Proof.Machine.execVadd p f s
  | .vsub p f => Sys2Proof.Machine.execVsub p f s
  | .vmul p f => Sys2Proof.Machine.execVmul p f s
  | .vfma p f => Sys2Proof.Machine.execVfma p f s
  | .vmax p f => Sys2Proof.Machine.execVmax p f s
  | .vmin p f => Sys2Proof.Machine.execVmin p f s
  | .vadds p f => Sys2Proof.Machine.execVadds p f s
  | .vmuls p f => Sys2Proof.Machine.execVmuls p f s
  | .vld p f => Sys2Proof.Machine.execVld p f s
  | .vst p f => Sys2Proof.Machine.execVst p f s
  | .vcvt p f => Sys2Proof.Machine.execVcvt p f s
  | .vact p f => Sys2Proof.Machine.execVact p f s
  | .vlog p f => Sys2Proof.Machine.execVlog p f s
  | .vrsum p f => Sys2Proof.Machine.execVrsum p f s
  | .vrmaxi p f => Sys2Proof.Machine.execVrmaxi p f s
  | .vsort p f => Sys2Proof.Machine.execVsort p f s
  | .vmerge p f => Sys2Proof.Machine.execVmerge p f s
  | .vtacc p f => Sys2Proof.Machine.execVtacc p f s
  | .sunif p f => Sys2Proof.Machine.execSunif p f s
  | .sbernf p f => Sys2Proof.Machine.execSbernf p f s
  | .sbernp p f => Sys2Proof.Machine.execSbernp p f s
  | .sbernq p f => Sys2Proof.Machine.execSbernq p f s
  | .sgumb p f => Sys2Proof.Machine.execSgumb p f s
  | .scat p f => Sys2Proof.Machine.execScat p f s
  | .xrd p f => Sys2Proof.Machine.execXrd p f s
  | .xwr p f => Sys2Proof.Machine.execXwr p f s
  | .xred p f => Sys2Proof.Machine.execXred p f s
  | .wait p f => Sys2Proof.Machine.execWait p f s
  | .bar p f => Sys2Proof.Machine.execBar p f s
  | .xfence p rest => Sys2Proof.Machine.execXfence p rest s
  | .ctlNop p f => Sys2Proof.Machine.execCtlNop p f s
  | .add p f => Sys2Proof.Machine.execAdd p f s
  | .sub p f => Sys2Proof.Machine.execSub p f s
  | .and_ p f => Sys2Proof.Machine.execAnd p f s
  | .or_ p f => Sys2Proof.Machine.execOr p f s
  | .xor_ p f => Sys2Proof.Machine.execXor p f s
  | .shl p f => Sys2Proof.Machine.execShl p f s
  | .shr p f => Sys2Proof.Machine.execShr p f s
  | .sar p f => Sys2Proof.Machine.execSar p f s
  | .mul p f => Sys2Proof.Machine.execMul p f s
  | .addi p f => Sys2Proof.Machine.execAddi p f s
  | .li p f => Sys2Proof.Machine.execLi p f s
  | .lih p f => Sys2Proof.Machine.execLih p f s
  | .lds p f => Sys2Proof.Machine.execLds p f s
  | .sts p f => Sys2Proof.Machine.execSts p f s
  | .br p f => Sys2Proof.Machine.execBr p f s
  | .getid p f => Sys2Proof.Machine.execGetid p f s
  | .end_ p f => Sys2Proof.Machine.execEnd p f s
  | .instrComplete p queue e => Sys2Proof.Machine.execInstrComplete p queue e s
  | .waitRelease p => Sys2Proof.Machine.execWaitRelease p s
  | .xfenceRelease p => Sys2Proof.Machine.execXfenceRelease p s
  | .barRelease p e => Sys2Proof.Machine.execBarRelease p e s
  | .coreDrained p => Sys2Proof.Machine.execCoreDrained p s
  | .xbSlotExecute p => Sys2Proof.Machine.execXbSlotExecute p s
  | .xbSliceAccess p e => Sys2Proof.Machine.execXbSliceAccess p e s
  | .xbDataLand p => Sys2Proof.Machine.execXbDataLand p s
  | .xbAck p => Sys2Proof.Machine.execXbAck p s
  | .stepStart ctx => Sys2Proof.Machine.execStepStart ctx s
  | .stepBoundary ctx logits => Sys2Proof.Machine.execStepBoundary ctx logits s
  | .promptFetchDone ctx index => Sys2Proof.Machine.execPromptFetchDone ctx index s
  | .lpxTransferDone ctx id e => Sys2Proof.Machine.execLpxTransferDone ctx id e s
  | .lpxRefresh ctrl rate => Sys2Proof.Machine.execLpxRefresh ctrl rate s
  | .dispatchHeader ctx h => Sys2Proof.Machine.execDispatchHeader ctx h s
  | .dispatchRecord ctx r mseq auth => Sys2Proof.Machine.execDispatchRecord ctx r mseq auth s
  | .expertLayerRun ctx layer => Sys2Proof.Machine.execExpertLayerRun ctx layer s
  | .expertOutput ctx r mseq auth => Sys2Proof.Machine.execExpertOutput ctx r mseq auth s
  | .rawPartials slice acc images => Sys2Proof.Machine.execRawPartials slice acc images s
  | .messageForward port msg => Sys2Proof.Machine.execMessageForward port msg s
  | .nakReceive port msg => Sys2Proof.Machine.execNakReceive port msg s
  | .nakTimeout port => Sys2Proof.Machine.execNakTimeout port s
  | .creditReceive port msg => Sys2Proof.Machine.execCreditReceive port msg s
  | .trainReceive port msg => Sys2Proof.Machine.execTrainReceive port msg s
  | .keyChainFragment port msg => Sys2Proof.Machine.execKeyChainFragment port msg s
  | .keyJobSecret port msg => Sys2Proof.Machine.execKeyJobSecret port msg s
  | .linkTrainingDone port => Sys2Proof.Machine.execLinkTrainingDone port s
  | .trainingAttemptTimeout port => Sys2Proof.Machine.execTrainingAttemptTimeout port s
  | .linkLockLoss port => Sys2Proof.Machine.execLinkLockLoss port s
  | .linkRecovered port => Sys2Proof.Machine.execLinkRecovered port s
  | .recoveryTimeout port => Sys2Proof.Machine.execRecoveryTimeout port s
  | .portEnWrite v => Sys2Proof.Machine.execPortEnWrite v s
  | .cuttingWriteStart ctx => Sys2Proof.Machine.execCuttingWriteStart ctx s
  | .cuttingWriteDone ctx => Sys2Proof.Machine.execCuttingWriteDone ctx s
  | .commitNotice ctx rank step => Sys2Proof.Machine.execCommitNotice ctx rank step s
  | .cuttingFlush ctx => Sys2Proof.Machine.execCuttingFlush ctx s
  | .sealedPageMirror ctx page data => Sys2Proof.Machine.execSealedPageMirror ctx page data s
  | .openPageLines ctx page line data => Sys2Proof.Machine.execOpenPageLines ctx page line data s
  | .cuttingImageMirror ctx slot offset data => Sys2Proof.Machine.execCuttingImageMirror ctx slot offset data s
  | .chainStateCopy ctx data => Sys2Proof.Machine.execChainStateCopy ctx data s
  | .bedCopy ctx bed offset data => Sys2Proof.Machine.execBedCopy ctx bed offset data s
  | .mirrorAck ctx kind id => Sys2Proof.Machine.execMirrorAck ctx kind id s
  | .mirrorSetUp ctx data => Sys2Proof.Machine.execMirrorSetUp ctx data s
  | .pageFetchRequest ctx page => Sys2Proof.Machine.execPageFetchRequest ctx page s
  | .pageFetchResponse ctx page data => Sys2Proof.Machine.execPageFetchResponse ctx page data s
  | .jobEndNotice ctx rank => Sys2Proof.Machine.execJobEndNotice ctx rank s
  | .regrowReady ctx rank number => Sys2Proof.Machine.execRegrowReady ctx rank number s
  | .regrowRelease ctx number => Sys2Proof.Machine.execRegrowRelease ctx number s
  | .mossHalfSweep ctx run e => Sys2Proof.Machine.execMossHalfSweep ctx run e s
  | .annealCutWriteDone ctx run => Sys2Proof.Machine.execAnnealCutWriteDone ctx run s
  | .resultVectorWriteDone ctx run => Sys2Proof.Machine.execResultVectorWriteDone ctx run s
  | .mossSetup ctx m => Sys2Proof.Machine.execMossSetup ctx m s
  | .mossFace ctx m => Sys2Proof.Machine.execMossFace ctx m s
  | .mossExtHalfSweepStart ctx run => Sys2Proof.Machine.execMossExtHalfSweepStart ctx run s
  | .mossPartials ctx m => Sys2Proof.Machine.execMossPartials ctx m s
  | .mossDecision ctx m => Sys2Proof.Machine.execMossDecision ctx m s
  | .ctxSwitch half => Sys2Proof.Machine.execCtxSwitch half s
  | .scrubComplete => Sys2Proof.Machine.execScrubComplete s
  | .partitionZeroDone ctx => Sys2Proof.Machine.execPartitionZeroDone ctx s
  | .mgtModeReqWrite v => Sys2Proof.Machine.execMgtModeReqWrite v s
  | .modeChangeStart => Sys2Proof.Machine.execModeChangeStart s
  | .spgKatGo => Sys2Proof.Machine.execSpgKatGo s
  | .spgKatDone => Sys2Proof.Machine.execSpgKatDone s
  | .secViewWrite v => Sys2Proof.Machine.execSecViewWrite v s
  | .secLcGo v => Sys2Proof.Machine.execSecLcGo v s
  | .secFwStage => Sys2Proof.Machine.execSecFwStage s
  | .secFwActivate => Sys2Proof.Machine.execSecFwActivate s
  | .secFwAbort => Sys2Proof.Machine.execSecFwAbort s
  | .secFwCommitSvn => Sys2Proof.Machine.execSecFwCommitSvn s
  | .fwStagingDone => Sys2Proof.Machine.execFwStagingDone s
  | .fwVerifyDone => Sys2Proof.Machine.execFwVerifyDone s
  | .fwReady => Sys2Proof.Machine.execFwReady s
  | .fwActivateTimeout => Sys2Proof.Machine.execFwActivateTimeout s
  | .mgtPlanWrite v => Sys2Proof.Machine.execMgtPlanWrite v s
  | .planWriteDone => Sys2Proof.Machine.execPlanWriteDone s
  | .glbLockWrite v => Sys2Proof.Machine.execGlbLockWrite v s
  | .rasRetireCmd v => Sys2Proof.Machine.execRasRetireCmd v s
  | .dmpGo v => Sys2Proof.Machine.execDmpGo v s
  | .dumpWriteComplete => Sys2Proof.Machine.execDumpWriteComplete s
  | .ckpThrReqWrite v => Sys2Proof.Machine.execCkpThrReqWrite v s
  | .ensTestWrite v => Sys2Proof.Machine.execEnsTestWrite v s
  | .rstCmdCore v => Sys2Proof.Machine.execRstCmdCore v s
  | .rstCmdHalf v => Sys2Proof.Machine.execRstCmdHalf v s
  | .rstCmdDevice v => Sys2Proof.Machine.execRstCmdDevice v s
  | .rw1cWrite offset size v => Sys2Proof.Machine.execRw1cWrite offset size v s
  | .regWrite offset size v => Sys2Proof.Machine.execRegWrite offset size v s
  | .regReadLowLatch offset size => Sys2Proof.Machine.execRegReadLowLatch offset size s
  | .pwrgoodFall => Sys2Proof.Machine.execPwrgoodFall s
  | .powerUp selWest selEast bootSrc kat => Sys2Proof.Machine.execPowerUp selWest selEast bootSrc kat s
  | .rootPllLock => Sys2Proof.Machine.execRootPllLock s
  | .firmwareVerify slot => Sys2Proof.Machine.execFirmwareVerify slot s
  | .primacyClaim half => Sys2Proof.Machine.execPrimacyClaim half s
  | .primacyTimeout => Sys2Proof.Machine.execPrimacyTimeout s
  | .lpxTrainingDone ctrl passed => Sys2Proof.Machine.execLpxTrainingDone ctrl passed s
  | .lpxZeroDone => Sys2Proof.Machine.execLpxZeroDone s
  | .perstNAssert ts => Sys2Proof.Machine.execPerstNAssert ts s
  | .perstNDeassert => Sys2Proof.Machine.execPerstNDeassert s
  | .flr => Sys2Proof.Machine.execFlr s
  | .refclkLoss => Sys2Proof.Machine.execRefclkLoss s
  | .lrefclkLoss => Sys2Proof.Machine.execLrefclkLoss s
  | .thermtripSense sensor temp => Sys2Proof.Machine.execThermtripSense sensor temp s
  | .throttleNEdge asserted => Sys2Proof.Machine.execThrottleNEdge asserted s
  | .thermalThrottleTick half temps => Sys2Proof.Machine.execThermalThrottleTick half temps s
  | .powerThrottleTick half watts => Sys2Proof.Machine.execPowerThrottleTick half watts s
  | .throttleLevelApply half => Sys2Proof.Machine.execThrottleLevelApply half s
  | .alignmentRelease => Sys2Proof.Machine.execAlignmentRelease s
  | .resetComplete failed => Sys2Proof.Machine.execResetComplete failed s
  | .domainPowerOn pd => Sys2Proof.Machine.execDomainPowerOn pd s
  | .domainIdleOff pd => Sys2Proof.Machine.execDomainIdleOff pd s
  | .rejoinRoundDone failed lanes => Sys2Proof.Machine.execRejoinRoundDone failed lanes s
  | .heartbeatSend half => Sys2Proof.Machine.execHeartbeatSend half s
  | .heartbeatMiss half => Sys2Proof.Machine.execHeartbeatMiss half s
  | .telUpdate temps device west east => Sys2Proof.Machine.execTelUpdate temps device west east s
  | .ensWindowEnd blocks => Sys2Proof.Machine.execEnsWindowEnd blocks s
  | .ensRestartSettle => Sys2Proof.Machine.execEnsRestartSettle s
  | .drbgInstantiate kat => Sys2Proof.Machine.execDrbgInstantiate kat s
  | .drbgReseed => Sys2Proof.Machine.execDrbgReseed s
  | .peerWaitLimit ctx rank => Sys2Proof.Machine.execPeerWaitLimit ctx rank s
  | .stepWatchdogExpire ctx => Sys2Proof.Machine.execStepWatchdogExpire ctx s
  | .smbStatus => Sys2Proof.Machine.execSmbStatus s
  | .smbTemp => Sys2Proof.Machine.execSmbTemp s
  | .smbPower => Sys2Proof.Machine.execSmbPower s
  | .smbThrottle => Sys2Proof.Machine.execSmbThrottle s
  | .smbAlert => Sys2Proof.Machine.execSmbAlert s
  | .smbSerial => Sys2Proof.Machine.execSmbSerial s
  | .smbAlertResponse => Sys2Proof.Machine.execSmbAlertResponse s
  | .jtagInstruction ir => Sys2Proof.Machine.execJtagInstruction ir s
  | .spdmGetMeasurements index => Sys2Proof.Machine.execSpdmGetMeasurements index s
  | .spdmRequest r => Sys2Proof.Machine.execSpdmRequest r s
  | .bedVerifyDone ctx bed => Sys2Proof.Machine.execBedVerifyDone ctx bed s
  | .illegalInstruction p w => Sys2Proof.Machine.execIllegalInstruction p w s
  | .hostLinkTrained cxl width rate cacheEn memEn ideIo ideCm busMaster => Sys2Proof.Machine.execHostLinkTrained cxl width rate cacheEn memEn ideIo ideCm busMaster s

end Sys2Proof.Machine
end

