-- ==== Sys2Proof/Safety.lean ====
section
/-!
DEFINITION. A safe step: the machine goes on.
-/
namespace Sys2Proof.Machine

/-- The next state of an outcome, none for a fault or a refusal. -/
def nextOf (o : Host.Outcome State Fault Refusal) : Option State :=
  match o with
  | .next s => some s
  | _ => none

/-- Does the machine go on from this state? -/
def Safe (s : State) : Prop := (nextOf (step s)).isSome

end Sys2Proof.Machine
end

