-- ==== Sys2Proof/Certificates/Slice0/Obligations.lean ====
section
/-!
DEFINITION. The statements about the device, from the numbered rules of the specification.
-/
namespace Sys2Proof.Slice0
open Sys2Proof Sys2Proof.Machine

/-! ## Terms of the statements -/

/-- The command answers a next state, and that state has the property. -/
def Answers (i : Instr) (s : State) (P : State → Prop) : Prop := ∃ t, exec i s = .next t ∧ P t

/-- `t` is `s` but for core p, which holds `c`, and for the model's own counter of free values. -/
def OnlyCore (s t : State) (p : Nat) (c : Core) : Prop := { t with freeCtr := s.freeCtr } = s.setCore p c

/-- Core p exists, runs, may issue, and stands at the word of the instruction in its kernel image. -/
structure AtCore (i : Instr) (p : Nat) (s : State) (k : KImage) : Prop where
  core : p < 544
  image : s.imageOf p = some k
  runs : (s.core p).canIssue = true
  word : k.code[(s.core p).pc]? = some (wordOf i)

/-- The queue has room and no read in flight still has to write one of the ranges (R142, R143). -/
structure Unhindered (c : Core) (q : Nat) (ranges : List (Nat × Nat)) : Prop where
  room : c.depth q < 16
  landed : c.waitsFor ranges = false

/-- The core after the issue of one instruction, before its effect: the next index, one more issued, one more in flight. -/
def issued (c : Core) (q cc : Nat) (x : Option Xfer) : Core :=
  { c with pc := c.pc + 1, issued := (c.issued + 1) % 2 ^ 64, flight := c.flight ++ [⟨q, cc, x⟩] }

end Sys2Proof.Slice0

open Sys2Proof Sys2Proof.Machine Sys2Proof.Slice0

/-! ## The queue of commands and the encoding -/

/-- A step with a command in front of the queue is that command's effect with the queue's rest. -/
def Obligations.StepRunsFrontCommand : Prop :=
  ∀ (c : Instr) (rest : List Instr) (s : State), s.pending = c :: rest → step s = exec c { s with pending := rest }

/-- No command touches the queue. -/
def Obligations.CommandsLeaveTheQueue : Prop :=
  ∀ (c : Instr) (s t : State), exec c s = .next t → t.pending = s.pending

/-- Decoding and encoding agree on every core instruction, every operand at every value: a word spells an instruction exactly when it is
that instruction's word, so no bit of a word is dropped (R121 to R141). -/
def Obligations.WordsAndInstructionsAgree : Prop :=
  ∀ (i : Instr) (p : Nat) (w : W64), isaWord i = some (p, w) ↔ decodeIsa p w = some i

/-! ## The cores: control and memory instructions (R117, R141, R149) -/

namespace Sys2Proof.Slice0
open Sys2Proof Sys2Proof.Machine

/-- The CTL instructions SDST = SA op SB, with their operations (R141). -/
def ctlBinary : List ((Nat → CtlFields → Instr) × (W64 → W64 → W64)) :=
  [(Instr.add, (· + ·)), (Instr.sub, (· - ·)), (Instr.and_, (· &&& ·)), (Instr.or_, (· ||| ·)), (Instr.xor_, (· ^^^ ·)),
    (Instr.shl, fun x y => x <<< (y.toNat % 64)), (Instr.shr, fun x y => x >>> (y.toNat % 64)),
    (Instr.sar, fun x y => x.sshiftRight (y.toNat % 64)), (Instr.mul, (· * ·))]

/-- What GETID returns for an immediate of 0 to 3 (R15, R141). -/
def identity (logical which : Nat) : Nat :=
  if which = 0 then logical else if which = 1 then logical / 16 else if which = 2 then logical / 256 else logical % 16

end Sys2Proof.Slice0

/-- s0 reads as zero, and a write to it changes nothing (R117). -/
def Obligations.RegisterZeroIsConstant : Prop :=
  ∀ (c : Core) (v : W64), c.sreg 0 = 0#64 ∧ c.setSreg 0 v = c

/-- ADD, SUB, AND, OR, XOR, SHL, SHR, SAR and MUL complete with SDST = SA op SB; nothing else changes but the core's own sequencer. -/
def Sys2Proof.Slice0.CtlBinaryCompletes : Prop :=
  ∀ e ∈ ctlBinary, ∀ (p : Nat) (f : CtlFields) (s : State) (k : KImage),
    AtCore (e.1 p f) p s k → (s.core p).depth 5 < 16 →
    Answers (e.1 p f) s fun t => OnlyCore s t p ((issued (s.core p) 5 1 none).setSreg f.sdst.toNat
      (e.2 ((s.core p).sreg f.sa.toNat) ((s.core p).sreg f.sb.toNat)))

/-- ADDI, LI, LIH, GETID with an immediate of 0 to 3, NOP and END complete with their effects. -/
def Sys2Proof.Slice0.CtlImmediateCompletes : Prop :=
  ∀ (p : Nat) (f : CtlFields) (s : State) (k : KImage), (s.core p).depth 5 < 16 →
    (AtCore (.addi p f) p s k → Answers (.addi p f) s fun t => OnlyCore s t p
      ((issued (s.core p) 5 1 none).setSreg f.sdst.toNat ((s.core p).sreg f.sa.toNat + f.imm.signExtend 64))) ∧
    (AtCore (.li p f) p s k → Answers (.li p f) s fun t => OnlyCore s t p
      ((issued (s.core p) 5 1 none).setSreg f.sdst.toNat (f.imm.signExtend 64))) ∧
    (AtCore (.lih p f) p s k → Answers (.lih p f) s fun t => OnlyCore s t p
      ((issued (s.core p) 5 1 none).setSreg f.sdst.toNat (f.imm ++ ((s.core p).sreg f.sdst.toNat).setWidth 32))) ∧
    (AtCore (.getid p f) p s k → f.imm.toNat < 4 → Answers (.getid p f) s fun t => OnlyCore s t p
      ((issued (s.core p) 5 1 none).setSreg f.sdst.toNat (BitVec.ofNat 64 (identity (s.core p).logical f.imm.toNat)))) ∧
    (AtCore (.ctlNop p f) p s k → Answers (.ctlNop p f) s fun t => OnlyCore s t p (issued (s.core p) 5 1 none)) ∧
    (AtCore (.end_ p f) p s k → Answers (.end_ p f) s fun t => OnlyCore s t p { issued (s.core p) 5 1 none with ended := true })

/-- The CTL instructions on scalar registers (R117, R141): those of two sources, and those of an immediate. -/
def Obligations.CtlArithmeticCompletes : Prop :=
  Sys2Proof.Slice0.CtlBinaryCompletes ∧ Sys2Proof.Slice0.CtlImmediateCompletes

/-- LDS and STS complete for a doubleword of local scratch at SA[19:0] + imm. -/
def Obligations.LocalScratchAccessCompletes : Prop :=
  ∀ (p a : Nat) (f : CtlFields) (s : State) (k : KImage),
    (((s.core p).sbits f.sa.toNat 19 0 : Nat) : Int) + f.imm.toInt = (a : Int) → a + 8 ≤ 0x100000 → a % 8 = 0 →
    Unhindered (s.core p) 5 [(a, 8)] →
    (AtCore (.lds p f) p s k → Answers (.lds p f) s fun t => OnlyCore s t p
      ((issued (s.core p) 5 5 none).setSreg f.sdst.toNat (BitVec.ofNat 64 (Memory.readLe (s.core p).ls a 8)))) ∧
    (AtCore (.sts p f) p s k → Answers (.sts p f) s fun t => OnlyCore s t p
      { issued (s.core p) 5 5 none with ls := Memory.writeLe (s.core p).ls a 8 ((s.core p).sreg f.sb.toNat).toNat })

/-- Every byte of local scratch but the eight that STS stores reads as before, and what it stores reads back. -/
def Obligations.StoreTouchesOnlyItsBytes : Prop :=
  ∀ (p a : Nat) (f : CtlFields) (s t : State) (k : KImage),
    (((s.core p).sbits f.sa.toNat 19 0 : Nat) : Int) + f.imm.toInt = (a : Int) → a + 8 ≤ 0x100000 → a % 8 = 0 →
    Unhindered (s.core p) 5 [(a, 8)] → AtCore (.sts p f) p s k → exec (.sts p f) s = .next t →
    BitVec.ofNat 64 (Memory.readLe (t.core p).ls a 8) = (s.core p).sreg f.sb.toNat ∧
    (∀ b, b < a ∨ a + 8 ≤ b → Memory.read (t.core p).ls b = Memory.read (s.core p).ls b) ∧
    (∀ r, (t.core p).sreg r = (s.core p).sreg r) ∧ (t.core p).vregs = (s.core p).vregs ∧ (t.core p).acc = (s.core p).acc ∧
    (∀ q, q ≠ p → t.core q = s.core q) ∧ t.slices = s.slices ∧ t.lpxMem = s.lpxMem ∧ t.host = s.host ∧ t.jobs = s.jobs

/-- An access outside local scratch, or not at a multiple of 8, raises LS_BOUNDS: the core faults before the instruction. -/
def Sys2Proof.Slice0.LocalScratchBoundsFault : Prop :=
  ∀ (p : Nat) (f : CtlFields) (s : State) (k : KImage) (a : Int),
    a = (((s.core p).sbits f.sa.toNat 19 0 : Nat) : Int) + f.imm.toInt → (a < 0 ∨ 0x100000 < a + 8 ∨ a % 8 ≠ 0) →
    (AtCore (.lds p f) p s k → exec (.lds p f) s = .next (s.coreFault p k 0x0D 0 5)) ∧
    (AtCore (.sts p f) p s k → exec (.sts p f) s = .next (s.coreFault p k 0x0D 0 5))

/-- A branch whose target lies in the code completes: taken under its condition, with the target relative to its own index (log entry 17),
else with the next index. -/
def Obligations.BranchCompletes : Prop :=
  ∀ (p n : Nat) (f : CtlFields) (s : State) (k : KImage) (x y : W64),
    AtCore (.br p f) p s k → (s.core p).depth 5 < 16 → f.cond.toNat ≤ 5 →
    ((s.core p).pc : Int) + f.imm.toInt = (n : Int) → n < k.code.length →
    x = (s.core p).sreg f.sa.toNat → y = (s.core p).sreg f.sb.toNat →
    Answers (.br p f) s fun t => OnlyCore s t p { issued (s.core p) 5 1 none with
      pc := if (f.cond = 0#5 ∧ x = y) ∨ (f.cond = 1#5 ∧ x ≠ y) ∨ (f.cond = 2#5 ∧ x.toInt < y.toInt) ∨
          (f.cond = 3#5 ∧ x.toNat < y.toNat) ∨ (f.cond = 4#5 ∧ y.toInt ≤ x.toInt) ∨ (f.cond = 5#5 ∧ y.toNat ≤ x.toNat)
        then n else (s.core p).pc + 1 }

/-- A word of a class that no table lists raises ILLEGAL_CLASS, a word whose opcode its class does not list ILLEGAL_OPCODE (R122). -/
def Sys2Proof.Slice0.UnlistedWordFaults : Prop :=
  ∀ (p : Nat) (w : W64) (s : State) (k : KImage), p < 544 → s.imageOf p = some k → (s.core p).canIssue = true →
    k.code[(s.core p).pc]? = some w → decodeIsa p w = none →
    Answers (.illegalInstruction p w) s fun t =>
      ((w.extractLsb' 60 4).toNat = 0 ∨ 7 ≤ (w.extractLsb' 60 4).toNat → t = s.coreFault p k 0x01 0 0) ∧
      (1 ≤ (w.extractLsb' 60 4).toNat ∧ (w.extractLsb' 60 4).toNat ≤ 6 →
        ∃ unit, 1 ≤ unit ∧ unit ≤ 5 ∧ t = s.coreFault p k 0x02 0 unit)

/-- A precise fault stops the core before the faulting instruction, records the cause and its place, and posts its event; then the job
of the core's half ends with the status of the cause (R95, R148, R150). -/
def Sys2Proof.Slice0.PreciseFaultRecords : Prop :=
  ∀ (s : State) (p : Nat) (k : KImage) (cause tile unit : Nat),
    ∃ (u : State) (e : Event), s.coreFault p k cause tile unit = u.endJob (s.ownerOf (coreHalf p)) (causeStatus cause) ∧
      u.core p = { s.core p with st := .faulted, faultCause := cause, faultTile := (if causeTile cause then tile else 0),
                                 faultUnit := unit, faultOfs := k.codeOfs + 8 * (s.core p).pc, stall := .none } ∧
      (∀ q, q ≠ p → u.core q = s.core q) ∧ u.host.held = s.host.held ++ [e] ∧ e.source = 0x10 + p ∧
      e.code = (if cause = 0x10 then 0x0202 else 0x0201) ∧ e.status = causeStatus cause ∧
      { u with cores := s.cores, host := s.host } = s

/-- Where the core faults on an access or a word, and what a precise fault does (R95, R122, R148 to R150). -/
def Obligations.CoreFaultsArePrecise : Prop :=
  Sys2Proof.Slice0.LocalScratchBoundsFault ∧ Sys2Proof.Slice0.UnlistedWordFaults ∧ Sys2Proof.Slice0.PreciseFaultRecords

/-! ## The matrix, vector, stochastic and crossbar instructions -/

namespace Sys2Proof.Slice0
open Sys2Proof Sys2Proof.Machine

/-- The fields that a vector instruction with two sources and no immediate leaves reserved are zero (R133). -/
def veTwoSource (f : VeFields) : Prop := f.vc = 0 ∧ f.ss = 0 ∧ f.rm = 0 ∧ f.fn = 0 ∧ f.imm = 0

/-- FMT names FP32 or INT32 (R41, R133). -/
def fp32OrInt32 (f : VeFields) : Prop := f.fmt = 0 ∨ f.fmt = 0x0E

/-- The vector instructions VD = VA op VB with their FP32 and INT32 operations (R133). -/
def veArithmetic : List ((Nat → VeFields → Instr) × (W32 → W32 → W32) × (W32 → W32 → W32)) :=
  [(Instr.vadd, f32Add, (· + ·)), (Instr.vsub, f32Sub, (· - ·)), (Instr.vmul, f32Mul, (· * ·))]

/-- The stochastic operands that every SU instruction needs: 1 to 64 elements and a quad for the Spore key and counter (R118, R135). -/
def suOperands (f : SuFields) : Prop :=
  f.rsv = 0 ∧ 1 ≤ f.n.toNat ∧ f.n.toNat ≤ 64 ∧ f.sq.toNat % 4 = 0 ∧ 4 ≤ f.sq.toNat

/-- The uniform of element i under a quad and an element base (R210, R218). -/
def uniform (c : Core) (f : SuFields) (i : Nat) : Nat :=
  sporeU24 (c.sreg (f.sq.toNat + 1) ++ c.sreg f.sq.toNat)
    (quadCtr (c.sreg (f.sq.toNat + 2)) (c.sreg (f.sq.toNat + 3)) (c.sreg f.se.toNat) i)

end Sys2Proof.Slice0

/-- VADD, VSUB and VMUL complete element by element in FP32 or INT32. -/
def Sys2Proof.Slice0.VectorArithmeticCompletes : Prop :=
  ∀ e ∈ veArithmetic, ∀ (p : Nat) (f : VeFields) (s : State) (k : KImage), AtCore (e.1 p f) p s k → (s.core p).depth 2 < 16 →
    veTwoSource f → fp32OrInt32 f →
    Answers (e.1 p f) s fun t => ∃ d, OnlyCore s t p d ∧
      { d with vregs := (s.core p).vregs } = issued (s.core p) 2 5 none ∧
      (∀ i, i < 64 → d.lane f.vd.toNat i = (if f.fmt = 0x0E then e.2.2 else e.2.1) ((s.core p).lane f.va.toNat i) ((s.core p).lane f.vb.toNat i)) ∧
      (∀ v i, v ≠ f.vd.toNat → i < 64 → d.lane v i = (s.core p).lane v i)

/-- VFMA, VMAX, VMIN, VADDS, VMULS, VACT and VLOG complete element by element; no other vector register changes. -/
def Sys2Proof.Slice0.VectorMapsComplete : Prop :=
  ∀ (p : Nat) (f : VeFields) (s : State) (k : KImage) (c : Core) (x : W32), c = s.core p → c.depth 2 < 16 →
    x = BitVec.ofNat 32 (bits (c.sreg f.ss.toNat).toNat 31 0) →
    ∀ (i : Instr) (cc : Nat) (g : Nat → W32),
      ((i = .vfma p f ∧ f.ss = 0 ∧ f.fmt = 0 ∧ f.rm = 0 ∧ f.fn = 0 ∧ f.imm = 0 ∧ cc = 5 ∧
          g = fun n => f32Fma (c.lane f.va.toNat n) (c.lane f.vb.toNat n) (c.lane f.vc.toNat n)) ∨
        (i = .vmax p f ∧ veTwoSource f ∧ f.fmt = 0 ∧ cc = 5 ∧
          g = fun n => valueWinner true (c.lane f.va.toNat n) (c.lane f.vb.toNat n)) ∨
        (i = .vmin p f ∧ veTwoSource f ∧ f.fmt = 0 ∧ cc = 5 ∧
          g = fun n => valueWinner false (c.lane f.va.toNat n) (c.lane f.vb.toNat n)) ∨
        (i = .vadds p f ∧ f.vb = 0 ∧ f.vc = 0 ∧ f.fmt = 0 ∧ f.rm = 0 ∧ f.fn = 0 ∧ f.imm = 0 ∧ cc = 5 ∧
          g = fun n => f32Add (c.lane f.va.toNat n) x) ∨
        (i = .vmuls p f ∧ f.vb = 0 ∧ f.vc = 0 ∧ f.fmt = 0 ∧ f.rm = 0 ∧ f.fn = 0 ∧ f.imm = 0 ∧ cc = 5 ∧
          g = fun n => f32Mul (c.lane f.va.toNat n) x) ∨
        (i = .vact p f ∧ f.vb = 0 ∧ f.vc = 0 ∧ f.ss = 0 ∧ f.fmt = 0 ∧ f.rm = 0 ∧ f.imm = 0 ∧ f.fn.toNat < 8 ∧ cc = 15 ∧
          ∀ n, activation f.fn.toNat (c.lane f.va.toNat n) = some (g n)) ∨
        (i = .vlog p f ∧ f.vb = 0 ∧ f.vc = 0 ∧ f.ss = 0 ∧ f.fmt = 0 ∧ f.rm = 0 ∧ f.imm = 0 ∧ f.fn.toNat < 2 ∧ cc = 15 ∧
          g = fun n => if f.fn = 0 then log2K (c.lane f.va.toNat n) else lnK (c.lane f.va.toNat n))) →
      AtCore i p s k →
      Answers i s fun t => ∃ d, OnlyCore s t p d ∧ { d with vregs := c.vregs } = issued c 2 cc none ∧
        (∀ n, n < 64 → d.lane f.vd.toNat n = g n) ∧ (∀ v n, v ≠ f.vd.toNat → n < 64 → d.lane v n = c.lane v n)

/-- The vector instructions that work element by element (R133). -/
def Obligations.VectorElementwiseComplete : Prop :=
  Sys2Proof.Slice0.VectorArithmeticCompletes ∧ Sys2Proof.Slice0.VectorMapsComplete

/-- VLD and VST complete: 64 packed elements from local scratch, FP16 and BF16 widened to FP32; 64 words to local scratch. -/
def Sys2Proof.Slice0.VectorLoadStoreComplete : Prop :=
  ∀ (p a nb : Nat) (f : VeFields) (s : State) (k : KImage) (c : Core), c = s.core p →
    a = bits (c.sreg f.ss.toNat).toNat 19 0 + 64 * f.imm.toNat →
    (AtCore (.vld p f) p s k → f.va = 0 → f.vb = 0 → f.vc = 0 → f.rm = 0 → f.fn = 0 →
      ((f.fmt = 0 ∨ f.fmt = 0x0E) ∧ nb = 32 ∨ (f.fmt = 1 ∨ f.fmt = 2) ∧ nb = 16) → a + 8 * nb ≤ 0x100000 →
      Unhindered c 2 [(a, 8 * nb)] →
      Answers (.vld p f) s fun t => OnlyCore s t p ((issued c 2 5 none).setVec f.vd.toNat ((List.range 64).map fun i =>
        if nb = 16 then toF32 (elemVal f.fmt.toNat (rawAt c.ls a (16 * i) 16) 0) else BitVec.ofNat 32 (rawAt c.ls a (32 * i) 32)))) ∧
    (AtCore (.vst p f) p s k → f.vd = 0 → f.vb = 0 → f.vc = 0 → f.fmt = 0 → f.rm = 0 → f.fn = 0 → a + 256 ≤ 0x100000 →
      Unhindered c 2 [(a, 256)] →
      Answers (.vst p f) s fun t => OnlyCore s t p
        { issued c 2 5 none with ls := Memory.writeBytes c.ls a (vecBytes (c.vec f.va.toNat)) })

/-- VCVT completes for every format code that it accepts: into the format with FN[0] = 0, from it with FN[0] = 1; the uniforms of its
stochastic rounding are free values (log entry 6). -/
def Sys2Proof.Slice0.ConversionCompletes : Prop :=
  ∀ (p : Nat) (f : VeFields) (s : State) (k : KImage), AtCore (.vcvt p f) p s k → (s.core p).depth 2 < 16 →
    f.vb = 0 → f.vc = 0 → f.imm = 0 → (isMx f.fmt.toNat = false → f.ss = 0) → f.fn.toNat ≤ 1 → f.fmt.toNat ≤ 0x0E → f.rm ≠ 3 →
    Answers (.vcvt p f) s fun t => OnlyCore s t p
      (if f.fn = 0 then cvtInto f s.freeCtr (issued (s.core p) 2 5 none) else cvtFrom f (issued (s.core p) 2 5 none))

/-- The vector instructions that move or convert a register (R133, R134). -/
def Obligations.VectorMemoryAndConversionComplete : Prop :=
  Sys2Proof.Slice0.VectorLoadStoreComplete ∧ Sys2Proof.Slice0.ConversionCompletes

/-- VRSUM and VRMAXI complete over the FP32 array that SS names: the canonical sum, and the winner with its index. -/
def Sys2Proof.Slice0.VectorReductionsComplete : Prop :=
  ∀ (p a n : Nat) (f : VeFields) (s : State) (k : KImage) (c : Core), c = s.core p → a = bits (c.sreg f.ss.toNat).toNat 19 0 →
    n = bits (c.sreg f.ss.toNat).toNat 43 20 → a + 4 * n ≤ 0x100000 → Unhindered c 2 [(a, 4 * n)] →
    f.va = 0 → f.vb = 0 → f.vc = 0 → f.fmt = 0 → f.rm = 0 → f.fn = 0 →
    (AtCore (.vrsum p f) p s k → f.imm = 0 →
      Answers (.vrsum p f) s fun t => OnlyCore s t p ((issued c 2 (reduceCc n) none).setVec f.vd.toNat
        [canonicalSum 0#32 ((wordsAt c.ls a n).map f32Val)])) ∧
    (AtCore (.vrmaxi p f) p s k → ∀ w, bestPair true ((wordsAt c.ls a n).mapIdx fun i x =>
        IdxPair.mk x (BitVec.ofNat 32 (i + f.imm.toNat))) = some w →
      Answers (.vrmaxi p f) s fun t => OnlyCore s t p ((issued c 2 (reduceCc n) none).setVec f.vd.toNat [w.value, w.index]))

/-- VSORT and VMERGE complete: the pairs of VA and VB best first in VD and VD + 1; the best 64 of two sets of pairs. -/
def Sys2Proof.Slice0.SortingCompletes : Prop :=
  ∀ (p : Nat) (f : VeFields) (s : State) (k : KImage) (c : Core), c = s.core p → c.depth 2 < 16 → veTwoSource f → f.fmt = 0 →
    f.vd.toNat % 2 = 0 →
    (AtCore (.vsort p f) p s k → Answers (.vsort p f) s fun t => OnlyCore s t p
      ((issued c 2 27 none).setPairs f.vd.toNat (sortPairs ((c.pairs f.va.toNat f.vb.toNat).map canonPair)))) ∧
    (AtCore (.vmerge p f) p s k → f.va.toNat % 2 = 0 → f.vb.toNat % 2 = 0 →
      Answers (.vmerge p f) s fun t => OnlyCore s t p ((issued c 2 10 none).setPairs f.vd.toNat
        ((sortPairs ((c.pairs f.va.toNat (f.va.toNat + 1) ++ c.pairs f.vb.toNat (f.vb.toNat + 1)).map canonPair)).take 64)))

/-- The vector instructions that reduce or sort (R104, R133). -/
def Obligations.VectorReductionsAndSortsComplete : Prop :=
  Sys2Proof.Slice0.VectorReductionsComplete ∧ Sys2Proof.Slice0.SortingCompletes

/-- Sorting keeps the pairs and puts none behind a pair that it beats (R104, R133). -/
def Obligations.SortIsOrderedPermutation : Prop :=
  ∀ ps : List IdxPair, (sortPairs ps).Perm ps ∧ (sortPairs ps).Pairwise fun a b => beats true b a = false

/-- VTACC completes on a 64-column tile of the tag that FN asks for: FP32 addition, or the winner of value and index. -/
def Sys2Proof.Slice0.TileAccumulateCompletes : Prop :=
  ∀ (p n : Nat) (f : VeFields) (s : State) (k : KImage) (c : Core) (t : Tile), AtCore (.vtacc p f) p s k → c = s.core p →
    c.depth 2 < 16 → f.vd = 0 → f.ss = 0 → f.fmt = 0 → f.rm = 0 → f.fn.toNat ≤ 2 → n = f.vc.toNat → n < 16 → k.tile n = some t →
    t.cols = 64 → f.imm.toNat < t.rows →
    ((f.fn = 0 ∧ c.tag n = 0) ∨ (f.fn ≠ 0 ∧ c.tag n = 2 ∧ t.idx = true)) →
    Answers (.vtacc p f) s fun u => OnlyCore s u p { issued c 2 5 none with
      acc := (List.range 64).foldl (fun m i =>
        if f.fn = 0 then setTileVal m t f.imm.toNat i (f32Add (c.tileVal t f.imm.toNat i) (c.lane f.va.toNat i))
        else setTilePair m t f.imm.toNat i (winner (f.fn == 1#4) (c.tilePair t f.imm.toNat i)
          ⟨c.lane f.va.toNat i, c.lane f.vb.toNat i⟩)) c.acc }

/-- MMA without a fault completes: every element of the tile is its prior value (zero with OVW) and the products of a row of A and a
row of B in the canonical order; the tag is TFMT; no byte outside the tile's extent changes. -/
def Sys2Proof.Slice0.MatrixMultiplyCompletes : Prop :=
  ∀ (p n : Nat) (f : MmaFields) (s : State) (k : KImage) (c : Core) (t : Tile), AtCore (.mma p f) p s k → c = s.core p →
    (opMma c k f).fault = none → Unhindered c 1 (opMma c k f).ranges → k.tile f.td.toNat = some t → n = bits (c.sreg f.sk.toNat).toNat 23 0 →
    Answers (.mma p f) s fun u => ∃ d, OnlyCore s u p d ∧ d.tag f.td.toNat = f.tfmt.toNat ∧
      (∀ q, q ≠ f.td.toNat → d.tag q = c.tag q) ∧ d.sregs = c.sregs ∧ d.vregs = c.vregs ∧ d.ls = c.ls ∧ d.pc = c.pc + 1 ∧
      (∀ r q, r < t.rows → q < t.cols → d.tileVal t r q =
        if isIntOperand f.fmta.toNat
        then (mmaElemInt (if f.ovw = 1 then 0 else c.tileVal t r q) (mmaRowInt c.ls (c.mmaOperand f.sa.toNat) f.fmta.toNat n r)
          (mmaRowInt c.ls (c.mmaOperand f.sb.toNat) f.fmtb.toNat n q)).1
        else mmaElem (if f.ovw = 1 then 0 else c.tileVal t r q) (mmaRow c.ls (c.mmaOperand f.sa.toNat) f.fmta.toNat n r)
          (mmaRow c.ls (c.mmaOperand f.sb.toNat) f.fmtb.toNat n q)) ∧
      (∀ a, a < t.base ∨ t.base + t.extent ≤ a → Memory.read d.acc a = Memory.read c.acc a)

/-- When MMA raises a precise fault: exactly under the conditions of R92, R94, R123, R124, R126, R128, R132, R149. -/
def Sys2Proof.Slice0.MatrixMultiplyFaults : Prop :=
  ∀ (c : Core) (k : KImage) (f : MmaFields),
    (opMma c k f).fault = none ↔
      f.rsv = 0 ∧ bits (c.sreg f.sk.toNat).toNat 23 0 ≠ 0 ∧ isMxeFormat f.fmta.toNat = true ∧ isMxeFormat f.fmtb.toNat = true ∧
      f.tfmt ≠ 3 ∧ isIntOperand f.fmta.toNat = isIntOperand f.fmtb.toNat ∧
      f.tfmt.toNat = (if isIntOperand f.fmta.toNat then 1 else 0) ∧
      ((isMx f.fmta.toNat = true ∨ isMx f.fmtb.toNat = true) → bits (c.sreg f.sk.toNat).toNat 55 24 % 32 = 0) ∧
      (k.tile f.td.toNat).isSome = true ∧ (f.ovw = 0 → c.tag f.td.toNat = f.tfmt.toNat) ∧
      (∀ r ∈ (opMma c k f).ranges, 0 < r.2 → r.1 + r.2 ≤ 0x100000)

/-- MMA completes exactly where no rule raises a fault (R77 to R95, R123 to R132). -/
def Obligations.MatrixMultiplyCompletesOrFaults : Prop :=
  Sys2Proof.Slice0.MatrixMultiplyCompletes ∧ Sys2Proof.Slice0.MatrixMultiplyFaults

/-- ZERO, TLD and OUT without a fault complete: the extent zero or loaded row by row from local scratch, the tag TFMT; the tile's rows
through the output path into local scratch. -/
def Sys2Proof.Slice0.TileMovesComplete : Prop :=
  ∀ (p : Nat) (s : State) (k : KImage) (c : Core) (t : Tile), c = s.core p →
    (∀ f : ZeroFields, AtCore (.zero p f) p s k → f.rsvHi = 0 → f.rsvLo = 0 → f.tfmt ≠ 3 → k.tile f.td.toNat = some t →
      (f.tfmt = 2 → t.idx = true) → c.depth 1 < 16 →
      Answers (.zero p f) s fun u => ∃ d, OnlyCore s u p d ∧ d.tag f.td.toNat = f.tfmt.toNat ∧ d.blockCount f.td.toNat = 0 ∧
        d.ls = c.ls ∧ d.sregs = c.sregs ∧ d.vregs = c.vregs ∧
        (∀ a, Memory.read d.acc a = if t.base ≤ a ∧ a < t.base + t.extent then 0#8 else Memory.read c.acc a)) ∧
    (∀ f : TldFields, AtCore (.tld p f) p s k → (opTld c k f).fault = none → Unhindered c 1 (opTld c k f).ranges →
      k.tile f.td.toNat = some t →
      Answers (.tld p f) s fun u => ∃ d, OnlyCore s u p d ∧ d.tag f.td.toNat = f.tfmt.toNat ∧ d.blockCount f.td.toNat = 0 ∧
        d.ls = c.ls ∧ d.sregs = c.sregs ∧ d.vregs = c.vregs ∧
        (∀ r b, r < t.rows → b < t.cols * t.esize → Memory.read d.acc (t.base + r * (t.cols * t.esize) + b) =
          Memory.read c.ls (bits (c.sreg f.sa.toNat).toNat 19 0 + r * bits (c.sreg f.sa.toNat).toNat 59 40 + b)) ∧
        (∀ a, a < t.base ∨ t.base + t.extent ≤ a → Memory.read d.acc a = Memory.read c.acc a)) ∧
    (∀ f : OutFields, AtCore (.out p f) p s k → (opOut c k f).fault = none → Unhindered c 1 (opOut c k f).ranges →
      k.tile f.ts.toNat = some t →
      Answers (.out p f) s fun u => ∃ d, OnlyCore s u p d ∧ d.acc = c.acc ∧ d.tags = c.tags ∧ d.sregs = c.sregs ∧ d.vregs = c.vregs ∧
        d.ls = (List.range t.rows).foldl (fun m r => Memory.writeBytes m
          (bits (c.sreg f.sd.toNat).toNat 19 0 + r * bits (c.sreg f.sd.toNat).toNat 39 20) (outRow (issued c 1 (opOut c k f).cc none) f (c.outArgs f) t r).1) c.ls)

/-- ZERO, TLD, OUT and VTACC (R92 to R94, R106 to R113, R127 to R134). -/
def Obligations.TilesMoveAndAccumulate : Prop :=
  Sys2Proof.Slice0.TileMovesComplete ∧ Sys2Proof.Slice0.TileAccumulateCompletes

/-- SUNIF, SBERNF, SBERNP, SBERNQ and SGUMB complete: one Spore draw per element, elements from N on zero (R135, R136). -/
def Sys2Proof.Slice0.StochasticDrawsComplete : Prop :=
  ∀ (p : Nat) (f : SuFields) (s : State) (k : KImage) (c : Core) (invT : W32), c = s.core p → c.depth 3 < 16 → suOperands f →
    invT = BitVec.ofNat 32 (bits (c.sreg f.st.toNat).toNat 31 0) →
    (AtCore (.sunif p f) p s k → Answers (.sunif p f) s fun t => OnlyCore s t p ((issued c 3 25 none).setVec f.dst.toNat
      ((List.range f.n.toNat).map fun i => BitVec.ofNat 32 (uniform c f i)))) ∧
    (AtCore (.sgumb p f) p s k → Answers (.sgumb p f) s fun t => OnlyCore s t p ((issued c 3 25 none).setVec f.dst.toNat
      ((List.range f.n.toNat).map fun i => gumbelAdd (c.lane f.va.toNat i) invT (uniform c f i)))) ∧
    ∀ (i : Instr) (draw : Nat → Bool × Bool),
      ((i = .sbernf p f ∧ draw = fun n => bernField (c.lane f.va.toNat n) invT (uniform c f n)) ∨
        (i = .sbernp p f ∧ draw = fun n => bernProb (c.lane f.va.toNat n) (uniform c f n)) ∨
        (i = .sbernq p f ∧ draw = fun n => (decide (uniform c f n < ((c.lane f.va.toNat n).toNat % 2 ^ 16) * 256), false))) →
      AtCore i p s k →
      Answers i s fun t => ∃ d, OnlyCore s t p d ∧ d.vregs = c.vregs ∧ d.ls = c.ls ∧ d.acc = c.acc ∧
        (f.dst ≠ 0 → ∀ n, n < 64 → (d.sreg f.dst.toNat).getLsbD n = (decide (n < f.n.toNat) && (draw n).1)) ∧
        (∀ r, r ≠ f.dst.toNat → d.sreg r = c.sreg r) ∧
        d.nanLost = (c.nanLost || (List.range f.n.toNat).any fun n => (draw n).2)

/-- SCAT completes for groups of 2 to 64 that divide N: each group's lane receives the position of its best noisy score; lanes from N on
are zero. -/
def Sys2Proof.Slice0.CategoricalDrawCompletes : Prop :=
  ∀ (p g : Nat) (f : SuFields) (s : State) (k : KImage) (c : Core) (inv : W32), AtCore (.scat p f) p s k → c = s.core p →
    c.depth 3 < 16 → suOperands f → g = bits (c.sreg f.st.toNat).toNat 6 0 → g ∈ [2, 4, 8, 16, 32, 64] → f.n.toNat % g = 0 →
    inv = BitVec.ofNat 32 (bits (c.sreg f.st.toNat).toNat 63 32) →
    Answers (.scat p f) s fun t => ∃ d, OnlyCore s t p d ∧ { d with vregs := c.vregs } = issued c 3 31 none ∧
      (∀ j, j < f.n.toNat / g → ∃ w, bestPair true ((List.range g).map fun i =>
          IdxPair.mk (gumbelAdd (c.lane f.va.toNat (j * g + i)) inv (uniform c f (j * g + i))) (BitVec.ofNat 32 i)) = some w ∧
        d.lane f.dst.toNat j = w.index) ∧
      (∀ j, f.n.toNat ≤ j → j < 64 → d.lane f.dst.toNat j = 0#32)

/-- The SU instructions (R135, R136, R218 to R222). -/
def Obligations.StochasticInstructionsComplete : Prop :=
  Sys2Proof.Slice0.StochasticDrawsComplete ∧ Sys2Proof.Slice0.CategoricalDrawCompletes

/-- XRD, XWR and XRED are issued with the transfer that the phase table gives the core's port; a write carries its bytes of local
scratch from its issue (R137, R138, R163). -/
def Obligations.CrossbarInstructionsIssue : Prop :=
  ∀ (p : Nat) (f : XbFields) (s : State) (k : KImage) (c : Core) (e : PhEntry) (dir : Nat) (i : Instr), c = s.core p →
    ((dir = 1 ∧ i = .xrd p f ∧ f.rop = 0) ∨ (dir = 2 ∧ i = .xwr p f ∧ f.rop = 0) ∨
      (dir = 3 ∧ i = .xred p f ∧ 1 ≤ f.rop.toNat ∧ f.rop.toNat ≤ 7 ∧ e.space = (if f.rop = 1 ∨ f.rop = 5 then 1 else 0))) →
    AtCore i p s k → f.rsv = 0 → k.slotEntry c.logical f.slot.toNat dir = some e →
    sliceFits e f.rop.toNat (bits (c.sreg f.sm.toNat).toNat 23 0) = true →
    bits (c.sreg f.sl.toNat).toNat 19 0 + e.len ≤ 0x100000 → Unhindered c 4 [(bits (c.sreg f.sl.toNat).toNat 19 0, e.len)] →
    Answers i s fun t => ∃ x, OnlyCore s t p (issued c 4 0 (some x)) ∧ x.slice = e.slice ∧ x.dir = dir ∧ x.slot = e.slot ∧
      x.len = e.len ∧ x.ls = bits (c.sreg f.sl.toNat).toNat 19 0 ∧ x.sm = bits (c.sreg f.sm.toNat).toNat 23 0 ∧
      x.rop = f.rop.toNat ∧ x.executed = false ∧ x.landed = 0 ∧
      (dir ≠ 1 → x.data = Memory.readBytes c.ls (bits (c.sreg f.sl.toNat).toNat 19 0) e.len)

/-- WAIT, XFENCE and BAR move the core past them; issue then stops while the named queues, the writes and reductions, or the barrier
hold it (R139, R140). -/
def Sys2Proof.Slice0.SyncInstructionsComplete : Prop :=
  ∀ (p : Nat) (s : State) (k : KImage) (c : Core), c = s.core p →
    (∀ f : WaitFields, AtCore (.wait p f) p s k → f.rest = 0 →
      Answers (.wait p f) s fun t => t = s.setCore p { c with pc := c.pc + 1, issued := (c.issued + 1) % 2 ^ 64, stall := if c.drained f.mask.toNat then .none else .wait f.mask.toNat }) ∧
    (AtCore (.xfence p 0) p s k →
      Answers (.xfence p 0) s fun t => t = s.setCore p { c with pc := c.pc + 1, issued := (c.issued + 1) % 2 ^ 64, stall := if c.fenced then .none else .xfence }) ∧
    (∀ f : BarFields, AtCore (.bar p f) p s k → f.rest = 0 → f.scope ≠ 3 → s.barClash p f.scope.toNat f.id.toNat c.logical = false →
      Answers (.bar p f) s fun t => t = s.setCore p { c with pc := c.pc + 1, issued := (c.issued + 1) % 2 ^ 64, stall := .bar f.id.toNat f.scope.toNat (s.half (p / 272)).nc })

/-- What ends a stall or an instruction: WAIT_RELEASE, XFENCE_RELEASE, BAR_RELEASE, INSTR_COMPLETE and CORE_DRAINED. -/
def Sys2Proof.Slice0.SequencerEventsComplete : Prop :=
  ∀ (p : Nat) (s : State) (c : Core), c = s.core p → p < 544 →
    (∀ mask, c.stall = .wait mask → c.drained mask = true →
      Answers (.waitRelease p) s fun t => t = s.setCore p { c with stall := .none }) ∧
    (c.stall = .xfence → c.fenced = true →
      Answers (.xfenceRelease p) s fun t => t = s.setCore p { c with stall := .none }) ∧
    (∀ id scope n, c.stall = .bar id scope n → (s.scopePhys p scope c.logical).length = s.scopeSize scope →
      (∀ q ∈ s.scopePhys p scope c.logical, s.arrived q (s.core q) id scope = true) →
      Answers (.barRelease p .clean) s fun t => ∀ q, t.core q =
        if q ∈ s.scopePhys p scope c.logical then { s.core q with stall := .none } else s.core q) ∧
    (∀ q x fs, c.flight = x :: fs → x.queue = q → x.finished = true →
      Answers (.instrComplete p q .clean) s fun t => t = s.setCore p { c with flight := fs }) ∧
    (c.st = .running → c.ended = true → c.flight = [] →
      Answers (.coreDrained p) s fun t =>
        t = (s.setCore p { c with st := .idle, ended := false }).launchNext (s.ownerOf (p / 272)))

/-- The SYNC instructions and what ends a stall, an instruction or a kernel (R139, R140, R142 to R147). -/
def Obligations.SequencingCompletes : Prop :=
  Sys2Proof.Slice0.SyncInstructionsComplete ∧ Sys2Proof.Slice0.SequencerEventsComplete

/-- The life of a transfer: it executes in its slot, its slot reaches the slice, a read's bytes land in local scratch, a write is
acknowledged (R163, R167, R168, R172). -/
def Obligations.CrossbarTransferSteps : Prop :=
  ∀ (p : Nat) (s : State) (c : Core) (x : Xfer) (fs : List InFlight) (cc key size : Nat), c = s.core p → p < 544 →
    c.flight = ⟨4, cc, some x⟩ :: fs → key = x.slice * 2 ^ 24 + (x.sm + x.rot + 256 * x.accessed) →
    size = Nat.min 256 (x.len - 256 * x.accessed) →
    (x.executed = false → s.atSlot (p / 272) x.slot = true →
      Answers (.xbSlotExecute p) s fun t =>
        t = s.setCore p { c with flight := ⟨4, cc, some { x with executed := true }⟩ :: fs }) ∧
    (x.executed = true → x.accessed ≤ x.run → x.space = 0 → x.dir = 2 →
      Answers (.xbSliceAccess p .clean) s fun t =>
        t.slices = Memory.writeBytes s.slices key (bytesAt x.data (256 * x.accessed) size) ∧
        (t.core p).flight = ⟨4, cc, some { x with accessed := x.accessed + 1 }⟩ :: fs ∧ t.exact = s.exact) ∧
    (x.executed = true → x.accessed ≤ x.run → x.space = 0 → x.dir = 1 →
      Answers (.xbSliceAccess p .clean) s fun t => t.slices = s.slices ∧ t.exact = s.exact ∧
        (t.core p).flight = ⟨4, cc, some { x with accessed := x.accessed + 1, got := x.got ++ Memory.readBytes s.slices key size }⟩ :: fs) ∧
    (x.dir = 1 → x.landed < x.accessed →
      Answers (.xbDataLand p) s fun t => t = s.setCore p { c with
        ls := Memory.writeBytes c.ls (x.ls + 256 * x.landed) (bytesAt x.got (256 * x.landed) (Nat.min 256 (x.len - 256 * x.landed))),
        flight := ⟨4, cc, some { x with landed := x.landed + 1 }⟩ :: fs }) ∧
    (x.dir ≠ 1 → x.landed < x.accessed →
      Answers (.xbAck p) s fun t => t = s.setCore p { c with flight := ⟨4, cc, some { x with landed := x.landed + 1 }⟩ :: fs })

/-! ## Slice reductions (R97 to R105) -/

namespace Sys2Proof.Slice0
open Sys2Proof Sys2Proof.Machine

/-- One contribution to an exact accumulator: an FP32 value or a raw image (R98, R101). -/
inductive Contribution where
  | value (x : W32)
  | image (bytes : List Byte)

/-- The accumulator with a contribution applied. -/
def contribute (a : ExactAcc) : Contribution → ExactAcc
  | .value x => a.addF32 x
  | .image b => a.addRaw b

end Sys2Proof.Slice0

/-- The final value of an exact accumulator does not depend on the order of its contributions (R100). -/
def Obligations.AccumulationIsOrderFree : Prop :=
  ∀ (a : ExactAcc) (xs ys : List Contribution), xs.Perm ys → xs.foldl contribute a = ys.foldl contribute a

/-- A raw image carries an accumulator whole: adding it to a cleared accumulator gives the accumulator back (R97, R101). -/
def Sys2Proof.Slice0.RawImageCarriesAccumulator : Prop :=
  ∀ a : ExactAcc, -(2 ^ 639) ≤ a.acc → a.acc < 2 ^ 639 → a.raw.length = 128 ∧ ExactAcc.zero.addRaw a.raw = a

/-- RAW_PARTIALS adds each image to its accumulator; no other accumulator of the slice changes (R101, R182). -/
def Sys2Proof.Slice0.RawPartialsComplete : Prop :=
  ∀ (slice n : Nat) (image : List Byte) (s : State), slice < 512 → n < 4096 →
    Answers (.rawPartials slice n [image]) s fun t => { t with exact := s.exact } = s ∧
      t.acc slice n = (s.acc slice n).addRaw image ∧ ∀ m j, (m ≠ slice ∨ j ≠ n) → j < 4096 → t.acc m j = s.acc m j

/-- Raw images and RAW_PARTIALS (R97, R101, R182). -/
def Obligations.RawImagesAccumulate : Prop :=
  Sys2Proof.Slice0.RawImageCarriesAccumulator ∧ Sys2Proof.Slice0.RawPartialsComplete

/-! ## Ring sets, doorbells, events and the staging window (chapter 13) -/

namespace Sys2Proof.Slice0
open Sys2Proof Sys2Proof.Machine

/-- Nothing but ring set c differs, and it holds `r`. -/
def OnlyRing (s t : State) (c : Nat) (r : RingSet) : Prop :=
  { t with host := { t.host with sets := s.host.sets } } = s ∧ ∀ q, t.ring q = if q = c then r else s.ring q

/-- As `OnlyRing`, with one event more among the held ones. -/
def RingAndEvent (s t : State) (c : Nat) (r : RingSet) (e : Event) : Prop :=
  { t with host := { t.host with sets := s.host.sets, held := s.host.held } } = s ∧ (∀ q, t.ring q = if q = c then r else s.ring q) ∧
    t.host.held = s.host.held ++ [e]

/-- A new value is valid for an index whose reference is `ref` and whose limit is `top` (R455, R461). -/
def validIndex (ref top v : Nat) : Prop := belowIndex ref v = false ∧ extendIndex ref v ≤ top

/-- The ring set takes BAR2 writes (R458). -/
def takesBar2 (s : State) (set : Nat) : Prop := set < 16 ∧ (s.ring set).st = 1 ∧ s.usesLine set = false

/-- The host command that a command of the model is: its head, its opcode, the context of the checks of R465. -/
def hostOp : Instr → Option (Head × Nat × Nat)
  | .nop h => some (h, 0x00, h.set)
  | .jobOpen h _ _ => some (h, 0x01, h.set)
  | .jobClose h => some (h, 0x02, h.set)
  | .jobEnd h c => some (h, 0x03, if h.set = 0 then c else h.set)
  | .jobDiscard h _ => some (h, 0x04, h.set)
  | .open_ h _ _ _ _ => some (h, 0x10, h.set)
  | .score h _ _ _ _ => some (h, 0x11, h.set)
  | .fork h _ _ _ _ _ _ => some (h, 0x12, h.set)
  | .append h _ _ _ _ => some (h, 0x13, h.set)
  | .resume h _ _ => some (h, 0x14, h.set)
  | .close h _ _ => some (h, 0x15, h.set)
  | .setLoad h _ _ _ => some (h, 0x16, h.set)
  | .bedStage h _ _ _ => some (h, 0x30, h.set)
  | .bedLoad h _ _ _ _ => some (h, 0x31, h.set)
  | .bedCommit h _ _ _ => some (h, 0x32, h.set)
  | .bedDrop h _ => some (h, 0x33, h.set)
  | .gibbsModelLoad h _ _ _ => some (h, 0x40, h.set)
  | .gibbsModelDrop h _ => some (h, 0x41, h.set)
  | .chainOpen h _ _ _ _ _ _ _ _ _ _ _ => some (h, 0x42, h.set)
  | .chainSet h _ _ _ _ _ _ _ => some (h, 0x43, h.set)
  | .chainWrite h _ _ _ _ => some (h, 0x44, h.set)
  | .chainRead h _ _ _ _ => some (h, 0x45, h.set)
  | .gibbsRun h _ _ _ _ _ _ _ _ _ _ => some (h, 0x46, h.set)
  | .mossRegion h _ _ _ _ _ _ => some (h, 0x50, h.set)
  | .mossLoad h _ _ _ _ _ _ => some (h, 0x51, h.set)
  | .mossRun h _ => some (h, 0x52, h.set)
  | .mossStop h _ => some (h, 0x53, h.set)
  | .mossResume h _ _ => some (h, 0x54, h.set)
  | .mossRead h _ _ => some (h, 0x55, h.set)
  | .cutNow h => some (h, 0x60, h.set)
  | .regrow h _ _ _ _ _ _ _ _ _ => some (h, 0x61, h.set)
  | .ctxRegister h _ _ => some (h, 0x70, h.set)
  | .ctxDestroy h _ => some (h, 0x71, h.set)
  | .ctxRun h _ _ => some (h, 0x72, h.set)
  | .kernelLoad h _ _ => some (h, 0x80, h.set)
  | .kernelUnload h _ => some (h, 0x81, h.set)
  | .stepBind h _ _ => some (h, 0x82, h.set)
  | .randStoch h _ _ _ => some (h, 0x90, h.set)
  | .randDrbg h _ _ _ => some (h, 0x91, h.set)
  | .randRaw h _ _ _ => some (h, 0x92, h.set)
  | _ => none

/-- The state once a host command has its four completion records reserved (R461, R467). -/
def taken (s : State) (h : Head) (op : Nat) : State := s.setRing h.set ((s.ring h.set).reserve h op)

/-- The device takes the command: its ring set exists, can take it, and checks 4 to 6 of R465 pass. -/
structure Taken (s : State) (h : Head) (op c : Nat) : Prop where
  set : h.set < 16
  takes : (s.ring h.set).takes = true
  passes : s.gateStatus h.set op c = 0

end Sys2Proof.Slice0

/-- A 32-bit index extends to the value nearest to its reference: at or above it, within 2^31, when it does not lie below (R455). -/
def Obligations.IndexExtendsToNearest : Prop :=
  ∀ ref v : Nat, v < 2 ^ 32 →
    (belowIndex ref v = false → extendIndex ref v % 2 ^ 32 = v ∧ ref ≤ extendIndex ref v ∧ extendIndex ref v < ref + 2 ^ 31) ∧
    (belowIndex ref v = true → ∀ x, x % 2 ^ 32 = v → x < ref ∨ ref + 2 ^ 31 ≤ x)

/-- BAR2 writes in ACTIVE, with a valid and with an invalid index; a DISABLED ring set stores them only. -/
def Sys2Proof.Slice0.DoorbellWritesComplete : Prop :=
  ∀ (set : Nat) (v : W32) (s : State) (r : RingSet), r = s.ring set →
    (takesBar2 s set → validIndex r.cmdCi (r.cmdCi + 2 ^ r.szCmd) v.toNat →
      Answers (.dbCmdPi set v) s fun t => OnlyRing s t set { r with
        bar2 := r.bar2.set 0 v, cmdPi := extendIndex r.cmdCi v.toNat, errWait := clearWait r 0
        obs := if r.cmdPi < extendIndex r.cmdCi v.toNat then
            r.obs ++ [⟨extendIndex r.cmdCi v.toNat, s.xcOf set, (s.stalls set).1, (s.stalls set).2⟩] else r.obs }) ∧
    (takesBar2 s set → ¬ validIndex r.cmdCi (r.cmdCi + 2 ^ r.szCmd) v.toNat → r.errWait % 2 = 0 →
      Answers (.dbCmdPi set v) s fun t => ∃ e, RingAndEvent s t set { r with bar2 := r.bar2.set 0 v, err := 3, errWait := r.errWait ||| 1 } e ∧
        e.code = 0x0102 ∧ e.ctx = set ∧ e.payload = toLe 1 set ++ toLe 1 3 ++ toLe 2 0 ++ toLe 4 v.toNat) ∧
    (takesBar2 s set → validIndex r.tokCi r.tokPi v.toNat →
      Answers (.dbTokCi set v) s fun t => OnlyRing s t set
        { r with bar2 := r.bar2.set 1 v, tokCi := extendIndex r.tokCi v.toNat, errWait := clearWait r 1 }) ∧
    (takesBar2 s set → validIndex r.cplCi r.cplPi v.toNat →
      Answers (.dbCplCi set v) s fun t => OnlyRing s t set
        { r with bar2 := r.bar2.set 2 v, cplCi := extendIndex r.cplCi v.toNat, errWait := clearWait r 2 }) ∧
    (takesBar2 s set → validIndex r.evtCi r.evtPi v.toNat → r.evtWait = 0 →
      Answers (.dbEvtCi set v) s fun t => OnlyRing s t set
        { r with bar2 := r.bar2.set 3 v, evtCi := extendIndex r.evtCi v.toNat, errWait := clearWait r 3 }) ∧
    (takesBar2 s set → validIndex r.evtCi r.evtPi v.toNat → r.evtWait ≠ 0 → r.evtPi - extendIndex r.evtCi v.toNat < 2 ^ r.szEvt →
      Answers (.dbEvtCi set v) s fun t => ∃ e, RingAndEvent s t set
          { r with bar2 := r.bar2.set 3 v, evtCi := extendIndex r.evtCi v.toNat, errWait := clearWait r 3, evtWait := 0 } e ∧
        e.code = 0x0101 ∧ e.ctx = set ∧ e.payload = toLe 4 (Nat.min r.evtWait (2 ^ 32 - 1))) ∧
    (set < 16 → r.st = 0 → ∀ e ∈ [(Instr.dbCmdPi, 0), (Instr.dbTokCi, 1), (Instr.dbCplCi, 2), (Instr.dbEvtCi, 3)],
      Answers (e.1 set v) s fun t => OnlyRing s t set { r with bar2 := r.bar2.set e.2 v })

/-- The doorbell line: a write of the host invalidates a copy that the device holds, and what the device then reads it observes; the
doorbell of a ring set that is not ACTIVE is only read. -/
def Sys2Proof.Slice0.DoorbellLineCompletes : Prop :=
  ∀ (set : Nat) (s : State) (r : RingSet), r = s.ring set → set < 16 →
    (∀ a b c d : W32, Answers (.doorbellSnoop set a b c d) s fun t =>
      t.host.mem = Memory.writeBytes s.host.mem (r.dbAddr % 2 ^ 64) (toLe 4 a.toNat ++ toLe 4 b.toNat ++ toLe 4 c.toNat ++ toLe 4 d.toNat) ∧
      (∀ q, t.ring q = if q = set ∧ r.line = true ∧ r.st = 1 then { r with line := false, await := true } else s.ring q) ∧
      { t with host := { t.host with mem := s.host.mem, sets := s.host.sets } } = s) ∧
    (r.await = true → r.st ≠ 1 → (s.hostRead r.dbAddr 64).isSome = true →
      Answers (.doorbellObserve set) s fun t => OnlyRing s t set { r with await := false, line := true }) ∧
    (r.await = true → (s.hostRead r.dbAddr 64) = none →
      Answers (.doorbellObserve set) s fun t => OnlyRing s t set { r with await := false }) ∧
    (∀ v : Nat → Nat, r.await = true → r.st = 1 → (s.hostRead r.dbAddr 64).isSome = true → s.lineValues set = [v 0, v 1, v 2, v 3] →
      validIndex r.cmdCi (r.cmdCi + 2 ^ r.szCmd) (v 0) → extendIndex r.cmdCi (v 0) = r.cmdPi → validIndex r.tokCi r.tokPi (v 1) →
      validIndex r.cplCi r.cplPi (v 2) → validIndex r.evtCi r.evtPi (v 3) → r.errWait = 0 → r.evtWait = 0 →
      Answers (.doorbellObserve set) s fun t => OnlyRing s t set { r with await := false, line := true
                                                                          tokCi := extendIndex r.tokCi (v 1)
                                                                          cplCi := extendIndex r.cplCi (v 2)
                                                                          evtCi := extendIndex r.evtCi (v 3) })

/-- The doorbells of a ring set (R455 to R458, R463). -/
def Obligations.DoorbellsComplete : Prop :=
  Sys2Proof.Slice0.DoorbellWritesComplete ∧ Sys2Proof.Slice0.DoorbellLineCompletes

/-- Ring sets enabled, disabled and stopped by a ring fault; the vector of a ring whose delay has passed (R454, R462, R463, R483, R487,
R699). -/
def Obligations.RingSetStatesComplete : Prop :=
  ∀ (set : Nat) (v : W32) (s : State) (r : RingSet), r = s.ring set → set < 16 →
    (s.barAnswers 0x40004 = true → s.sec.scrub = none → r.enable = false → bits v.toNat 23 16 = 1 → r.setupOk = true → s.job set = none →
      s.pauseCause set = false →
      Answers (.queEnable set v) s fun t => ∃ u : State, t = u.activate set ∧ u.host.queSel = set ∧
        u.ring set = { (r.ctrlFields (v ||| 1#32)).fresh false with enable := true, negMinor := Nat.min (bits v.toNat 15 8) 3, err := 0 } ∧
        (∀ q, q ≠ set → u.ring q = s.ring q) ∧ { u with host := { u.host with sets := s.host.sets, queSel := s.host.queSel } } = s) ∧
    (s.barAnswers 0x40004 = true → s.sec.scrub = none → r.enable = false → bits v.toNat 23 16 ≠ 1 →
      Answers (.queEnable set v) s fun t => t.host.queSel = set ∧ (t.ring set).enable = false ∧ (t.ring set).err = 1 ∧ (t.ring set).st = r.st) ∧
    (s.barAnswers 0x40004 = true → s.sec.scrub = none → r.enable = true → s.job set = none →
      Answers (.queDisable set v) s fun t => t.host.queSel = set ∧ (t.ring set).enable = false ∧ (t.ring set).st = 0 ∧
        (t.ring set).line = false ∧ (∀ q, q ≠ set → t.ring q = s.ring q) ∧ t.jobs = s.jobs ∧ t.host.mem = s.host.mem) ∧
    (r.st ≠ 0 → r.st ≠ 4 → ∀ w : Bool,
      Answers (.hostAccessTimeout set w) s fun t => ∃ u : State, t = u.endJob set (if w then 0x0008 else 0x0007) ∧ (u.ring set).st = 4 ∧
        (u.ring set).err = (if w then 6 else 5) ∧ u.jobs = s.jobs) ∧
    (∀ k, k < 3 → r.irqEn = true → r.unsig.getD k 0 ≠ 0 →
      Answers (.irqDelayExpire (4 * set + k)) s fun t => (t.ring set).unsig = r.unsig.set k 0 ∧
        (∀ j, Map.get 0 t.host.signalled j = Map.get 0 s.host.signalled j + b2n (j == 4 * set + k)) ∧
        { t with host := { t.host with sets := s.host.sets, signalled := s.host.signalled } } = s)

/-- Held events are ordered by the TSC that they carry, then by their source, and none is lost or invented (R480). -/
def Sys2Proof.Slice0.EventsAreOrdered : Prop :=
  ∀ es : List Event, (sortEvs es).Perm es ∧ (sortEvs es).Pairwise fun a b => evBefore b a = false

/-- EVENT_RELEASE delivers, in their order, the events that every source has passed, each for the ring that receives it now, and holds the
others (R479, R480, R541); a scrub holds all (R539). An event that fits its ring is written there with its writeback area (R459, R460, R478). -/
def Sys2Proof.Slice0.EventReleaseCompletes : Prop :=
  ∀ (n : Nat) (s : State),
    (s.sec.scrub = none → Answers (.eventRelease n) s fun t => ∃ u : State,
      t = (sortEvs ((s.host.held.map s.routed).filter fun e => decide (e.carried + 1024 ≤ n))).foldl State.deliver u ∧
      u.host.held = (s.host.held.map s.routed).filter (fun e => decide (n < e.carried + 1024)) ∧
      { u with host := { u.host with held := s.host.held } } = s) ∧
    (s.sec.scrub.isSome = true → Answers (.eventRelease n) s fun t => t = s) ∧
    (∀ (set : Nat) (e : Event) (r : RingSet), r = s.ring set → s.hostCanWrite = true → r.irqEn = false → e.payload.length ≤ 16 →
      r.evtPi - r.evtCi < 2 ^ r.szEvt →
      ∃ r', (s.writeEvent set e).ring set = r' ∧
        r' = { r with evtPi := (r.evtPi + 1) % 2 ^ 64, evtPosted := (r.evtPosted + 1) % 2 ^ 64, evtLast := e.carried } ∧
        (s.writeEvent set e).host.mem = Memory.writeBytes (Memory.writeBytes s.host.mem ((r.evtBase + r.evtPi % 2 ^ r.szEvt * 32) % 2 ^ 64)
          (toLe 8 e.carried ++ toLe 2 e.source ++ toLe 2 e.code ++ toLe 2 e.status ++ toLe 1 e.ctx ++
            toLe 1 (1 + 4 * b2n e.coarse + 8 * b2n e.replay) ++ bytesAt e.payload 0 16)) (r.wbAddr % 2 ^ 64) r'.writeback)

/-- The release of events (R459 to R461, R478 to R480, R539). -/
def Obligations.EventsAreReleasedInOrder : Prop :=
  Sys2Proof.Slice0.EventsAreOrdered ∧ Sys2Proof.Slice0.EventReleaseCompletes

/-- The staging window: a write to a bed in LOADING or to a partition lands there, a write to no target is counted as denied, a poisoned
one is discarded; a read returns the bytes of its place, or zeros where there is none; during a scrub both are held (R443, R444, R449 to
R452). -/
def Obligations.StagingWindowCompletes : Prop :=
  ∀ (w : Nat) (bs : List Byte) (s : State) (a : Aperture) (o : Nat), s.apertureAt w = (a, o) → s.inWindow w = true →
    (s.holdsMem = true → Answers (.hdmWrite w bs false) s fun t =>
      t = { s with host := { s.host with accesses := s.host.accesses ++ [.hdmWrite w bs false] } }) ∧
    (s.holdsMem = false → a.target = 3 → s.inPartition a.ctx (a.base + o) bs.length = true → (s.ctx a.ctx).st ≠ 3 →
      Answers (.hdmWrite w bs false) s fun t => t = s.lpxWrite (a.base + o) 1 bs) ∧
    (s.holdsMem = false → a.target = 0 → Answers (.hdmWrite w bs false) s fun t =>
      t = { s with host := { s.host with hdmDenied := satAdd 32 s.host.hdmDenied 1 } }) ∧
    (∀ j b, s.holdsMem = false → a.target = b + 1 → b < 2 → s.job a.ctx = some j → j.st = .running → (j.bed b).st = 1 →
      o + bs.length ≤ (j.bedRange b).2 →
      Answers (.hdmWrite w bs false) s fun t => t.lpxMem = (s.lpxWrite ((j.bedRange b).1 + o) 4 bs).lpxMem ∧
        t.job a.ctx = some (j.setBed b { (j.bed b) with loaded := (j.bed b).loaded + bs.length }) ∧ t.host = s.host) ∧
    (s.holdsMem = false → a.target = 0 → Answers (.hdmWrite w bs true) s fun t => t.lpxMem = s.lpxMem ∧ t.jobs = s.jobs ∧
      t.host.hdmDenied = satAdd 32 s.host.hdmDenied 1 ∧
      ∃ e, t.host.held = s.host.held ++ [e] ∧ e.code = 0x0103 ∧ e.payload = toLe 8 w) ∧
    (∀ n e, s.holdsMem = false → a.target = 3 → s.inPartition a.ctx (a.base + o) n = true → e = Ecc.clean →
      Answers (.hdmRead w n e) s fun t => t = { s with reply := s.lpxRead (a.base + o) n }) ∧
    (∀ n e, s.holdsMem = false → a.target = 0 → Answers (.hdmRead w n e) s fun t => t = { s with reply := List.replicate n 0#8 })

/-- CMD_FETCH takes the next entry of the command ring: CMD_CI advances, and the command that the descriptor spells runs on it; a
descriptor that fails checks 1 to 3 of R465 completes with that status; a read that fails is a ring fault (R455, R464, R465, R699). -/
def Obligations.CommandFetchCompletes : Prop :=
  ∀ (set : Nat) (s u : State) (r : RingSet) (b : List Byte) (h : Head), r = s.ring set → set < 16 → r.takes = true → r.cmdCi < r.cmdPi →
    h = ⟨set, r.cmdCi, BitVec.ofNat 32 (leAt b 4 4)⟩ →
    u = (s.setRing set { r with cmdCi := (r.cmdCi + 1) % 2 ^ 64 }).putWriteback set →
    (s.hostRead (r.cmdBase + r.cmdCi % 2 ^ r.szCmd * 64) 64 = some b → descStatus b = 0 →
      ∃ (i : Instr) (t : State), descInstr h (leAt b 0 1) (descValues b) = some i ∧ exec i u = .next t ∧ exec (.cmdFetch set) s = .next t) ∧
    (s.hostRead (r.cmdBase + r.cmdCi % 2 ^ r.szCmd * 64) 64 = some b → descStatus b ≠ 0 →
      Answers (.cmdFetch set) s fun t => t = (taken u h 0).done h (leAt b 0 1) (descStatus b) 0) ∧
    (s.hostRead (r.cmdBase + r.cmdCi % 2 ^ r.szCmd * 64) 64 = none → Answers (.cmdFetch set) s fun t => t = s.ringFault set 5)

/-- Every host command: nothing happens while its ring set cannot take it (R461, R467), and one that fails check 4, 5 or 6 of R465
completes with that status and has no other effect. -/
def Sys2Proof.Slice0.HostCommandsAreChecked : Prop :=
  ∀ (i : Instr) (s : State) (h : Head) (op c : Nat), hostOp i = some (h, op, c) → h.set < 16 →
    ((s.ring h.set).takes = false → exec i s = .next s) ∧
    ((s.ring h.set).takes = true → s.gateStatus h.set op c ≠ 0 →
      exec i s = .next ((taken s h op).done h op (s.gateStatus h.set op c) 0))

/-- What a completion writes: one 32-byte record at the producer index, the index advanced, the reservation returned, and the writeback
area (R459, R460, R475). -/
def Obligations.CompletionIsWritten : Prop :=
  ∀ (s : State) (h : Head) (op status result : Nat) (r r' : RingSet), r = s.ring h.set → s.hostCanWrite = true → r.st ≠ 0 → r.st ≠ 4 →
    r.irqEn = false → r' = ({ r with cplPi := (r.cplPi + 1) % 2 ^ 64 } : RingSet).completed h →
    (s.done h op status result).ring h.set = r' ∧
    (s.done h op status result).host.mem = Memory.writeBytes (Memory.writeBytes s.host.mem
      ((r.cplBase + r.cplPi % 2 ^ r.szCpl * 32) % 2 ^ 64)
      (toLe 4 h.seq ++ toLe 4 h.tag.toNat ++ toLe 1 op ++ toLe 1 0 ++ toLe 2 status ++ toLe 4 (s.spanOf h).1 ++ toLe 4 (s.spanOf h).2.1 ++
        toLe 4 (s.spanOf h).2.2 ++ toLe 8 result)) (r.wbAddr % 2 ^ 64) r'.writeback ∧
    (∀ q, q ≠ h.set → (s.done h op status result).ring q = s.ring q) ∧
    { s.done h op status result with host := s.host } = s

/-! ## Host commands that take their effect at once (R427, R468, R469, R474, R528 to R535, R585, R702) -/

namespace Sys2Proof.Slice0
open Sys2Proof Sys2Proof.Machine

/-- Nothing but the job of context c differs, and it is `j`. -/
def OnlyJob (s t : State) (c : Nat) (j : Job) : Prop := { t with jobs := s.jobs } = s ∧ ∀ q, t.job q = if q = c then some j else s.job q

/-- The command completes with status 0 and RESULT `res` in a state `v` that holds its effect `P`. -/
def Completes (i : Instr) (h : Head) (op res : Nat) (s : State) (P : State → Prop) : Prop :=
  ∃ v, exec i s = .next (v.done h op 0 res) ∧ P v

/-- MOSS_PARAM names a run `r` that may start on `g` and its like (R368): the checks that need no region, no other run of the number, every
region LOADED alike, the checks that need the region, and the partition. -/
structure MayStart (s : State) (h : Head) (op : Nat) (slot : Option Nat) (d : MossData) (g : MRegion) (r : MRun) : Prop where
  static : ∃ j, s.job h.set = some j ∧ d.staticOk j.params.rank j.params.devices = true
  first : ∃ x xs, d.list = x :: xs ∧ g = s.region x.toNat
  regions : ∀ x ∈ d.list, (s.region x.toNat).st = 2 ∧ (s.region x.toNat).ctx = h.set ∧ (s.region x.toNat).wx = g.wx ∧
    (s.region x.toNat).wy = g.wy ∧ (s.region x.toNat).exact = g.exact ∧ (s.region x.toNat).digest = g.digest
  fresh : ∀ x ∈ s.moss.runs, x.ctx = h.set → x.run = leAt d.block 8 4 → x.stage = 8
  run : r = d.run h op g
  fits : d.regionOk r g = true
  within : s.deniedRange r g slot = none

/-- The run stands among the runs, and its regions and tiles are RUNNING. -/
def Started (s t : State) (r : MRun) : Prop :=
  t.moss.runs = s.moss.runs ++ [r] ∧ (∀ n ∈ r.regions, (t.region n).st = 3 ∧ (t.region n).run = r.run ∧ (t.region n).digest = (s.region n).digest) ∧
    ∀ n ∈ r.regions, ∀ x ∈ (s.region n).tiles, Map.get 0 t.moss.tiles x = 4

end Sys2Proof.Slice0

/-- NOP, JOB_OPEN, JOB_END, JOB_DISCARD. A job opens RUNNING with the parameters and the seed of its block, or waits for a seed of the device;
JOB_END ends it with HOST_END and returns its last step; JOB_DISCARD releases an ended one. -/
def Obligations.JobCommandsComplete : Prop :=
  ∀ (s : State) (h : Head),
    (Taken s h 0x00 h.set → Completes (.nop h) h 0x00 0 s fun v => v = taken s h 0x00) ∧
    (∀ (params size : Nat) (b : List Byte) (p : JobParams), Taken s h 0x01 h.set → s.readJobBlock params = some b → s.jobOpenStatus h.set b size = 0 → p = parseJobParams b →
      p.batchMax + p.ingestBudget ≤ 2 ^ (s.ring h.set).szTok → p.seedDev = false →
      (∀ n, n < 16 → bit (s.halvesOf h.set) (n / 8) = true → (s.port n).st ≠ 2) →
      ∃ (v : State) (j : Job), exec (.jobOpen h params size) s = .next (v.complete h 0x01 ⟨0, 0, 0, 1, [toLe 16 j.seed.toNat ++ toLe 8 0]⟩) ∧
        v.job h.set = some j ∧ j.st = .running ∧ j.params = p ∧ j.halves = s.halvesOf h.set ∧ j.seed = BitVec.ofNat 128 (leAt b 16 16) ∧
        j.stepNext = 0 ∧ j.tray = [] ∧ j.bedA = Bed.empty ∧ j.bedB = Bed.empty ∧ (∀ q, q ≠ h.set → v.job q = s.job q)) ∧
    (∀ (params size : Nat) (b : List Byte) (p : JobParams), Taken s h 0x01 h.set → s.readJobBlock params = some b → s.jobOpenStatus h.set b size = 0 → p = parseJobParams b →
      p.batchMax + p.ingestBudget ≤ 2 ^ (s.ring h.set).szTok → p.seedDev = true → s.seedRefused 1 = none →
      Answers (.jobOpen h params size) s fun t => ∃ j : Job, t.job h.set = some j ∧ j.st = .waitSeed ∧ j.params = p ∧ j.openHead = some h ∧
        t.ens.queue = s.ens.queue ++ [⟨.jobSeed h.set, 0, 16, none, false, []⟩]) ∧
    (∀ (c : Nat) (j : Job), Taken s h 0x03 (if h.set = 0 then c else h.set) → s.job (if h.set = 0 then c else h.set) = some j →
      Completes (.jobEnd h c) h 0x03 j.lastStep s fun v => v = (taken s h 0x03).endJob (if h.set = 0 then c else h.set) 0x0009) ∧
    (∀ (c : Nat) (j : Job), Taken s h 0x04 h.set → s.job c = some j → j.st = .ended →
      Completes (.jobDiscard h c) h 0x04 0 s fun v => ∃ w : State, v = w.discardRing c ∧ w.job c = none ∧ (∀ q, q ≠ c → w.job q = s.job q) ∧
        w.kernels = s.kernels.filter (fun k => k.ctx != c))

/-- The end of a job (R427, R463, R474): it is retained as ended with its reason, its cores stop, its Moss runs and transfers are gone, and
an ACTIVE or PAUSED ring set becomes ENDED. -/
def Obligations.JobEndRetainsJob : Prop :=
  ∀ (s : State) (c status : Nat) (j : Job), s.job c = some j → (j.st = .running ∨ j.st = .suspended) →
    (s.endJob c status).job c = some (j.endWith status) ∧ (j.endWith status).st = .ended ∧ (j.endWith status).reason = status ∧
    (∀ q, q ≠ c → (s.endJob c status).job q = s.job q) ∧
    (s.endJob c status).streamers = s.streamers.filter (fun t => t.ctx != c) ∧
    (s.endJob c status).moss.runs = s.moss.runs.filter (fun r => r.ctx != c) ∧
    (j.st = .running → ∀ p, p < 544 → bit j.halves (p / 272) = true → (s.core p).st = .running → ((s.endJob c status).core p).st = .idle) ∧
    (∀ p, p < 544 → bit j.halves (p / 272) = false → (s.endJob c status).core p = s.core p)

/-- KERNEL_LOAD and KERNEL_UNLOAD. A sound image without a table conflict stands at the lowest place that KERNEL_AREA has for it and on every
core of the halves, under the lowest free handle; an image that no program entry names leaves every core. -/
def Obligations.KernelCommandsComplete : Prop :=
  ∀ (s : State) (h : Head) (j : Job), s.job h.set = some j →
    (∀ (host size : Nat) (b : List Byte) (k : KImage) (dpa : Nat), Taken s h 0x80 h.set → s.hostRead host size = some b → imgOk b size = true → phaseHeaderOk b = true →
      k = imgParse b j.freeHandle h.set size →
      (∀ t, k.table = some t → tableConflict t.period j.split (maskHalf j.halves) [] 0 (t.entries.map phEntry) = none) →
      k.handle ≤ 0xFFFF → s.storesHold h.set j.halves k = true → j.place size = some dpa →
      Completes (.kernelLoad h host size) h 0x80 k.handle s fun v => v.kernels = s.kernels ++ [k] ∧
        v.job h.set = some (j.addBlock dpa size k.handle) ∧ v.lpxMem = (s.lpxWrite dpa 1 b).lpxMem ∧
        ∀ p, p < 544 → (v.core p).images = if bit j.halves (p / 272) then (s.core p).images ++ [k.handle] else (s.core p).images) ∧
    (∀ handle, Taken s h 0x81 h.set → (s.image h.set handle).isSome = true → (∀ e ∈ j.program, e.handle ≠ handle) →
      Completes (.kernelUnload h handle) h 0x81 0 s fun v => v.kernels = s.kernels.filter (fun k => !(k.ctx == h.set && k.handle == handle)) ∧
        ∀ p, p < 544 → (v.core p).images =
          if bit j.halves (p / 272) then (s.core p).images.filter (· != handle) else (s.core p).images)

/-- RAND_STOCH, RAND_DRBG and RAND_RAW join the queue of their class; what waits there is served by a window, a reseed or a generate call
(R575, R576, R582, R583, R585, R586). -/
def Obligations.RandomCommandsComplete : Prop :=
  ∀ (s : State) (h : Head) (len flags host : Nat),
    (Taken s h 0x90 h.set → flags = 0 → 1 ≤ len → len ≤ 65536 → s.ens.stoch ≠ 3 → s.randFull 0 = false →
      exec (.randStoch h len flags host) s = .next { taken s h 0x90 with
        ens := { s.ens with queue := s.ens.queue ++ [⟨.command h 0x90 host, 0, len, none, false, []⟩] } }) ∧
    (Taken s h 0x91 h.set → flags ≤ 1 → 1 ≤ len → len ≤ 65536 → s.ens.secHalt = false → s.randFull 1 = false →
      exec (.randDrbg h len flags host) s = .next { taken s h 0x91 with
        ens := { s.ens with queue := s.ens.queue ++ [⟨.command h 0x91 host, 1, len, none, flags == 1, []⟩] } }) ∧
    (Taken s h 0x92 h.set → flags < 64 → 1 ≤ len → len ≤ 65416 → len % 136 = 0 → s.ens.stoch ≠ 3 → s.randFull 2 = false →
      exec (.randRaw h len flags host) s = .next { taken s h 0x92 with
        ens := { s.ens with queue := s.ens.queue ++ [⟨.command h 0x92 host, 2, len, if 32 ≤ flags then some (flags % 32) else none, false, []⟩] } }) ∧
    (Taken s h 0x90 h.set → (flags ≠ 0 ∨ len = 0 ∨ 65536 < len) →
      exec (.randStoch h len flags host) s = .next ((taken s h 0x90).done h 0x90 0x0903 0)) ∧
    (Taken s h 0x91 h.set → (1 < flags ∨ len = 0 ∨ 65536 < len) →
      exec (.randDrbg h len flags host) s = .next ((taken s h 0x91).done h 0x91 0x0903 0)) ∧
    (Taken s h 0x92 h.set → (63 < flags ∨ len = 0 ∨ len % 136 ≠ 0 ∨ 65416 < len) →
      exec (.randRaw h len flags host) s = .next ((taken s h 0x92).done h 0x92 0x0903 0))

/-- CTX_REGISTER, CTX_DESTROY, CTX_RUN, CTX_SWITCH, SCRUB_COMPLETE, PARTITION_ZERO_DONE and REGROW. A context is registered under the next
generation; one that runs on no half is DESTROYING until its partition is zero; a switch to a half without a running job begins its scrub;
the end of a scrub clears the stores of its halves; a REGROW resets the job's halves. -/
def Obligations.ContextCommandsComplete : Prop :=
  ∀ (s : State) (h : Head) (c : Nat),
    (∀ (block : Nat) (b secret : List Byte) (g : Nat), Taken s h 0x70 h.set → s.hostRead block 256 = some b → 1 ≤ c → c ≤ 15 → ctxBlockOk s.split b = true →
      (s.ctx c).st = 0 → s.partitionTaken (leAt b 8 8) (leAt b 16 8) = false → s.openSecret c b = some secret → s.fuses.lc ≠ 3 →
      nextGen s.heldGens 18 s.sec.nextGen = some g →
      Completes (.ctxRegister h c block) h 0x70 g s fun v =>
        (∀ q, v.ctx q = if q = c then ⟨1, leAt b 8 8, leAt b 16 8, g, leAt b 24 8, secret⟩ else s.ctx q) ∧ v.sec.nextGen = (g + 1) % 65536) ∧
    (Taken s h 0x71 h.set → 1 ≤ c → c ≤ 15 → (s.ctx c).st = 1 → s.holdsJob c = false → s.halvesOf c = 0 →
      Completes (.ctxDestroy h c) h 0x71 0 s fun v => ∀ q, v.ctx q = if q = c then { s.ctx c with st := 3 } else s.ctx q) ∧
    (∀ mask, Taken s h 0x72 h.set → c ≤ 15 → s.split = false → mask = 3 → (c = 0 ∨ (s.ctx c).st = 1) → s.halvesOf c ≠ 3 →
      s.sec.scrub = none → s.boot.aligned = true → s.rst.busy = none → s.job s.west.owner = none →
      Answers (.ctxRun h c mask) s fun t => t.sec.scrub = some ⟨3, 1, 67036⟩ ∧ t.west.owner = s.west.owner ∧
        t.sec.switch = some ⟨h, 0x72, c, 3, none, s.west.owner, none, true⟩) ∧
    (Taken s h 0x72 h.set → c ≤ 15 → s.split = false → (c = 0 ∨ (s.ctx c).st = 2) → s.halvesOf c = 3 →
      Completes (.ctxRun h c 3) h 0x72 0 s fun v => v = taken s h 0x72) ∧
    (∀ (w : Switch) (half : Nat), half < 2 → bit w.halves half = true → s.sec.switch = some w → s.sec.scrub = none → s.boot.aligned = true → s.rst.busy = none →
      w.scrubbing = false → s.job w.outgoing = none → w.destroy = none →
      Answers (.ctxSwitch half) s fun t => t.sec.scrub = some ⟨w.halves, 1, 67036⟩ ∧ t.sec.switch = some { w with scrubbing := true }) ∧
    (∀ sc : Scrub, s.sec.scrub = some sc → sc.left = 0 → s.boot.aligned = true → s.rst.busy = none → sc.halves = 3 → sc.reason = 2 → s.host.accesses = [] →
      Answers .scrubComplete s fun t => t.sec.scrub = none ∧ (∀ a, a < 2 ^ 33 → Memory.read t.slices a = 0#8) ∧
        (∀ n i, n < 512 → i < 4096 → t.acc n i = ExactAcc.zero) ∧ t.west.owner = 0 ∧ t.east.owner = 0 ∧
        t.boot.aligned = false ∧ t.sec.scrubs = satAdd 16 s.sec.scrubs 1) ∧
    (c < 16 → (s.ctx c).st = 3 → s.boot.ready = true →
      Answers (.partitionZeroDone c) s fun t => t.lpxMem = (s.lpxZero (s.ctx c).base (s.ctx c).size).lpxMem ∧
        (∀ q, t.ctx q = if q = c then Ctx.free else s.ctx q) ∧ ∃ e, t.host.held = s.host.held ++ [e] ∧ e.code = 0x0803 ∧
        e.payload = toLe 1 c ++ toLe 1 0 ++ toLe 2 (s.ctx c).gen ++ toLe 4 0 ++ toLe 8 (s.ctx c).size) ∧
    (∀ cut source rep no a b d e, ∀ j : Job, h.set < 16 → Taken s h 0x61 c → s.job c = some j → j.st = .ended → s.halvesOf c ≠ 0 → s.dmp.st = 0 →
      s.rst.busy = none → s.boot.ready = true →
      Answers (.regrow h cut source rep c no a b d e) s fun t => t.rst.busy = some ⟨3, s.halvesOf c, 0, 5⟩ ∧ t.boot.aligned = false ∧
        (t.job c).map (fun j => j.st) = some .regrow)

/-- MOSS_REGION, MOSS_LOAD, MOSS_RUN, MOSS_STOP, MOSS_RESUME and MOSS_READ. A rectangle of idle tiles of one kind becomes DEFINED, and FREE
again; a load gives it its couplings and fields; a run takes its LOADED regions to RUNNING; it stops at its next sweep; a region that
does not run is read at once. -/
def Obligations.MossCommandsComplete : Prop :=
  ∀ (s : State) (h : Head) (n : Nat) (g : MRegion),
    (∀ x0 x1 y0 y1, Taken s h 0x50 h.set → g = s.region n → n < 128 → x0 ≤ x1 → x1 ≤ 15 → y0 ≤ y1 → y1 ≤ 7 → g.st = 0 → g.await = none →
      (∀ t ∈ rectTiles x0 x1 y0 y1, Map.get 0 s.moss.tiles t = 2) → mixesKinds x0 x1 = false → s.columnsOk h.set x0 x1 = true →
      Completes (.mossRegion h n 0 x0 x1 y0 y1) h 0x50 0 s fun v =>
        v.region n = { MRegion.free with ctx := h.set, tx0 := x0, tx1 := x1, ty0 := y0, ty1 := y1, exact := exactColumn x0, st := 1 } ∧
        (∀ m, m ≠ n → v.region m = s.region m) ∧
        ∀ t, Map.get 0 v.moss.tiles t = if t ∈ rectTiles x0 x1 y0 y1 then 3 else Map.get 0 s.moss.tiles t) ∧
    (∀ x0 x1 y0 y1, Taken s h 0x50 h.set → g = s.region n → n < 128 → g.st ≠ 0 → g.st ≠ 3 → g.ctx = h.set →
      Completes (.mossRegion h n 1 x0 x1 y0 y1) h 0x50 0 s fun v => v.region n = MRegion.free ∧ (∀ m, m ≠ n → v.region m = s.region m) ∧
        ∀ t, Map.get 0 v.moss.tiles t = if t ∈ g.tiles then 2 else Map.get 0 s.moss.tiles t) ∧
    (∀ fmt flags ej eh src bs, Taken s h 0x51 h.set → g = s.region n → n < 128 → (fmt = 0 ∨ fmt = 0x0E ∨ fmt = 0xFF) → flags ≤ 1 → g.st ≠ 0 → g.st ≠ 3 →
      g.ctx = h.set → s.hostRead src (g.sourceBytes fmt) = some bs → g.fpBad fmt bs = false → (fmt = 0xFF → g.rawBad bs = false) →
      ∃ (v : State) (x : Cpl), exec (.mossLoad h n fmt flags ej eh src) s = .next (v.complete h 0x51 x) ∧ x.status = 0 ∧ x.extType = 3 ∧
        v.region n = g.load fmt bs (flags == 1) (signed 8 ej) (signed 8 eh) ∧ ∀ m, m ≠ n → v.region m = s.region m) ∧
    (∀ (params : Nat) (d : MossData) (r : MRun), Taken s h 0x52 h.set → s.readMoss params = some d → MayStart s h 0x52 none d g r → r.ext = none → r.init = 0 →
      Answers (.mossRun h params) s fun t => Started s t r) ∧
    (∀ (params slot : Nat) (d : MossData) (r : MRun) (b : List Byte), Taken s h 0x54 h.set → s.readMoss params = some d → MayStart s h 0x54 (some slot) d g r → r.ext = none →
      b = s.lpxRead slot (slotBytes r.replicas g.imageBytes (r.sectionBytes g)) → s.slotHit slot b.length = false →
      s.slotMatches r g b = true → leAt b 16 8 ≠ r.total →
      Answers (.mossResume h params slot) s fun t => Started s t (r.fromSlot g b slot)) ∧
    (∀ r : MRun, Taken s h 0x53 h.set → s.mossRun h.set n = some r → r.stop = none → r.ext = none →
      Answers (.mossStop h n) s fun t => ({ r with stopping := true, stop := some h } : MRun) ∈ t.moss.runs) ∧
    (∀ host, Taken s h 0x55 h.set → g = s.region n → n < 128 → g.st ≠ 0 → g.ctx = h.set → s.runOf g = none → s.hostCanWrite = true →
      Completes (.mossRead h n host) h 0x55 0 s fun v => v = (taken s h 0x55).hostWrite host g.stateImage)

/-! ## Host commands that take their effect at a step boundary (R290, R466) -/

namespace Sys2Proof.Slice0
open Sys2Proof Sys2Proof.Machine

/-- What a boundary does before its commands: the flip, and the prompts that have become ready (R237, R290). -/
def beforeCommands (s : State) (c : Nat) : State := (s.flip c).onJob c Job.promptsReady

/-- What it does after them: a HELD bed without pins is released, a run without chains ends, a due cutting is captured, a job that closes
may end (R290, R324, R412, R705). -/
def afterCommands (s : State) (c : Nat) : State := (((s.onJob c Job.spareHeld).endEmptyRun c).captureIfDue c).tryClose c

/-- The command is taken while its engine stands at a boundary with no other command before it; `v` is the state in which it takes effect
and `j` the job in it. -/
structure AtBoundary (s : State) (h : Head) (op : Nat) (v : State) (j : Job) : Prop where
  taken : Taken s h op h.set
  stands : ∃ k, s.job h.set = some k ∧ k.atBoundary = true ∧ k.waiting = [] ∧ k.closing = none
  before : v = beforeCommands (Slice0.taken s h op) h.set
  job : v.job h.set = some j

/-- The command's effect stands between what the boundary does before and after it. -/
def TakesEffect (i : Instr) (h : Head) (s : State) (P : State → Prop) : Prop := ∃ t, exec i s = .next (afterCommands t h.set) ∧ P t

/-- The job in the state after, with the command's completion put off until the next cutting is common (R419). -/
def Deferring (t : State) (h : Head) (op : Nat) (j : Job) (P : Job → Prop) : Prop :=
  ∃ k, t.job h.set = some k ∧ k.deferred = j.deferred ++ [⟨h, op, 0, j.stepNext, [], some j.nextCut, [], 0⟩] ∧ P k

/-- Every entry of the tray but those that `except` names is the same. -/
def SameEntries (j k : Job) (except : Nat → Prop) : Prop := ∀ i, ¬ except i → k.stream i = j.stream i

/-- Nothing but the job of the context differs. -/
def JobAlone (v t : State) : Prop := { t with jobs := v.jobs } = v

/-- The commands of the boundary group without parameter data. -/
def plainBoundary : List Nat := [0x02, 0x13, 0x14, 0x15, 0x30, 0x31, 0x33, 0x40, 0x41, 0x42, 0x43, 0x44, 0x45, 0x60]

end Sys2Proof.Slice0

/-- A command of the boundary group waits while a step runs, in the order of its ring (R466). -/
def Sys2Proof.Slice0.BoundaryCommandsWait : Prop :=
  ∀ (i : Instr) (s : State) (h : Head) (op : Nat) (j : Job), hostOp i = some (h, op, h.set) → op ∈ plainBoundary → Taken s h op h.set →
    s.job h.set = some j → j.run.isSome = true →
    exec i s = .next ((taken s h op).setJob h.set { j with waiting := j.waiting ++ [⟨i, []⟩] })

/-- What a host command meets before its effect (R465 to R468). -/
def Obligations.HostCommandsAreCheckedAndWait : Prop :=
  Sys2Proof.Slice0.HostCommandsAreChecked ∧ Sys2Proof.Slice0.BoundaryCommandsWait

/-- OPEN, SCORE, FORK, APPEND, RESUME, CLOSE, SET_LOAD, JOB_CLOSE, CUT_NOW and STEP_BIND at a boundary (R239, R241 to R244, R250, R252, R253,
R412, R473, R705). -/
def Obligations.StreamCommandsTakeEffect : Prop :=
  ∀ (s v : State) (h : Head) (j : Job),
    (∀ e ∈ [(1, 0x10, Instr.open_), (2, 0x11, Instr.score)], ∀ (i n tok a : Nat) (d : List Byte) (p : StreamParams),
      AtBoundary s h e.2.1 v j → s.readStreamBlock a = some d → p = parseStreamParams d → v.openStatus j e.1 i n p = 0 →
      TakesEffect (e.2.2 h i n tok a) h s fun t => ∃ k, t.job h.set = some k ∧ SameEntries j k (· = i) ∧
        k.deferred = j.deferred ++ [⟨h, e.2.1, 0, j.stepNext, [], none, [i], 0⟩] ∧
        (k.stream i).kind = e.1 ∧ (k.stream i).st = (if bit p.oflags 2 then 0 else 1) ∧ (k.stream i).seedWait = bit p.oflags 2 ∧
        t.ens.queue = v.ens.queue ++ (if bit p.oflags 2 then [⟨.objectSeed h.set i, 0, 8, none, false, []⟩] else []) ∧
        (k.stream i).gen = ((j.stream i).gen + 1) % 4096 ∧ (k.stream i).pos = 0 ∧
        (k.stream i).seed = (if bit p.oflags 2 then 0#64 else BitVec.ofNat 64 p.seed) ∧ (k.stream i).maxLen = p.maxLen ∧ (k.stream i).temp = p.temp ∧
        (k.stream i).topP = p.topP ∧ (k.stream i).topK = p.topK ∧ (k.stream i).masks = p.masks ∧ (k.stream i).epoch = j.epoch ∧
        (k.stream i).fetch = (tok, n)) ∧
    (∀ (p g m n ch sd : Nat) (d : List Byte), AtBoundary s h 0x12 v j → s.readFork m n ch sd = some d →
      v.forkStatus j p g m n (forkChildren n d) = 0 →
      TakesEffect (.fork h p g m n ch sd) h s fun t => ∃ k, t.job h.set = some k ∧ SameEntries j k (· ∈ forkChildren n d) ∧
        k.deferred = j.deferred ++ [⟨h, 0x12, 0, j.stepNext, [], if m = 1 then none else some j.nextCut, if m = 1 then forkChildren n d else [], 0⟩] ∧
        ∀ x i, (forkChildren n d)[x]? = some i → (k.stream i).st = (if m = 1 then 0 else 2) ∧ (k.stream i).seedWait = (m == 1) ∧
          (k.stream i).gen = ((j.stream i).gen + 1) % 4096 ∧ (k.stream i).parent = p ∧ (k.stream i).pos = (j.stream p).pos ∧
          (k.stream i).pending = (j.stream p).pending ∧
          (k.stream i).seed = (if m = 0 then BitVec.ofNat 64 (leAt d (4 * n + 8 * x) 8) else if m = 1 then 0#64
            else (j.stream p).seed + 0x9E3779B97F4A7C15#64 * BitVec.ofNat 64 (x + 1))) ∧
    (∀ (i g n tok : Nat) (bs : List Byte), AtBoundary s h 0x13 v j → j.appendStatus i g n = 0 → s.hostRead tok (4 * n) = some bs →
      TakesEffect (.append h i g n tok) h s fun t => Deferring t h 0x13 j fun k => SameEntries j k (· = i) ∧
        (k.stream i).pending = (j.stream i).pending ++ (List.range n).map (fun x => leAt bs (4 * x) 4 % 2 ^ 20) ∧
        (k.stream i).pos = (j.stream i).pos ∧ (k.stream i).st = (j.stream i).st) ∧
    (∀ i g, AtBoundary s h 0x14 v j → i < j.trayEntries → (j.stream i).st = 4 → (j.stream i).gen = g →
      TakesEffect (.resume h i g) h s fun t => JobAlone v t ∧ ∃ k, t.job h.set = some k ∧ SameEntries j k (· = i) ∧
        k.stream i = { j.stream i with st := 2, readyStep := j.stepNext, fetched := false }) ∧
    (∀ i g, AtBoundary s h 0x15 v j → i < j.trayEntries → (j.stream i).st ≠ 0 → (j.stream i).gen = g → (j.stream i).seedWait = false →
      TakesEffect (.close h i g) h s fun t => JobAlone v t ∧ ∃ k, t.job h.set = some k ∧ SameEntries j k (· = i) ∧
        k.stream i = { Stream.free with gen := g }) ∧
    (∀ n k tok d, AtBoundary s h 0x16 v j → n ≤ 4095 → k ≤ 16 → s.hostRead tok (4 * k) = some d →
      TakesEffect (.setLoad h n k tok) h s fun t => JobAlone v t ∧ Deferring t h 0x16 j fun j' => ∀ m, Map.get [] j'.sets m =
        if m = n then (List.range k).map (fun i => leAt d (4 * i) 4 % 2 ^ 20) else Map.get [] j.sets m) ∧
    (AtBoundary s h 0x02 v j → TakesEffect (.jobClose h) h s fun t => t.job h.set = some { j with closing := some h, cutNow := true } ∧
      t.moss.runs = v.moss.runs.map (fun r => if r.ctx = h.set then { r with stopping := true } else r)) ∧
    (AtBoundary s h 0x60 v j → TakesEffect (.cutNow h) h s fun t => JobAlone v t ∧ Deferring t h 0x60 j fun k => k.cutNow = true) ∧
    (∀ n list d, AtBoundary s h 0x82 v j → 1 ≤ n → n ≤ 64 → s.readBind n list = some d →
      (∀ x, x < n → ∃ k, v.image h.set (leAt d (16 * x) 4) = some k ∧ k.argSize = leAt d (16 * x + 4) 4) →
      (∃ r, j.placeArgs ((List.range n).map (bindEntry d)) = some r) →
      TakesEffect (.stepBind h n list) h s fun t => Deferring t h 0x82 j fun k => k.program.length = n ∧
        ∀ x e, k.program[x]? = some e → e.handle = leAt d (16 * x) 4 ∧ e.argSize = leAt d (16 * x + 4) 4)

/-- BED_STAGE, BED_LOAD, BED_COMMIT and BED_DROP at a boundary (R283, R284, R288, R296); the other bed does not change. -/
def Obligations.BedCommandsTakeEffect : Prop :=
  ∀ (s v : State) (h : Head) (j : Job) (b : Nat), b < 2 →
    (∀ flags epoch, AtBoundary s h 0x30 v j → ((j.bed b).st = 0 ∨ (j.bed b).st = 1 ∨ (j.bed b).st = 6) →
      ((j.bed (1 - b)).st = 0 ∨ (j.bed (1 - b)).epoch ≠ epoch) →
      TakesEffect (.bedStage h b flags epoch) h s fun t => JobAlone v t ∧ Deferring t h 0x30 j fun k =>
        k.bed b = { Bed.empty with st := 1, epoch := epoch } ∧ k.bed (1 - b) = j.bed (1 - b)) ∧
    (∀ flags epoch, AtBoundary s h 0x30 v j → (j.bed b).st = 5 → bit flags 0 = false →
      TakesEffect (.bedStage h b flags epoch) h s fun t => t = v.done h 0x30 0x0401 0) ∧
    (∀ host ofs len bs, AtBoundary s h 0x31 v j → (j.bed b).st = 1 → ofs + len ≤ (j.bedRange b).2 → s.hostRead host len = some bs →
      TakesEffect (.bedLoad h b host ofs len) h s fun t => Deferring t h 0x31 j (fun k =>
        k.bed b = { (j.bed b) with loaded := (j.bed b).loaded + len } ∧ k.bed (1 - b) = j.bed (1 - b)) ∧
        t.lpxMem = (v.lpxWrite ((j.bedRange b).1 + ofs) 4 bs).lpxMem) ∧
    (∀ flip digest d, AtBoundary s h 0x32 v j → s.hostRead digest 48 = some d → (j.bed b).st = 1 → (j.bed b).poisoned = false →
      (j.current = none ∨ j.stepNext < flip) →
      TakesEffect (.bedCommit h b flip digest) h s fun t => JobAlone v t ∧ ∃ k, t.job h.set = some k ∧
        k.bed b = { (j.bed b) with st := 2, flip := flip, digest := d, commit := some h } ∧ k.bed (1 - b) = j.bed (1 - b) ∧
        k.deferred = j.deferred ++ [⟨h, 0x32, 0, j.stepNext, [], none, [], 0⟩]) ∧
    (AtBoundary s h 0x33 v j → ((j.bed b).st = 1 ∨ (j.bed b).st = 3 ∨ (j.bed b).st = 6) →
      TakesEffect (.bedDrop h b) h s fun t => JobAlone v t ∧ Deferring t h 0x33 j fun k =>
        k.bed b = { Bed.empty with epoch := (j.bed b).epoch } ∧ k.bed (1 - b) = j.bed (1 - b))

/-- GIBBS_MODEL_LOAD, GIBBS_MODEL_DROP, CHAIN_OPEN, CHAIN_SET, CHAIN_WRITE, CHAIN_READ and GIBBS_RUN at a boundary (R308, R313, R315, R319 to
R323). -/
def Obligations.GibbsCommandsTakeEffect : Prop :=
  ∀ (s v : State) (h : Head) (j : Job),
    (∀ desc work size m k, AtBoundary s h 0x40 v j → v.inPartition h.set desc 32 = true → v.inPartition h.set work size = true →
      v.inPartition h.set desc (v.lpxLe (desc + 16) 8) = true → v.checkModel desc work = .good m → m.need ≤ size → j.freeModel = some k →
      TakesEffect (.gibbsModelLoad h desc work size) h s fun t => ∃ j', t.job h.set = some j' ∧
        (∀ n, j'.model n = if n = k then some m else j.model n) ∧
        j'.deferred = j.deferred ++ [⟨h, 0x40, 0, k, [], some j.nextCut, [], 0⟩]) ∧
    (∀ n, AtBoundary s h 0x41 v j → 1 ≤ n → n ≤ 16 → (j.model n).isSome = true →
      (∀ e ∈ j.tray, e.2.kind = 3 → e.2.model = n → e.2.st = 0 ∧ e.2.seedWait = false) →
      TakesEffect (.gibbsModelDrop h n) h s fun t => JobAlone v t ∧ Deferring t h 0x41 j fun k =>
        ∀ m, k.model m = if m = n then none else j.model m) ∧
    (∀ (i n init mode seed temp layers flags ptr host user : Nat) (m : GModel), AtBoundary s h 0x42 v j →
      v.chainOpenStatus j i n init mode temp layers flags = 0 → j.model n = some m →
      (bit flags 0 = true → v.inPartition h.set ptr m.maskBytes = true) →
      TakesEffect (.chainOpen h i n init mode seed temp layers flags ptr host user) h s fun t => ∃ k, t.job h.set = some k ∧
        SameEntries j k (· = i) ∧ k.deferred = j.deferred ++ [⟨h, 0x42, 0, j.stepNext, [], none, [i], 0⟩] ∧
        (k.stream i).kind = 3 ∧ (k.stream i).st = (if mode = 1 then 0 else 1) ∧ (k.stream i).seedWait = (mode == 1) ∧
        t.ens.queue = v.ens.queue ++ (if mode = 1 then [⟨.objectSeed h.set i, 0, 8, none, false, []⟩] else []) ∧
        (k.stream i).gen = ((j.stream i).gen + 1) % 4096 ∧ (k.stream i).model = n ∧
        (k.stream i).seed = (if mode = 1 then 0#64 else BitVec.ofNat 64 seed) ∧ (k.stream i).temp = BitVec.ofNat 32 temp ∧ (k.stream i).clampLayers = layers ∧
        (k.stream i).clampUnits = bit flags 0 ∧ (k.stream i).mirror = bit flags 1 ∧ (k.stream i).sweep = 0 ∧
        (k.stream i).pages.length = m.pages ∧ (k.stream i).fetch = (host, init)) ∧
    (∀ (i g sel temp layers flags ptr fl pt : Nat) (m : GModel) (x : Stream), AtBoundary s h 0x43 v j → x = j.stream i →
      i < j.trayEntries → x.kind = 3 → x.st = 2 → x.gen = g → sel < 16 → j.model x.model = some m →
      fl = (if bit sel 2 then flags else b2n x.clampUnits + 2 * b2n x.mirror) → pt = (if bit sel 3 then ptr else x.clampPtr) →
      chainFieldsOk (some m) (if bit sel 0 then temp else x.temp.toNat) (if bit sel 1 then layers else x.clampLayers) fl = true →
      (bit fl 0 = true → v.inPartition h.set pt m.maskBytes = true) →
      TakesEffect (.chainSet h i g sel temp layers flags ptr) h s fun t => JobAlone v t ∧ Deferring t h 0x43 j fun k =>
        SameEntries j k (· = i) ∧ k.stream i = { x with
          temp := if bit sel 0 then BitVec.ofNat 32 temp else x.temp, clampLayers := if bit sel 1 then layers else x.clampLayers
          clampUnits := bit fl 0, mirror := bit fl 1, clampPtr := if bit fl 0 then pt else 0 }) ∧
    (∀ (i g layers host : Nat) (m : GModel) (bs : List Byte) (x : Stream), AtBoundary s h 0x44 v j → x = j.stream i → i < j.trayEntries →
      x.kind = 3 → x.st = 2 → x.gen = g → j.model x.model = some m → layers < 2 ^ m.layers.length →
      s.hostRead host (m.partBytes (bit layers)) = some bs →
      TakesEffect (.chainWrite h i g layers host) h s fun t => Deferring t h 0x44 j (fun k => SameEntries j k (· = i) ∧ k.stream i = x) ∧
        t.lpxMem = (v.putChain m x x.sweep (m.readLayers (bit layers) bs (v.chainValues m x))).lpxMem) ∧
    (∀ (i g layers host : Nat) (m : GModel) (x : Stream), AtBoundary s h 0x45 v j → x = j.stream i → i < j.trayEntries → x.kind = 3 →
      (x.st = 2 ∨ x.st = 6) → x.gen = g → j.model x.model = some m → layers < 2 ^ m.layers.length → s.hostCanWrite = true →
      TakesEffect (.chainRead h i g layers host) h s fun t => Deferring t h 0x45 j (fun k => k.tray = j.tray) ∧
        t.host.mem = Memory.writeBytes v.host.mem (host % 2 ^ 64) (m.writeLayers (bit layers) (v.chainValues m x))) ∧
    (∀ (o : GRunOps) (d : List Byte), AtBoundary s h 0x46 v j → s.hostRead o.list (4 * Nat.min o.chains 65536) = some d →
      j.gibbsRunStatus o (gibbsList o.chains d) = 0 →
      TakesEffect (.gibbsRun h o.chains o.layers o.output o.list o.sweeps o.burn o.interval o.progressEvery o.result o.resultSize) h s fun t =>
        JobAlone v t ∧ ∃ k r, t.job h.set = some k ∧ k.grun = some r ∧ r.head = h ∧ r.chains = sortNat ((gibbsList o.chains d).map (·.1)) ∧
        r.sweeps = o.sweeps ∧ r.burn = o.burn ∧ r.interval = o.interval ∧ r.output = o.output ∧ r.done = 0 ∧ r.nextSeq = 0 ∧
        k.deferred = j.deferred ∧ SameEntries j k (· ∈ r.chains) ∧ ∀ i ∈ r.chains, k.stream i = { j.stream i with st := 3 })

/-! ## Steps, transfers, experts and cuttings (chapters 5, 7, 8 and 12) -/

/-- STEP_START and STEP_BOUNDARY. A step begins with the number, the kind and the batch that R29, R245 and R323 give it, its streams RUNNING;
a token step ends with every stream of its batch advanced by what it ingested, a Gibbs step with every chain advanced by a sweep. -/
def Obligations.StepsComplete : Prop :=
  ∀ (c : Nat) (s : State), c < 16 →
    (∀ (j0 j : Job) (v : State) (a : BatchAcc) (gibbs : Bool), s.job c = some j0 → j0.atBoundary = true → s.halvesOf c ≠ 0 →
      v = (s.setJob c { j0 with waiting := [] }).idleBoundary c j0.waiting → v.job c = some j → v.mayStart c j = true → j.stepNext < 2 ^ 48 →
      a = j.refill.formBatch → gibbs = j.refill.nextGibbs a.batch →
      (gibbs = false → (a.batch.map j.refill.recordsOf).foldl (· + ·) 0 ≤ (v.ring c).room 1) →
      Answers (.stepStart c) s fun t => ∃ (k : Job) (r : StepRun), t.job c = some k ∧ k.run = some r ∧ r.number = j.stepNext ∧ r.gibbs = gibbs ∧
        r.batch = (if gibbs then [] else sortNat a.batch) ∧ ∀ i ∈ r.batch, (k.stream i).st = 3) ∧
    (∀ (j : Job) (r : StepRun) (logits : List (Nat × Nat × List W32)), s.job c = some j → j.st = .running → j.run = some r →
      s.stepDone j r = true → j.waiting = [] → j.closing = none → (∀ t ∈ s.streamers, t.ctx ≠ c) → (∀ p, (j.page p).st ≠ 3) →
      s.hostCanWrite = true → r.gibbs = false → r.batch.Nodup →
      Answers (.stepBoundary c logits) s fun t => ∃ k : Job, t.job c = some k ∧ k.run = none ∧ k.stepNext = r.number + 1 ∧
        ∀ e ∈ r.batch.zip r.ingest, (k.stream e.1).pos = (j.stream e.1).pos + e.2) ∧
    (∀ (j : Job) (r : StepRun) (g : GRun), s.job c = some j → j.st = .running → j.run = some r → s.stepDone j r = true → j.waiting = [] →
      j.closing = none → (∀ t ∈ s.streamers, t.ctx ≠ c) → (∀ p, (j.page p).st ≠ 3) → r.gibbs = true → j.grun = some g → g.chains.Nodup →
      (∀ i ∈ g.chains, (j.model (j.stream i).model).isSome = true) →
      Answers (.stepBoundary c []) s fun t => ∃ k : Job, t.job c = some k ∧ k.run = none ∧ k.stepNext = r.number + 1 ∧
        ∀ i ∈ g.chains, (k.stream i).sweep = (j.stream i).sweep + 1)

/-- PROMPT_FETCH_DONE, LPX_TRANSFER_DONE, LPX_REFRESH, BED_VERIFY_DONE, PEER_WAIT_LIMIT and STEP_WATCHDOG_EXPIRE (R193 to R198, R237, R288, R316,
R644, R645). -/
def Obligations.StepEventsComplete : Prop :=
  ∀ (c : Nat) (s : State) (j : Job), c < 16 → s.job c = some j →
    (∀ (i : Nat) (bs : List Byte), j.atWork = true → (j.stream i).st = 1 → (j.stream i).fetched = false → (j.stream i).seedWait = false →
      (j.stream i).kind ≠ 3 → s.hostRead (j.stream i).fetch.1 (4 * (j.stream i).fetch.2) = some bs →
      Answers (.promptFetchDone c i) s fun t => ∃ k : Job, t.job c = some k ∧ SameEntries j k (· = i) ∧ k.stream i = { j.stream i with
        pending := (List.range (j.stream i).fetch.2).map (fun n => leAt bs (4 * n) 4 % 2 ^ 20), fetched := true }) ∧
    (∀ (i : Nat) (m : GModel) (bs : List Byte), j.atWork = true → (j.stream i).st = 1 → (j.stream i).fetched = false →
      (j.stream i).seedWait = false → (j.stream i).kind = 3 → j.model (j.stream i).model = some m →
      (if initNeedsImage (j.stream i).fetch.2 (j.stream i).clampLayers then s.hostRead (j.stream i).fetch.1 m.imageBytes = some bs else bs = []) →
      Answers (.promptFetchDone c i) s fun t => t.job c = some (j.setStream i { j.stream i with fetched := true }) ∧
        t.lpxMem = (s.putChain m (j.stream i) 0
          (m.initialValues (j.stream i).fetch.2 (j.stream i) (sporeKey j.seed (j.stream i).seed) i bs)).lpxMem) ∧
    (∀ x : Streamer, (s.streamers.find? fun t => t.id == x.id && t.ctx == c) = some x → x.toSlice = false →
      (j.page (x.dpa / 0x40000)).st ≠ 2 → (j.page (x.dpa / 0x40000)).st ≠ 3 →
      Answers (.lpxTransferDone c x.id .clean) s fun t => t.streamers = s.streamers.filter (fun y => y.id != x.id) ∧ t.slices = s.slices ∧
        t.lpxMem = (s.lpxWrite x.dpa 2 (Memory.readBytes s.slices x.slice x.size)).lpxMem) ∧
    (∀ x : Streamer, (s.streamers.find? fun t => t.id == x.id && t.ctx == c) = some x → x.toSlice = true →
      j.needsCheck (x.dpa / 0x40000) = false → (j.page (x.dpa / 0x40000)).st ≠ 3 →
      Answers (.lpxTransferDone c x.id .clean) s fun t => t.streamers = s.streamers.filter (fun y => y.id != x.id) ∧ t.lpxMem = s.lpxMem ∧
        t.slices = Memory.writeBytes s.slices x.slice (s.lpxRead x.dpa x.size)) ∧
    (∀ ctrl rate, ctrl < 32 → (s.lpxCtrl ctrl).st = 2 → Answers (.lpxRefresh ctrl rate) s fun t =>
      (∀ k, t.lpxCtrl k = if k = ctrl then { s.lpxCtrl ctrl with refRate := rate % 4 } else s.lpxCtrl k) ∧
      t.streamers = s.streamers.map (fun x => if x.uses ctrl then { x with late := true, waits := ctrl } else x) ∧
      { t with lpx := s.lpx, streamers := s.streamers } = s) ∧
    (∀ (b : Nat) (m : Manifest), b < 2 → j.atWork = true → (j.bed b).st = 2 → s.verifyBed j b = .good m → j.params.bedMirror = false →
      Answers (.bedVerifyDone c b) s fun t => ∃ k : Job, t.job c = some k ∧
        k.bed b = { (j.bed b) with st := 3, commit := none, manifest := some m } ∧ k.bed (1 - b) = j.bed (1 - b)) ∧
    (∀ (b st entry : Nat), b < 2 → j.atWork = true → (j.bed b).st = 2 → s.verifyBed j b = .bad st entry → (j.bed b).commit = none →
      Answers (.bedVerifyDone c b) s fun t => ∃ (k : Job) (e : Event), t.job c = some k ∧ (k.bed b).st = 1 ∧ k.bed (1 - b) = j.bed (1 - b) ∧
        t.host.held = s.host.held ++ [e] ∧ e.code = 0x0402 ∧ e.status = st) ∧
    (∀ rank, j.st = .running → s.waitsOn c j rank = true → Answers (.peerWaitLimit c rank) s fun t => ∃ k : Job, t.job c = some k ∧
      k.st = .ended ∧ k.reason = 0x000A) ∧
    (∀ r : StepRun, j.run = some r → s.ras.wdog ≠ 0 → j.overdue = false →
      s.ras.wdog * 2 ^ 20 < j.elapsed - j.refreshStall - j.retryStall - j.stepStartNominal →
      Answers (.stepWatchdogExpire c) s fun t => t.job c = some { j with overdue := true } ∧
        ∃ e : Event, t.host.held = s.host.held ++ [e] ∧ e.code = 0x0A08 ∧ e.payload = toLe 8 r.number)

/-- DISPATCH_HEADER, DISPATCH_RECORD, EXPERT_LAYER_RUN and EXPERT_OUTPUT (R274 to R280, R512). -/
def Obligations.ExpertCommandsComplete : Prop :=
  ∀ (c : Nat) (s : State) (j : Job), c < 16 → s.job c = some j → j.atWork = true →
    (∀ h : DispHeader, (j.current = none ∨ h.epoch = j.epoch) →
      Answers (.dispatchHeader c h) s fun t => OnlyJob s t c { j with dispHeaders := j.dispHeaders ++ [h] }) ∧
    (∀ h : DispHeader, j.current.isSome = true → h.epoch ≠ j.epoch → Answers (.dispatchHeader c h) s fun t =>
      ∃ (u : State) (e : Event), t = u.endJob c 0x0409 ∧ u.host.held = s.host.held ++ [e] ∧ e.code = 0x0406 ∧ u.jobs = s.jobs) ∧
    (∀ (r : DispRecord) (mseq : Nat), Answers (.dispatchRecord c r mseq true) s fun t =>
      OnlyJob s t c { j with dispRecords := j.dispRecords ++ [r], xrec := (j.xrec + 1) % 2 ^ 64 }) ∧
    (∀ (r : DispRecord) (mseq : Nat), Answers (.dispatchRecord c r mseq false) s fun t =>
      ∃ (u : State) (e : Event), t = u.endJob c 0x0805 ∧ u.host.held = s.host.held ++ [e] ∧ e.code = 0x0B07 ∧ u.jobs = s.jobs) ∧
    (∀ (l : Nat) (m : Manifest), j.run.isSome = true → j.layerReady l = true → l ∉ j.ranLayers → l < j.moeLayers →
      (∀ r ∈ j.dispRecords, r.layer = l → j.servingManifest r.epoch = some m ∧ r.origin ≠ j.params.rank) →
      Answers (.expertLayerRun c l) s fun t => ∃ k : Job, t.job c = some k ∧ k.ranLayers = j.ranLayers ++ [l] ∧
        k.dispRecords = j.dispRecords.filter (fun r => r.layer != l) ∧
        t.outbox = s.outbox ++ (sortRecs (j.dispRecords.filter fun r => r.layer == l)).map
          (fun r => ⟨c, 0x03, 3, r.origin, recordBytes (m.output r) m.hidden⟩)) ∧
    (∀ (r : DispRecord) (mseq : Nat) (m : Manifest), j.run.isSome = true → j.servingManifest r.epoch = some m →
      (j.rowOutputs r.layer r.row).length + 1 < m.topk →
      Answers (.expertOutput c r mseq true) s fun t => OnlyJob s t c { j with outputs := j.outputs ++ [r] }) ∧
    (∀ (r : DispRecord) (mseq : Nat) (m : Manifest), j.run.isSome = true → j.servingManifest r.epoch = some m →
      m.topk ≤ (j.rowOutputs r.layer r.row).length + 1 → (j.combined.filter fun x => x.1 == r.layer).length + 1 < j.rowEpochs.length →
      Answers (.expertOutput c r mseq true) s fun t => ∃ (k : Job) (x : List W32), t.job c = some k ∧ k.rowOutputs r.layer r.row = [] ∧
        k.combined = j.combined ++ [(r.layer, r.row, x)])

/-- CUTTING_WRITE_START, CUTTING_WRITE_DONE, COMMIT_NOTICE, CUTTING_FLUSH and MIRROR_ACK (R412 to R419). -/
def Sys2Proof.Slice0.CuttingCommandsComplete : Prop :=
  ∀ (c : Nat) (s : State) (j : Job), c < 16 → s.job c = some j → j.cuts = true → j.closing = none →
    (∀ (img : CutImage) (rest : List CutImage) (bs : List Byte), j.captured = img :: rest → j.writing = false → j.run.isSome = true →
      (img.seq = 0 ∨ ∃ x, j.common = some x ∧ img.seq ≤ x.1 + 1) → (img.seq < 2 ∨ ∃ x, j.flushed = some x ∧ img.seq ≤ x.1 + 2) →
      bs = s.cutBytes c j img →
      Answers (.cuttingWriteStart c) s fun t => t = (s.hostWrite (j.params.cutHost + img.seq % 2 * j.params.cutSlotSize)
        (bs.take (bs.length - 16) ++ List.replicate 16 0#8)).setJob c { j with writing := true }) ∧
    (∀ (img : CutImage) (rest : List CutImage), j.captured = img :: rest → j.writing = true → s.hostCanWrite = true → j.params.buddy = 0xFFFF →
      Answers (.cuttingWriteDone c) s fun t => ∃ k : Job, t.job c = some k ∧ k.captured = rest ∧ k.writing = false ∧
        k.unflushed = j.unflushed ++ [img] ∧ k.written = none ∧ k.committed = some (img.seq, img.step) ∧ (j.deferred = [] →
        t.host.mem = Memory.writeBytes s.host.mem ((j.params.cutHost + img.seq % 2 * j.params.cutSlotSize) % 2 ^ 64) (s.cutBytes c j img))) ∧
    (∀ rank step, rank ≠ j.params.rank → rank < j.params.devices → (rank, step) ∉ j.notices → j.written = none →
      (∀ q n, j.committed = some (q, n) → j.common = some (q, n)) →
      Answers (.commitNotice c rank step) s fun t => OnlyJob s t c { j with notices := j.notices ++ [(rank, step)] }) ∧
    (∀ (rank : Nat) (q n : Nat), rank ≠ j.params.rank → rank < j.params.devices → j.written = none → j.committed = some (q, n) →
      j.common ≠ some (q, n) → (∀ r, r < j.params.devices → r ≠ j.params.rank → r ≠ rank → (r, n) ∈ j.notices) → (rank, n) ∉ j.notices →
      s.hostCanWrite = true →
      Answers (.commitNotice c rank n) s fun t => ∃ k : Job, t.job c = some k ∧ k.common = some (q, n)) ∧
    (∀ (img : CutImage) (rest : List CutImage) (q n : Nat), j.unflushed = img :: rest → j.common = some (q, n) → img.seq ≤ q →
      Answers (.cuttingFlush c) s fun t => ∃ k : Job, t.job c = some k ∧ k.unflushed = rest ∧ k.flushed = some (img.seq, img.step) ∧
        k.chunkRel = j.chunkRel.filter (fun r => decide (img.seq < r.2)) ∧ k.pageRel = j.pageRel.filter (fun r => decide (img.seq < r.2)) ∧
        t.lpxMem = (s.flushTables c img).lpxMem) ∧
    (∀ kind id, (∃ m ∈ j.mirror, m.kind = kind ∧ m.id = id) → j.written = none → j.committed = none →
      Answers (.mirrorAck c kind id) s fun t => ∃ k : Job, t.job c = some k ∧ k.mirror.length + 1 = j.mirror.length ∧
        (kind = 1 → (j.page (j.params.pageFirst + id)).st = 2 → (k.page (j.params.pageFirst + id)).mirrored = true) ∧
        (kind = 5 → id < 2 → (k.bed id).mirrored = true))

/-- What a device does for its partner, and what a peer's messages do here: SEALED_PAGE_MIRROR, OPEN_PAGE_LINES, CUTTING_IMAGE_MIRROR,
CHAIN_STATE_COPY, BED_COPY, MIRROR_SET_UP, PAGE_FETCH_REQUEST, PAGE_FETCH_RESPONSE, JOB_END_NOTICE, REGROW_READY and REGROW_RELEASE (R424,
R425, R427, R430, R432, R433). Every copy is acknowledged. -/
def Sys2Proof.Slice0.MirrorCommandsComplete : Prop :=
  ∀ (c : Nat) (s : State) (j : Job), c < 16 → s.job c = some j → j.st ≠ .waitSeed →
    (∀ m : PartnerMirror, j.params.partner ≠ 0xFFFF → j.st ≠ .ended → j.partner = some m →
      (∀ (page line ofs : Nat) (data : List Byte),
        (page < m.pageCount → Answers (.sealedPageMirror c page data) s fun t =>
          t = (s.lpxWrite (j.params.mirrorBase + m.tables + page * 0x40000) 2 data).sendMsg c 0x15 3 j.params.partner (toLe 1 1 ++ toLe 4 page)) ∧
        (page < m.pageCount → 64 * line + data.length ≤ 0x40000 → Answers (.openPageLines c page line data) s fun t =>
          t = (s.lpxWrite (j.params.mirrorBase + m.tables + page * 0x40000 + 64 * line) 2 data).sendMsg c 0x15 3 j.params.partner
            (toLe 1 2 ++ toLe 4 page)) ∧
        (∀ slot, slot < 2 → ofs + data.length ≤ m.slotSize → Answers (.cuttingImageMirror c slot ofs data) s fun t =>
          t = (s.lpxWrite (j.params.mirrorBase + slot * m.slotSize + ofs) 5 data).sendMsg c 0x15 3 j.params.partner
            (toLe 1 3 ++ toLe 4 slot)) ∧
        (leAt data 4 4 = 1 → leAt data 8 4 = page → page < m.pageCount → Answers (.chainStateCopy c data) s fun t =>
          t = (s.lpxWrite (j.params.mirrorBase + m.tables + page * 0x40000) 1 (bytesAt data 12 0x40000)).sendMsg c 0x15 3 j.params.partner
            (toLe 1 4 ++ toLe 4 (leAt data 0 4))) ∧
        (m.bedMirror = true → ofs + data.length ≤ m.bedA → Answers (.bedCopy c 0 ofs data) s fun t =>
          t = (s.lpxWrite (j.params.mirrorBase + m.tables + m.pageCount * 0x40000 + ofs) 4 data).sendMsg c 0x15 3 j.params.partner
            (toLe 1 5 ++ toLe 4 0)) ∧
        (m.bedMirror = true → ofs + data.length ≤ m.bedB → Answers (.bedCopy c 1 ofs data) s fun t =>
          t = (s.lpxWrite (j.params.mirrorBase + m.tables + m.pageCount * 0x40000 + m.bedA + ofs) 4 data).sendMsg c 0x15 3 j.params.partner
            (toLe 1 5 ++ toLe 4 1)) ∧
        (page < m.pageCount → Answers (.pageFetchRequest c page) s fun t => t = s.sendMsg c 0x17 3 j.params.partner
          (toLe 4 page ++ s.lpxRead (j.params.mirrorBase + m.tables + page * 0x40000) 0x40000)))) ∧
    (∀ data, j.params.partner ≠ 0xFFFF → j.st ≠ .ended → (parseMirrorSetUp data).need ≤ j.params.mirrorSize →
      Answers (.mirrorSetUp c data) s fun t => OnlyJob s t c { j with partner := some (parseMirrorSetUp data) }) ∧
    (∀ data, j.params.partner ≠ 0xFFFF → j.st ≠ .ended → j.params.mirrorSize < (parseMirrorSetUp data).need →
      Answers (.mirrorSetUp c data) s fun t => t = s.endJob c 0x0701) ∧
    (∀ (page : Nat) (data : List Byte) (r : PageRec), r = j.page (j.params.pageFirst + page) →
      j.params.pageFirst + page ∈ j.fetching → s.pageTag c j (j.params.pageFirst + page) r.sealSeq data = r.tag →
      Answers (.pageFetchResponse c page data) s fun t => ∃ k : Job, t.job c = some k ∧ j.params.pageFirst + page ∉ k.fetching ∧
        k.page (j.params.pageFirst + page) = { r with st := 2, validated := true } ∧
        t.lpxMem = (s.lpxWrite ((j.params.pageFirst + page) * 0x40000) 2 data).lpxMem) ∧
    (∀ rank, rank ≠ j.params.rank → rank < j.params.devices → Answers (.jobEndNotice c rank) s fun t => t = s.endJob c 0x000A) ∧
    (∀ (rank : Nat) (r : Regrow), j.regrow = some r → j.st = .regrow → j.params.rank = 0 → rank < j.params.devices → r.stage < 7 →
      Answers (.regrowReady c rank r.number) s fun t =>
        OnlyJob s t c { j with regrow := some { r with ready := (r.ready ++ [rank]).eraseDups } }) ∧
    (∀ (i : Instr) (rank : Nat) (r : Regrow), c ≠ 0 → j.regrow = some r → j.st = .regrow → r.stage = 7 → rank < j.params.devices →
      ((j.params.rank = 0 ∧ i = .regrowReady c rank r.number ∧ ∀ q, q < j.params.devices → q ≠ rank → q ∈ r.ready) ∨
        (j.params.rank ≠ 0 ∧ i = .regrowRelease c r.number)) →
      Answers i s fun t => ∃ u : State, t = u.done r.head 0x61 0 r.cut ∧ ∃ k : Job, u.job c = some k ∧
        k.st = .running ∧ (k.regrow.map fun x => x.stage) = some 8)

/-- The rows of cuttings, mirrors and regrows between devices (chapter 12). -/
def Obligations.CuttingsAndMirrorsComplete : Prop :=
  Sys2Proof.Slice0.CuttingCommandsComplete ∧ Sys2Proof.Slice0.MirrorCommandsComplete

/-! ## Links and the Moss by itself (chapters 10, 11 and 14) -/

namespace Sys2Proof.Slice0
open Sys2Proof Sys2Proof.Machine

/-- A sound flit `m` of type `ty` arrives in order at port p while no scrub runs; `y` is the port once it has acknowledged and accepted it
(R492 to R495). -/
structure Arrives (s : State) (p : Nat) (m : List Byte) (ty : Nat) (y : Port) : Prop where
  port : p < 16
  scrub : s.sec.scrub = none
  listens : 1 ≤ (s.port p).st ∧ (s.port p).st ≤ 4
  sound : flitOk m = true
  type : (flitHead m).type = ty
  order : ty ≠ 3 → ty ≠ 4 →
    (flitHead m).seq = if (flitHead m).urgent then (s.port p).expectU else (s.port p).expectN
  after : y = if ty = 3 ∨ ty = 4 then (s.port p).acked (flitHead m) else
    { (s.port p).acked (flitHead m) with
      nakSent := false
      expectU := if (flitHead m).urgent then ((s.port p).expectU + 1) % 256 else (s.port p).expectU
      expectN := if (flitHead m).urgent then (s.port p).expectN else ((s.port p).expectN + 1) % 4096 }

/-- Nothing but port p differs, and it is `x`. -/
def OnlyPort (s t : State) (p : Nat) (x : Port) : Prop :=
  { t with rz := { t.rz with ports := s.rz.ports } } = s ∧ ∀ q, t.port q = if q = p then x else s.port q

/-- Nothing but the Moss runs differs: run `r` is replaced by `r'`. -/
def OnlyRun (s t : State) (r r' : MRun) : Prop :=
  { t with moss := { t.moss with runs := s.moss.runs } } = s ∧
    t.moss.runs = s.moss.runs.map fun x => if x.ctx = r.ctx ∧ x.run = r.run ∧ x.stage < 7 then r' else x

end Sys2Proof.Slice0

/-- A flit that fails its CRC is discarded with a NAK, whatever row it comes with; MESSAGE_FORWARD, CREDIT_RECEIVE, NAK_RECEIVE and NAK_TIMEOUT
(R493 to R497, R500, R505, R506). -/
def Obligations.FlitCommandsComplete : Prop :=
  ∀ (p : Nat) (s : State) (m : List Byte) (x y : Port), x = s.port p →
    (∀ row ∈ [Instr.messageForward, Instr.nakReceive, Instr.creditReceive, Instr.trainReceive, Instr.keyChainFragment, Instr.keyJobSecret],
      p < 16 → s.sec.scrub = none → 1 ≤ x.st → x.st ≤ 4 → flitOk m = false →
      Answers (row p m) s fun t => OnlyPort s t p ({ x with crcErr := x.crcErr + 1 } : Port).nak) ∧
    (∀ j : Job, Arrives s p m 1 y → s.job (s.portCtx p) = some j → (flitHead m).dest = j.params.rank →
      Answers (.messageForward p m) s fun t => (t.port p).rxFlits = (x.rxFlits + 1) % 2 ^ 64 ∧ (t.port p).expectN = y.expectN ∧
        (t.port p).expectU = y.expectU ∧ (∀ q, q ≠ p → t.port q = s.port q)) ∧
    (∀ (j : Job) (q : Nat), Arrives s p m 1 y → s.job (s.portCtx p) = some j → (flitHead m).dest ≠ j.params.rank → q ≠ p →
      s.route (s.portCtx p) (flitHead m).dest = some q →
      Answers (.messageForward p m) s fun t => ∃ u : State, t = (u.queueFlit q (flitHead m).vc (flitHead m).fl (flitHead m).dest
          (flitPayload m)).drainPort p ∧ (u.port p).rxFlits = (x.rxFlits + 1) % 2 ^ 64 ∧ (∀ n, n ≠ p → u.port n = s.port n)) ∧
    (Arrives s p m 2 y → y.queue = [] → Answers (.creditReceive p m) s fun t =>
      OnlyPort s t p { y with credits := (List.range 4).map fun i => y.credits.getD i 0 + leAt (flitPayload m) (2 * i) 2 }) ∧
    (∀ n u, Arrives s p m 3 y → n = leAt (flitPayload m) 0 2 % 4096 → u = leAt (flitPayload m) 2 1 → (nakRun y.nakN n).2 < 8 →
      (nakRun y.nakU u).2 < 8 → y.queue = [] →
      Answers (.nakReceive p m) s fun t => OnlyPort s t p { y.replay n u with nakN := nakRun y.nakN n, nakU := nakRun y.nakU u }) ∧
    (∀ n, Arrives s p m 3 y → n = leAt (flitPayload m) 0 2 % 4096 → 8 ≤ (nakRun y.nakN n).2 → y.st = 4 →
      Answers (.nakReceive p m) s fun t => (t.port p).st = 5 ∧ (t.port p).recoveries = y.recoveries + 1 ∧ (∀ q, q ≠ p → t.port q = s.port q)) ∧
    (p < 16 → Answers (.nakTimeout p) s fun t => OnlyPort s t p { x with nakSent := false })

/-- TRAIN_RECEIVE, KEY_CHAIN_FRAGMENT, KEY_JOB_SECRET, LINK_TRAINING_DONE, TRAINING_ATTEMPT_TIMEOUT, LINK_LOCK_LOSS, LREFCLK_LOSS,
LINK_RECOVERED, RECOVERY_TIMEOUT and PORT_EN_WRITE (R497, R511 to R521, R546, R602, R685). -/
def Obligations.LinkStatesComplete : Prop :=
  ∀ (p : Nat) (s : State) (m b : List Byte) (x y : Port), x = s.port p → b = flitPayload m →
    (∀ v, Arrives s p m 4 y → y.st = 1 → v = (if bit (leAt b 0 1 &&& s.versions) 1 then 2 else 1) →
      (leAt b 0 1 &&& s.versions) % 4 ≠ 0 → y.queue = [] →
      Answers (.trainReceive p m) s fun t => OnlyPort s t p { y with
        peerPort := leAt b 1 1 % 16, peerSerial := leAt b 4 8, peerNonce := bytesAt b 12 32, peerTag := leAt b 44 8
        peerRank := leAt b 52 2 % 4096, peerDigest := bytesAt b 56 48, version := v }) ∧
    (∀ fs, Arrives s p m 5 y → y.st = 3 → y.chainOk = false → leAt b 0 1 = 1 → y.queue = [] →
      fs = y.frags.filter (fun f => f.1 != leAt b 1 1) ++ [(leAt b 1 1, bytesAt b 4 (Nat.min 112 (leAt b 2 2)))] → chainOf fs = none →
      Answers (.keyChainFragment p m) s fun t => OnlyPort s t p { y with frags := fs }) ∧
    (∀ fs chain, Arrives s p m 5 y → y.st = 3 → y.chainOk = false → leAt b 0 1 = 1 → y.queue = [] →
      fs = y.frags.filter (fun f => f.1 != leAt b 1 1) ++ [(leAt b 1 1, bytesAt b 4 (Nat.min 112 (leAt b 2 2)))] →
      chainOf fs = some chain → sha384 chain = y.peerDigest → (∀ l, s.link (s.portCtx p) = some l → l.secret = none) →
      Answers (.keyChainFragment p m) s fun t =>
        (∀ z, Config.chainVerifies s.fuses.rootDigest chain y.peerSerial = true → ecdhX s.fuses.identity (Config.chainKey chain) = some z →
          OnlyPort s t p { y with
            frags := fs, st := 4, chainOk := true, linkKey := some (hkdf32 z (nonceSalt y.nonce y.peerNonce) linkLabel) }) ∧
        (Config.chainVerifies s.fuses.rootDigest chain y.peerSerial = false → (t.port p).st = 6 ∧ (t.port p).linkKey = none ∧
          ∃ e : Event, t.host.held = s.host.held ++ [e] ∧ e.code = 0x0B05 ∧ e.status = 0x0805 ∧ e.payload = toLe 1 p ++ toLe 1 1)) ∧
    (∀ (j : Job) (l : JobLink) (k sec : List Byte), Arrives s p m 5 y → s.job (s.portCtx p) = some j → s.link (s.portCtx p) = some l →
      l.secret = none → y.linkKey = some k → leAt b 0 1 = 2 →
      gcmOpen k (bytesAt b 4 12) (b.take 4) (bytesAt b 16 48) (bytesAt b 64 16) = some sec →
      Answers (.keyJobSecret p m) s fun t =>
        t.link (s.portCtx p) = some { l with secret := some sec, key := some (trafficKey sec j.linkNo) }) ∧
    (p < 16 → x.st = 1 → x.version ≠ 0 → x.nonce ≠ [] → s.pins.lrefclk = true → s.isOn (17 + p / 8) = true → s.link (s.portCtx p) = none →
      Answers (.linkTrainingDone p) s fun t => ∃ e : Event, (∀ q, t.port q = if q = p then { x with st := 2 } else s.port q) ∧
        t.host.held = s.host.held ++ [e] ∧ e.code = 0x0B01 ∧
        e.payload = toLe 1 p ++ toLe 1 x.version ++ toLe 1 x.peerPort ++ toLe 5 0 ++ toLe 8 x.peerSerial) ∧
    (p < 16 → x.st = 1 → Answers (.trainingAttemptTimeout p) s fun t => (t.port p).st = 1 ∧ (t.port p).trainings = x.trainings + 1 ∧
      (t.port p).nonce = [] ∧ t.ens.queue = s.ens.queue ++ [⟨.trainNonce p, 1, 32, none, false, []⟩]) ∧
    (p < 16 → x.st = 4 → Answers (.linkLockLoss p) s fun t => OnlyPort s t p
      { x with st := 5, recoveries := x.recoveries + 1, since := (s.half (p / 8)).nc, nakN := (0, 0), nakU := (0, 0) }) ∧
    (p < 16 → x.st = 2 → Answers (.linkLockLoss p) s fun t => (t.port p).st = 1) ∧
    (Answers .lrefclkLoss s fun t => t.pins = { s.pins with lrefclk := false } ∧
      ∀ q, q < 16 → (t.port q).st = (if (s.port q).st = 4 then 5 else if (s.port q).st = 2 then 1 else (s.port q).st)) ∧
    (p < 16 → x.st = 5 → s.pins.lrefclk = true → Answers (.linkRecovered p) s fun t => ∃ e : Event, (t.port p).st = 4 ∧
      t.host.held = s.host.held ++ [e] ∧ e.code = 0x0B02 ∧ e.payload = toLe 1 p ++ toLe 3 0 ++ toLe 4 ((s.half (p / 8)).nc - x.since) ∧
      (∀ q, q ≠ p → t.port q = s.port q)) ∧
    (p < 16 → x.st = 5 → Answers (.recoveryTimeout p) s fun t => ∃ (u : State) (e : Event),
      t = u.jobFatal (s.portCtx p) (0x400 + p) 0x16 0x0A02 0 1 ∧ (u.port p).st = 6 ∧ u.host.held = s.host.held ++ [e] ∧ e.code = 0x0B03 ∧
      e.payload = toLe 1 p ++ toLe 1 5 ++ toLe 1 1) ∧
    (∀ v : W32, s.barAnswers 0x110004 = true → s.sec.scrub = none → s.glb.lock = false → Answers (.portEnWrite v) s fun t =>
      t.rz.portEn = bits v.toNat 15 0 ∧ t.rz.maxVersion = bits v.toNat 17 16) ∧
    (∀ v : W32, s.barAnswers 0x110004 = true → s.sec.scrub = none → s.glb.lock = true → Answers (.portEnWrite v) s fun t =>
      t = { s with glb := { s.glb with denied := true, setAt := Map.put s.glb.setAt 0x28 (s.boot.edges / 8) } })

/-- MOSS_HALF_SWEEP: every site of one colour of every replica is updated (R347, R355); ANNEAL_CUT_WRITE_DONE, RESULT_VECTOR_WRITE_DONE and the
messages and half-sweeps of extended runs, outside a sweep boundary (R362, R383, R388, R391, R393 to R395). -/
def Obligations.MossEventsComplete : Prop :=
  ∀ (c n : Nat) (s : State) (r : MRun), c < 16 →
    (∀ e : Ecc, (e = .clean ∨ ∃ a, e = .corrected a) → s.mossRun c n = some r → s.canSweep r = true → r.ext = none → r.regions.Nodup →
      r.half % 2 = 0 →
      Answers (.mossHalfSweep c n e) s fun t => ({ r with half := r.half + 1 } : MRun) ∈ t.moss.runs ∧
        (∀ k x, r.regions[k]? = some x → t.region x = (s.region x).halfSweep (s.mossKey r) r.rule
          (rungBeta (r.segment r.seg) r.ladder (r.rungs.getD k 0)) none k (r.half / 2) 0) ∧
        (∀ x, x ∉ r.regions → t.region x = s.region x)) ∧
    (s.mossRun c n = some r → s.canSweep r = true → r.ext = none → r.regions.Nodup → r.half % 2 = 1 →
      Answers (.mossHalfSweep c n .clean) s fun t => ∃ u : State, t = State.mossAdvance mossFuel u c n ∧
        ({ r with half := r.half + 1, sweep := r.sweep + 1, segSweep := r.segSweep + 1, stage := 1 } : MRun) ∈ u.moss.runs ∧
        ∀ k x, r.regions[k]? = some x → u.region x = (s.region x).halfSweep (s.mossKey r) r.rule
          (rungBeta (r.segment r.seg) r.ladder (r.rungs.getD k 0)) none k (r.half / 2) 1) ∧
    (∀ slot sweep dpa trailer, (s.moss.runs.find? fun r => r.ctx == c && r.run == n && r.cut.isSome) = some r → r.stage = 0 →
      r.cut = some (slot, sweep, dpa, trailer) →
      Answers (.annealCutWriteDone c n) s fun t =>
        OnlyRun (s.lpxWrite dpa 5 trailer) t r { r with cut := none, lastCut := some (slot, sweep) }) ∧
    (s.mossRun c n = some r → r.stage = 0 → r.resBusy = true → Answers (.resultVectorWriteDone c n) s fun t =>
      t.lpxMem = (s.lpxWrite r.resArea 1 (({ r with resBusy := false } : MRun).section (s.replica r 0))).lpxMem ∧
        t.moss.runs = s.moss.runs.map fun x => if x.ctx = r.ctx ∧ x.run = r.run ∧ x.stage < 7 then { r with resBusy := false } else x) ∧
    (∀ (m : MossSetupMsg) (j : Job), s.mossExt c m.extId = none → s.job c = some j → j.st = .running →
      Answers (.mossSetup c m) s fun t => t = { s with moss := { s.moss with early := s.moss.early ++ [(c, m)] } }) ∧
    (∀ (x : MExt) (m : MossSetupMsg), s.mossExt c x.extId = some r → r.ext = some x → r.stage = 0 → m.extId = x.extId → x.isLead = true →
      x.ready = false → (∃ q, q < x.parts ∧ q ≠ m.part ∧ ∀ y ∈ x.setups, y.part ≠ q) →
      Answers (.mossSetup c m) s fun t => OnlyRun s t r { r with ext := some (x.gotSetup m) }) ∧
    (∀ (x : MExt) (m : MossFaceMsg), s.mossExt c x.extId = some r → r.ext = some x → r.stage = 0 → m.extId = x.extId → m.snapshot = false →
      (x.hasPrev = true → m.part + 1 = x.part →
        Answers (.mossFace c m) s fun t => OnlyRun s t r { r with ext := some { x with facePrev := some m } }) ∧
      (x.hasNext = true → m.part = x.part + 1 →
        Answers (.mossFace c m) s fun t => OnlyRun s t r { r with ext := some { x with faceNext := some m } })) ∧
    (∀ x : MExt, s.mossRun c n = some r → r.ext = some x → r.stage = 0 → x.ready = true → x.started = false → x.mayStart r.half = true →
      Answers (.mossExtHalfSweepStart c n) s fun t => ∃ k : Nat,
        t.moss.runs = s.moss.runs.map (fun y => if y.ctx = r.ctx ∧ y.run = r.run ∧ y.stage < 7 then
          { r with ext := some { x with started := true, maxStale := k } } else y) ∧ x.maxStale ≤ k) ∧
    (∀ (x : MExt) (m : MossPartialsMsg), s.mossExt c x.extId = some r → r.ext = some x → r.stage = 0 → m.extId = x.extId → x.isLead = true →
      m.part < x.parts → (∀ q ∈ x.partials, q.part ≠ m.part ∨ q.sweep ≠ m.sweep) →
      (∀ w, ∃ q, q < x.parts ∧ (q ≠ m.part ∨ w ≠ m.sweep) ∧ ∀ y ∈ x.partials, y.sweep = w → y.part ≠ q) →
      Answers (.mossPartials c m) s fun t => OnlyRun s t r { r with ext := some { x with partials := x.partials ++ [m] } }) ∧
    (∀ (x : MExt) (k : Nat), s.mossExt c x.extId = some r → r.ext = some x → r.stage = 0 → x.isLead = false →
      (Answers (.mossDecision c (.start x.extId)) s fun t => OnlyRun s t r { r with ext := some { x with ready := true } }) ∧
      (Answers (.mossDecision c (.cut x.extId k)) s fun t => OnlyRun s t r { r with ext := some { x with cutAt := some k } }) ∧
      (Answers (.mossDecision c (.stop x.extId k)) s fun t => OnlyRun s t r { r with ext := some { x with stopAt := some k } }))

/-! ## Security, management and registers (chapters 6, 15, 17 to 19) -/

namespace Sys2Proof.Slice0
open Sys2Proof Sys2Proof.Machine

/-- A host write of the register at the offset takes effect at once: BAR0 answers there and no scrub runs (R539, R614, R700). -/
def Writable (s : State) (ofs : Nat) : Prop := s.barAnswers ofs = true ∧ s.sec.scrub = none

/-- One event of no context is posted. -/
def Posts (s t : State) (code status : Nat) (payload : List Byte) : Prop :=
  ∃ e : Event, t.host.held = s.host.held ++ [e] ∧ e.code = code ∧ e.status = status ∧ e.payload = payload ∧ e.ctx = 0 ∧ e.tsc = s.tsc

/-- The offsets of the registers that hold RWL fields (R655). -/
def lockedOffsets : List Nat := [0x10010, 0x20008, 0x2000C, 0x40084, 0x80000, 0x110004, 0x11004C, 0x120040, 0x120050]

end Sys2Proof.Slice0

/-- SPG_KAT_GO, SPG_KAT_DONE, SEC_VIEW_WRITE and SEC_LC_GO: the known-answer port latches its inputs and gives the block of R211 for them; the
view follows the context whose key was presented; an allowed lifecycle transition is pending, and every attempt draws a new nonce
(R224 to R227, R542, R547, R548). -/
def Obligations.SecurityRegistersComplete : Prop :=
  ∀ (s : State) (v : W32),
    (Writable s 0x90040 → s.spg.busy = false → exec .spgKatGo s = .next
      { s with spg := { s.spg with busy := true, runKey := s.spg.keyHi ++ s.spg.keyLo, runCtr := s.spg.ctrHi ++ s.spg.ctrLo } }) ∧
    (s.spg.busy = true → Answers .spgKatDone s fun t => t.spg.busy = false ∧ t.spg.done = true ∧
      t.spg.outHi ++ t.spg.outLo = sporeBlock s.spg.runKey s.spg.runCtr ∧ t.spg.u24 = sporeU24 s.spg.runKey s.spg.runCtr ∧
      t.spg.gumbel = sporeGumbel t.spg.u24 ∧ { t with spg := s.spg, glb := s.glb } = s) ∧
    (Writable s 0x60030 → bits v.toNat 3 0 = 0 →
      exec (.secViewWrite v) s = .next { s with sec := { s.sec with view := 0, viewKey := 0 } }) ∧
    (∀ c, Writable s 0x60030 → c = bits v.toNat 3 0 → c ≠ 0 → (s.ctx c).st ≠ 0 → (s.ctx c).viewKey = s.sec.viewKey →
      exec (.secViewWrite v) s = .next { s with sec := { s.sec with view := c, viewKey := 0 } }) ∧
    (∀ c, Writable s 0x60030 → c = bits v.toNat 3 0 → c ≠ 0 → ((s.ctx c).st = 0 ∨ (s.ctx c).viewKey ≠ s.sec.viewKey) →
      Answers (.secViewWrite v) s fun t => t.sec = { s.sec with view := 0, viewKey := 0, viewFails := satAdd 8 s.sec.viewFails 1 } ∧
        Posts s t 0x0809 0 (toLe 1 c)) ∧
    (∀ g, Writable s 0x6000C → bit v.toNat 2 = true → s.sec.islandFail = false → g = bits v.toNat 1 0 → lcAllowed s.fuses.lc g = true →
      (∀ e ∈ s.sec.ctxs, e.1 = 0 ∨ e.2.st = 0) → (g = 2 → s.lcAuthorised g = true) →
      Answers (.secLcGo v) s fun t => t.sec.lcPend = true ∧ t.sec.lcTarget = g ∧ t.fuses = s.fuses ∧
        Posts s t 0x0808 0 (toLe 1 s.fuses.lc ++ toLe 1 g) ∧ t.ens.queue = s.ens.queue ++ [⟨.lcNonce, 1, 8, none, false, []⟩]) ∧
    (∀ g, Writable s 0x6000C → bit v.toNat 2 = true → s.sec.islandFail = false → g = bits v.toNat 1 0 →
      (lcAllowed s.fuses.lc g = false ∨ (g = 2 ∧ s.lcAuthorised g = false)) →
      exec (.secLcGo v) s = .next { s with ens := { s.ens with queue := s.ens.queue ++ [⟨.lcNonce, 1, 8, none, false, []⟩] } })

/-- Firmware update: SEC_FW_STAGE, FW_STAGING_DONE, FW_VERIFY_DONE, SEC_FW_ACTIVATE, SEC_FW_ABORT, SEC_FW_COMMIT_SVN, FW_READY and
FW_ACTIVATE_TIMEOUT (R550 to R553, R560, R562). -/
def Obligations.FirmwareUpdateCompletes : Prop :=
  ∀ s : State,
    (Writable s 0x60064 → s.sec.islandFail = false → s.sec.fwState = 0 → exec .secFwStage s = .next { s with sec := { s.sec with
      fwState := 1, fwStatus := 0, fwAt := (s.sec.fwSrc, s.sec.fwSize), fwDone := 0, fwTotal := ceilDiv s.sec.fwSize 1024 % 65536 } }) ∧
    (∀ bs, s.sec.fwState = 1 → s.hostRead s.sec.fwAt.1 s.sec.fwAt.2 = some bs → exec .fwStagingDone s = .next { s with
      flash := Memory.writeBytes s.flash (slotBase (1 - s.sec.slot)) (bs.take 0x1000000)
      sec := { s.sec with fwState := 2, fwDone := 0 } }) ∧
    (s.sec.fwState = 1 → s.hostRead s.sec.fwAt.1 s.sec.fwAt.2 = none →
      exec .fwStagingDone s = .next { s with sec := { s.sec with fwState := 0, fwStatus := 0x0007 } }) ∧
    (s.sec.fwState = 2 → s.fwCheck (1 - s.sec.slot) = 0 → Answers .fwVerifyDone s fun t =>
      t.sec = { s.sec with fwState := 3, fwStatus := 0, fwDone := s.sec.fwTotal } ∧ t.flash = s.flash ∧
      Posts s t 0x0804 0 (bytesAt (Memory.readBytes s.flash (slotBase (1 - s.sec.slot)) 64) 8 8)) ∧
    (s.sec.fwState = 2 → s.fwCheck (1 - s.sec.slot) ≠ 0 → Answers .fwVerifyDone s fun t =>
      t.sec = { s.sec with fwState := 0, fwStatus := 0x0806 } ∧ Posts s t 0x0805 0x0806 (toLe 1 (s.fwCheck (1 - s.sec.slot)))) ∧
    (Writable s 0x60064 → s.sec.islandFail = false → s.sec.fwState = 3 → s.jobs = [] → Answers .secFwActivate s fun t =>
      t.sec.fwState = 4 ∧ t.boot.activating = true ∧ t.sec.sessions = 0 ∧
      t.flash = Memory.write s.flash 0x1000 (BitVec.ofNat 8 (1 - s.sec.slot)) ∧ ∀ c, c < 16 → (s.ring c).st = 1 → (t.ring c).st = 2) ∧
    (Writable s 0x60064 → s.sec.islandFail = false → s.sec.fwState = 3 → s.jobs ≠ [] →
      exec .secFwActivate s = .next { s with sec := { s.sec with fwStatus := 0x0803 } }) ∧
    (Writable s 0x60064 → s.sec.islandFail = false → (s.sec.fwState = 1 ∨ s.sec.fwState = 3) →
      exec .secFwAbort s = .next { s with sec := { s.sec with fwState := 0, fwStatus := 0 } }) ∧
    (Writable s 0x60064 → s.sec.islandFail = false → Answers .secFwCommitSvn s fun t =>
      t.fuses = { s.fuses with svn := Nat.max s.fuses.svn s.sec.svn } ∧ { t with fuses := s.fuses, sec := s.sec } = s) ∧
    (∀ img, s.sec.fwState = 4 → s.slotImage (1 - s.sec.slot) = some img → Answers .fwReady s fun t => ∃ u : State, t = u.endActivation ∧
      u.sec.slot = 1 - s.sec.slot ∧ u.sec.svn = leAt img 12 4 ∧ u.sec.keyIndex = leAt img 24 1 ∧ u.sec.fwNumeric = leAt img 8 4 ∧
      u.sec.fwBytes = img ∧ Posts s u 0x0806 0 (toLe 4 s.sec.prevNumeric ++ toLe 4 (leAt img 8 4))) ∧
    (s.sec.fwState = 4 → Answers .fwActivateTimeout s fun t => ∃ u : State, t = u.endActivation ∧ u.sec = s.sec ∧
      u.flash = Memory.write s.flash 0x1000 (BitVec.ofNat 8 s.sec.slot) ∧ Posts s u 0x0807 0 (toLe 4 s.sec.fwNumeric))

/-- MGT_MODE_REQ_WRITE, MODE_CHANGE_START, MGT_PLAN_WRITE, PLAN_WRITE_DONE, GLB_LOCK_WRITE, RAS_RETIRE_CMD, DMP_GO, DUMP_WRITE_COMPLETE,
CKP_THR_REQ_WRITE and ENS_TEST_WRITE (R36 to R38, R587, R599, R623, R626, R639 to R641, R655). -/
def Obligations.ManagementWritesComplete : Prop :=
  ∀ (s : State) (v : W32),
    (Writable s 0x10040 → bits v.toNat 1 0 ≤ 1 → exec (.mgtModeReqWrite v) s = .next
      { s with mgt := { s.mgt with modeReq := bits v.toNat 1 0, pend := bits v.toNat 1 0 != s.mgt.modeCur } }) ∧
    (s.modeMayChange = true → Answers .modeChangeStart s fun t => t.mgt = { s.mgt with changing := true } ∧
      t.sec.scrub = some ⟨3, 2, 67036⟩ ∧ ∀ c, c < 16 → (s.ring c).st = 1 → (t.ring c).st = 2) ∧
    (∀ b, Writable s 0x10020 → bit v.toNat 0 = true → s.mgt.busy = false → s.glb.lock = false → s.jobs = [] →
      s.hostRead s.mgt.src 4096 = some b → crc32c (b.take 4092) = leAt b 4092 4 →
      exec (.mgtPlanWrite v) s = .next { s with mgt := { s.mgt with busy := true, buffer := b } }) ∧
    (Writable s 0x10020 → bit v.toNat 0 = true → s.mgt.busy = false → (s.glb.lock = true ∨ s.jobs ≠ []) →
      exec (.mgtPlanWrite v) s = .next { s with mgt := { s.mgt with status := 0x0803 } }) ∧
    (s.mgt.busy = true → exec .planWriteDone s = .next { s with
      flash := Memory.writeBytes s.flash 0 s.mgt.buffer
      mgt := { s.mgt with busy := false, buffer := [], status := 0, pending := true } }) ∧
    (Writable s 0x28 → exec (.glbLockWrite v) s = .next { s with glb := { s.glb with
      lock := s.glb.lock || bit v.toNat 1
      denied := s.glb.denied && !(bit v.toNat 2 && Map.find s.glb.setAt 0x28 != some (s.boot.edges / 8)) } }) ∧
    (∀ m : Mark, m = ⟨b2n (bit v.toNat 10), bits v.toNat 9 0, 0x03⟩ → Writable s 0x12004C → bit v.toNat 11 = true → m ∈ s.ras.retired →
      m ∉ s.ras.restore → exec (.rasRetireCmd v) s = .next { s with ras := { s.ras with restore := s.ras.restore ++ [m] } }) ∧
    (∀ u : State, u = { s with dmp := { s.dmp with arm := bit v.toNat 0 } } → Writable s 0x14000C → bit v.toNat 1 = true →
      bit v.toNat 0 = true → s.dmp.st ≠ 1 → s.boot.halt = .none →
      exec (.dmpGo v) s = .next { u with dmp := { u.dmp with st := 1, status := 0, doneBytes := 0, image := u.dumpImage ⟨1, 0, 0, 0, 0, 2 ^ 64 - 1⟩ } }) ∧
    (Writable s 0x14000C → bit v.toNat 1 = false → exec (.dmpGo v) s = .next { s with dmp := { s.dmp with arm := bit v.toNat 0 } }) ∧
    (s.dmp.st = 1 → 81920 ≤ s.dmp.size → s.hostCanWrite = true → Answers .dumpWriteComplete s fun t => ∃ u : State, t = u.regrowPoll ∧
      u.host.mem = (s.hostWrite s.dmp.base s.dmp.image).host.mem ∧ u.dmp.st = 2 ∧ u.dmp.doneBit = true ∧ u.dmp.arm = false ∧
      u.dmp.status = 0 ∧ u.dmp.doneBytes = s.dmp.image.length ∧ Posts s u 0x0A0A 0 (toLe 4 s.dmp.image.length ++ toLe 2 0)) ∧
    (s.dmp.st = 1 → s.dmp.size < 81920 → Answers .dumpWriteComplete s fun t => ∃ u : State, t = u.regrowPoll ∧ u.host.mem = s.host.mem ∧
      u.dmp.st = 2 ∧ u.dmp.status = 0x000B ∧ Posts s u 0x0A0A 0x000B (toLe 4 0 ++ toLe 2 0)) ∧
    (Writable s 0x20004 →
      exec (.ckpThrReqWrite v) s = .next ({ s with pwr := { s.pwr with hostReq := bits v.toNat 11 8 } } : State).redecide) ∧
    (Writable s 0x70008 → s.fuses.lc = 0 → (bit v.toNat 0 ≠ s.ens.testEn ∨ bits v.toNat 2 1 ≠ s.ens.pattern) →
      Answers (.ensTestWrite v) s fun t => t.ens.testEn = bit v.toNat 0 ∧ t.ens.pattern = bits v.toNat 2 1 ∧ t.ens.startup = true ∧
        t.ens.settling = true ∧ { t with ens := s.ens } = s) ∧
    (Writable s 0x70008 → s.fuses.lc ≠ 0 → exec (.ensTestWrite v) s = .next s)

/-- REG_WRITE, RW1C_WRITE and REG_READ_LOW_LATCH: a low half written is held until its high half; RWL fields keep their values under
SETUP_LOCK; a read of a low half latches the high half (R8 to R12, R650 to R655). -/
def Obligations.RegisterAccessCompletes : Prop :=
  ∀ (s : State) (o size : Nat) (v : W64),
    (barFits o size = true → Writable s o → exec (.regWrite o size v) s = .next (s.applyWrite o size v) ∧
      exec (.rw1cWrite o size v) s = .next (s.applyWrite o size v)) ∧
    ((barFits o size = false ∨ s.barAnswers o = false) → exec (.regWrite o size v) s = .next s ∧ exec (.rw1cWrite o size v) s = .next s ∧
      exec (.regReadLowLatch o size) s = .next { s with reply := List.replicate size 0#8 }) ∧
    (barFits o size = true → s.barAnswers o = true → s.sec.scrub.isSome = true → exec (.regWrite o size v) s = .next
      { s with host := { s.host with accesses := s.host.accesses ++ [.bar0Write o size v] } }) ∧
    (o ∈ lockedOffsets → Writable s o → s.glb.lock = true →
      exec (.regWrite o 4 v) s = .next { s with glb := { s.glb with
        denied := true, setAt := Map.put s.glb.setAt 0x28 (s.boot.edges / 8) } }) ∧
    (o ∈ [0x10018, 0x60018, 0x60058, 0x90020, 0x90028, 0x90030, 0x90038, 0x140000] → Writable s o →
      (Answers (.regWrite o 8 v) s fun t => t.regRead o = v.toNat) ∧
      (Answers (.regWrite o 4 v) s fun t => t = { s with glb := { s.glb with low := Map.put s.glb.low o (v.toNat % 2 ^ 32) } }) ∧
      (∀ l, l < 2 ^ 32 → Map.find s.glb.low o = some l →
        Answers (.regWrite (o + 4) 4 v) s fun t => t.regRead o = l + v.toNat % 2 ^ 32 * 2 ^ 32)) ∧
    (o % 8 = 0 → o < 0x1000000 → writable64 o = true → reg64 o = true → reg64 (o + 4) = false → Writable s o →
      exec (.regWrite o 4 v) s = .next { s with glb := { s.glb with low := Map.put s.glb.low o (v.toNat % 2 ^ 32) } } ∧
      ∀ l, Map.find s.glb.low o = some l → exec (.regWrite (o + 4) 4 v) s = .next
        (({ s with glb := { s.glb with low := Map.del s.glb.low o } } : State).writeReg64 o (l + v.toNat % 2 ^ 32 * 2 ^ 32))) ∧
    (∀ (a : Nat × Nat), a ∈ [(0x28, 2), (0x30004, 7), (0x90044, 1), (0x140010, 2)] → o = a.1 → Writable s o → bit v.toNat a.2 = true →
      (Map.find s.glb.setAt o ≠ some (s.boot.edges / 8) →
        Answers (.rw1cWrite o 4 v) s fun t => bit (t.regRead o) a.2 = false) ∧
      (Map.find s.glb.setAt o = some (s.boot.edges / 8) →
        Answers (.rw1cWrite o 4 v) s fun t => bit (t.regRead o) a.2 = bit (s.regRead o) a.2)) ∧
    (barFits o size = true → s.barAnswers o = true → size = 8 → reg64 o = true →
      exec (.regReadLowLatch o size) s = .next { s with reply := toLe 8 (s.regRead o) }) ∧
    (barFits o size = true → s.barAnswers o = true → size = 4 → reg64 o = true → exec (.regReadLowLatch o size) s = .next
      { s with reply := toLe 4 (s.regRead o % 2 ^ 32), glb := { s.glb with latch := Map.put s.glb.latch o (s.regRead o / 2 ^ 32) } }) ∧
    (∀ h, barFits o size = true → s.barAnswers o = true → size = 4 → reg64 o = false → o % 8 = 4 → reg64 (o - 4) = true →
      Map.find s.glb.latch (o - 4) = some h → exec (.regReadLowLatch o size) s = .next
        { s with reply := toLe 4 h, glb := { s.glb with latch := Map.del s.glb.latch (o - 4) } }) ∧
    (barFits o size = true → s.barAnswers o = true → size = 4 → reg64 o = false → (o % 8 ≠ 4 ∨ reg64 (o - 4) = false) →
      exec (.regReadLowLatch o size) s = .next { s with reply := toLe 4 (s.regRead o) })

/-! ## Resets, boot, pins and power (chapters 17, 18 and 20) -/

/-- RST_CMD_CORE, RST_CMD_HALF, RST_CMD_DEVICE, FLR, PWRGOOD_FALL and RESET_COMPLETE: what each scope resets and what RST_STATUS and
RESET_DONE say of it (R606 to R611, R624, R626, R701). -/
def Obligations.ResetCommandsComplete : Prop :=
  ∀ (s : State) (v : W32),
    (∀ p, Writable s 0x30000 → bits v.toNat 2 0 = 3 → p = bits v.toNat 13 4 → p < 544 → s.boot.halt = .none → s.boot.ready = true →
      s.rst.busy = none → (s.core p).st ≠ .running → (s.core p).st ≠ .off → (s.core p).st ≠ .retired →
      Answers (.rstCmdCore v) s fun t => t.rst.busy = some ⟨1, 0, p, 3⟩ ∧ (0, p) ∈ t.pwr.round ∧
        ∀ q, t.core q = if q = p then { Core.init with st := .stale, logical := (s.core p).logical } else s.core q) ∧
    (∀ p, Writable s 0x30000 → bits v.toNat 2 0 = 3 → p = bits v.toNat 13 4 → p < 544 → s.boot.halt = .none → s.boot.ready = true →
      s.rst.busy = none → (s.core p).st = .running → Answers (.rstCmdCore v) s fun t => t.rst = { s.rst with refused := true } ∧
        t.cores = s.cores) ∧
    (∀ mask, Writable s 0x30000 → bits v.toNat 2 0 = 2 → s.boot.halt = .none → s.boot.ready = true → s.rst.busy = none →
      mask = (if s.split then 2 ^ bits v.toNat 3 3 else 3) →
      Answers (.rstCmdHalf v) s fun t => t.rst.busy = some ⟨if s.split then 2 else 3, mask, 0, 3⟩ ∧ t.boot.aligned = false ∧
        (∀ p, p < 544 → bit mask (coreHalf p) = true → (s.core p).st ≠ .off → (s.core p).st ≠ .retired → (t.core p).st = .stale) ∧
        (∀ c j, c < 16 → s.job c = some j → j.st = .running → j.halves = mask → s.halvesOf c ≠ 0 → ∃ k : Job, t.job c = some k ∧ k.st = .ended ∧ k.reason = 0x0009)) ∧
    (Writable s 0x30000 → bits v.toNat 2 0 = 4 → (s.boot.halt = .none ∨ ∃ k, s.boot.halt = .fatal k) → s.fuses.lc ≠ 3 → s.sec.lcPend = false →
      Answers (.rstCmdDevice v) s fun t => t.rst.busy = some ⟨5, 3, 0, 3⟩ ∧ t.boot.ready = false ∧ t.boot.firmware = false ∧
        t.boot.halt = (if s.pins.thermtrip = true ∧ s.tripHot = true then .fatal 0x21 else .none) ∧
        (∀ c, t.ring c = RingSet.init) ∧ (∀ p, t.core p = Core.init) ∧ t.glb = Glb.init ∧ t.slices = [] ∧ t.flash = s.flash ∧
        t.fuses = s.fuses ∧ t.pins.latWest = s.pins.selWest ∧ t.pins.latEast = s.pins.selEast) ∧
    (s.boot.ready = true → s.rst.busy = none → Answers .flr s fun t => t.rst.busy = some ⟨4, s.jobHalves, 0, 4⟩ ∧
      (∀ c, t.ring c = RingSet.init) ∧ t.glb = Glb.init ∧ t.mgt.modeCur = s.mgt.modeCur ∧ t.rz.routes = [] ∧ t.sec.view = 0) ∧
    (s.pins.pwrgood = true → Answers .pwrgoodFall s fun t => t.cores = [] ∧ t.slices = [] ∧ t.lpxMem = [] ∧ t.jobs = [] ∧
      t.sec = Sec.init ∧ t.ras = Ras.init ∧ t.boot = Boot.init ∧ t.pins.pwrgood = false ∧ t.pins.fatal = false ∧ t.flash = s.flash ∧
      t.fuses = (if s.sec.lcPend then { s.fuses with lc := s.sec.lcTarget } else s.fuses)) ∧
    (∀ (r : ResetRun) (failed : List Nat), s.boot.ready = true → s.rst.busy = some r → s.boot.aligned = true → s.pwr.round = [] → r.cause ≠ 5 →
      Answers (.resetComplete failed) s fun t => ∃ (u : State) (e : Event), t = u.regrowPoll.switchStep ∧ e ∈ u.host.held ∧ e.code = 0x0C05 ∧
        e.payload = toLe 1 r.kind ++ toLe 1 r.halves ++ toLe 2 r.core ∧
        u.rst = { s.rst.counted r.kind with busy := none, lastKind := r.kind, lastCause := r.cause, lastTsc := s.tsc }) ∧
    (∀ failed : List Nat, s.boot.ready = false → s.bootDone = true → Answers (.resetComplete failed) s fun t => ∃ (u : State) (e : Event),
      (t = u ∨ t = u.regrowPoll) ∧ u.boot.ready = true ∧ u.rst.busy = none ∧ e ∈ u.host.held ∧ e.code = 0x0C05)

/-- POWER_UP, ROOT_PLL_LOCK, ALIGNMENT_RELEASE, FIRMWARE_VERIFY, PRIMACY_CLAIM, PRIMACY_TIMEOUT, LPX_TRAINING_DONE and LPX_ZERO_DONE
(R38, R530, R547 to R550, R559, R584, R592, R595 to R597, R612, R615, R616, R682). -/
def Obligations.BootEventsComplete : Prop :=
  ∀ s : State,
    (∀ w e b, s.pins.pwrgood = false → s.sec.lcPend = false → s.fuses.lc ≠ 3 → exec (.powerUp w e b true) s = .next { s with
      pins := { s.pins with pwrgood := true, selWest := w, selEast := e, bootSrc := b, latWest := w, latEast := e, latBoot := b }
      mgt := { s.mgt with primary := b2n w } }) ∧
    (∀ w e b, s.pins.pwrgood = false → s.sec.lcPend = true → Answers (.powerUp w e b true) s fun t =>
      t.fuses = { s.fuses with lc := s.sec.lcTarget } ∧ t.sec.lcPend = false ∧
        (s.sec.lcTarget = 3 → t.boot.halt = .scrapped) ∧ (s.sec.lcTarget ≠ 3 → t.boot = s.boot)) ∧
    (∀ w e b, s.pins.pwrgood = false → Answers (.powerUp w e b false) s fun t => ∃ u : State, t = u.deviceFatal 0 0x23 0x0A04 8 ∧
      u.sec.islandFail = true ∧ u.host = s.host) ∧
    (s.pins.pwrgood = true → s.pins.refclk = true →
      exec .rootPllLock s = .next { s with boot := { s.boot with pllLock := true } }) ∧
    (∀ e, s.boot.aligned = false → s.boot.pllLock = true → s.pins.refclk = true → s.rst.busy = none → s.mgt.changing = false →
      e = (if s.boot.running then s.boot.edges else 0) → Answers .alignmentRelease s fun t =>
        t.boot = { s.boot with aligned := true, running := true, edges := e } ∧ t.west.rel = e ∧ t.east.rel = e ∧
        t.west.level = s.west.level ∧ t.east.level = s.east.level ∧ { t with boot := s.boot, west := s.west, east := s.east } = s) ∧
    (s.boot.aligned = false → s.boot.pllLock = true → s.pins.refclk = true → s.rst.busy = none → s.mgt.changing = true → s.sec.scrub = none →
      Answers .alignmentRelease s fun t => t.boot.aligned = true ∧ t.mgt.modeCur = s.mgt.modeReq ∧ t.mgt.changing = false ∧ t.mgt.pend = false) ∧
    (∀ slot img, s.boot.aligned = true → s.boot.firmware = false → s.boot.halt = .none → slot = s.activeSlot → s.slotImage slot = some img →
      s.fwCheck slot = 0 → s.fuses.lc ≠ 2 → Answers (.firmwareVerify slot) s fun t => t.boot.firmware = true ∧ t.boot.controllers = true ∧
        t.sec.slot = slot ∧ t.sec.svn = leAt img 12 4 ∧ t.sec.keyIndex = leAt img 24 1 ∧ t.sec.fwNumeric = leAt img 8 4 ∧ t.sec.fwBytes = img ∧
        t.sec.memKey = s.fuses.memKey) ∧
    (∀ slot, s.boot.aligned = true → s.boot.firmware = false → s.boot.halt = .none → slot = s.activeSlot → s.fwCheck slot ≠ 0 →
      exec (.firmwareVerify slot) s = .next { s with boot := { s.boot with fuses := true }, sec := { s.sec with fallback := true } }) ∧
    (∀ slot, s.boot.aligned = true → s.boot.firmware = false → s.boot.halt = .none → slot = 1 - s.activeSlot → s.sec.fallback = true →
      s.fwCheck slot ≠ 0 →
      exec (.firmwareVerify slot) s = .next { s with boot := { s.boot with fuses := true, halt := .noFirmware } }) ∧
    (∀ half other, half < 2 → s.boot.controllers = true → s.mgt.agreed = false → s.boot.halt = .none →
      other = (if half = 0 then s.mgt.claimE else s.mgt.claimW) →
      (other = 0 → exec (.primacyClaim half) s = .next { s with mgt :=
        if half = 0 then { s.mgt with claimW := s.claimOf 0 } else { s.mgt with claimE := s.claimOf 1 } }) ∧
      (other = s.claimOf half → Answers (.primacyClaim half) s fun t => t.boot.halt = .primacy ∧ t.pins.fatal = true ∧
        t.host = s.host ∧ t.boot.plan = s.boot.plan) ∧
      (other ≠ 0 → other ≠ s.claimOf half → Answers (.primacyClaim half) s fun t => t.mgt.agreed = true ∧ t.boot.plan = true ∧
        t.mgt.primary = (if half = 0 then (if s.claimOf 0 = 1 then 0 else 1) else (if s.mgt.claimW = 1 then 0 else 1)) ∧
        t.mgt.modeReq = (planValues (Memory.readBytes s.flash 0 4096)).getD 0 0)) ∧
    (s.boot.controllers = true → s.mgt.agreed = false → s.boot.halt = .none → Answers .primacyTimeout s fun t =>
      t.boot.halt = .primacy ∧ t.pins.fatal = true ∧ t.host = s.host) ∧
    (∀ k passed, k < 32 → (s.lpxCtrl k).st = 1 → (s.fuses.lc ≠ 2 ∨ s.sec.memKey ≠ []) → Answers (.lpxTrainingDone k passed) s fun t =>
      (∀ n, t.lpxCtrl n = if n = k then { s.lpxCtrl k with st := if passed then 2 else 3 } else s.lpxCtrl n) ∧ { t with lpx := s.lpx } = s) ∧
    (s.boot.zeroed = false → (∀ a, s.genAt a = 0) → (∀ k, k < 32 → (s.lpxCtrl k).st = 2) → Answers .lpxZeroDone s fun t =>
      t.boot.zeroed = true ∧ (∀ a n, t.lpxRead a n = List.replicate n 0#8))

/-- PERST_N_ASSERT, PERST_N_DEASSERT, REFCLK_LOSS and HOST_LINK_TRAINED (R445, R606, R614, R683, R685). -/
def Obligations.HostPinsComplete : Prop :=
  ∀ s : State,
    (∀ ts, ts < 100000 → exec (.perstNAssert ts) s = .next s) ∧
    (∀ ts, 100000 ≤ ts → s.pins.perst = false → s.pins.pwrgood = true → s.boot.halt = .none → s.boot.ready = false → s.boot.wasReady = false →
      Answers (.perstNAssert ts) s fun t => t.pins = { s.pins with perst := true } ∧ t.isOn 19 = false ∧ t.host.trained = false ∧
        t.boot = s.boot ∧ t.jobs = s.jobs) ∧
    (∀ ts, 100000 ≤ ts → s.pins.perst = false → s.pins.pwrgood = true → s.boot.halt = .none → s.boot.ready = true → s.fuses.lc ≠ 3 →
      s.sec.lcPend = false → Answers (.perstNAssert ts) s fun t => t.pins.perst = true ∧ t.isOn 19 = false ∧ t.host.trained = false ∧
        t.boot.ready = false ∧ t.rst.busy = some ⟨5, 3, 0, 2⟩ ∧ ∀ c, t.ring c = RingSet.init) ∧
    (s.pins.perst = true → s.boot.halt ≠ .primacy → Answers .perstNDeassert s fun t => t.pins = { s.pins with perst := false } ∧
      (t.isOn 19 = true ∨ 19 ∈ t.pwr.rising)) ∧
    (Answers .refclkLoss s fun t => t.boot.halt = .refclk ∧ t.boot.running = false ∧ t.pins.fatal = true ∧ t.pins.refclk = false ∧
      t.lpxMem = [] ∧ t.host = s.host ∧ t.dmp = s.dmp) ∧
    (∀ cxl w r ca me io cm bm, s.pins.perst = false → s.pins.pwrgood = true → s.isOn 19 = true → s.boot.halt ≠ .refclk →
      exec (.hostLinkTrained cxl w r ca me io cm bm) s = .next { s with host := { s.host with
        trained := true, cxl := cxl, width := w, rate := r, cacheEn := cxl && ca, memEn := cxl && me, ideIo := io, ideCm := cxl && cm
        busMaster := bm } })

/-- A decision takes the largest request (R599): once both halves have decided, the last level decided for each is the level that its
requests want, and in joined mode both are the same. -/
def Obligations.LevelIsLargestRequest : Prop :=
  ∀ (s : State) (h : Nat), h < 2 →
    ((((s.redecide.half h).next.getLast?).map (·.1)).getD (s.redecide.half h).level = s.wantLevel h) ∧
    (s.redecide.half h).level = (s.half h).level ∧
    (s.split = false → s.wantLevel 0 = s.wantLevel 1) ∧
    (s.pins.throttle = true → s.pwr.pinLevel ≤ s.wantLevel h) ∧ Nat.min s.pwr.hostReq 8 ≤ s.wantLevel h ∧
    (s.half h).therm ≤ s.wantLevel h ∧ (s.half h).power ≤ s.wantLevel h

/-- THERMTRIP_SENSE, THROTTLE_N_EDGE, THERMAL_THROTTLE_TICK, POWER_THROTTLE_TICK, THROTTLE_LEVEL_APPLY and TEL_UPDATE (R539, R599, R600, R630,
R661, R695, R696, R700). -/
def Obligations.ThrottleEventsComplete : Prop :=
  ∀ (s : State) (h : Nat), h < 2 →
    (∀ n temp, n < 16 → 115 ≤ temp → s.pins.thermtrip = false → s.pins.pwrgood = true → s.boot.halt ≠ .refclk →
      Answers (.thermtripSense n temp) s fun t => ∃ (u : State) (e : Event), t = u.deviceFatal (halfSource (n / 8)) 0x21 0x0A03 0 ∧
        u.pins.thermtrip = true ∧ u.tel.now = s.tel.now.set n temp ∧ u.dmp.st ≠ 1 ∧ u.jobs = s.jobs ∧ e ∈ u.host.held ∧ e.code = 0x0A06 ∧
        e.payload = toLe 1 (n / 8) ++ toLe 1 temp) ∧
    (∀ n temp, n < 16 → temp < 115 → exec (.thermtripSense n temp) s = .next { s with tel := { s.tel with now := s.tel.now.set n temp } }) ∧
    (∀ b, s.pins.thermtrip = false →
      exec (.throttleNEdge b) s = .next ({ s with pins := { s.pins with throttle := b } } : State).redecide) ∧
    (∀ temps, s.boot.halt = .none → (∃ t ∈ temps, s.pwr.tThrottle ≤ t) → Answers (.thermalThrottleTick h temps) s fun t =>
      ∃ u : State, t = u.redecide ∧ (u.half h).therm = Nat.min 8 ((s.half h).therm + 1) ∧ u.half (1 - h) = s.half (1 - h)) ∧
    (∀ temps, s.boot.halt = .none → temps ≠ [] → (∀ t ∈ temps, t + 5 < s.pwr.tThrottle) → Answers (.thermalThrottleTick h temps) s fun t =>
      ∃ u : State, t = u.redecide ∧ (u.half h).therm = (s.half h).therm - 1 ∧ u.half (1 - h) = s.half (1 - h)) ∧
    (∀ temps, s.boot.halt = .none → (∀ t ∈ temps, t < s.pwr.tThrottle) → (∃ t ∈ temps, s.pwr.tThrottle ≤ t + 5) →
      Answers (.thermalThrottleTick h temps) s fun t => { t with tel := s.tel } = s) ∧
    (∀ w n, s.boot.halt = .none → n = (if s.split then 2 * w else w) →
      (s.pwr.limit < n → Answers (.powerThrottleTick h w) s fun t =>
        ∃ u : State, t = u.redecide ∧ (u.half h).power = Nat.min 8 ((s.half h).power + 1) ∧ u.half (1 - h) = s.half (1 - h)) ∧
      (100 * n < 95 * s.pwr.limit → Answers (.powerThrottleTick h w) s fun t =>
        ∃ u : State, t = u.redecide ∧ (u.half h).power = (s.half h).power - 1 ∧ u.half (1 - h) = s.half (1 - h)) ∧
      (n ≤ s.pwr.limit → 95 * s.pwr.limit ≤ 100 * n → exec (.powerThrottleTick h w) s = .next s)) ∧
    (∀ l e rest, s.split = true → (s.half h).next = (l, e) :: rest → s.boot.aligned = true → e ≤ s.boot.edges →
      (s.half h).slot s.boot.edges = 0 → Answers (.throttleLevelApply h) s fun t => (t.half h).level = l ∧ (t.half h).next = rest ∧
        t.half (1 - h) = s.half (1 - h)) ∧
    (∀ l e, s.split = false → (∀ n, n < 2 → (s.half n).next = [(l, e)] ∧ (s.half n).slot s.boot.edges = 0) → s.boot.aligned = true →
      e ≤ s.boot.edges → Answers (.throttleLevelApply h) s fun t => ∀ n, n < 2 → (t.half n).level = l ∧ (t.half n).next = []) ∧
    (∀ temps d w e, s.sec.scrub = none → s.boot.halt = .none → exec (.telUpdate temps d w e) s = .next
      { s with tel := { s.tel with now := temps, temps := temps, device := d, west := w, east := e } }) ∧
    (∀ temps d w e, (s.sec.scrub.isSome = true ∨ s.boot.halt ≠ .none) →
      exec (.telUpdate temps d w e) s = .next { s with tel := { s.tel with now := temps } })

/-- DOMAIN_POWER_ON, DOMAIN_IDLE_OFF, REJOIN_ROUND_DONE, HEARTBEAT_SEND and HEARTBEAT_MISS (R602 to R605, R617, R628, R636). -/
def Obligations.DomainEventsComplete : Prop :=
  ∀ s : State,
    (∀ d, d < 20 → d ∈ s.pwr.rising → Answers (.domainPowerOn d) s fun t => t.isOn d = true ∧ d ∉ t.pwr.rising) ∧
    (∀ d, 3 ≤ d → d ≤ 10 → d ∈ s.pwr.rising → Answers (.domainPowerOn d) s fun t => ∀ p, p < 544 →
      (coreDomain p = d → (t.core p).st = (if s.ras.excludes 0 p then .retired else .stale) ∧
        (s.ras.excludes 0 p = false → (0, p) ∈ t.pwr.round)) ∧ (coreDomain p ≠ d → t.core p = s.core p)) ∧
    (∀ d, d = 15 ∨ d = 16 → d ∈ s.pwr.rising → Answers (.domainPowerOn d) s fun t => ∀ k, k < 32 →
      (t.lpxCtrl k).st = if k / 16 = d - 15 ∧ (s.lpxCtrl k).st = 0 then 1 else (s.lpxCtrl k).st) ∧
    (∀ d, d < 20 → s.idleDomain d = true → Answers (.domainIdleOff d) s fun t => t.isOn d = false ∧
      ∀ p, p < 544 → coreDomain p = d → (t.core p).st = .off ∧ (0, p) ∉ t.pwr.round) ∧
    (∀ d, d < 20 → s.idleDomain d = false → exec (.domainIdleOff d) s = .next s) ∧
    (∀ failed lanes, s.pwr.round ≠ [] → s.boot.aligned = true → s.pwr.round.Nodup → (∀ x ∈ s.pwr.round, x.1 < 2) →
      Answers (.rejoinRoundDone failed lanes) s fun t => ∃ (u : State) (e : Event), t = u.settleRegions ∧ u.pwr.round = [] ∧
        u.pwr.running = false ∧ e ∈ u.host.held ∧ e.code = 0x0C03 ∧
        (∀ p, (0, p) ∈ s.pwr.round → (u.core p).st = if (0, p) ∈ failed ∨ p ∈ lanes then .retired else .idle) ∧
        ∀ k, (1, k) ∈ s.pwr.round → Map.get 0 u.moss.tiles k = if (1, k) ∈ failed then 5 else 2) ∧
    (∀ h, h < 2 → s.boot.controllers = true → s.boot.halt = .none → ((s.half h).hbSent = 0 ∨ (s.half h).hbSent + 7500 ≤ (s.half h).nc + 1) →
      Answers (.heartbeatSend h) s fun t => (t.half h).hbSent = (s.half h).nc + 1 ∧ (t.half h).hbMissed = 0 ∧
        t.half (1 - h) = s.half (1 - h) ∧ ((s.half (1 - h)).hbSent ≠ 0 → t.mgt.hbOk = true)) ∧
    (∀ h, h < 2 → (s.half h).hbSent ≠ 0 → (s.half h).nc + 1 < (s.half h).hbSent + 7500 → exec (.heartbeatSend h) s = .next s) ∧
    (∀ h, h < 2 → s.boot.controllers = true → s.boot.halt = .none → Answers (.heartbeatMiss h) s fun t => ∃ u : State,
      t = u.deviceFatal (halfSource (1 - h)) 0x22 0x0A05 (2 <<< h) ∧ u.mgt.hbLost = true ∧ u.mgt.hbOk = false ∧ u.jobs = s.jobs ∧
      Posts s u 0x0C06 0 (toLe 1 h))

/-- A device-fatal error (R627, R697, R700): FATAL_N is asserted, the device halts, every job ends with the error's status and the event is
posted. -/
def Obligations.DeviceFatalHalts : Prop :=
  ∀ (s : State) (source kind status flags : Nat), s.boot.halt = .none →
    (s.deviceFatal source kind status flags).boot.halt = .fatal kind ∧ (s.deviceFatal source kind status flags).pins.fatal = true ∧
    (∀ (c : Nat) (j : Job), c < 16 → s.job c = some j → (j.st = .running ∨ j.st = .suspended) →
      ∃ k : Job, (s.deviceFatal source kind status flags).job c = some k ∧ k.st = .ended ∧ k.reason = status) ∧
    (∃ e ∈ (s.deviceFatal source kind status flags).host.held, e.code = 0x0A07 ∧ e.status = status ∧ e.payload = toLe 1 kind) ∧
    (∃ e ∈ (s.deviceFatal source kind status flags).ras.log, e.source = source ∧ e.kind = kind ∧ e.cls = 2 ∧ e.status = status)

/-! ## Entropy and the management ports (chapters 15, 16 and 20) -/

/-- ENS_WINDOW_END, ENS_RESTART_SETTLE, DRBG_INSTANTIATE and DRBG_RESEED (R559, R564 to R575, R579 to R582, R589). -/
def Obligations.EntropyEventsComplete : Prop :=
  ∀ (s : State) (blocks : List (List Byte)) (w : Nat) (fs : List (Nat × Nat × Nat)) (b : List Byte), w = s.ens.window →
    fs = s.ens.failures (s.ens.window32 blocks) →
    (s.ens.settling = false → s.pins.pwrgood = true → s.ens.startup = true → s.ens.stoch ≠ 3 → fs = [] →
      Answers (.ensWindowEnd blocks) s fun t => t.ens.ready = true ∧ t.ens.stoch = 1 ∧ t.ens.startup = false ∧
        t.ens.window = (w + 1) % 2 ^ 64 ∧ t.ens.consec = s.ens.consec ∧ Posts s t (if s.ens.ready then 0x0905 else 0x0901) 0 (toLe 8 w)) ∧
    (s.ens.settling = false → s.pins.pwrgood = true → s.ens.startup = true → s.ens.stoch ≠ 3 → fs ≠ [] → s.ens.consec < 2 →
      Answers (.ensWindowEnd blocks) s fun t => t.ens.stoch = 2 ∧ t.ens.startup = true ∧ t.ens.settling = true ∧
        t.ens.consec = s.ens.consec + 1 ∧ t.ens.fails = Nat.min (s.ens.fails + fs.length) (2 ^ 32 - 1) ∧
        t.host.held.length = s.host.held.length + fs.length) ∧
    (s.ens.settling = false → s.pins.pwrgood = true → s.ens.startup = true → s.ens.stoch ≠ 3 → fs ≠ [] → 2 ≤ s.ens.consec →
      Answers (.ensWindowEnd blocks) s fun t => t.ens.stoch = 3 ∧ t.ens.consec = 3 ∧ ∀ r ∈ t.ens.queue, r.kind = 1) ∧
    (s.pins.pwrgood = true → exec .ensRestartSettle s = .next { s with ens := { s.ens with settling := false } }) ∧
    (s.ens.secBlock = some b → s.drb.st = 0 → s.sec.islandFail = false → Answers (.drbgInstantiate true) s fun t => ∃ u : State,
      t = u.serveRandom ∧ u.ens = { s.ens with secBlock := none } ∧ u.host = s.host ∧ u.drb = { s.drb with
        key := (drbgInit (b.take 96) s.personalization).1, v := (drbgInit (b.take 96) s.personalization).2, count := 0, st := 1 }) ∧
    (s.ens.secBlock = some b → s.drb.st = 0 → s.sec.islandFail = false → Answers (.drbgInstantiate false) s fun t => ∃ u : State,
      t = u.deviceFatal 0 0x23 0x0A04 8 ∧ u.sec.islandFail = true ∧ u.drb = s.drb) ∧
    (s.ens.secBlock = some b → s.drb.st = 1 → s.sec.islandFail = false → s.mayReseed = true → Answers .drbgReseed s fun t => ∃ u : State,
      t = u.serveRandom ∧ u.drb = { s.drb with
        key := (drbgReseedKV s.drb.key s.drb.v (b.take 96)).1, v := (drbgReseedKV s.drb.key s.drb.v (b.take 96)).2
        count := 0, due := false, reseeds := (s.drb.reseeds + 1) % 2 ^ 64 })

/-- The SMBus reads, the alert response, JTAG and SPDM: what each answers, and that it changes nothing else but what it says (R543, R552, R554
to R556, R687 to R689). -/
def Obligations.ManagementPortsComplete : Prop :=
  ∀ s : State,
    (s.pins.pwrgood = true →
      exec .smbStatus s = .next { s with reply := toLe 1 (s.dvs + 8 * b2n s.pins.thermtrip + 16 * b2n s.pins.fatal + 32 * s.fuses.lc) } ∧
      (s.coarseTel = true → exec .smbTemp s = .next { s with reply := toLe 1 (hottest s.tel.temps / 5 * 5) }) ∧
      (s.coarseTel = false → exec .smbTemp s = .next { s with reply := toLe 1 (hottest s.tel.temps) }) ∧
      (s.coarseTel = true → exec .smbPower s = .next { s with reply := toLe 2 ((s.tel.device + 2) / 5 * 5) }) ∧
      (s.coarseTel = false → exec .smbPower s = .next { s with reply := toLe 2 s.tel.device }) ∧
      exec .smbThrottle s = .next { s with reply := toLe 1 (Nat.max s.west.level s.east.level) } ∧
      exec .smbAlert s = .next { s with reply := toLe 1 s.tel.alert, tel := { s.tel with alert := 0 } } ∧
      exec .smbSerial s = .next { s with reply := toLe 8 s.fuses.serial } ∧
      exec .smbAlertResponse s = .next { s with reply := if s.tel.alert = 0 then [] else [0x5A#8] }) ∧
    (s.pins.pwrgood = false → ∀ i ∈ [Instr.smbStatus, .smbTemp, .smbPower, .smbThrottle, .smbAlert, .smbSerial, .smbAlertResponse],
      exec i s = .next { s with reply := [] }) ∧
    (∀ ir : JtagIr, (s.jtagOpen = true ∨ ir = .idcode) → exec (.jtagInstruction ir) s = .next { s with
      tel := { s.tel with jtagIr := ir }, reply := if ir = .idcode then toLe 4 0xE9601F3D else [] }) ∧
    (∀ ir : JtagIr, s.jtagOpen = false → ir ≠ .idcode → exec (.jtagInstruction ir) s = .next { s with
      tel := { s.tel with jtagIr := .bypass }, reply := [] }) ∧
    (∀ n, s.islandAnswers = true → s.boot.activating = false → 1 ≤ n → n ≤ 8 →
      exec (.spdmGetMeasurements n) s = .next { s with reply := s.measurementBlock n }) ∧
    (s.islandAnswers = true → s.boot.activating = false → exec (.spdmGetMeasurements 0) s = .next { s with reply := [8#8] }) ∧
    (∀ n r, s.islandAnswers = false → exec (.spdmGetMeasurements n) s = .next { s with reply := [] } ∧
      exec (.spdmRequest r) s = .next { s with reply := [] }) ∧
    (∀ n r, s.islandAnswers = true → s.boot.activating = true →
      exec (.spdmGetMeasurements n) s = .next { s with reply := spdmError 3 } ∧ exec (.spdmRequest r) s = .next { s with reply := spdmError 3 }) ∧
    (s.islandAnswers = true → s.boot.activating = false → s.fuses.lc ≠ 2 → s.sec.sessions + s.sec.handshakes < 15 →
      Answers (.spdmRequest .keyExchange) s fun t => t.sec = { s.sec with handshakes := s.sec.handshakes + 1 } ∧
        { t with sec := s.sec, reply := s.reply, freeCtr := s.freeCtr } = s) ∧
    (s.islandAnswers = true → s.boot.activating = false → s.sec.handshakes ≠ 0 → Answers (.spdmRequest .finish) s fun t =>
      t.sec = { s.sec with handshakes := s.sec.handshakes - 1, sessions := s.sec.sessions + 1 } ∧ { t with sec := s.sec, reply := s.reply } = s) ∧
    (s.islandAnswers = true → s.boot.activating = false → s.sec.sessions ≠ 0 → Answers (.spdmRequest .endSession) s fun t =>
      t.sec = { s.sec with sessions := s.sec.sessions - 1 } ∧ { t with sec := s.sec, reply := s.reply } = s) ∧
    (∀ r : SpdmReq, r ≠ .keyExchange → r ≠ .finish → r ≠ .endSession → Answers (.spdmRequest r) s fun t =>
      { t with reply := s.reply, freeCtr := s.freeCtr } = s)

/-! ## What every step keeps -/

/-- The fuses never go back (R544, R550, R553): whatever a step does, the serial number, the keys, the revocations and the identity stay, and
the fused SVN never falls. -/
def Obligations.FusesNeverGoBack : Prop :=
  ∀ s t : State, step s = .next t →
    s.fuses.svn ≤ t.fuses.svn ∧ { t.fuses with svn := s.fuses.svn, lc := s.fuses.lc } = s.fuses

/-- What reset leaves, where the specification gives the value: cores OFF, no job, ring sets DISABLED, no context, nothing locked, the reset
values of the register tables (R156, R460, R487, R524, R597, R626, R655, R657, R671, R674). -/
def Obligations.ResetValues : Prop :=
  let s := State.reset
  (∀ p, (s.core p).st = .off) ∧ (∀ c, s.job c = none) ∧ (∀ c, (s.ring c).st = 0) ∧ (∀ c, 1 ≤ c → (s.ctx c).st = 0) ∧ s.pending = [] ∧
    s.west.level = 0 ∧ s.east.level = 0 ∧ s.glb.lock = false ∧ s.host.held = [] ∧ s.pwr.pinLevel = 8 ∧ s.pwr.tThrottle = 95 ∧
    s.pwr.limit = 1400 ∧ s.drb.log2Base = 20 ∧ s.ras.thCore = 64 ∧ s.ras.thSram = 1024 ∧ s.ras.thLpx = 1024 ∧ s.ras.peerTo = 10000 ∧
    s.rz.portEn = 0xFFFF ∧ s.ens.ready = false ∧ s.drb.st = 0 ∧ s.dmp.arm = false
end

