-- ==== Sys2Proof/Laws/Map.lean ====
section
/-!
SUPPORT. The laws of sparse maps and of memories: what a read gives after a write, and that every operation keeps the
canonical form.
-/
namespace Sys2Proof.Machine

/-! ## Reads of a map -/

@[simp] theorem Map.get_nil {α : Type} (d : α) (k : Nat) : Map.get d [] k = d := rfl

theorem Map.get_cons {α : Type} (d : α) (k' : Nat) (v : α) (r : Map α) (k : Nat) :
    Map.get d ((k', v) :: r) k = if k = k' then v else Map.get d r k := rfl

/-- An erased key reads as the default, every other key as before. -/
theorem Map.get_erase {α : Type} (d : α) (m : Map α) (p : Nat → Bool) (k : Nat) :
    Map.get d (Map.erase m p) k = if p k then d else Map.get d m k := by
  induction m with
  | nil => simp [Map.erase]
  | cons e r ih =>
    obtain ⟨k', v⟩ := e
    unfold Map.erase at ih ⊢
    by_cases hp : p k' = true
    · rw [List.filter_cons_of_neg (by simp [hp]), ih, Map.get_cons]
      by_cases hk : k = k'
      · subst hk; simp [hp]
      · simp [hk]
    · rw [List.filter_cons_of_pos (by simp [hp]), Map.get_cons, Map.get_cons, ih]
      by_cases hk : k = k'
      · subst hk; simp [hp]
      · simp [hk]

@[simp] theorem Map.get_del {α : Type} (d : α) (m : Map α) (j k : Nat) :
    Map.get d (Map.del m j) k = if k = j then d else Map.get d m k := by
  simp [Map.del, Map.get_erase]

/-- An inserted entry is what its key reads as, when the map did not list the key. -/
theorem Map.get_insert {α : Type} (d : α) (m : Map α) (j k : Nat) (v : α) (h : ∀ e ∈ m, e.1 ≠ j) :
    Map.get d (Map.insert m j v) k = if k = j then v else Map.get d m k := by
  induction m with
  | nil => simp [Map.insert, Map.get]
  | cons e r ih =>
    obtain ⟨k', w⟩ := e
    have hne : k' ≠ j := h (k', w) (by simp)
    have ih := ih (fun e he => h e (by simp [he]))
    unfold Map.insert
    split
    · rw [Map.get_cons]
    · rw [Map.get_cons, ih, Map.get_cons]
      by_cases hk : k = k'
      · subst hk; simp [hne]
      · simp [hk]

theorem Map.not_mem_del {α : Type} (m : Map α) (j : Nat) : ∀ e ∈ Map.del m j, e.1 ≠ j := by
  intro e he
  simp [Map.del, Map.erase] at he
  exact he.2

/-- What a key reads as after a write: the value at the key written, what it was elsewhere. -/
@[simp] theorem Map.get_set {α : Type} [DecidableEq α] (d : α) (m : Map α) (j k : Nat) (v : α) :
    Map.get d (Map.set d m j v) k = if k = j then v else Map.get d m k := by
  unfold Map.set
  split
  · next h => subst h; simp
  · rw [Map.get_insert _ _ _ _ _ (Map.not_mem_del m j), Map.get_del]
    split <;> simp_all

theorem Map.find_cons {α : Type} (k' : Nat) (v : α) (r : Map α) (k : Nat) :
    Map.find ((k', v) :: r) k = if k = k' then some v else Map.find r k := rfl

/-- The entry of a key that `drop` names is gone, every other entry stays. -/
theorem Map.find_erase {α : Type} (m : Map α) (p : Nat → Bool) (k : Nat) :
    Map.find (Map.erase m p) k = if p k then none else Map.find m k := by
  induction m with
  | nil => simp [Map.erase, Map.find]
  | cons e r ih =>
    obtain ⟨k', v⟩ := e
    unfold Map.erase at ih ⊢
    by_cases hp : p k' = true
    · rw [List.filter_cons_of_neg (by simp [hp]), ih, Map.find_cons]
      by_cases hk : k = k'
      · subst hk; simp [hp]
      · simp [hk]
    · rw [List.filter_cons_of_pos (by simp [hp]), Map.find_cons, Map.find_cons, ih]
      by_cases hk : k = k'
      · subst hk; simp [hp]
      · simp [hk]

@[simp] theorem Map.find_del {α : Type} (m : Map α) (j k : Nat) :
    Map.find (Map.del m j) k = if k = j then none else Map.find m k := by
  simp [Map.del, Map.find_erase]

/-- What an optional entry holds after it was put: the value at its key, what it was elsewhere. -/
@[simp] theorem Map.find_put {α : Type} (m : Map α) (j k : Nat) (v : α) :
    Map.find (Map.put m j v) k = if k = j then some v else Map.find m k := by
  have key : ∀ (m : Map α), (∀ e ∈ m, e.1 ≠ j) →
      Map.find (Map.insert m j v) k = if k = j then some v else Map.find m k := by
    intro m
    induction m with
    | nil => intro _; simp [Map.insert, Map.find]
    | cons e r ih =>
      intro h
      obtain ⟨k', w⟩ := e
      have hne : k' ≠ j := h (k', w) (by simp)
      have ih := ih (fun e he => h e (by simp [he]))
      unfold Map.insert
      split
      · rw [Map.find_cons]
      · rw [Map.find_cons, ih, Map.find_cons]
        by_cases hk : k = k'
        · subst hk; simp [hne]
        · simp [hk]
  unfold Map.put
  rw [key _ (Map.not_mem_del m j), Map.find_del]
  split <;> simp_all

/-! ## The canonical form -/

theorem Map.wfFrom_mono {α : Type} [DecidableEq α] (d : α) (m : Map α) (lo lo' : Nat) (h : lo ≤ lo')
    (hw : Map.wfFrom d lo' m = true) : Map.wfFrom d lo m = true := by
  cases m with
  | nil => rfl
  | cons e r =>
    simp [Map.wfFrom] at hw ⊢
    exact ⟨⟨by omega, hw.1.2⟩, hw.2⟩

theorem Map.wfFrom_erase {α : Type} [DecidableEq α] (d : α) (m : Map α) (p : Nat → Bool) (lo : Nat)
    (hw : Map.wfFrom d lo m = true) : Map.wfFrom d lo (Map.erase m p) = true := by
  induction m generalizing lo with
  | nil => rfl
  | cons e r ih =>
    obtain ⟨k, v⟩ := e
    simp [Map.wfFrom] at hw
    unfold Map.erase at ih ⊢
    by_cases hp : p k = true
    · rw [List.filter_cons_of_neg (by simp [hp])]
      exact Map.wfFrom_mono d _ lo (k + 1) (by omega) (ih (k + 1) hw.2)
    · rw [List.filter_cons_of_pos (by simp [hp])]
      simp [Map.wfFrom]
      exact ⟨⟨hw.1.1, hw.1.2⟩, ih (k + 1) hw.2⟩

theorem Map.wfFrom_insert {α : Type} [DecidableEq α] (d : α) (m : Map α) (j : Nat) (v : α) (lo : Nat)
    (hw : Map.wfFrom d lo m = true) (hl : lo ≤ j) (hv : v ≠ d) (h : ∀ e ∈ m, e.1 ≠ j) :
    Map.wfFrom d lo (Map.insert m j v) = true := by
  induction m generalizing lo with
  | nil => simp [Map.insert, Map.wfFrom, hl, hv]
  | cons e r ih =>
    obtain ⟨k, w⟩ := e
    have hne : k ≠ j := h (k, w) (by simp)
    simp [Map.wfFrom] at hw
    unfold Map.insert
    split
    · simp [Map.wfFrom]
      exact ⟨⟨hl, hv⟩, ⟨by omega, hw.1.2⟩, hw.2⟩
    · simp [Map.wfFrom]
      exact ⟨⟨hw.1.1, hw.1.2⟩, ih (k + 1) hw.2 (by omega) (fun e he => h e (by simp [he]))⟩

/-- A write keeps the canonical form. -/
theorem Map.wf_set {α : Type} [DecidableEq α] (d : α) (m : Map α) (j : Nat) (v : α) (hw : Map.wf d m = true) :
    Map.wf d (Map.set d m j v) = true := by
  unfold Map.wf Map.set at *
  split
  · exact Map.wfFrom_erase d m _ 0 hw
  · next hv => exact Map.wfFrom_insert d _ j v 0 (Map.wfFrom_erase d m _ 0 hw) (by omega) hv (Map.not_mem_del m j)

/-- An erasure keeps the canonical form. -/
theorem Map.wf_erase {α : Type} [DecidableEq α] (d : α) (m : Map α) (p : Nat → Bool) (hw : Map.wf d m = true) :
    Map.wf d (Map.erase m p) = true := Map.wfFrom_erase d m p 0 hw

/-! ## Memory -/

@[simp] theorem Memory.read_write (m : Memory) (a b : Nat) (v : Byte) :
    Memory.read (Memory.write m a v) b = if b = a then v else Memory.read m b := by
  simp [Memory.read, Memory.write]

/-- Every byte of a memory after bytes are written from `a` on: the bytes written in their range, what it was outside. -/
theorem Memory.read_writeBytes (bs : List Byte) (m : Memory) (a b : Nat) :
    Memory.read (Memory.writeBytes m a bs) b =
      if h : a ≤ b ∧ b < a + bs.length then bs[b - a]'(by omega) else Memory.read m b := by
  induction bs generalizing m a with
  | nil => rw [Memory.writeBytes, dif_neg (by simp)]
  | cons x xs ih =>
    rw [Memory.writeBytes, ih]
    by_cases h1 : a + 1 ≤ b ∧ b < a + 1 + xs.length
    · have h2 : a ≤ b ∧ b < a + (x :: xs).length := by simp; omega
      rw [dif_pos h1, dif_pos h2]
      have : b - a = (b - (a + 1)) + 1 := by omega
      simp [this]
    · rw [dif_neg h1, Memory.read_write]
      by_cases h3 : b = a
      · subst h3; simp
      · have h2 : ¬ (a ≤ b ∧ b < a + (x :: xs).length) := by simp; omega
        simp only [h3, if_false]
        rw [dif_neg h2]

/-- A byte outside the range written reads as before. -/
theorem Memory.read_writeBytes_outside (bs : List Byte) (m : Memory) (a b : Nat) (h : b < a ∨ a + bs.length ≤ b) :
    Memory.read (Memory.writeBytes m a bs) b = Memory.read m b := by
  rw [Memory.read_writeBytes, dif_neg (by omega)]

@[simp] theorem Memory.readBytes_length (m : Memory) (a n : Nat) : (Memory.readBytes m a n).length = n := by
  induction n generalizing a with
  | zero => rfl
  | succ n ih => simp [Memory.readBytes, ih]

theorem Memory.readBytes_getElem (m : Memory) (a n i : Nat) (h : i < (Memory.readBytes m a n).length) :
    (Memory.readBytes m a n)[i] = Memory.read m (a + i) := by
  induction n generalizing a i with
  | zero => simp [Memory.readBytes] at h
  | succ n ih =>
    cases i with
    | zero => simp [Memory.readBytes]
    | succ i =>
      simp only [Memory.readBytes, List.getElem_cons_succ]
      rw [ih]
      congr 1
      omega

/-- Bytes read where the same number was just written are the bytes written. -/
theorem Memory.readBytes_writeBytes (m : Memory) (a : Nat) (bs : List Byte) :
    Memory.readBytes (Memory.writeBytes m a bs) a bs.length = bs := by
  apply List.ext_getElem
  · simp
  · intro i h1 h2
    rw [Memory.readBytes_getElem, Memory.read_writeBytes, dif_pos (by omega)]
    congr 1
    omega

/-- Bytes read outside the range written read as before. -/
theorem Memory.readBytes_writeBytes_outside (m : Memory) (a b n : Nat) (bs : List Byte)
    (h : b + n ≤ a ∨ a + bs.length ≤ b) :
    Memory.readBytes (Memory.writeBytes m a bs) b n = Memory.readBytes m b n := by
  apply List.ext_getElem
  · simp
  · intro i h1 h2
    simp at h1
    rw [Memory.readBytes_getElem, Memory.readBytes_getElem, Memory.read_writeBytes_outside _ _ _ _ (by omega)]

/-- A zeroed range reads as zero, every other byte as before. -/
theorem Memory.read_zeroRange (m : Memory) (a n b : Nat) :
    Memory.read (Memory.zeroRange m a n) b = if a ≤ b ∧ b < a + n then 0#8 else Memory.read m b := by
  simp [Memory.read, Memory.zeroRange, Map.get_erase]

/-- One byte written keeps the canonical form. -/
theorem Memory.wf_write (m : Memory) (a : Nat) (v : Byte) (h : Memory.wf m = true) : Memory.wf (Memory.write m a v) = true :=
  Map.wf_set 0#8 m a v h

/-- Bytes written keep the canonical form. -/
theorem Memory.wf_writeBytes (bs : List Byte) (m : Memory) (a : Nat) (h : Memory.wf m = true) :
    Memory.wf (Memory.writeBytes m a bs) = true := by
  induction bs generalizing m a with
  | nil => exact h
  | cons x xs ih => exact ih _ _ (Memory.wf_write m a x h)

/-- A little-endian write keeps the canonical form. -/
theorem Memory.wf_writeLe (m : Memory) (a n v : Nat) (h : Memory.wf m = true) : Memory.wf (Memory.writeLe m a n v) = true :=
  Memory.wf_writeBytes _ m a h

/-- A zeroed range keeps the canonical form. -/
theorem Memory.wf_zeroRange (m : Memory) (a n : Nat) (h : Memory.wf m = true) : Memory.wf (Memory.zeroRange m a n) = true :=
  Map.wf_erase 0#8 m _ h

/-! ## Byte order -/

@[simp] theorem toLe_length (n v : Nat) : (toLe n v).length = n := by
  induction n generalizing v with
  | zero => rfl
  | succ n ih => simp [toLe, ih]

/-- The number that the low bytes of a number spell. -/
theorem ofLe_toLe (n v : Nat) : ofLe (toLe n v) = v % 256 ^ n := by
  induction n generalizing v with
  | zero => simp [toLe, ofLe, Nat.mod_one]
  | succ n ih =>
    have h : (256 : Nat) ^ (n + 1) = 256 * 256 ^ n := by rw [Nat.pow_succ, Nat.mul_comm]
    simp only [toLe, ofLe, ih, BitVec.toNat_ofNat, h]
    exact (Nat.mod_mul (a := 256) (b := 256 ^ n)).symm

/-- A number of `n` bytes read where it was written. -/
theorem Memory.readLe_writeLe (m : Memory) (a n v : Nat) : Memory.readLe (Memory.writeLe m a n v) a n = v % 256 ^ n := by
  have h := Memory.readBytes_writeBytes m a (toLe n v)
  rw [toLe_length] at h
  rw [Memory.readLe, Memory.writeLe, h, ofLe_toLe]

/-- A number read outside the range written reads as before. -/
theorem Memory.readLe_writeLe_outside (m : Memory) (a n v b k : Nat) (h : b + k ≤ a ∨ a + n ≤ b) :
    Memory.readLe (Memory.writeLe m a n v) b k = Memory.readLe m b k := by
  rw [Memory.readLe, Memory.readLe, Memory.writeLe, Memory.readBytes_writeBytes_outside _ _ _ _ _ (by simpa using h)]

end Sys2Proof.Machine
end

