-- ==== Sys2Proof/Laws/State.lean ====
section
/-!
SUPPORT. Beside the state: what a read gives after each named update, and one lemma per field for every field that the update
leaves alone (the fuses and the queue are in Laws/Kept.lean).
-/
namespace Sys2Proof.Machine
open Sys2Proof

/-! ## Reads after updates -/

@[simp] theorem State.core_setCore (s : State) (p q : Nat) (c : Core) :
    (s.setCore p c).core q = if q = p then c else s.core q := by simp [State.core, State.setCore]

@[simp] theorem State.ring_setRing (s : State) (c d : Nat) (r : RingSet) :
    (s.setRing c r).ring d = if d = c then r else s.ring d := by simp [State.ring, State.setRing]

@[simp] theorem State.job_setJob (s : State) (c d : Nat) (j : Job) :
    (s.setJob c j).job d = if d = c then some j else s.job d := by simp [State.job, State.setJob]

@[simp] theorem State.job_dropJob (s : State) (c d : Nat) :
    (s.dropJob c).job d = if d = c then none else s.job d := by simp [State.job, State.dropJob]

@[simp] theorem State.ctx_setCtx (s : State) (c d : Nat) (x : Ctx) :
    (s.setCtx c x).ctx d = if d = c then x else s.ctx d := by simp [State.ctx, State.setCtx]

@[simp] theorem State.lpxCtrl_setLpx (s : State) (i j : Nat) (x : Lpx) :
    (s.setLpx i x).lpxCtrl j = if j = i then x else s.lpxCtrl j := by simp [State.lpxCtrl, State.setLpx]

@[simp] theorem State.port_setPort (s : State) (p q : Nat) (x : Port) :
    (s.setPort p x).port q = if q = p then x else s.port q := by simp [State.port, State.setPort]

@[simp] theorem State.acc_setAcc (s : State) (n i j : Nat) (a : ExactAcc) :
    (s.setAcc n i a).acc n j = if j = i then a else s.acc n j := by simp [State.acc, State.setAcc]

@[simp] theorem Core.sreg_setSreg (c : Core) (r q : Nat) (v : W64) :
    (c.setSreg r v).sreg q = if q = r ∧ q ≠ 0 then v else c.sreg q := by
  unfold Core.sreg Core.setSreg
  by_cases h : r = 0
  · subst h; simp
  · by_cases hq : q = 0
    · subst hq; simp
    · simp [h, hq]

/-! ## Fields that an update leaves alone -/

@[simp] theorem State.setHalf_freeCtr (s : State) (h : Nat) (x : Half) : (s.setHalf h x).freeCtr = s.freeCtr := by
  unfold State.setHalf; split <;> rfl
@[simp] theorem State.setHalf_reply (s : State) (h : Nat) (x : Half) : (s.setHalf h x).reply = s.reply := by
  unfold State.setHalf; split <;> rfl
@[simp] theorem State.setHalf_boot (s : State) (h : Nat) (x : Half) : (s.setHalf h x).boot = s.boot := by
  unfold State.setHalf; split <;> rfl
@[simp] theorem State.setHalf_pins (s : State) (h : Nat) (x : Half) : (s.setHalf h x).pins = s.pins := by
  unfold State.setHalf; split <;> rfl
@[simp] theorem State.setHalf_pwr (s : State) (h : Nat) (x : Half) : (s.setHalf h x).pwr = s.pwr := by
  unfold State.setHalf; split <;> rfl
@[simp] theorem State.setHalf_rst (s : State) (h : Nat) (x : Half) : (s.setHalf h x).rst = s.rst := by
  unfold State.setHalf; split <;> rfl
@[simp] theorem State.setHalf_mgt (s : State) (h : Nat) (x : Half) : (s.setHalf h x).mgt = s.mgt := by
  unfold State.setHalf; split <;> rfl
@[simp] theorem State.setHalf_glb (s : State) (h : Nat) (x : Half) : (s.setHalf h x).glb = s.glb := by
  unfold State.setHalf; split <;> rfl
@[simp] theorem State.setHalf_flash (s : State) (h : Nat) (x : Half) : (s.setHalf h x).flash = s.flash := by
  unfold State.setHalf; split <;> rfl
@[simp] theorem State.setHalf_sec (s : State) (h : Nat) (x : Half) : (s.setHalf h x).sec = s.sec := by
  unfold State.setHalf; split <;> rfl
@[simp] theorem State.setHalf_ens (s : State) (h : Nat) (x : Half) : (s.setHalf h x).ens = s.ens := by
  unfold State.setHalf; split <;> rfl
@[simp] theorem State.setHalf_drb (s : State) (h : Nat) (x : Half) : (s.setHalf h x).drb = s.drb := by
  unfold State.setHalf; split <;> rfl
@[simp] theorem State.setHalf_spg (s : State) (h : Nat) (x : Half) : (s.setHalf h x).spg = s.spg := by
  unfold State.setHalf; split <;> rfl
@[simp] theorem State.setHalf_ras (s : State) (h : Nat) (x : Half) : (s.setHalf h x).ras = s.ras := by
  unfold State.setHalf; split <;> rfl
@[simp] theorem State.setHalf_dmp (s : State) (h : Nat) (x : Half) : (s.setHalf h x).dmp = s.dmp := by
  unfold State.setHalf; split <;> rfl
@[simp] theorem State.setHalf_tel (s : State) (h : Nat) (x : Half) : (s.setHalf h x).tel = s.tel := by
  unfold State.setHalf; split <;> rfl
@[simp] theorem State.setHalf_host (s : State) (h : Nat) (x : Half) : (s.setHalf h x).host = s.host := by
  unfold State.setHalf; split <;> rfl
@[simp] theorem State.setHalf_cores (s : State) (h : Nat) (x : Half) : (s.setHalf h x).cores = s.cores := by
  unfold State.setHalf; split <;> rfl
@[simp] theorem State.setHalf_kernels (s : State) (h : Nat) (x : Half) : (s.setHalf h x).kernels = s.kernels := by
  unfold State.setHalf; split <;> rfl
@[simp] theorem State.setHalf_espConflict (s : State) (h : Nat) (x : Half) :
    (s.setHalf h x).espConflict = s.espConflict := by
  unfold State.setHalf; split <;> rfl
@[simp] theorem State.setHalf_espHandleW (s : State) (h : Nat) (x : Half) :
    (s.setHalf h x).espHandleW = s.espHandleW := by
  unfold State.setHalf; split <;> rfl
@[simp] theorem State.setHalf_espHandleE (s : State) (h : Nat) (x : Half) :
    (s.setHalf h x).espHandleE = s.espHandleE := by
  unfold State.setHalf; split <;> rfl
@[simp] theorem State.setHalf_slices (s : State) (h : Nat) (x : Half) : (s.setHalf h x).slices = s.slices := by
  unfold State.setHalf; split <;> rfl
@[simp] theorem State.setHalf_exact (s : State) (h : Nat) (x : Half) : (s.setHalf h x).exact = s.exact := by
  unfold State.setHalf; split <;> rfl
@[simp] theorem State.setHalf_slcSel (s : State) (h : Nat) (x : Half) : (s.setHalf h x).slcSel = s.slcSel := by
  unfold State.setHalf; split <;> rfl
@[simp] theorem State.setHalf_spareUsed (s : State) (h : Nat) (x : Half) :
    (s.setHalf h x).spareUsed = s.spareUsed := by
  unfold State.setHalf; split <;> rfl
@[simp] theorem State.setHalf_lpxMem (s : State) (h : Nat) (x : Half) : (s.setHalf h x).lpxMem = s.lpxMem := by
  unfold State.setHalf; split <;> rfl
@[simp] theorem State.setHalf_lineGen (s : State) (h : Nat) (x : Half) : (s.setHalf h x).lineGen = s.lineGen := by
  unfold State.setHalf; split <;> rfl
@[simp] theorem State.setHalf_lineKind (s : State) (h : Nat) (x : Half) : (s.setHalf h x).lineKind = s.lineKind := by
  unfold State.setHalf; split <;> rfl
@[simp] theorem State.setHalf_lpx (s : State) (h : Nat) (x : Half) : (s.setHalf h x).lpx = s.lpx := by
  unfold State.setHalf; split <;> rfl
@[simp] theorem State.setHalf_lpxSel (s : State) (h : Nat) (x : Half) : (s.setHalf h x).lpxSel = s.lpxSel := by
  unfold State.setHalf; split <;> rfl
@[simp] theorem State.setHalf_streamers (s : State) (h : Nat) (x : Half) :
    (s.setHalf h x).streamers = s.streamers := by
  unfold State.setHalf; split <;> rfl
@[simp] theorem State.setHalf_jobs (s : State) (h : Nat) (x : Half) : (s.setHalf h x).jobs = s.jobs := by
  unfold State.setHalf; split <;> rfl
@[simp] theorem State.setHalf_trySel (s : State) (h : Nat) (x : Half) : (s.setHalf h x).trySel = s.trySel := by
  unfold State.setHalf; split <;> rfl
@[simp] theorem State.setHalf_bedSel (s : State) (h : Nat) (x : Half) : (s.setHalf h x).bedSel = s.bedSel := by
  unfold State.setHalf; split <;> rfl
@[simp] theorem State.setHalf_cutSel (s : State) (h : Nat) (x : Half) : (s.setHalf h x).cutSel = s.cutSel := by
  unfold State.setHalf; split <;> rfl
@[simp] theorem State.setHalf_snap (s : State) (h : Nat) (x : Half) : (s.setHalf h x).snap = s.snap := by
  unfold State.setHalf; split <;> rfl
@[simp] theorem State.setHalf_outbox (s : State) (h : Nat) (x : Half) : (s.setHalf h x).outbox = s.outbox := by
  unfold State.setHalf; split <;> rfl
@[simp] theorem State.setHalf_rz (s : State) (h : Nat) (x : Half) : (s.setHalf h x).rz = s.rz := by
  unfold State.setHalf; split <;> rfl
@[simp] theorem State.setHalf_links (s : State) (h : Nat) (x : Half) : (s.setHalf h x).links = s.links := by
  unfold State.setHalf; split <;> rfl
@[simp] theorem State.setHalf_moss (s : State) (h : Nat) (x : Half) : (s.setHalf h x).moss = s.moss := by
  unfold State.setHalf; split <;> rfl

@[simp] theorem State.onHalves_freeCtr (s : State) (mask : Nat) (f : Nat → Half → Half) :
    (s.onHalves mask f).freeCtr = s.freeCtr := rfl
@[simp] theorem State.onHalves_reply (s : State) (mask : Nat) (f : Nat → Half → Half) :
    (s.onHalves mask f).reply = s.reply := rfl
@[simp] theorem State.onHalves_boot (s : State) (mask : Nat) (f : Nat → Half → Half) :
    (s.onHalves mask f).boot = s.boot := rfl
@[simp] theorem State.onHalves_pins (s : State) (mask : Nat) (f : Nat → Half → Half) :
    (s.onHalves mask f).pins = s.pins := rfl
@[simp] theorem State.onHalves_pwr (s : State) (mask : Nat) (f : Nat → Half → Half) :
    (s.onHalves mask f).pwr = s.pwr := rfl
@[simp] theorem State.onHalves_rst (s : State) (mask : Nat) (f : Nat → Half → Half) :
    (s.onHalves mask f).rst = s.rst := rfl
@[simp] theorem State.onHalves_mgt (s : State) (mask : Nat) (f : Nat → Half → Half) :
    (s.onHalves mask f).mgt = s.mgt := rfl
@[simp] theorem State.onHalves_glb (s : State) (mask : Nat) (f : Nat → Half → Half) :
    (s.onHalves mask f).glb = s.glb := rfl
@[simp] theorem State.onHalves_flash (s : State) (mask : Nat) (f : Nat → Half → Half) :
    (s.onHalves mask f).flash = s.flash := rfl
@[simp] theorem State.onHalves_sec (s : State) (mask : Nat) (f : Nat → Half → Half) :
    (s.onHalves mask f).sec = s.sec := rfl
@[simp] theorem State.onHalves_ens (s : State) (mask : Nat) (f : Nat → Half → Half) :
    (s.onHalves mask f).ens = s.ens := rfl
@[simp] theorem State.onHalves_drb (s : State) (mask : Nat) (f : Nat → Half → Half) :
    (s.onHalves mask f).drb = s.drb := rfl
@[simp] theorem State.onHalves_spg (s : State) (mask : Nat) (f : Nat → Half → Half) :
    (s.onHalves mask f).spg = s.spg := rfl
@[simp] theorem State.onHalves_ras (s : State) (mask : Nat) (f : Nat → Half → Half) :
    (s.onHalves mask f).ras = s.ras := rfl
@[simp] theorem State.onHalves_dmp (s : State) (mask : Nat) (f : Nat → Half → Half) :
    (s.onHalves mask f).dmp = s.dmp := rfl
@[simp] theorem State.onHalves_tel (s : State) (mask : Nat) (f : Nat → Half → Half) :
    (s.onHalves mask f).tel = s.tel := rfl
@[simp] theorem State.onHalves_host (s : State) (mask : Nat) (f : Nat → Half → Half) :
    (s.onHalves mask f).host = s.host := rfl
@[simp] theorem State.onHalves_cores (s : State) (mask : Nat) (f : Nat → Half → Half) :
    (s.onHalves mask f).cores = s.cores := rfl
@[simp] theorem State.onHalves_kernels (s : State) (mask : Nat) (f : Nat → Half → Half) :
    (s.onHalves mask f).kernels = s.kernels := rfl
@[simp] theorem State.onHalves_espConflict (s : State) (mask : Nat) (f : Nat → Half → Half) :
    (s.onHalves mask f).espConflict = s.espConflict := rfl
@[simp] theorem State.onHalves_espHandleW (s : State) (mask : Nat) (f : Nat → Half → Half) :
    (s.onHalves mask f).espHandleW = s.espHandleW := rfl
@[simp] theorem State.onHalves_espHandleE (s : State) (mask : Nat) (f : Nat → Half → Half) :
    (s.onHalves mask f).espHandleE = s.espHandleE := rfl
@[simp] theorem State.onHalves_slices (s : State) (mask : Nat) (f : Nat → Half → Half) :
    (s.onHalves mask f).slices = s.slices := rfl
@[simp] theorem State.onHalves_exact (s : State) (mask : Nat) (f : Nat → Half → Half) :
    (s.onHalves mask f).exact = s.exact := rfl
@[simp] theorem State.onHalves_slcSel (s : State) (mask : Nat) (f : Nat → Half → Half) :
    (s.onHalves mask f).slcSel = s.slcSel := rfl
@[simp] theorem State.onHalves_spareUsed (s : State) (mask : Nat) (f : Nat → Half → Half) :
    (s.onHalves mask f).spareUsed = s.spareUsed := rfl
@[simp] theorem State.onHalves_lpxMem (s : State) (mask : Nat) (f : Nat → Half → Half) :
    (s.onHalves mask f).lpxMem = s.lpxMem := rfl
@[simp] theorem State.onHalves_lineGen (s : State) (mask : Nat) (f : Nat → Half → Half) :
    (s.onHalves mask f).lineGen = s.lineGen := rfl
@[simp] theorem State.onHalves_lineKind (s : State) (mask : Nat) (f : Nat → Half → Half) :
    (s.onHalves mask f).lineKind = s.lineKind := rfl
@[simp] theorem State.onHalves_lpx (s : State) (mask : Nat) (f : Nat → Half → Half) :
    (s.onHalves mask f).lpx = s.lpx := rfl
@[simp] theorem State.onHalves_lpxSel (s : State) (mask : Nat) (f : Nat → Half → Half) :
    (s.onHalves mask f).lpxSel = s.lpxSel := rfl
@[simp] theorem State.onHalves_streamers (s : State) (mask : Nat) (f : Nat → Half → Half) :
    (s.onHalves mask f).streamers = s.streamers := rfl
@[simp] theorem State.onHalves_jobs (s : State) (mask : Nat) (f : Nat → Half → Half) :
    (s.onHalves mask f).jobs = s.jobs := rfl
@[simp] theorem State.onHalves_trySel (s : State) (mask : Nat) (f : Nat → Half → Half) :
    (s.onHalves mask f).trySel = s.trySel := rfl
@[simp] theorem State.onHalves_bedSel (s : State) (mask : Nat) (f : Nat → Half → Half) :
    (s.onHalves mask f).bedSel = s.bedSel := rfl
@[simp] theorem State.onHalves_cutSel (s : State) (mask : Nat) (f : Nat → Half → Half) :
    (s.onHalves mask f).cutSel = s.cutSel := rfl
@[simp] theorem State.onHalves_snap (s : State) (mask : Nat) (f : Nat → Half → Half) :
    (s.onHalves mask f).snap = s.snap := rfl
@[simp] theorem State.onHalves_outbox (s : State) (mask : Nat) (f : Nat → Half → Half) :
    (s.onHalves mask f).outbox = s.outbox := rfl
@[simp] theorem State.onHalves_rz (s : State) (mask : Nat) (f : Nat → Half → Half) :
    (s.onHalves mask f).rz = s.rz := rfl
@[simp] theorem State.onHalves_links (s : State) (mask : Nat) (f : Nat → Half → Half) :
    (s.onHalves mask f).links = s.links := rfl
@[simp] theorem State.onHalves_moss (s : State) (mask : Nat) (f : Nat → Half → Half) :
    (s.onHalves mask f).moss = s.moss := rfl

@[simp] theorem State.setCore_freeCtr (s : State) (p : Nat) (c : Core) : (s.setCore p c).freeCtr = s.freeCtr := rfl
@[simp] theorem State.setCore_reply (s : State) (p : Nat) (c : Core) : (s.setCore p c).reply = s.reply := rfl
@[simp] theorem State.setCore_boot (s : State) (p : Nat) (c : Core) : (s.setCore p c).boot = s.boot := rfl
@[simp] theorem State.setCore_pins (s : State) (p : Nat) (c : Core) : (s.setCore p c).pins = s.pins := rfl
@[simp] theorem State.setCore_west (s : State) (p : Nat) (c : Core) : (s.setCore p c).west = s.west := rfl
@[simp] theorem State.setCore_east (s : State) (p : Nat) (c : Core) : (s.setCore p c).east = s.east := rfl
@[simp] theorem State.setCore_pwr (s : State) (p : Nat) (c : Core) : (s.setCore p c).pwr = s.pwr := rfl
@[simp] theorem State.setCore_rst (s : State) (p : Nat) (c : Core) : (s.setCore p c).rst = s.rst := rfl
@[simp] theorem State.setCore_mgt (s : State) (p : Nat) (c : Core) : (s.setCore p c).mgt = s.mgt := rfl
@[simp] theorem State.setCore_glb (s : State) (p : Nat) (c : Core) : (s.setCore p c).glb = s.glb := rfl
@[simp] theorem State.setCore_flash (s : State) (p : Nat) (c : Core) : (s.setCore p c).flash = s.flash := rfl
@[simp] theorem State.setCore_sec (s : State) (p : Nat) (c : Core) : (s.setCore p c).sec = s.sec := rfl
@[simp] theorem State.setCore_ens (s : State) (p : Nat) (c : Core) : (s.setCore p c).ens = s.ens := rfl
@[simp] theorem State.setCore_drb (s : State) (p : Nat) (c : Core) : (s.setCore p c).drb = s.drb := rfl
@[simp] theorem State.setCore_spg (s : State) (p : Nat) (c : Core) : (s.setCore p c).spg = s.spg := rfl
@[simp] theorem State.setCore_ras (s : State) (p : Nat) (c : Core) : (s.setCore p c).ras = s.ras := rfl
@[simp] theorem State.setCore_dmp (s : State) (p : Nat) (c : Core) : (s.setCore p c).dmp = s.dmp := rfl
@[simp] theorem State.setCore_tel (s : State) (p : Nat) (c : Core) : (s.setCore p c).tel = s.tel := rfl
@[simp] theorem State.setCore_host (s : State) (p : Nat) (c : Core) : (s.setCore p c).host = s.host := rfl
@[simp] theorem State.setCore_kernels (s : State) (p : Nat) (c : Core) : (s.setCore p c).kernels = s.kernels := rfl
@[simp] theorem State.setCore_espConflict (s : State) (p : Nat) (c : Core) :
    (s.setCore p c).espConflict = s.espConflict := rfl
@[simp] theorem State.setCore_espHandleW (s : State) (p : Nat) (c : Core) :
    (s.setCore p c).espHandleW = s.espHandleW := rfl
@[simp] theorem State.setCore_espHandleE (s : State) (p : Nat) (c : Core) :
    (s.setCore p c).espHandleE = s.espHandleE := rfl
@[simp] theorem State.setCore_slices (s : State) (p : Nat) (c : Core) : (s.setCore p c).slices = s.slices := rfl
@[simp] theorem State.setCore_exact (s : State) (p : Nat) (c : Core) : (s.setCore p c).exact = s.exact := rfl
@[simp] theorem State.setCore_slcSel (s : State) (p : Nat) (c : Core) : (s.setCore p c).slcSel = s.slcSel := rfl
@[simp] theorem State.setCore_spareUsed (s : State) (p : Nat) (c : Core) :
    (s.setCore p c).spareUsed = s.spareUsed := rfl
@[simp] theorem State.setCore_lpxMem (s : State) (p : Nat) (c : Core) : (s.setCore p c).lpxMem = s.lpxMem := rfl
@[simp] theorem State.setCore_lineGen (s : State) (p : Nat) (c : Core) : (s.setCore p c).lineGen = s.lineGen := rfl
@[simp] theorem State.setCore_lineKind (s : State) (p : Nat) (c : Core) : (s.setCore p c).lineKind = s.lineKind := rfl
@[simp] theorem State.setCore_lpx (s : State) (p : Nat) (c : Core) : (s.setCore p c).lpx = s.lpx := rfl
@[simp] theorem State.setCore_lpxSel (s : State) (p : Nat) (c : Core) : (s.setCore p c).lpxSel = s.lpxSel := rfl
@[simp] theorem State.setCore_streamers (s : State) (p : Nat) (c : Core) :
    (s.setCore p c).streamers = s.streamers := rfl
@[simp] theorem State.setCore_jobs (s : State) (p : Nat) (c : Core) : (s.setCore p c).jobs = s.jobs := rfl
@[simp] theorem State.setCore_trySel (s : State) (p : Nat) (c : Core) : (s.setCore p c).trySel = s.trySel := rfl
@[simp] theorem State.setCore_bedSel (s : State) (p : Nat) (c : Core) : (s.setCore p c).bedSel = s.bedSel := rfl
@[simp] theorem State.setCore_cutSel (s : State) (p : Nat) (c : Core) : (s.setCore p c).cutSel = s.cutSel := rfl
@[simp] theorem State.setCore_snap (s : State) (p : Nat) (c : Core) : (s.setCore p c).snap = s.snap := rfl
@[simp] theorem State.setCore_outbox (s : State) (p : Nat) (c : Core) : (s.setCore p c).outbox = s.outbox := rfl
@[simp] theorem State.setCore_rz (s : State) (p : Nat) (c : Core) : (s.setCore p c).rz = s.rz := rfl
@[simp] theorem State.setCore_links (s : State) (p : Nat) (c : Core) : (s.setCore p c).links = s.links := rfl
@[simp] theorem State.setCore_moss (s : State) (p : Nat) (c : Core) : (s.setCore p c).moss = s.moss := rfl

@[simp] theorem State.onCores_freeCtr (s : State) (sel : Nat → Bool) (f : Nat → Core → Core) :
    (s.onCores sel f).freeCtr = s.freeCtr := by
  simp [State.onCores]
@[simp] theorem State.onCores_reply (s : State) (sel : Nat → Bool) (f : Nat → Core → Core) :
    (s.onCores sel f).reply = s.reply := by
  simp [State.onCores]
@[simp] theorem State.onCores_boot (s : State) (sel : Nat → Bool) (f : Nat → Core → Core) :
    (s.onCores sel f).boot = s.boot := by
  simp [State.onCores]
@[simp] theorem State.onCores_pins (s : State) (sel : Nat → Bool) (f : Nat → Core → Core) :
    (s.onCores sel f).pins = s.pins := by
  simp [State.onCores]
@[simp] theorem State.onCores_west (s : State) (sel : Nat → Bool) (f : Nat → Core → Core) :
    (s.onCores sel f).west = s.west := by
  simp [State.onCores]
@[simp] theorem State.onCores_east (s : State) (sel : Nat → Bool) (f : Nat → Core → Core) :
    (s.onCores sel f).east = s.east := by
  simp [State.onCores]
@[simp] theorem State.onCores_pwr (s : State) (sel : Nat → Bool) (f : Nat → Core → Core) :
    (s.onCores sel f).pwr = s.pwr := by
  simp [State.onCores]
@[simp] theorem State.onCores_rst (s : State) (sel : Nat → Bool) (f : Nat → Core → Core) :
    (s.onCores sel f).rst = s.rst := by
  simp [State.onCores]
@[simp] theorem State.onCores_mgt (s : State) (sel : Nat → Bool) (f : Nat → Core → Core) :
    (s.onCores sel f).mgt = s.mgt := by
  simp [State.onCores]
@[simp] theorem State.onCores_glb (s : State) (sel : Nat → Bool) (f : Nat → Core → Core) :
    (s.onCores sel f).glb = s.glb := by
  simp [State.onCores]
@[simp] theorem State.onCores_flash (s : State) (sel : Nat → Bool) (f : Nat → Core → Core) :
    (s.onCores sel f).flash = s.flash := by
  simp [State.onCores]
@[simp] theorem State.onCores_sec (s : State) (sel : Nat → Bool) (f : Nat → Core → Core) :
    (s.onCores sel f).sec = s.sec := by
  simp [State.onCores]
@[simp] theorem State.onCores_ens (s : State) (sel : Nat → Bool) (f : Nat → Core → Core) :
    (s.onCores sel f).ens = s.ens := by
  simp [State.onCores]
@[simp] theorem State.onCores_drb (s : State) (sel : Nat → Bool) (f : Nat → Core → Core) :
    (s.onCores sel f).drb = s.drb := by
  simp [State.onCores]
@[simp] theorem State.onCores_spg (s : State) (sel : Nat → Bool) (f : Nat → Core → Core) :
    (s.onCores sel f).spg = s.spg := by
  simp [State.onCores]
@[simp] theorem State.onCores_ras (s : State) (sel : Nat → Bool) (f : Nat → Core → Core) :
    (s.onCores sel f).ras = s.ras := by
  simp [State.onCores]
@[simp] theorem State.onCores_dmp (s : State) (sel : Nat → Bool) (f : Nat → Core → Core) :
    (s.onCores sel f).dmp = s.dmp := by
  simp [State.onCores]
@[simp] theorem State.onCores_tel (s : State) (sel : Nat → Bool) (f : Nat → Core → Core) :
    (s.onCores sel f).tel = s.tel := by
  simp [State.onCores]
@[simp] theorem State.onCores_host (s : State) (sel : Nat → Bool) (f : Nat → Core → Core) :
    (s.onCores sel f).host = s.host := by
  simp [State.onCores]
@[simp] theorem State.onCores_kernels (s : State) (sel : Nat → Bool) (f : Nat → Core → Core) :
    (s.onCores sel f).kernels = s.kernels := by
  simp [State.onCores]
@[simp] theorem State.onCores_espConflict (s : State) (sel : Nat → Bool) (f : Nat → Core → Core) :
    (s.onCores sel f).espConflict = s.espConflict := by
  simp [State.onCores]
@[simp] theorem State.onCores_espHandleW (s : State) (sel : Nat → Bool) (f : Nat → Core → Core) :
    (s.onCores sel f).espHandleW = s.espHandleW := by
  simp [State.onCores]
@[simp] theorem State.onCores_espHandleE (s : State) (sel : Nat → Bool) (f : Nat → Core → Core) :
    (s.onCores sel f).espHandleE = s.espHandleE := by
  simp [State.onCores]
@[simp] theorem State.onCores_slices (s : State) (sel : Nat → Bool) (f : Nat → Core → Core) :
    (s.onCores sel f).slices = s.slices := by
  simp [State.onCores]
@[simp] theorem State.onCores_exact (s : State) (sel : Nat → Bool) (f : Nat → Core → Core) :
    (s.onCores sel f).exact = s.exact := by
  simp [State.onCores]
@[simp] theorem State.onCores_slcSel (s : State) (sel : Nat → Bool) (f : Nat → Core → Core) :
    (s.onCores sel f).slcSel = s.slcSel := by
  simp [State.onCores]
@[simp] theorem State.onCores_spareUsed (s : State) (sel : Nat → Bool) (f : Nat → Core → Core) :
    (s.onCores sel f).spareUsed = s.spareUsed := by
  simp [State.onCores]
@[simp] theorem State.onCores_lpxMem (s : State) (sel : Nat → Bool) (f : Nat → Core → Core) :
    (s.onCores sel f).lpxMem = s.lpxMem := by
  simp [State.onCores]
@[simp] theorem State.onCores_lineGen (s : State) (sel : Nat → Bool) (f : Nat → Core → Core) :
    (s.onCores sel f).lineGen = s.lineGen := by
  simp [State.onCores]
@[simp] theorem State.onCores_lineKind (s : State) (sel : Nat → Bool) (f : Nat → Core → Core) :
    (s.onCores sel f).lineKind = s.lineKind := by
  simp [State.onCores]
@[simp] theorem State.onCores_lpx (s : State) (sel : Nat → Bool) (f : Nat → Core → Core) :
    (s.onCores sel f).lpx = s.lpx := by
  simp [State.onCores]
@[simp] theorem State.onCores_lpxSel (s : State) (sel : Nat → Bool) (f : Nat → Core → Core) :
    (s.onCores sel f).lpxSel = s.lpxSel := by
  simp [State.onCores]
@[simp] theorem State.onCores_streamers (s : State) (sel : Nat → Bool) (f : Nat → Core → Core) :
    (s.onCores sel f).streamers = s.streamers := by
  simp [State.onCores]
@[simp] theorem State.onCores_jobs (s : State) (sel : Nat → Bool) (f : Nat → Core → Core) :
    (s.onCores sel f).jobs = s.jobs := by
  simp [State.onCores]
@[simp] theorem State.onCores_trySel (s : State) (sel : Nat → Bool) (f : Nat → Core → Core) :
    (s.onCores sel f).trySel = s.trySel := by
  simp [State.onCores]
@[simp] theorem State.onCores_bedSel (s : State) (sel : Nat → Bool) (f : Nat → Core → Core) :
    (s.onCores sel f).bedSel = s.bedSel := by
  simp [State.onCores]
@[simp] theorem State.onCores_cutSel (s : State) (sel : Nat → Bool) (f : Nat → Core → Core) :
    (s.onCores sel f).cutSel = s.cutSel := by
  simp [State.onCores]
@[simp] theorem State.onCores_snap (s : State) (sel : Nat → Bool) (f : Nat → Core → Core) :
    (s.onCores sel f).snap = s.snap := by
  simp [State.onCores]
@[simp] theorem State.onCores_outbox (s : State) (sel : Nat → Bool) (f : Nat → Core → Core) :
    (s.onCores sel f).outbox = s.outbox := by
  simp [State.onCores]
@[simp] theorem State.onCores_rz (s : State) (sel : Nat → Bool) (f : Nat → Core → Core) :
    (s.onCores sel f).rz = s.rz := by
  simp [State.onCores]
@[simp] theorem State.onCores_links (s : State) (sel : Nat → Bool) (f : Nat → Core → Core) :
    (s.onCores sel f).links = s.links := by
  simp [State.onCores]
@[simp] theorem State.onCores_moss (s : State) (sel : Nat → Bool) (f : Nat → Core → Core) :
    (s.onCores sel f).moss = s.moss := by
  simp [State.onCores]

@[simp] theorem State.setRing_freeCtr (s : State) (c : Nat) (r : RingSet) : (s.setRing c r).freeCtr = s.freeCtr := rfl
@[simp] theorem State.setRing_reply (s : State) (c : Nat) (r : RingSet) : (s.setRing c r).reply = s.reply := rfl
@[simp] theorem State.setRing_boot (s : State) (c : Nat) (r : RingSet) : (s.setRing c r).boot = s.boot := rfl
@[simp] theorem State.setRing_pins (s : State) (c : Nat) (r : RingSet) : (s.setRing c r).pins = s.pins := rfl
@[simp] theorem State.setRing_west (s : State) (c : Nat) (r : RingSet) : (s.setRing c r).west = s.west := rfl
@[simp] theorem State.setRing_east (s : State) (c : Nat) (r : RingSet) : (s.setRing c r).east = s.east := rfl
@[simp] theorem State.setRing_pwr (s : State) (c : Nat) (r : RingSet) : (s.setRing c r).pwr = s.pwr := rfl
@[simp] theorem State.setRing_rst (s : State) (c : Nat) (r : RingSet) : (s.setRing c r).rst = s.rst := rfl
@[simp] theorem State.setRing_mgt (s : State) (c : Nat) (r : RingSet) : (s.setRing c r).mgt = s.mgt := rfl
@[simp] theorem State.setRing_glb (s : State) (c : Nat) (r : RingSet) : (s.setRing c r).glb = s.glb := rfl
@[simp] theorem State.setRing_flash (s : State) (c : Nat) (r : RingSet) : (s.setRing c r).flash = s.flash := rfl
@[simp] theorem State.setRing_sec (s : State) (c : Nat) (r : RingSet) : (s.setRing c r).sec = s.sec := rfl
@[simp] theorem State.setRing_ens (s : State) (c : Nat) (r : RingSet) : (s.setRing c r).ens = s.ens := rfl
@[simp] theorem State.setRing_drb (s : State) (c : Nat) (r : RingSet) : (s.setRing c r).drb = s.drb := rfl
@[simp] theorem State.setRing_spg (s : State) (c : Nat) (r : RingSet) : (s.setRing c r).spg = s.spg := rfl
@[simp] theorem State.setRing_ras (s : State) (c : Nat) (r : RingSet) : (s.setRing c r).ras = s.ras := rfl
@[simp] theorem State.setRing_dmp (s : State) (c : Nat) (r : RingSet) : (s.setRing c r).dmp = s.dmp := rfl
@[simp] theorem State.setRing_tel (s : State) (c : Nat) (r : RingSet) : (s.setRing c r).tel = s.tel := rfl
@[simp] theorem State.setRing_cores (s : State) (c : Nat) (r : RingSet) : (s.setRing c r).cores = s.cores := rfl
@[simp] theorem State.setRing_kernels (s : State) (c : Nat) (r : RingSet) : (s.setRing c r).kernels = s.kernels := rfl
@[simp] theorem State.setRing_espConflict (s : State) (c : Nat) (r : RingSet) :
    (s.setRing c r).espConflict = s.espConflict := rfl
@[simp] theorem State.setRing_espHandleW (s : State) (c : Nat) (r : RingSet) :
    (s.setRing c r).espHandleW = s.espHandleW := rfl
@[simp] theorem State.setRing_espHandleE (s : State) (c : Nat) (r : RingSet) :
    (s.setRing c r).espHandleE = s.espHandleE := rfl
@[simp] theorem State.setRing_slices (s : State) (c : Nat) (r : RingSet) : (s.setRing c r).slices = s.slices := rfl
@[simp] theorem State.setRing_exact (s : State) (c : Nat) (r : RingSet) : (s.setRing c r).exact = s.exact := rfl
@[simp] theorem State.setRing_slcSel (s : State) (c : Nat) (r : RingSet) : (s.setRing c r).slcSel = s.slcSel := rfl
@[simp] theorem State.setRing_spareUsed (s : State) (c : Nat) (r : RingSet) :
    (s.setRing c r).spareUsed = s.spareUsed := rfl
@[simp] theorem State.setRing_lpxMem (s : State) (c : Nat) (r : RingSet) : (s.setRing c r).lpxMem = s.lpxMem := rfl
@[simp] theorem State.setRing_lineGen (s : State) (c : Nat) (r : RingSet) : (s.setRing c r).lineGen = s.lineGen := rfl
@[simp] theorem State.setRing_lineKind (s : State) (c : Nat) (r : RingSet) :
    (s.setRing c r).lineKind = s.lineKind := rfl
@[simp] theorem State.setRing_lpx (s : State) (c : Nat) (r : RingSet) : (s.setRing c r).lpx = s.lpx := rfl
@[simp] theorem State.setRing_lpxSel (s : State) (c : Nat) (r : RingSet) : (s.setRing c r).lpxSel = s.lpxSel := rfl
@[simp] theorem State.setRing_streamers (s : State) (c : Nat) (r : RingSet) :
    (s.setRing c r).streamers = s.streamers := rfl
@[simp] theorem State.setRing_jobs (s : State) (c : Nat) (r : RingSet) : (s.setRing c r).jobs = s.jobs := rfl
@[simp] theorem State.setRing_trySel (s : State) (c : Nat) (r : RingSet) : (s.setRing c r).trySel = s.trySel := rfl
@[simp] theorem State.setRing_bedSel (s : State) (c : Nat) (r : RingSet) : (s.setRing c r).bedSel = s.bedSel := rfl
@[simp] theorem State.setRing_cutSel (s : State) (c : Nat) (r : RingSet) : (s.setRing c r).cutSel = s.cutSel := rfl
@[simp] theorem State.setRing_snap (s : State) (c : Nat) (r : RingSet) : (s.setRing c r).snap = s.snap := rfl
@[simp] theorem State.setRing_outbox (s : State) (c : Nat) (r : RingSet) : (s.setRing c r).outbox = s.outbox := rfl
@[simp] theorem State.setRing_rz (s : State) (c : Nat) (r : RingSet) : (s.setRing c r).rz = s.rz := rfl
@[simp] theorem State.setRing_links (s : State) (c : Nat) (r : RingSet) : (s.setRing c r).links = s.links := rfl
@[simp] theorem State.setRing_moss (s : State) (c : Nat) (r : RingSet) : (s.setRing c r).moss = s.moss := rfl

@[simp] theorem State.setJob_freeCtr (s : State) (c : Nat) (j : Job) : (s.setJob c j).freeCtr = s.freeCtr := rfl
@[simp] theorem State.setJob_reply (s : State) (c : Nat) (j : Job) : (s.setJob c j).reply = s.reply := rfl
@[simp] theorem State.setJob_boot (s : State) (c : Nat) (j : Job) : (s.setJob c j).boot = s.boot := rfl
@[simp] theorem State.setJob_pins (s : State) (c : Nat) (j : Job) : (s.setJob c j).pins = s.pins := rfl
@[simp] theorem State.setJob_west (s : State) (c : Nat) (j : Job) : (s.setJob c j).west = s.west := rfl
@[simp] theorem State.setJob_east (s : State) (c : Nat) (j : Job) : (s.setJob c j).east = s.east := rfl
@[simp] theorem State.setJob_pwr (s : State) (c : Nat) (j : Job) : (s.setJob c j).pwr = s.pwr := rfl
@[simp] theorem State.setJob_rst (s : State) (c : Nat) (j : Job) : (s.setJob c j).rst = s.rst := rfl
@[simp] theorem State.setJob_mgt (s : State) (c : Nat) (j : Job) : (s.setJob c j).mgt = s.mgt := rfl
@[simp] theorem State.setJob_glb (s : State) (c : Nat) (j : Job) : (s.setJob c j).glb = s.glb := rfl
@[simp] theorem State.setJob_flash (s : State) (c : Nat) (j : Job) : (s.setJob c j).flash = s.flash := rfl
@[simp] theorem State.setJob_sec (s : State) (c : Nat) (j : Job) : (s.setJob c j).sec = s.sec := rfl
@[simp] theorem State.setJob_ens (s : State) (c : Nat) (j : Job) : (s.setJob c j).ens = s.ens := rfl
@[simp] theorem State.setJob_drb (s : State) (c : Nat) (j : Job) : (s.setJob c j).drb = s.drb := rfl
@[simp] theorem State.setJob_spg (s : State) (c : Nat) (j : Job) : (s.setJob c j).spg = s.spg := rfl
@[simp] theorem State.setJob_ras (s : State) (c : Nat) (j : Job) : (s.setJob c j).ras = s.ras := rfl
@[simp] theorem State.setJob_dmp (s : State) (c : Nat) (j : Job) : (s.setJob c j).dmp = s.dmp := rfl
@[simp] theorem State.setJob_tel (s : State) (c : Nat) (j : Job) : (s.setJob c j).tel = s.tel := rfl
@[simp] theorem State.setJob_host (s : State) (c : Nat) (j : Job) : (s.setJob c j).host = s.host := rfl
@[simp] theorem State.setJob_cores (s : State) (c : Nat) (j : Job) : (s.setJob c j).cores = s.cores := rfl
@[simp] theorem State.setJob_kernels (s : State) (c : Nat) (j : Job) : (s.setJob c j).kernels = s.kernels := rfl
@[simp] theorem State.setJob_espConflict (s : State) (c : Nat) (j : Job) :
    (s.setJob c j).espConflict = s.espConflict := rfl
@[simp] theorem State.setJob_espHandleW (s : State) (c : Nat) (j : Job) :
    (s.setJob c j).espHandleW = s.espHandleW := rfl
@[simp] theorem State.setJob_espHandleE (s : State) (c : Nat) (j : Job) :
    (s.setJob c j).espHandleE = s.espHandleE := rfl
@[simp] theorem State.setJob_slices (s : State) (c : Nat) (j : Job) : (s.setJob c j).slices = s.slices := rfl
@[simp] theorem State.setJob_exact (s : State) (c : Nat) (j : Job) : (s.setJob c j).exact = s.exact := rfl
@[simp] theorem State.setJob_slcSel (s : State) (c : Nat) (j : Job) : (s.setJob c j).slcSel = s.slcSel := rfl
@[simp] theorem State.setJob_spareUsed (s : State) (c : Nat) (j : Job) : (s.setJob c j).spareUsed = s.spareUsed := rfl
@[simp] theorem State.setJob_lpxMem (s : State) (c : Nat) (j : Job) : (s.setJob c j).lpxMem = s.lpxMem := rfl
@[simp] theorem State.setJob_lineGen (s : State) (c : Nat) (j : Job) : (s.setJob c j).lineGen = s.lineGen := rfl
@[simp] theorem State.setJob_lineKind (s : State) (c : Nat) (j : Job) : (s.setJob c j).lineKind = s.lineKind := rfl
@[simp] theorem State.setJob_lpx (s : State) (c : Nat) (j : Job) : (s.setJob c j).lpx = s.lpx := rfl
@[simp] theorem State.setJob_lpxSel (s : State) (c : Nat) (j : Job) : (s.setJob c j).lpxSel = s.lpxSel := rfl
@[simp] theorem State.setJob_streamers (s : State) (c : Nat) (j : Job) : (s.setJob c j).streamers = s.streamers := rfl
@[simp] theorem State.setJob_trySel (s : State) (c : Nat) (j : Job) : (s.setJob c j).trySel = s.trySel := rfl
@[simp] theorem State.setJob_bedSel (s : State) (c : Nat) (j : Job) : (s.setJob c j).bedSel = s.bedSel := rfl
@[simp] theorem State.setJob_cutSel (s : State) (c : Nat) (j : Job) : (s.setJob c j).cutSel = s.cutSel := rfl
@[simp] theorem State.setJob_snap (s : State) (c : Nat) (j : Job) : (s.setJob c j).snap = s.snap := rfl
@[simp] theorem State.setJob_outbox (s : State) (c : Nat) (j : Job) : (s.setJob c j).outbox = s.outbox := rfl
@[simp] theorem State.setJob_rz (s : State) (c : Nat) (j : Job) : (s.setJob c j).rz = s.rz := rfl
@[simp] theorem State.setJob_links (s : State) (c : Nat) (j : Job) : (s.setJob c j).links = s.links := rfl
@[simp] theorem State.setJob_moss (s : State) (c : Nat) (j : Job) : (s.setJob c j).moss = s.moss := rfl

@[simp] theorem State.onJob_freeCtr (s : State) (c : Nat) (f : Job → Job) : (s.onJob c f).freeCtr = s.freeCtr := by
  unfold State.onJob; (repeat' split) <;> simp
@[simp] theorem State.onJob_reply (s : State) (c : Nat) (f : Job → Job) : (s.onJob c f).reply = s.reply := by
  unfold State.onJob; (repeat' split) <;> simp
@[simp] theorem State.onJob_boot (s : State) (c : Nat) (f : Job → Job) : (s.onJob c f).boot = s.boot := by
  unfold State.onJob; (repeat' split) <;> simp
@[simp] theorem State.onJob_pins (s : State) (c : Nat) (f : Job → Job) : (s.onJob c f).pins = s.pins := by
  unfold State.onJob; (repeat' split) <;> simp
@[simp] theorem State.onJob_west (s : State) (c : Nat) (f : Job → Job) : (s.onJob c f).west = s.west := by
  unfold State.onJob; (repeat' split) <;> simp
@[simp] theorem State.onJob_east (s : State) (c : Nat) (f : Job → Job) : (s.onJob c f).east = s.east := by
  unfold State.onJob; (repeat' split) <;> simp
@[simp] theorem State.onJob_pwr (s : State) (c : Nat) (f : Job → Job) : (s.onJob c f).pwr = s.pwr := by
  unfold State.onJob; (repeat' split) <;> simp
@[simp] theorem State.onJob_rst (s : State) (c : Nat) (f : Job → Job) : (s.onJob c f).rst = s.rst := by
  unfold State.onJob; (repeat' split) <;> simp
@[simp] theorem State.onJob_mgt (s : State) (c : Nat) (f : Job → Job) : (s.onJob c f).mgt = s.mgt := by
  unfold State.onJob; (repeat' split) <;> simp
@[simp] theorem State.onJob_glb (s : State) (c : Nat) (f : Job → Job) : (s.onJob c f).glb = s.glb := by
  unfold State.onJob; (repeat' split) <;> simp
@[simp] theorem State.onJob_flash (s : State) (c : Nat) (f : Job → Job) : (s.onJob c f).flash = s.flash := by
  unfold State.onJob; (repeat' split) <;> simp
@[simp] theorem State.onJob_sec (s : State) (c : Nat) (f : Job → Job) : (s.onJob c f).sec = s.sec := by
  unfold State.onJob; (repeat' split) <;> simp
@[simp] theorem State.onJob_ens (s : State) (c : Nat) (f : Job → Job) : (s.onJob c f).ens = s.ens := by
  unfold State.onJob; (repeat' split) <;> simp
@[simp] theorem State.onJob_drb (s : State) (c : Nat) (f : Job → Job) : (s.onJob c f).drb = s.drb := by
  unfold State.onJob; (repeat' split) <;> simp
@[simp] theorem State.onJob_spg (s : State) (c : Nat) (f : Job → Job) : (s.onJob c f).spg = s.spg := by
  unfold State.onJob; (repeat' split) <;> simp
@[simp] theorem State.onJob_ras (s : State) (c : Nat) (f : Job → Job) : (s.onJob c f).ras = s.ras := by
  unfold State.onJob; (repeat' split) <;> simp
@[simp] theorem State.onJob_dmp (s : State) (c : Nat) (f : Job → Job) : (s.onJob c f).dmp = s.dmp := by
  unfold State.onJob; (repeat' split) <;> simp
@[simp] theorem State.onJob_tel (s : State) (c : Nat) (f : Job → Job) : (s.onJob c f).tel = s.tel := by
  unfold State.onJob; (repeat' split) <;> simp
@[simp] theorem State.onJob_host (s : State) (c : Nat) (f : Job → Job) : (s.onJob c f).host = s.host := by
  unfold State.onJob; (repeat' split) <;> simp
@[simp] theorem State.onJob_cores (s : State) (c : Nat) (f : Job → Job) : (s.onJob c f).cores = s.cores := by
  unfold State.onJob; (repeat' split) <;> simp
@[simp] theorem State.onJob_kernels (s : State) (c : Nat) (f : Job → Job) : (s.onJob c f).kernels = s.kernels := by
  unfold State.onJob; (repeat' split) <;> simp
@[simp] theorem State.onJob_espConflict (s : State) (c : Nat) (f : Job → Job) :
    (s.onJob c f).espConflict = s.espConflict := by
  unfold State.onJob; (repeat' split) <;> simp
@[simp] theorem State.onJob_espHandleW (s : State) (c : Nat) (f : Job → Job) :
    (s.onJob c f).espHandleW = s.espHandleW := by
  unfold State.onJob; (repeat' split) <;> simp
@[simp] theorem State.onJob_espHandleE (s : State) (c : Nat) (f : Job → Job) :
    (s.onJob c f).espHandleE = s.espHandleE := by
  unfold State.onJob; (repeat' split) <;> simp
@[simp] theorem State.onJob_slices (s : State) (c : Nat) (f : Job → Job) : (s.onJob c f).slices = s.slices := by
  unfold State.onJob; (repeat' split) <;> simp
@[simp] theorem State.onJob_exact (s : State) (c : Nat) (f : Job → Job) : (s.onJob c f).exact = s.exact := by
  unfold State.onJob; (repeat' split) <;> simp
@[simp] theorem State.onJob_slcSel (s : State) (c : Nat) (f : Job → Job) : (s.onJob c f).slcSel = s.slcSel := by
  unfold State.onJob; (repeat' split) <;> simp
@[simp] theorem State.onJob_spareUsed (s : State) (c : Nat) (f : Job → Job) :
    (s.onJob c f).spareUsed = s.spareUsed := by
  unfold State.onJob; (repeat' split) <;> simp
@[simp] theorem State.onJob_lpxMem (s : State) (c : Nat) (f : Job → Job) : (s.onJob c f).lpxMem = s.lpxMem := by
  unfold State.onJob; (repeat' split) <;> simp
@[simp] theorem State.onJob_lineGen (s : State) (c : Nat) (f : Job → Job) : (s.onJob c f).lineGen = s.lineGen := by
  unfold State.onJob; (repeat' split) <;> simp
@[simp] theorem State.onJob_lineKind (s : State) (c : Nat) (f : Job → Job) : (s.onJob c f).lineKind = s.lineKind := by
  unfold State.onJob; (repeat' split) <;> simp
@[simp] theorem State.onJob_lpx (s : State) (c : Nat) (f : Job → Job) : (s.onJob c f).lpx = s.lpx := by
  unfold State.onJob; (repeat' split) <;> simp
@[simp] theorem State.onJob_lpxSel (s : State) (c : Nat) (f : Job → Job) : (s.onJob c f).lpxSel = s.lpxSel := by
  unfold State.onJob; (repeat' split) <;> simp
@[simp] theorem State.onJob_streamers (s : State) (c : Nat) (f : Job → Job) :
    (s.onJob c f).streamers = s.streamers := by
  unfold State.onJob; (repeat' split) <;> simp
@[simp] theorem State.onJob_trySel (s : State) (c : Nat) (f : Job → Job) : (s.onJob c f).trySel = s.trySel := by
  unfold State.onJob; (repeat' split) <;> simp
@[simp] theorem State.onJob_bedSel (s : State) (c : Nat) (f : Job → Job) : (s.onJob c f).bedSel = s.bedSel := by
  unfold State.onJob; (repeat' split) <;> simp
@[simp] theorem State.onJob_cutSel (s : State) (c : Nat) (f : Job → Job) : (s.onJob c f).cutSel = s.cutSel := by
  unfold State.onJob; (repeat' split) <;> simp
@[simp] theorem State.onJob_snap (s : State) (c : Nat) (f : Job → Job) : (s.onJob c f).snap = s.snap := by
  unfold State.onJob; (repeat' split) <;> simp
@[simp] theorem State.onJob_outbox (s : State) (c : Nat) (f : Job → Job) : (s.onJob c f).outbox = s.outbox := by
  unfold State.onJob; (repeat' split) <;> simp
@[simp] theorem State.onJob_rz (s : State) (c : Nat) (f : Job → Job) : (s.onJob c f).rz = s.rz := by
  unfold State.onJob; (repeat' split) <;> simp
@[simp] theorem State.onJob_links (s : State) (c : Nat) (f : Job → Job) : (s.onJob c f).links = s.links := by
  unfold State.onJob; (repeat' split) <;> simp
@[simp] theorem State.onJob_moss (s : State) (c : Nat) (f : Job → Job) : (s.onJob c f).moss = s.moss := by
  unfold State.onJob; (repeat' split) <;> simp

@[simp] theorem State.dropJob_freeCtr (s : State) (c : Nat) : (s.dropJob c).freeCtr = s.freeCtr := rfl
@[simp] theorem State.dropJob_reply (s : State) (c : Nat) : (s.dropJob c).reply = s.reply := rfl
@[simp] theorem State.dropJob_boot (s : State) (c : Nat) : (s.dropJob c).boot = s.boot := rfl
@[simp] theorem State.dropJob_pins (s : State) (c : Nat) : (s.dropJob c).pins = s.pins := rfl
@[simp] theorem State.dropJob_west (s : State) (c : Nat) : (s.dropJob c).west = s.west := rfl
@[simp] theorem State.dropJob_east (s : State) (c : Nat) : (s.dropJob c).east = s.east := rfl
@[simp] theorem State.dropJob_pwr (s : State) (c : Nat) : (s.dropJob c).pwr = s.pwr := rfl
@[simp] theorem State.dropJob_rst (s : State) (c : Nat) : (s.dropJob c).rst = s.rst := rfl
@[simp] theorem State.dropJob_mgt (s : State) (c : Nat) : (s.dropJob c).mgt = s.mgt := rfl
@[simp] theorem State.dropJob_glb (s : State) (c : Nat) : (s.dropJob c).glb = s.glb := rfl
@[simp] theorem State.dropJob_flash (s : State) (c : Nat) : (s.dropJob c).flash = s.flash := rfl
@[simp] theorem State.dropJob_sec (s : State) (c : Nat) : (s.dropJob c).sec = s.sec := rfl
@[simp] theorem State.dropJob_ens (s : State) (c : Nat) : (s.dropJob c).ens = s.ens := rfl
@[simp] theorem State.dropJob_drb (s : State) (c : Nat) : (s.dropJob c).drb = s.drb := rfl
@[simp] theorem State.dropJob_spg (s : State) (c : Nat) : (s.dropJob c).spg = s.spg := rfl
@[simp] theorem State.dropJob_ras (s : State) (c : Nat) : (s.dropJob c).ras = s.ras := rfl
@[simp] theorem State.dropJob_dmp (s : State) (c : Nat) : (s.dropJob c).dmp = s.dmp := rfl
@[simp] theorem State.dropJob_tel (s : State) (c : Nat) : (s.dropJob c).tel = s.tel := rfl
@[simp] theorem State.dropJob_host (s : State) (c : Nat) : (s.dropJob c).host = s.host := rfl
@[simp] theorem State.dropJob_cores (s : State) (c : Nat) : (s.dropJob c).cores = s.cores := rfl
@[simp] theorem State.dropJob_kernels (s : State) (c : Nat) : (s.dropJob c).kernels = s.kernels := rfl
@[simp] theorem State.dropJob_espConflict (s : State) (c : Nat) : (s.dropJob c).espConflict = s.espConflict := rfl
@[simp] theorem State.dropJob_espHandleW (s : State) (c : Nat) : (s.dropJob c).espHandleW = s.espHandleW := rfl
@[simp] theorem State.dropJob_espHandleE (s : State) (c : Nat) : (s.dropJob c).espHandleE = s.espHandleE := rfl
@[simp] theorem State.dropJob_slices (s : State) (c : Nat) : (s.dropJob c).slices = s.slices := rfl
@[simp] theorem State.dropJob_exact (s : State) (c : Nat) : (s.dropJob c).exact = s.exact := rfl
@[simp] theorem State.dropJob_slcSel (s : State) (c : Nat) : (s.dropJob c).slcSel = s.slcSel := rfl
@[simp] theorem State.dropJob_spareUsed (s : State) (c : Nat) : (s.dropJob c).spareUsed = s.spareUsed := rfl
@[simp] theorem State.dropJob_lpxMem (s : State) (c : Nat) : (s.dropJob c).lpxMem = s.lpxMem := rfl
@[simp] theorem State.dropJob_lineGen (s : State) (c : Nat) : (s.dropJob c).lineGen = s.lineGen := rfl
@[simp] theorem State.dropJob_lineKind (s : State) (c : Nat) : (s.dropJob c).lineKind = s.lineKind := rfl
@[simp] theorem State.dropJob_lpx (s : State) (c : Nat) : (s.dropJob c).lpx = s.lpx := rfl
@[simp] theorem State.dropJob_lpxSel (s : State) (c : Nat) : (s.dropJob c).lpxSel = s.lpxSel := rfl
@[simp] theorem State.dropJob_streamers (s : State) (c : Nat) : (s.dropJob c).streamers = s.streamers := rfl
@[simp] theorem State.dropJob_trySel (s : State) (c : Nat) : (s.dropJob c).trySel = s.trySel := rfl
@[simp] theorem State.dropJob_bedSel (s : State) (c : Nat) : (s.dropJob c).bedSel = s.bedSel := rfl
@[simp] theorem State.dropJob_cutSel (s : State) (c : Nat) : (s.dropJob c).cutSel = s.cutSel := rfl
@[simp] theorem State.dropJob_snap (s : State) (c : Nat) : (s.dropJob c).snap = s.snap := rfl
@[simp] theorem State.dropJob_outbox (s : State) (c : Nat) : (s.dropJob c).outbox = s.outbox := rfl
@[simp] theorem State.dropJob_rz (s : State) (c : Nat) : (s.dropJob c).rz = s.rz := rfl
@[simp] theorem State.dropJob_links (s : State) (c : Nat) : (s.dropJob c).links = s.links := rfl
@[simp] theorem State.dropJob_moss (s : State) (c : Nat) : (s.dropJob c).moss = s.moss := rfl

@[simp] theorem State.setCtx_freeCtr (s : State) (c : Nat) (x : Ctx) : (s.setCtx c x).freeCtr = s.freeCtr := rfl
@[simp] theorem State.setCtx_reply (s : State) (c : Nat) (x : Ctx) : (s.setCtx c x).reply = s.reply := rfl
@[simp] theorem State.setCtx_boot (s : State) (c : Nat) (x : Ctx) : (s.setCtx c x).boot = s.boot := rfl
@[simp] theorem State.setCtx_pins (s : State) (c : Nat) (x : Ctx) : (s.setCtx c x).pins = s.pins := rfl
@[simp] theorem State.setCtx_west (s : State) (c : Nat) (x : Ctx) : (s.setCtx c x).west = s.west := rfl
@[simp] theorem State.setCtx_east (s : State) (c : Nat) (x : Ctx) : (s.setCtx c x).east = s.east := rfl
@[simp] theorem State.setCtx_pwr (s : State) (c : Nat) (x : Ctx) : (s.setCtx c x).pwr = s.pwr := rfl
@[simp] theorem State.setCtx_rst (s : State) (c : Nat) (x : Ctx) : (s.setCtx c x).rst = s.rst := rfl
@[simp] theorem State.setCtx_mgt (s : State) (c : Nat) (x : Ctx) : (s.setCtx c x).mgt = s.mgt := rfl
@[simp] theorem State.setCtx_glb (s : State) (c : Nat) (x : Ctx) : (s.setCtx c x).glb = s.glb := rfl
@[simp] theorem State.setCtx_flash (s : State) (c : Nat) (x : Ctx) : (s.setCtx c x).flash = s.flash := rfl
@[simp] theorem State.setCtx_ens (s : State) (c : Nat) (x : Ctx) : (s.setCtx c x).ens = s.ens := rfl
@[simp] theorem State.setCtx_drb (s : State) (c : Nat) (x : Ctx) : (s.setCtx c x).drb = s.drb := rfl
@[simp] theorem State.setCtx_spg (s : State) (c : Nat) (x : Ctx) : (s.setCtx c x).spg = s.spg := rfl
@[simp] theorem State.setCtx_ras (s : State) (c : Nat) (x : Ctx) : (s.setCtx c x).ras = s.ras := rfl
@[simp] theorem State.setCtx_dmp (s : State) (c : Nat) (x : Ctx) : (s.setCtx c x).dmp = s.dmp := rfl
@[simp] theorem State.setCtx_tel (s : State) (c : Nat) (x : Ctx) : (s.setCtx c x).tel = s.tel := rfl
@[simp] theorem State.setCtx_host (s : State) (c : Nat) (x : Ctx) : (s.setCtx c x).host = s.host := rfl
@[simp] theorem State.setCtx_cores (s : State) (c : Nat) (x : Ctx) : (s.setCtx c x).cores = s.cores := rfl
@[simp] theorem State.setCtx_kernels (s : State) (c : Nat) (x : Ctx) : (s.setCtx c x).kernels = s.kernels := rfl
@[simp] theorem State.setCtx_espConflict (s : State) (c : Nat) (x : Ctx) :
    (s.setCtx c x).espConflict = s.espConflict := rfl
@[simp] theorem State.setCtx_espHandleW (s : State) (c : Nat) (x : Ctx) :
    (s.setCtx c x).espHandleW = s.espHandleW := rfl
@[simp] theorem State.setCtx_espHandleE (s : State) (c : Nat) (x : Ctx) :
    (s.setCtx c x).espHandleE = s.espHandleE := rfl
@[simp] theorem State.setCtx_slices (s : State) (c : Nat) (x : Ctx) : (s.setCtx c x).slices = s.slices := rfl
@[simp] theorem State.setCtx_exact (s : State) (c : Nat) (x : Ctx) : (s.setCtx c x).exact = s.exact := rfl
@[simp] theorem State.setCtx_slcSel (s : State) (c : Nat) (x : Ctx) : (s.setCtx c x).slcSel = s.slcSel := rfl
@[simp] theorem State.setCtx_spareUsed (s : State) (c : Nat) (x : Ctx) : (s.setCtx c x).spareUsed = s.spareUsed := rfl
@[simp] theorem State.setCtx_lpxMem (s : State) (c : Nat) (x : Ctx) : (s.setCtx c x).lpxMem = s.lpxMem := rfl
@[simp] theorem State.setCtx_lineGen (s : State) (c : Nat) (x : Ctx) : (s.setCtx c x).lineGen = s.lineGen := rfl
@[simp] theorem State.setCtx_lineKind (s : State) (c : Nat) (x : Ctx) : (s.setCtx c x).lineKind = s.lineKind := rfl
@[simp] theorem State.setCtx_lpx (s : State) (c : Nat) (x : Ctx) : (s.setCtx c x).lpx = s.lpx := rfl
@[simp] theorem State.setCtx_lpxSel (s : State) (c : Nat) (x : Ctx) : (s.setCtx c x).lpxSel = s.lpxSel := rfl
@[simp] theorem State.setCtx_streamers (s : State) (c : Nat) (x : Ctx) : (s.setCtx c x).streamers = s.streamers := rfl
@[simp] theorem State.setCtx_jobs (s : State) (c : Nat) (x : Ctx) : (s.setCtx c x).jobs = s.jobs := rfl
@[simp] theorem State.setCtx_trySel (s : State) (c : Nat) (x : Ctx) : (s.setCtx c x).trySel = s.trySel := rfl
@[simp] theorem State.setCtx_bedSel (s : State) (c : Nat) (x : Ctx) : (s.setCtx c x).bedSel = s.bedSel := rfl
@[simp] theorem State.setCtx_cutSel (s : State) (c : Nat) (x : Ctx) : (s.setCtx c x).cutSel = s.cutSel := rfl
@[simp] theorem State.setCtx_snap (s : State) (c : Nat) (x : Ctx) : (s.setCtx c x).snap = s.snap := rfl
@[simp] theorem State.setCtx_outbox (s : State) (c : Nat) (x : Ctx) : (s.setCtx c x).outbox = s.outbox := rfl
@[simp] theorem State.setCtx_rz (s : State) (c : Nat) (x : Ctx) : (s.setCtx c x).rz = s.rz := rfl
@[simp] theorem State.setCtx_links (s : State) (c : Nat) (x : Ctx) : (s.setCtx c x).links = s.links := rfl
@[simp] theorem State.setCtx_moss (s : State) (c : Nat) (x : Ctx) : (s.setCtx c x).moss = s.moss := rfl

@[simp] theorem State.setLpx_freeCtr (s : State) (i : Nat) (x : Lpx) : (s.setLpx i x).freeCtr = s.freeCtr := rfl
@[simp] theorem State.setLpx_reply (s : State) (i : Nat) (x : Lpx) : (s.setLpx i x).reply = s.reply := rfl
@[simp] theorem State.setLpx_boot (s : State) (i : Nat) (x : Lpx) : (s.setLpx i x).boot = s.boot := rfl
@[simp] theorem State.setLpx_pins (s : State) (i : Nat) (x : Lpx) : (s.setLpx i x).pins = s.pins := rfl
@[simp] theorem State.setLpx_west (s : State) (i : Nat) (x : Lpx) : (s.setLpx i x).west = s.west := rfl
@[simp] theorem State.setLpx_east (s : State) (i : Nat) (x : Lpx) : (s.setLpx i x).east = s.east := rfl
@[simp] theorem State.setLpx_pwr (s : State) (i : Nat) (x : Lpx) : (s.setLpx i x).pwr = s.pwr := rfl
@[simp] theorem State.setLpx_rst (s : State) (i : Nat) (x : Lpx) : (s.setLpx i x).rst = s.rst := rfl
@[simp] theorem State.setLpx_mgt (s : State) (i : Nat) (x : Lpx) : (s.setLpx i x).mgt = s.mgt := rfl
@[simp] theorem State.setLpx_glb (s : State) (i : Nat) (x : Lpx) : (s.setLpx i x).glb = s.glb := rfl
@[simp] theorem State.setLpx_flash (s : State) (i : Nat) (x : Lpx) : (s.setLpx i x).flash = s.flash := rfl
@[simp] theorem State.setLpx_sec (s : State) (i : Nat) (x : Lpx) : (s.setLpx i x).sec = s.sec := rfl
@[simp] theorem State.setLpx_ens (s : State) (i : Nat) (x : Lpx) : (s.setLpx i x).ens = s.ens := rfl
@[simp] theorem State.setLpx_drb (s : State) (i : Nat) (x : Lpx) : (s.setLpx i x).drb = s.drb := rfl
@[simp] theorem State.setLpx_spg (s : State) (i : Nat) (x : Lpx) : (s.setLpx i x).spg = s.spg := rfl
@[simp] theorem State.setLpx_ras (s : State) (i : Nat) (x : Lpx) : (s.setLpx i x).ras = s.ras := rfl
@[simp] theorem State.setLpx_dmp (s : State) (i : Nat) (x : Lpx) : (s.setLpx i x).dmp = s.dmp := rfl
@[simp] theorem State.setLpx_tel (s : State) (i : Nat) (x : Lpx) : (s.setLpx i x).tel = s.tel := rfl
@[simp] theorem State.setLpx_host (s : State) (i : Nat) (x : Lpx) : (s.setLpx i x).host = s.host := rfl
@[simp] theorem State.setLpx_cores (s : State) (i : Nat) (x : Lpx) : (s.setLpx i x).cores = s.cores := rfl
@[simp] theorem State.setLpx_kernels (s : State) (i : Nat) (x : Lpx) : (s.setLpx i x).kernels = s.kernels := rfl
@[simp] theorem State.setLpx_espConflict (s : State) (i : Nat) (x : Lpx) :
    (s.setLpx i x).espConflict = s.espConflict := rfl
@[simp] theorem State.setLpx_espHandleW (s : State) (i : Nat) (x : Lpx) :
    (s.setLpx i x).espHandleW = s.espHandleW := rfl
@[simp] theorem State.setLpx_espHandleE (s : State) (i : Nat) (x : Lpx) :
    (s.setLpx i x).espHandleE = s.espHandleE := rfl
@[simp] theorem State.setLpx_slices (s : State) (i : Nat) (x : Lpx) : (s.setLpx i x).slices = s.slices := rfl
@[simp] theorem State.setLpx_exact (s : State) (i : Nat) (x : Lpx) : (s.setLpx i x).exact = s.exact := rfl
@[simp] theorem State.setLpx_slcSel (s : State) (i : Nat) (x : Lpx) : (s.setLpx i x).slcSel = s.slcSel := rfl
@[simp] theorem State.setLpx_spareUsed (s : State) (i : Nat) (x : Lpx) : (s.setLpx i x).spareUsed = s.spareUsed := rfl
@[simp] theorem State.setLpx_lpxMem (s : State) (i : Nat) (x : Lpx) : (s.setLpx i x).lpxMem = s.lpxMem := rfl
@[simp] theorem State.setLpx_lineGen (s : State) (i : Nat) (x : Lpx) : (s.setLpx i x).lineGen = s.lineGen := rfl
@[simp] theorem State.setLpx_lineKind (s : State) (i : Nat) (x : Lpx) : (s.setLpx i x).lineKind = s.lineKind := rfl
@[simp] theorem State.setLpx_lpxSel (s : State) (i : Nat) (x : Lpx) : (s.setLpx i x).lpxSel = s.lpxSel := rfl
@[simp] theorem State.setLpx_streamers (s : State) (i : Nat) (x : Lpx) : (s.setLpx i x).streamers = s.streamers := rfl
@[simp] theorem State.setLpx_jobs (s : State) (i : Nat) (x : Lpx) : (s.setLpx i x).jobs = s.jobs := rfl
@[simp] theorem State.setLpx_trySel (s : State) (i : Nat) (x : Lpx) : (s.setLpx i x).trySel = s.trySel := rfl
@[simp] theorem State.setLpx_bedSel (s : State) (i : Nat) (x : Lpx) : (s.setLpx i x).bedSel = s.bedSel := rfl
@[simp] theorem State.setLpx_cutSel (s : State) (i : Nat) (x : Lpx) : (s.setLpx i x).cutSel = s.cutSel := rfl
@[simp] theorem State.setLpx_snap (s : State) (i : Nat) (x : Lpx) : (s.setLpx i x).snap = s.snap := rfl
@[simp] theorem State.setLpx_outbox (s : State) (i : Nat) (x : Lpx) : (s.setLpx i x).outbox = s.outbox := rfl
@[simp] theorem State.setLpx_rz (s : State) (i : Nat) (x : Lpx) : (s.setLpx i x).rz = s.rz := rfl
@[simp] theorem State.setLpx_links (s : State) (i : Nat) (x : Lpx) : (s.setLpx i x).links = s.links := rfl
@[simp] theorem State.setLpx_moss (s : State) (i : Nat) (x : Lpx) : (s.setLpx i x).moss = s.moss := rfl

@[simp] theorem State.setsBit_freeCtr (s : State) (ofs : Nat) : (s.setsBit ofs).freeCtr = s.freeCtr := rfl
@[simp] theorem State.setsBit_reply (s : State) (ofs : Nat) : (s.setsBit ofs).reply = s.reply := rfl
@[simp] theorem State.setsBit_boot (s : State) (ofs : Nat) : (s.setsBit ofs).boot = s.boot := rfl
@[simp] theorem State.setsBit_pins (s : State) (ofs : Nat) : (s.setsBit ofs).pins = s.pins := rfl
@[simp] theorem State.setsBit_west (s : State) (ofs : Nat) : (s.setsBit ofs).west = s.west := rfl
@[simp] theorem State.setsBit_east (s : State) (ofs : Nat) : (s.setsBit ofs).east = s.east := rfl
@[simp] theorem State.setsBit_pwr (s : State) (ofs : Nat) : (s.setsBit ofs).pwr = s.pwr := rfl
@[simp] theorem State.setsBit_rst (s : State) (ofs : Nat) : (s.setsBit ofs).rst = s.rst := rfl
@[simp] theorem State.setsBit_mgt (s : State) (ofs : Nat) : (s.setsBit ofs).mgt = s.mgt := rfl
@[simp] theorem State.setsBit_flash (s : State) (ofs : Nat) : (s.setsBit ofs).flash = s.flash := rfl
@[simp] theorem State.setsBit_sec (s : State) (ofs : Nat) : (s.setsBit ofs).sec = s.sec := rfl
@[simp] theorem State.setsBit_ens (s : State) (ofs : Nat) : (s.setsBit ofs).ens = s.ens := rfl
@[simp] theorem State.setsBit_drb (s : State) (ofs : Nat) : (s.setsBit ofs).drb = s.drb := rfl
@[simp] theorem State.setsBit_spg (s : State) (ofs : Nat) : (s.setsBit ofs).spg = s.spg := rfl
@[simp] theorem State.setsBit_ras (s : State) (ofs : Nat) : (s.setsBit ofs).ras = s.ras := rfl
@[simp] theorem State.setsBit_dmp (s : State) (ofs : Nat) : (s.setsBit ofs).dmp = s.dmp := rfl
@[simp] theorem State.setsBit_tel (s : State) (ofs : Nat) : (s.setsBit ofs).tel = s.tel := rfl
@[simp] theorem State.setsBit_host (s : State) (ofs : Nat) : (s.setsBit ofs).host = s.host := rfl
@[simp] theorem State.setsBit_cores (s : State) (ofs : Nat) : (s.setsBit ofs).cores = s.cores := rfl
@[simp] theorem State.setsBit_kernels (s : State) (ofs : Nat) : (s.setsBit ofs).kernels = s.kernels := rfl
@[simp] theorem State.setsBit_espConflict (s : State) (ofs : Nat) : (s.setsBit ofs).espConflict = s.espConflict := rfl
@[simp] theorem State.setsBit_espHandleW (s : State) (ofs : Nat) : (s.setsBit ofs).espHandleW = s.espHandleW := rfl
@[simp] theorem State.setsBit_espHandleE (s : State) (ofs : Nat) : (s.setsBit ofs).espHandleE = s.espHandleE := rfl
@[simp] theorem State.setsBit_slices (s : State) (ofs : Nat) : (s.setsBit ofs).slices = s.slices := rfl
@[simp] theorem State.setsBit_exact (s : State) (ofs : Nat) : (s.setsBit ofs).exact = s.exact := rfl
@[simp] theorem State.setsBit_slcSel (s : State) (ofs : Nat) : (s.setsBit ofs).slcSel = s.slcSel := rfl
@[simp] theorem State.setsBit_spareUsed (s : State) (ofs : Nat) : (s.setsBit ofs).spareUsed = s.spareUsed := rfl
@[simp] theorem State.setsBit_lpxMem (s : State) (ofs : Nat) : (s.setsBit ofs).lpxMem = s.lpxMem := rfl
@[simp] theorem State.setsBit_lineGen (s : State) (ofs : Nat) : (s.setsBit ofs).lineGen = s.lineGen := rfl
@[simp] theorem State.setsBit_lineKind (s : State) (ofs : Nat) : (s.setsBit ofs).lineKind = s.lineKind := rfl
@[simp] theorem State.setsBit_lpx (s : State) (ofs : Nat) : (s.setsBit ofs).lpx = s.lpx := rfl
@[simp] theorem State.setsBit_lpxSel (s : State) (ofs : Nat) : (s.setsBit ofs).lpxSel = s.lpxSel := rfl
@[simp] theorem State.setsBit_streamers (s : State) (ofs : Nat) : (s.setsBit ofs).streamers = s.streamers := rfl
@[simp] theorem State.setsBit_jobs (s : State) (ofs : Nat) : (s.setsBit ofs).jobs = s.jobs := rfl
@[simp] theorem State.setsBit_trySel (s : State) (ofs : Nat) : (s.setsBit ofs).trySel = s.trySel := rfl
@[simp] theorem State.setsBit_bedSel (s : State) (ofs : Nat) : (s.setsBit ofs).bedSel = s.bedSel := rfl
@[simp] theorem State.setsBit_cutSel (s : State) (ofs : Nat) : (s.setsBit ofs).cutSel = s.cutSel := rfl
@[simp] theorem State.setsBit_snap (s : State) (ofs : Nat) : (s.setsBit ofs).snap = s.snap := rfl
@[simp] theorem State.setsBit_outbox (s : State) (ofs : Nat) : (s.setsBit ofs).outbox = s.outbox := rfl
@[simp] theorem State.setsBit_rz (s : State) (ofs : Nat) : (s.setsBit ofs).rz = s.rz := rfl
@[simp] theorem State.setsBit_links (s : State) (ofs : Nat) : (s.setsBit ofs).links = s.links := rfl
@[simp] theorem State.setsBit_moss (s : State) (ofs : Nat) : (s.setsBit ofs).moss = s.moss := rfl

@[simp] theorem State.postWith_freeCtr (s : State) (c : Nat) (source : Nat) (code : Nat) (status : Nat) (payload : List Byte) (replay : Bool) :
    (s.postWith c source code status payload replay).freeCtr = s.freeCtr := rfl
@[simp] theorem State.postWith_reply (s : State) (c : Nat) (source : Nat) (code : Nat) (status : Nat) (payload : List Byte) (replay : Bool) :
    (s.postWith c source code status payload replay).reply = s.reply := rfl
@[simp] theorem State.postWith_boot (s : State) (c : Nat) (source : Nat) (code : Nat) (status : Nat) (payload : List Byte) (replay : Bool) :
    (s.postWith c source code status payload replay).boot = s.boot := rfl
@[simp] theorem State.postWith_pins (s : State) (c : Nat) (source : Nat) (code : Nat) (status : Nat) (payload : List Byte) (replay : Bool) :
    (s.postWith c source code status payload replay).pins = s.pins := rfl
@[simp] theorem State.postWith_west (s : State) (c : Nat) (source : Nat) (code : Nat) (status : Nat) (payload : List Byte) (replay : Bool) :
    (s.postWith c source code status payload replay).west = s.west := rfl
@[simp] theorem State.postWith_east (s : State) (c : Nat) (source : Nat) (code : Nat) (status : Nat) (payload : List Byte) (replay : Bool) :
    (s.postWith c source code status payload replay).east = s.east := rfl
@[simp] theorem State.postWith_pwr (s : State) (c : Nat) (source : Nat) (code : Nat) (status : Nat) (payload : List Byte) (replay : Bool) :
    (s.postWith c source code status payload replay).pwr = s.pwr := rfl
@[simp] theorem State.postWith_rst (s : State) (c : Nat) (source : Nat) (code : Nat) (status : Nat) (payload : List Byte) (replay : Bool) :
    (s.postWith c source code status payload replay).rst = s.rst := rfl
@[simp] theorem State.postWith_mgt (s : State) (c : Nat) (source : Nat) (code : Nat) (status : Nat) (payload : List Byte) (replay : Bool) :
    (s.postWith c source code status payload replay).mgt = s.mgt := rfl
@[simp] theorem State.postWith_glb (s : State) (c : Nat) (source : Nat) (code : Nat) (status : Nat) (payload : List Byte) (replay : Bool) :
    (s.postWith c source code status payload replay).glb = s.glb := rfl
@[simp] theorem State.postWith_flash (s : State) (c : Nat) (source : Nat) (code : Nat) (status : Nat) (payload : List Byte) (replay : Bool) :
    (s.postWith c source code status payload replay).flash = s.flash := rfl
@[simp] theorem State.postWith_sec (s : State) (c : Nat) (source : Nat) (code : Nat) (status : Nat) (payload : List Byte) (replay : Bool) :
    (s.postWith c source code status payload replay).sec = s.sec := rfl
@[simp] theorem State.postWith_ens (s : State) (c : Nat) (source : Nat) (code : Nat) (status : Nat) (payload : List Byte) (replay : Bool) :
    (s.postWith c source code status payload replay).ens = s.ens := rfl
@[simp] theorem State.postWith_drb (s : State) (c : Nat) (source : Nat) (code : Nat) (status : Nat) (payload : List Byte) (replay : Bool) :
    (s.postWith c source code status payload replay).drb = s.drb := rfl
@[simp] theorem State.postWith_spg (s : State) (c : Nat) (source : Nat) (code : Nat) (status : Nat) (payload : List Byte) (replay : Bool) :
    (s.postWith c source code status payload replay).spg = s.spg := rfl
@[simp] theorem State.postWith_ras (s : State) (c : Nat) (source : Nat) (code : Nat) (status : Nat) (payload : List Byte) (replay : Bool) :
    (s.postWith c source code status payload replay).ras = s.ras := rfl
@[simp] theorem State.postWith_dmp (s : State) (c : Nat) (source : Nat) (code : Nat) (status : Nat) (payload : List Byte) (replay : Bool) :
    (s.postWith c source code status payload replay).dmp = s.dmp := rfl
@[simp] theorem State.postWith_tel (s : State) (c : Nat) (source : Nat) (code : Nat) (status : Nat) (payload : List Byte) (replay : Bool) :
    (s.postWith c source code status payload replay).tel = s.tel := rfl
@[simp] theorem State.postWith_cores (s : State) (c : Nat) (source : Nat) (code : Nat) (status : Nat) (payload : List Byte) (replay : Bool) :
    (s.postWith c source code status payload replay).cores = s.cores := rfl
@[simp] theorem State.postWith_kernels (s : State) (c : Nat) (source : Nat) (code : Nat) (status : Nat) (payload : List Byte) (replay : Bool) :
    (s.postWith c source code status payload replay).kernels = s.kernels := rfl
@[simp] theorem State.postWith_espConflict (s : State) (c : Nat) (source : Nat) (code : Nat) (status : Nat) (payload : List Byte) (replay : Bool) :
    (s.postWith c source code status payload replay).espConflict = s.espConflict := rfl
@[simp] theorem State.postWith_espHandleW (s : State) (c : Nat) (source : Nat) (code : Nat) (status : Nat) (payload : List Byte) (replay : Bool) :
    (s.postWith c source code status payload replay).espHandleW = s.espHandleW := rfl
@[simp] theorem State.postWith_espHandleE (s : State) (c : Nat) (source : Nat) (code : Nat) (status : Nat) (payload : List Byte) (replay : Bool) :
    (s.postWith c source code status payload replay).espHandleE = s.espHandleE := rfl
@[simp] theorem State.postWith_slices (s : State) (c : Nat) (source : Nat) (code : Nat) (status : Nat) (payload : List Byte) (replay : Bool) :
    (s.postWith c source code status payload replay).slices = s.slices := rfl
@[simp] theorem State.postWith_exact (s : State) (c : Nat) (source : Nat) (code : Nat) (status : Nat) (payload : List Byte) (replay : Bool) :
    (s.postWith c source code status payload replay).exact = s.exact := rfl
@[simp] theorem State.postWith_slcSel (s : State) (c : Nat) (source : Nat) (code : Nat) (status : Nat) (payload : List Byte) (replay : Bool) :
    (s.postWith c source code status payload replay).slcSel = s.slcSel := rfl
@[simp] theorem State.postWith_spareUsed (s : State) (c : Nat) (source : Nat) (code : Nat) (status : Nat) (payload : List Byte) (replay : Bool) :
    (s.postWith c source code status payload replay).spareUsed = s.spareUsed := rfl
@[simp] theorem State.postWith_lpxMem (s : State) (c : Nat) (source : Nat) (code : Nat) (status : Nat) (payload : List Byte) (replay : Bool) :
    (s.postWith c source code status payload replay).lpxMem = s.lpxMem := rfl
@[simp] theorem State.postWith_lineGen (s : State) (c : Nat) (source : Nat) (code : Nat) (status : Nat) (payload : List Byte) (replay : Bool) :
    (s.postWith c source code status payload replay).lineGen = s.lineGen := rfl
@[simp] theorem State.postWith_lineKind (s : State) (c : Nat) (source : Nat) (code : Nat) (status : Nat) (payload : List Byte) (replay : Bool) :
    (s.postWith c source code status payload replay).lineKind = s.lineKind := rfl
@[simp] theorem State.postWith_lpx (s : State) (c : Nat) (source : Nat) (code : Nat) (status : Nat) (payload : List Byte) (replay : Bool) :
    (s.postWith c source code status payload replay).lpx = s.lpx := rfl
@[simp] theorem State.postWith_lpxSel (s : State) (c : Nat) (source : Nat) (code : Nat) (status : Nat) (payload : List Byte) (replay : Bool) :
    (s.postWith c source code status payload replay).lpxSel = s.lpxSel := rfl
@[simp] theorem State.postWith_streamers (s : State) (c : Nat) (source : Nat) (code : Nat) (status : Nat) (payload : List Byte) (replay : Bool) :
    (s.postWith c source code status payload replay).streamers = s.streamers := rfl
@[simp] theorem State.postWith_jobs (s : State) (c : Nat) (source : Nat) (code : Nat) (status : Nat) (payload : List Byte) (replay : Bool) :
    (s.postWith c source code status payload replay).jobs = s.jobs := rfl
@[simp] theorem State.postWith_trySel (s : State) (c : Nat) (source : Nat) (code : Nat) (status : Nat) (payload : List Byte) (replay : Bool) :
    (s.postWith c source code status payload replay).trySel = s.trySel := rfl
@[simp] theorem State.postWith_bedSel (s : State) (c : Nat) (source : Nat) (code : Nat) (status : Nat) (payload : List Byte) (replay : Bool) :
    (s.postWith c source code status payload replay).bedSel = s.bedSel := rfl
@[simp] theorem State.postWith_cutSel (s : State) (c : Nat) (source : Nat) (code : Nat) (status : Nat) (payload : List Byte) (replay : Bool) :
    (s.postWith c source code status payload replay).cutSel = s.cutSel := rfl
@[simp] theorem State.postWith_snap (s : State) (c : Nat) (source : Nat) (code : Nat) (status : Nat) (payload : List Byte) (replay : Bool) :
    (s.postWith c source code status payload replay).snap = s.snap := rfl
@[simp] theorem State.postWith_outbox (s : State) (c : Nat) (source : Nat) (code : Nat) (status : Nat) (payload : List Byte) (replay : Bool) :
    (s.postWith c source code status payload replay).outbox = s.outbox := rfl
@[simp] theorem State.postWith_rz (s : State) (c : Nat) (source : Nat) (code : Nat) (status : Nat) (payload : List Byte) (replay : Bool) :
    (s.postWith c source code status payload replay).rz = s.rz := rfl
@[simp] theorem State.postWith_links (s : State) (c : Nat) (source : Nat) (code : Nat) (status : Nat) (payload : List Byte) (replay : Bool) :
    (s.postWith c source code status payload replay).links = s.links := rfl
@[simp] theorem State.postWith_moss (s : State) (c : Nat) (source : Nat) (code : Nat) (status : Nat) (payload : List Byte) (replay : Bool) :
    (s.postWith c source code status payload replay).moss = s.moss := rfl

@[simp] theorem State.postJob_freeCtr (s : State) (c : Nat) (code : Nat) (status : Nat) (payload : List Byte) :
    (s.postJob c code status payload).freeCtr = s.freeCtr := rfl
@[simp] theorem State.postJob_reply (s : State) (c : Nat) (code : Nat) (status : Nat) (payload : List Byte) :
    (s.postJob c code status payload).reply = s.reply := rfl
@[simp] theorem State.postJob_boot (s : State) (c : Nat) (code : Nat) (status : Nat) (payload : List Byte) :
    (s.postJob c code status payload).boot = s.boot := rfl
@[simp] theorem State.postJob_pins (s : State) (c : Nat) (code : Nat) (status : Nat) (payload : List Byte) :
    (s.postJob c code status payload).pins = s.pins := rfl
@[simp] theorem State.postJob_west (s : State) (c : Nat) (code : Nat) (status : Nat) (payload : List Byte) :
    (s.postJob c code status payload).west = s.west := rfl
@[simp] theorem State.postJob_east (s : State) (c : Nat) (code : Nat) (status : Nat) (payload : List Byte) :
    (s.postJob c code status payload).east = s.east := rfl
@[simp] theorem State.postJob_pwr (s : State) (c : Nat) (code : Nat) (status : Nat) (payload : List Byte) :
    (s.postJob c code status payload).pwr = s.pwr := rfl
@[simp] theorem State.postJob_rst (s : State) (c : Nat) (code : Nat) (status : Nat) (payload : List Byte) :
    (s.postJob c code status payload).rst = s.rst := rfl
@[simp] theorem State.postJob_mgt (s : State) (c : Nat) (code : Nat) (status : Nat) (payload : List Byte) :
    (s.postJob c code status payload).mgt = s.mgt := rfl
@[simp] theorem State.postJob_glb (s : State) (c : Nat) (code : Nat) (status : Nat) (payload : List Byte) :
    (s.postJob c code status payload).glb = s.glb := rfl
@[simp] theorem State.postJob_flash (s : State) (c : Nat) (code : Nat) (status : Nat) (payload : List Byte) :
    (s.postJob c code status payload).flash = s.flash := rfl
@[simp] theorem State.postJob_sec (s : State) (c : Nat) (code : Nat) (status : Nat) (payload : List Byte) :
    (s.postJob c code status payload).sec = s.sec := rfl
@[simp] theorem State.postJob_ens (s : State) (c : Nat) (code : Nat) (status : Nat) (payload : List Byte) :
    (s.postJob c code status payload).ens = s.ens := rfl
@[simp] theorem State.postJob_drb (s : State) (c : Nat) (code : Nat) (status : Nat) (payload : List Byte) :
    (s.postJob c code status payload).drb = s.drb := rfl
@[simp] theorem State.postJob_spg (s : State) (c : Nat) (code : Nat) (status : Nat) (payload : List Byte) :
    (s.postJob c code status payload).spg = s.spg := rfl
@[simp] theorem State.postJob_ras (s : State) (c : Nat) (code : Nat) (status : Nat) (payload : List Byte) :
    (s.postJob c code status payload).ras = s.ras := rfl
@[simp] theorem State.postJob_dmp (s : State) (c : Nat) (code : Nat) (status : Nat) (payload : List Byte) :
    (s.postJob c code status payload).dmp = s.dmp := rfl
@[simp] theorem State.postJob_tel (s : State) (c : Nat) (code : Nat) (status : Nat) (payload : List Byte) :
    (s.postJob c code status payload).tel = s.tel := rfl
@[simp] theorem State.postJob_cores (s : State) (c : Nat) (code : Nat) (status : Nat) (payload : List Byte) :
    (s.postJob c code status payload).cores = s.cores := rfl
@[simp] theorem State.postJob_kernels (s : State) (c : Nat) (code : Nat) (status : Nat) (payload : List Byte) :
    (s.postJob c code status payload).kernels = s.kernels := rfl
@[simp] theorem State.postJob_espConflict (s : State) (c : Nat) (code : Nat) (status : Nat) (payload : List Byte) :
    (s.postJob c code status payload).espConflict = s.espConflict := rfl
@[simp] theorem State.postJob_espHandleW (s : State) (c : Nat) (code : Nat) (status : Nat) (payload : List Byte) :
    (s.postJob c code status payload).espHandleW = s.espHandleW := rfl
@[simp] theorem State.postJob_espHandleE (s : State) (c : Nat) (code : Nat) (status : Nat) (payload : List Byte) :
    (s.postJob c code status payload).espHandleE = s.espHandleE := rfl
@[simp] theorem State.postJob_slices (s : State) (c : Nat) (code : Nat) (status : Nat) (payload : List Byte) :
    (s.postJob c code status payload).slices = s.slices := rfl
@[simp] theorem State.postJob_exact (s : State) (c : Nat) (code : Nat) (status : Nat) (payload : List Byte) :
    (s.postJob c code status payload).exact = s.exact := rfl
@[simp] theorem State.postJob_slcSel (s : State) (c : Nat) (code : Nat) (status : Nat) (payload : List Byte) :
    (s.postJob c code status payload).slcSel = s.slcSel := rfl
@[simp] theorem State.postJob_spareUsed (s : State) (c : Nat) (code : Nat) (status : Nat) (payload : List Byte) :
    (s.postJob c code status payload).spareUsed = s.spareUsed := rfl
@[simp] theorem State.postJob_lpxMem (s : State) (c : Nat) (code : Nat) (status : Nat) (payload : List Byte) :
    (s.postJob c code status payload).lpxMem = s.lpxMem := rfl
@[simp] theorem State.postJob_lineGen (s : State) (c : Nat) (code : Nat) (status : Nat) (payload : List Byte) :
    (s.postJob c code status payload).lineGen = s.lineGen := rfl
@[simp] theorem State.postJob_lineKind (s : State) (c : Nat) (code : Nat) (status : Nat) (payload : List Byte) :
    (s.postJob c code status payload).lineKind = s.lineKind := rfl
@[simp] theorem State.postJob_lpx (s : State) (c : Nat) (code : Nat) (status : Nat) (payload : List Byte) :
    (s.postJob c code status payload).lpx = s.lpx := rfl
@[simp] theorem State.postJob_lpxSel (s : State) (c : Nat) (code : Nat) (status : Nat) (payload : List Byte) :
    (s.postJob c code status payload).lpxSel = s.lpxSel := rfl
@[simp] theorem State.postJob_streamers (s : State) (c : Nat) (code : Nat) (status : Nat) (payload : List Byte) :
    (s.postJob c code status payload).streamers = s.streamers := rfl
@[simp] theorem State.postJob_jobs (s : State) (c : Nat) (code : Nat) (status : Nat) (payload : List Byte) :
    (s.postJob c code status payload).jobs = s.jobs := rfl
@[simp] theorem State.postJob_trySel (s : State) (c : Nat) (code : Nat) (status : Nat) (payload : List Byte) :
    (s.postJob c code status payload).trySel = s.trySel := rfl
@[simp] theorem State.postJob_bedSel (s : State) (c : Nat) (code : Nat) (status : Nat) (payload : List Byte) :
    (s.postJob c code status payload).bedSel = s.bedSel := rfl
@[simp] theorem State.postJob_cutSel (s : State) (c : Nat) (code : Nat) (status : Nat) (payload : List Byte) :
    (s.postJob c code status payload).cutSel = s.cutSel := rfl
@[simp] theorem State.postJob_snap (s : State) (c : Nat) (code : Nat) (status : Nat) (payload : List Byte) :
    (s.postJob c code status payload).snap = s.snap := rfl
@[simp] theorem State.postJob_outbox (s : State) (c : Nat) (code : Nat) (status : Nat) (payload : List Byte) :
    (s.postJob c code status payload).outbox = s.outbox := rfl
@[simp] theorem State.postJob_rz (s : State) (c : Nat) (code : Nat) (status : Nat) (payload : List Byte) :
    (s.postJob c code status payload).rz = s.rz := rfl
@[simp] theorem State.postJob_links (s : State) (c : Nat) (code : Nat) (status : Nat) (payload : List Byte) :
    (s.postJob c code status payload).links = s.links := rfl
@[simp] theorem State.postJob_moss (s : State) (c : Nat) (code : Nat) (status : Nat) (payload : List Byte) :
    (s.postJob c code status payload).moss = s.moss := rfl

@[simp] theorem State.postDev_freeCtr (s : State) (source : Nat) (code : Nat) (status : Nat) (payload : List Byte) :
    (s.postDev source code status payload).freeCtr = s.freeCtr := rfl
@[simp] theorem State.postDev_reply (s : State) (source : Nat) (code : Nat) (status : Nat) (payload : List Byte) :
    (s.postDev source code status payload).reply = s.reply := rfl
@[simp] theorem State.postDev_boot (s : State) (source : Nat) (code : Nat) (status : Nat) (payload : List Byte) :
    (s.postDev source code status payload).boot = s.boot := rfl
@[simp] theorem State.postDev_pins (s : State) (source : Nat) (code : Nat) (status : Nat) (payload : List Byte) :
    (s.postDev source code status payload).pins = s.pins := rfl
@[simp] theorem State.postDev_west (s : State) (source : Nat) (code : Nat) (status : Nat) (payload : List Byte) :
    (s.postDev source code status payload).west = s.west := rfl
@[simp] theorem State.postDev_east (s : State) (source : Nat) (code : Nat) (status : Nat) (payload : List Byte) :
    (s.postDev source code status payload).east = s.east := rfl
@[simp] theorem State.postDev_pwr (s : State) (source : Nat) (code : Nat) (status : Nat) (payload : List Byte) :
    (s.postDev source code status payload).pwr = s.pwr := rfl
@[simp] theorem State.postDev_rst (s : State) (source : Nat) (code : Nat) (status : Nat) (payload : List Byte) :
    (s.postDev source code status payload).rst = s.rst := rfl
@[simp] theorem State.postDev_mgt (s : State) (source : Nat) (code : Nat) (status : Nat) (payload : List Byte) :
    (s.postDev source code status payload).mgt = s.mgt := rfl
@[simp] theorem State.postDev_glb (s : State) (source : Nat) (code : Nat) (status : Nat) (payload : List Byte) :
    (s.postDev source code status payload).glb = s.glb := rfl
@[simp] theorem State.postDev_flash (s : State) (source : Nat) (code : Nat) (status : Nat) (payload : List Byte) :
    (s.postDev source code status payload).flash = s.flash := rfl
@[simp] theorem State.postDev_sec (s : State) (source : Nat) (code : Nat) (status : Nat) (payload : List Byte) :
    (s.postDev source code status payload).sec = s.sec := rfl
@[simp] theorem State.postDev_ens (s : State) (source : Nat) (code : Nat) (status : Nat) (payload : List Byte) :
    (s.postDev source code status payload).ens = s.ens := rfl
@[simp] theorem State.postDev_drb (s : State) (source : Nat) (code : Nat) (status : Nat) (payload : List Byte) :
    (s.postDev source code status payload).drb = s.drb := rfl
@[simp] theorem State.postDev_spg (s : State) (source : Nat) (code : Nat) (status : Nat) (payload : List Byte) :
    (s.postDev source code status payload).spg = s.spg := rfl
@[simp] theorem State.postDev_ras (s : State) (source : Nat) (code : Nat) (status : Nat) (payload : List Byte) :
    (s.postDev source code status payload).ras = s.ras := rfl
@[simp] theorem State.postDev_dmp (s : State) (source : Nat) (code : Nat) (status : Nat) (payload : List Byte) :
    (s.postDev source code status payload).dmp = s.dmp := rfl
@[simp] theorem State.postDev_tel (s : State) (source : Nat) (code : Nat) (status : Nat) (payload : List Byte) :
    (s.postDev source code status payload).tel = s.tel := rfl
@[simp] theorem State.postDev_cores (s : State) (source : Nat) (code : Nat) (status : Nat) (payload : List Byte) :
    (s.postDev source code status payload).cores = s.cores := rfl
@[simp] theorem State.postDev_kernels (s : State) (source : Nat) (code : Nat) (status : Nat) (payload : List Byte) :
    (s.postDev source code status payload).kernels = s.kernels := rfl
@[simp] theorem State.postDev_espConflict (s : State) (source : Nat) (code : Nat) (status : Nat) (payload : List Byte) :
    (s.postDev source code status payload).espConflict = s.espConflict := rfl
@[simp] theorem State.postDev_espHandleW (s : State) (source : Nat) (code : Nat) (status : Nat) (payload : List Byte) :
    (s.postDev source code status payload).espHandleW = s.espHandleW := rfl
@[simp] theorem State.postDev_espHandleE (s : State) (source : Nat) (code : Nat) (status : Nat) (payload : List Byte) :
    (s.postDev source code status payload).espHandleE = s.espHandleE := rfl
@[simp] theorem State.postDev_slices (s : State) (source : Nat) (code : Nat) (status : Nat) (payload : List Byte) :
    (s.postDev source code status payload).slices = s.slices := rfl
@[simp] theorem State.postDev_exact (s : State) (source : Nat) (code : Nat) (status : Nat) (payload : List Byte) :
    (s.postDev source code status payload).exact = s.exact := rfl
@[simp] theorem State.postDev_slcSel (s : State) (source : Nat) (code : Nat) (status : Nat) (payload : List Byte) :
    (s.postDev source code status payload).slcSel = s.slcSel := rfl
@[simp] theorem State.postDev_spareUsed (s : State) (source : Nat) (code : Nat) (status : Nat) (payload : List Byte) :
    (s.postDev source code status payload).spareUsed = s.spareUsed := rfl
@[simp] theorem State.postDev_lpxMem (s : State) (source : Nat) (code : Nat) (status : Nat) (payload : List Byte) :
    (s.postDev source code status payload).lpxMem = s.lpxMem := rfl
@[simp] theorem State.postDev_lineGen (s : State) (source : Nat) (code : Nat) (status : Nat) (payload : List Byte) :
    (s.postDev source code status payload).lineGen = s.lineGen := rfl
@[simp] theorem State.postDev_lineKind (s : State) (source : Nat) (code : Nat) (status : Nat) (payload : List Byte) :
    (s.postDev source code status payload).lineKind = s.lineKind := rfl
@[simp] theorem State.postDev_lpx (s : State) (source : Nat) (code : Nat) (status : Nat) (payload : List Byte) :
    (s.postDev source code status payload).lpx = s.lpx := rfl
@[simp] theorem State.postDev_lpxSel (s : State) (source : Nat) (code : Nat) (status : Nat) (payload : List Byte) :
    (s.postDev source code status payload).lpxSel = s.lpxSel := rfl
@[simp] theorem State.postDev_streamers (s : State) (source : Nat) (code : Nat) (status : Nat) (payload : List Byte) :
    (s.postDev source code status payload).streamers = s.streamers := rfl
@[simp] theorem State.postDev_jobs (s : State) (source : Nat) (code : Nat) (status : Nat) (payload : List Byte) :
    (s.postDev source code status payload).jobs = s.jobs := rfl
@[simp] theorem State.postDev_trySel (s : State) (source : Nat) (code : Nat) (status : Nat) (payload : List Byte) :
    (s.postDev source code status payload).trySel = s.trySel := rfl
@[simp] theorem State.postDev_bedSel (s : State) (source : Nat) (code : Nat) (status : Nat) (payload : List Byte) :
    (s.postDev source code status payload).bedSel = s.bedSel := rfl
@[simp] theorem State.postDev_cutSel (s : State) (source : Nat) (code : Nat) (status : Nat) (payload : List Byte) :
    (s.postDev source code status payload).cutSel = s.cutSel := rfl
@[simp] theorem State.postDev_snap (s : State) (source : Nat) (code : Nat) (status : Nat) (payload : List Byte) :
    (s.postDev source code status payload).snap = s.snap := rfl
@[simp] theorem State.postDev_outbox (s : State) (source : Nat) (code : Nat) (status : Nat) (payload : List Byte) :
    (s.postDev source code status payload).outbox = s.outbox := rfl
@[simp] theorem State.postDev_rz (s : State) (source : Nat) (code : Nat) (status : Nat) (payload : List Byte) :
    (s.postDev source code status payload).rz = s.rz := rfl
@[simp] theorem State.postDev_links (s : State) (source : Nat) (code : Nat) (status : Nat) (payload : List Byte) :
    (s.postDev source code status payload).links = s.links := rfl
@[simp] theorem State.postDev_moss (s : State) (source : Nat) (code : Nat) (status : Nat) (payload : List Byte) :
    (s.postDev source code status payload).moss = s.moss := rfl

@[simp] theorem State.hostWrite_freeCtr (s : State) (a : Nat) (bs : List Byte) :
    (s.hostWrite a bs).freeCtr = s.freeCtr := by
  unfold State.hostWrite; (repeat' split) <;> simp
@[simp] theorem State.hostWrite_reply (s : State) (a : Nat) (bs : List Byte) :
    (s.hostWrite a bs).reply = s.reply := by
  unfold State.hostWrite; (repeat' split) <;> simp
@[simp] theorem State.hostWrite_boot (s : State) (a : Nat) (bs : List Byte) : (s.hostWrite a bs).boot = s.boot := by
  unfold State.hostWrite; (repeat' split) <;> simp
@[simp] theorem State.hostWrite_pins (s : State) (a : Nat) (bs : List Byte) : (s.hostWrite a bs).pins = s.pins := by
  unfold State.hostWrite; (repeat' split) <;> simp
@[simp] theorem State.hostWrite_west (s : State) (a : Nat) (bs : List Byte) : (s.hostWrite a bs).west = s.west := by
  unfold State.hostWrite; (repeat' split) <;> simp
@[simp] theorem State.hostWrite_east (s : State) (a : Nat) (bs : List Byte) : (s.hostWrite a bs).east = s.east := by
  unfold State.hostWrite; (repeat' split) <;> simp
@[simp] theorem State.hostWrite_pwr (s : State) (a : Nat) (bs : List Byte) : (s.hostWrite a bs).pwr = s.pwr := by
  unfold State.hostWrite; (repeat' split) <;> simp
@[simp] theorem State.hostWrite_rst (s : State) (a : Nat) (bs : List Byte) : (s.hostWrite a bs).rst = s.rst := by
  unfold State.hostWrite; (repeat' split) <;> simp
@[simp] theorem State.hostWrite_mgt (s : State) (a : Nat) (bs : List Byte) : (s.hostWrite a bs).mgt = s.mgt := by
  unfold State.hostWrite; (repeat' split) <;> simp
@[simp] theorem State.hostWrite_glb (s : State) (a : Nat) (bs : List Byte) : (s.hostWrite a bs).glb = s.glb := by
  unfold State.hostWrite; (repeat' split) <;> simp
@[simp] theorem State.hostWrite_flash (s : State) (a : Nat) (bs : List Byte) :
    (s.hostWrite a bs).flash = s.flash := by
  unfold State.hostWrite; (repeat' split) <;> simp
@[simp] theorem State.hostWrite_sec (s : State) (a : Nat) (bs : List Byte) : (s.hostWrite a bs).sec = s.sec := by
  unfold State.hostWrite; (repeat' split) <;> simp
@[simp] theorem State.hostWrite_ens (s : State) (a : Nat) (bs : List Byte) : (s.hostWrite a bs).ens = s.ens := by
  unfold State.hostWrite; (repeat' split) <;> simp
@[simp] theorem State.hostWrite_drb (s : State) (a : Nat) (bs : List Byte) : (s.hostWrite a bs).drb = s.drb := by
  unfold State.hostWrite; (repeat' split) <;> simp
@[simp] theorem State.hostWrite_spg (s : State) (a : Nat) (bs : List Byte) : (s.hostWrite a bs).spg = s.spg := by
  unfold State.hostWrite; (repeat' split) <;> simp
@[simp] theorem State.hostWrite_ras (s : State) (a : Nat) (bs : List Byte) : (s.hostWrite a bs).ras = s.ras := by
  unfold State.hostWrite; (repeat' split) <;> simp
@[simp] theorem State.hostWrite_dmp (s : State) (a : Nat) (bs : List Byte) : (s.hostWrite a bs).dmp = s.dmp := by
  unfold State.hostWrite; (repeat' split) <;> simp
@[simp] theorem State.hostWrite_tel (s : State) (a : Nat) (bs : List Byte) : (s.hostWrite a bs).tel = s.tel := by
  unfold State.hostWrite; (repeat' split) <;> simp
@[simp] theorem State.hostWrite_cores (s : State) (a : Nat) (bs : List Byte) :
    (s.hostWrite a bs).cores = s.cores := by
  unfold State.hostWrite; (repeat' split) <;> simp
@[simp] theorem State.hostWrite_kernels (s : State) (a : Nat) (bs : List Byte) :
    (s.hostWrite a bs).kernels = s.kernels := by
  unfold State.hostWrite; (repeat' split) <;> simp
@[simp] theorem State.hostWrite_espConflict (s : State) (a : Nat) (bs : List Byte) :
    (s.hostWrite a bs).espConflict = s.espConflict := by
  unfold State.hostWrite; (repeat' split) <;> simp
@[simp] theorem State.hostWrite_espHandleW (s : State) (a : Nat) (bs : List Byte) :
    (s.hostWrite a bs).espHandleW = s.espHandleW := by
  unfold State.hostWrite; (repeat' split) <;> simp
@[simp] theorem State.hostWrite_espHandleE (s : State) (a : Nat) (bs : List Byte) :
    (s.hostWrite a bs).espHandleE = s.espHandleE := by
  unfold State.hostWrite; (repeat' split) <;> simp
@[simp] theorem State.hostWrite_slices (s : State) (a : Nat) (bs : List Byte) :
    (s.hostWrite a bs).slices = s.slices := by
  unfold State.hostWrite; (repeat' split) <;> simp
@[simp] theorem State.hostWrite_exact (s : State) (a : Nat) (bs : List Byte) :
    (s.hostWrite a bs).exact = s.exact := by
  unfold State.hostWrite; (repeat' split) <;> simp
@[simp] theorem State.hostWrite_slcSel (s : State) (a : Nat) (bs : List Byte) :
    (s.hostWrite a bs).slcSel = s.slcSel := by
  unfold State.hostWrite; (repeat' split) <;> simp
@[simp] theorem State.hostWrite_spareUsed (s : State) (a : Nat) (bs : List Byte) :
    (s.hostWrite a bs).spareUsed = s.spareUsed := by
  unfold State.hostWrite; (repeat' split) <;> simp
@[simp] theorem State.hostWrite_lpxMem (s : State) (a : Nat) (bs : List Byte) :
    (s.hostWrite a bs).lpxMem = s.lpxMem := by
  unfold State.hostWrite; (repeat' split) <;> simp
@[simp] theorem State.hostWrite_lineGen (s : State) (a : Nat) (bs : List Byte) :
    (s.hostWrite a bs).lineGen = s.lineGen := by
  unfold State.hostWrite; (repeat' split) <;> simp
@[simp] theorem State.hostWrite_lineKind (s : State) (a : Nat) (bs : List Byte) :
    (s.hostWrite a bs).lineKind = s.lineKind := by
  unfold State.hostWrite; (repeat' split) <;> simp
@[simp] theorem State.hostWrite_lpx (s : State) (a : Nat) (bs : List Byte) : (s.hostWrite a bs).lpx = s.lpx := by
  unfold State.hostWrite; (repeat' split) <;> simp
@[simp] theorem State.hostWrite_lpxSel (s : State) (a : Nat) (bs : List Byte) :
    (s.hostWrite a bs).lpxSel = s.lpxSel := by
  unfold State.hostWrite; (repeat' split) <;> simp
@[simp] theorem State.hostWrite_streamers (s : State) (a : Nat) (bs : List Byte) :
    (s.hostWrite a bs).streamers = s.streamers := by
  unfold State.hostWrite; (repeat' split) <;> simp
@[simp] theorem State.hostWrite_jobs (s : State) (a : Nat) (bs : List Byte) : (s.hostWrite a bs).jobs = s.jobs := by
  unfold State.hostWrite; (repeat' split) <;> simp
@[simp] theorem State.hostWrite_trySel (s : State) (a : Nat) (bs : List Byte) :
    (s.hostWrite a bs).trySel = s.trySel := by
  unfold State.hostWrite; (repeat' split) <;> simp
@[simp] theorem State.hostWrite_bedSel (s : State) (a : Nat) (bs : List Byte) :
    (s.hostWrite a bs).bedSel = s.bedSel := by
  unfold State.hostWrite; (repeat' split) <;> simp
@[simp] theorem State.hostWrite_cutSel (s : State) (a : Nat) (bs : List Byte) :
    (s.hostWrite a bs).cutSel = s.cutSel := by
  unfold State.hostWrite; (repeat' split) <;> simp
@[simp] theorem State.hostWrite_snap (s : State) (a : Nat) (bs : List Byte) : (s.hostWrite a bs).snap = s.snap := by
  unfold State.hostWrite; (repeat' split) <;> simp
@[simp] theorem State.hostWrite_outbox (s : State) (a : Nat) (bs : List Byte) :
    (s.hostWrite a bs).outbox = s.outbox := by
  unfold State.hostWrite; (repeat' split) <;> simp
@[simp] theorem State.hostWrite_rz (s : State) (a : Nat) (bs : List Byte) : (s.hostWrite a bs).rz = s.rz := by
  unfold State.hostWrite; (repeat' split) <;> simp
@[simp] theorem State.hostWrite_links (s : State) (a : Nat) (bs : List Byte) :
    (s.hostWrite a bs).links = s.links := by
  unfold State.hostWrite; (repeat' split) <;> simp
@[simp] theorem State.hostWrite_moss (s : State) (a : Nat) (bs : List Byte) : (s.hostWrite a bs).moss = s.moss := by
  unfold State.hostWrite; (repeat' split) <;> simp

@[simp] theorem State.logError_freeCtr (s : State) (r : ErrRec) : (s.logError r).freeCtr = s.freeCtr := rfl
@[simp] theorem State.logError_reply (s : State) (r : ErrRec) : (s.logError r).reply = s.reply := rfl
@[simp] theorem State.logError_boot (s : State) (r : ErrRec) : (s.logError r).boot = s.boot := rfl
@[simp] theorem State.logError_pins (s : State) (r : ErrRec) : (s.logError r).pins = s.pins := rfl
@[simp] theorem State.logError_west (s : State) (r : ErrRec) : (s.logError r).west = s.west := rfl
@[simp] theorem State.logError_east (s : State) (r : ErrRec) : (s.logError r).east = s.east := rfl
@[simp] theorem State.logError_pwr (s : State) (r : ErrRec) : (s.logError r).pwr = s.pwr := rfl
@[simp] theorem State.logError_rst (s : State) (r : ErrRec) : (s.logError r).rst = s.rst := rfl
@[simp] theorem State.logError_mgt (s : State) (r : ErrRec) : (s.logError r).mgt = s.mgt := rfl
@[simp] theorem State.logError_glb (s : State) (r : ErrRec) : (s.logError r).glb = s.glb := rfl
@[simp] theorem State.logError_flash (s : State) (r : ErrRec) : (s.logError r).flash = s.flash := rfl
@[simp] theorem State.logError_sec (s : State) (r : ErrRec) : (s.logError r).sec = s.sec := rfl
@[simp] theorem State.logError_ens (s : State) (r : ErrRec) : (s.logError r).ens = s.ens := rfl
@[simp] theorem State.logError_drb (s : State) (r : ErrRec) : (s.logError r).drb = s.drb := rfl
@[simp] theorem State.logError_spg (s : State) (r : ErrRec) : (s.logError r).spg = s.spg := rfl
@[simp] theorem State.logError_dmp (s : State) (r : ErrRec) : (s.logError r).dmp = s.dmp := rfl
@[simp] theorem State.logError_tel (s : State) (r : ErrRec) : (s.logError r).tel = s.tel := rfl
@[simp] theorem State.logError_host (s : State) (r : ErrRec) : (s.logError r).host = s.host := rfl
@[simp] theorem State.logError_cores (s : State) (r : ErrRec) : (s.logError r).cores = s.cores := rfl
@[simp] theorem State.logError_kernels (s : State) (r : ErrRec) : (s.logError r).kernels = s.kernels := rfl
@[simp] theorem State.logError_espConflict (s : State) (r : ErrRec) :
    (s.logError r).espConflict = s.espConflict := rfl
@[simp] theorem State.logError_espHandleW (s : State) (r : ErrRec) : (s.logError r).espHandleW = s.espHandleW := rfl
@[simp] theorem State.logError_espHandleE (s : State) (r : ErrRec) : (s.logError r).espHandleE = s.espHandleE := rfl
@[simp] theorem State.logError_slices (s : State) (r : ErrRec) : (s.logError r).slices = s.slices := rfl
@[simp] theorem State.logError_exact (s : State) (r : ErrRec) : (s.logError r).exact = s.exact := rfl
@[simp] theorem State.logError_slcSel (s : State) (r : ErrRec) : (s.logError r).slcSel = s.slcSel := rfl
@[simp] theorem State.logError_spareUsed (s : State) (r : ErrRec) : (s.logError r).spareUsed = s.spareUsed := rfl
@[simp] theorem State.logError_lpxMem (s : State) (r : ErrRec) : (s.logError r).lpxMem = s.lpxMem := rfl
@[simp] theorem State.logError_lineGen (s : State) (r : ErrRec) : (s.logError r).lineGen = s.lineGen := rfl
@[simp] theorem State.logError_lineKind (s : State) (r : ErrRec) : (s.logError r).lineKind = s.lineKind := rfl
@[simp] theorem State.logError_lpx (s : State) (r : ErrRec) : (s.logError r).lpx = s.lpx := rfl
@[simp] theorem State.logError_lpxSel (s : State) (r : ErrRec) : (s.logError r).lpxSel = s.lpxSel := rfl
@[simp] theorem State.logError_streamers (s : State) (r : ErrRec) : (s.logError r).streamers = s.streamers := rfl
@[simp] theorem State.logError_jobs (s : State) (r : ErrRec) : (s.logError r).jobs = s.jobs := rfl
@[simp] theorem State.logError_trySel (s : State) (r : ErrRec) : (s.logError r).trySel = s.trySel := rfl
@[simp] theorem State.logError_bedSel (s : State) (r : ErrRec) : (s.logError r).bedSel = s.bedSel := rfl
@[simp] theorem State.logError_cutSel (s : State) (r : ErrRec) : (s.logError r).cutSel = s.cutSel := rfl
@[simp] theorem State.logError_snap (s : State) (r : ErrRec) : (s.logError r).snap = s.snap := rfl
@[simp] theorem State.logError_outbox (s : State) (r : ErrRec) : (s.logError r).outbox = s.outbox := rfl
@[simp] theorem State.logError_rz (s : State) (r : ErrRec) : (s.logError r).rz = s.rz := rfl
@[simp] theorem State.logError_links (s : State) (r : ErrRec) : (s.logError r).links = s.links := rfl
@[simp] theorem State.logError_moss (s : State) (r : ErrRec) : (s.logError r).moss = s.moss := rfl

@[simp] theorem State.answer_freeCtr (s : State) (bs : List Byte) : (s.answer bs).freeCtr = s.freeCtr := rfl
@[simp] theorem State.answer_boot (s : State) (bs : List Byte) : (s.answer bs).boot = s.boot := rfl
@[simp] theorem State.answer_pins (s : State) (bs : List Byte) : (s.answer bs).pins = s.pins := rfl
@[simp] theorem State.answer_west (s : State) (bs : List Byte) : (s.answer bs).west = s.west := rfl
@[simp] theorem State.answer_east (s : State) (bs : List Byte) : (s.answer bs).east = s.east := rfl
@[simp] theorem State.answer_pwr (s : State) (bs : List Byte) : (s.answer bs).pwr = s.pwr := rfl
@[simp] theorem State.answer_rst (s : State) (bs : List Byte) : (s.answer bs).rst = s.rst := rfl
@[simp] theorem State.answer_mgt (s : State) (bs : List Byte) : (s.answer bs).mgt = s.mgt := rfl
@[simp] theorem State.answer_glb (s : State) (bs : List Byte) : (s.answer bs).glb = s.glb := rfl
@[simp] theorem State.answer_flash (s : State) (bs : List Byte) : (s.answer bs).flash = s.flash := rfl
@[simp] theorem State.answer_sec (s : State) (bs : List Byte) : (s.answer bs).sec = s.sec := rfl
@[simp] theorem State.answer_ens (s : State) (bs : List Byte) : (s.answer bs).ens = s.ens := rfl
@[simp] theorem State.answer_drb (s : State) (bs : List Byte) : (s.answer bs).drb = s.drb := rfl
@[simp] theorem State.answer_spg (s : State) (bs : List Byte) : (s.answer bs).spg = s.spg := rfl
@[simp] theorem State.answer_ras (s : State) (bs : List Byte) : (s.answer bs).ras = s.ras := rfl
@[simp] theorem State.answer_dmp (s : State) (bs : List Byte) : (s.answer bs).dmp = s.dmp := rfl
@[simp] theorem State.answer_tel (s : State) (bs : List Byte) : (s.answer bs).tel = s.tel := rfl
@[simp] theorem State.answer_host (s : State) (bs : List Byte) : (s.answer bs).host = s.host := rfl
@[simp] theorem State.answer_cores (s : State) (bs : List Byte) : (s.answer bs).cores = s.cores := rfl
@[simp] theorem State.answer_kernels (s : State) (bs : List Byte) : (s.answer bs).kernels = s.kernels := rfl
@[simp] theorem State.answer_espConflict (s : State) (bs : List Byte) :
    (s.answer bs).espConflict = s.espConflict := rfl
@[simp] theorem State.answer_espHandleW (s : State) (bs : List Byte) : (s.answer bs).espHandleW = s.espHandleW := rfl
@[simp] theorem State.answer_espHandleE (s : State) (bs : List Byte) : (s.answer bs).espHandleE = s.espHandleE := rfl
@[simp] theorem State.answer_slices (s : State) (bs : List Byte) : (s.answer bs).slices = s.slices := rfl
@[simp] theorem State.answer_exact (s : State) (bs : List Byte) : (s.answer bs).exact = s.exact := rfl
@[simp] theorem State.answer_slcSel (s : State) (bs : List Byte) : (s.answer bs).slcSel = s.slcSel := rfl
@[simp] theorem State.answer_spareUsed (s : State) (bs : List Byte) : (s.answer bs).spareUsed = s.spareUsed := rfl
@[simp] theorem State.answer_lpxMem (s : State) (bs : List Byte) : (s.answer bs).lpxMem = s.lpxMem := rfl
@[simp] theorem State.answer_lineGen (s : State) (bs : List Byte) : (s.answer bs).lineGen = s.lineGen := rfl
@[simp] theorem State.answer_lineKind (s : State) (bs : List Byte) : (s.answer bs).lineKind = s.lineKind := rfl
@[simp] theorem State.answer_lpx (s : State) (bs : List Byte) : (s.answer bs).lpx = s.lpx := rfl
@[simp] theorem State.answer_lpxSel (s : State) (bs : List Byte) : (s.answer bs).lpxSel = s.lpxSel := rfl
@[simp] theorem State.answer_streamers (s : State) (bs : List Byte) : (s.answer bs).streamers = s.streamers := rfl
@[simp] theorem State.answer_jobs (s : State) (bs : List Byte) : (s.answer bs).jobs = s.jobs := rfl
@[simp] theorem State.answer_trySel (s : State) (bs : List Byte) : (s.answer bs).trySel = s.trySel := rfl
@[simp] theorem State.answer_bedSel (s : State) (bs : List Byte) : (s.answer bs).bedSel = s.bedSel := rfl
@[simp] theorem State.answer_cutSel (s : State) (bs : List Byte) : (s.answer bs).cutSel = s.cutSel := rfl
@[simp] theorem State.answer_snap (s : State) (bs : List Byte) : (s.answer bs).snap = s.snap := rfl
@[simp] theorem State.answer_outbox (s : State) (bs : List Byte) : (s.answer bs).outbox = s.outbox := rfl
@[simp] theorem State.answer_rz (s : State) (bs : List Byte) : (s.answer bs).rz = s.rz := rfl
@[simp] theorem State.answer_links (s : State) (bs : List Byte) : (s.answer bs).links = s.links := rfl
@[simp] theorem State.answer_moss (s : State) (bs : List Byte) : (s.answer bs).moss = s.moss := rfl

@[simp] theorem State.tick1_reply (s : State) : (s.tick1).reply = s.reply := rfl
@[simp] theorem State.tick1_boot (s : State) : (s.tick1).boot = s.boot := rfl
@[simp] theorem State.tick1_pins (s : State) : (s.tick1).pins = s.pins := rfl
@[simp] theorem State.tick1_west (s : State) : (s.tick1).west = s.west := rfl
@[simp] theorem State.tick1_east (s : State) : (s.tick1).east = s.east := rfl
@[simp] theorem State.tick1_pwr (s : State) : (s.tick1).pwr = s.pwr := rfl
@[simp] theorem State.tick1_rst (s : State) : (s.tick1).rst = s.rst := rfl
@[simp] theorem State.tick1_mgt (s : State) : (s.tick1).mgt = s.mgt := rfl
@[simp] theorem State.tick1_glb (s : State) : (s.tick1).glb = s.glb := rfl
@[simp] theorem State.tick1_flash (s : State) : (s.tick1).flash = s.flash := rfl
@[simp] theorem State.tick1_sec (s : State) : (s.tick1).sec = s.sec := rfl
@[simp] theorem State.tick1_ens (s : State) : (s.tick1).ens = s.ens := rfl
@[simp] theorem State.tick1_drb (s : State) : (s.tick1).drb = s.drb := rfl
@[simp] theorem State.tick1_spg (s : State) : (s.tick1).spg = s.spg := rfl
@[simp] theorem State.tick1_ras (s : State) : (s.tick1).ras = s.ras := rfl
@[simp] theorem State.tick1_dmp (s : State) : (s.tick1).dmp = s.dmp := rfl
@[simp] theorem State.tick1_tel (s : State) : (s.tick1).tel = s.tel := rfl
@[simp] theorem State.tick1_host (s : State) : (s.tick1).host = s.host := rfl
@[simp] theorem State.tick1_cores (s : State) : (s.tick1).cores = s.cores := rfl
@[simp] theorem State.tick1_kernels (s : State) : (s.tick1).kernels = s.kernels := rfl
@[simp] theorem State.tick1_espConflict (s : State) : (s.tick1).espConflict = s.espConflict := rfl
@[simp] theorem State.tick1_espHandleW (s : State) : (s.tick1).espHandleW = s.espHandleW := rfl
@[simp] theorem State.tick1_espHandleE (s : State) : (s.tick1).espHandleE = s.espHandleE := rfl
@[simp] theorem State.tick1_slices (s : State) : (s.tick1).slices = s.slices := rfl
@[simp] theorem State.tick1_exact (s : State) : (s.tick1).exact = s.exact := rfl
@[simp] theorem State.tick1_slcSel (s : State) : (s.tick1).slcSel = s.slcSel := rfl
@[simp] theorem State.tick1_spareUsed (s : State) : (s.tick1).spareUsed = s.spareUsed := rfl
@[simp] theorem State.tick1_lpxMem (s : State) : (s.tick1).lpxMem = s.lpxMem := rfl
@[simp] theorem State.tick1_lineGen (s : State) : (s.tick1).lineGen = s.lineGen := rfl
@[simp] theorem State.tick1_lineKind (s : State) : (s.tick1).lineKind = s.lineKind := rfl
@[simp] theorem State.tick1_lpx (s : State) : (s.tick1).lpx = s.lpx := rfl
@[simp] theorem State.tick1_lpxSel (s : State) : (s.tick1).lpxSel = s.lpxSel := rfl
@[simp] theorem State.tick1_streamers (s : State) : (s.tick1).streamers = s.streamers := rfl
@[simp] theorem State.tick1_jobs (s : State) : (s.tick1).jobs = s.jobs := rfl
@[simp] theorem State.tick1_trySel (s : State) : (s.tick1).trySel = s.trySel := rfl
@[simp] theorem State.tick1_bedSel (s : State) : (s.tick1).bedSel = s.bedSel := rfl
@[simp] theorem State.tick1_cutSel (s : State) : (s.tick1).cutSel = s.cutSel := rfl
@[simp] theorem State.tick1_snap (s : State) : (s.tick1).snap = s.snap := rfl
@[simp] theorem State.tick1_outbox (s : State) : (s.tick1).outbox = s.outbox := rfl
@[simp] theorem State.tick1_rz (s : State) : (s.tick1).rz = s.rz := rfl
@[simp] theorem State.tick1_links (s : State) : (s.tick1).links = s.links := rfl
@[simp] theorem State.tick1_moss (s : State) : (s.tick1).moss = s.moss := rfl

@[simp] theorem State.sendMsg_freeCtr (s : State) (c : Nat) (kind : Nat) (vc : Nat) (dest : Nat) (body : List Byte) :
    (s.sendMsg c kind vc dest body).freeCtr = s.freeCtr := rfl
@[simp] theorem State.sendMsg_reply (s : State) (c : Nat) (kind : Nat) (vc : Nat) (dest : Nat) (body : List Byte) :
    (s.sendMsg c kind vc dest body).reply = s.reply := rfl
@[simp] theorem State.sendMsg_boot (s : State) (c : Nat) (kind : Nat) (vc : Nat) (dest : Nat) (body : List Byte) :
    (s.sendMsg c kind vc dest body).boot = s.boot := rfl
@[simp] theorem State.sendMsg_pins (s : State) (c : Nat) (kind : Nat) (vc : Nat) (dest : Nat) (body : List Byte) :
    (s.sendMsg c kind vc dest body).pins = s.pins := rfl
@[simp] theorem State.sendMsg_west (s : State) (c : Nat) (kind : Nat) (vc : Nat) (dest : Nat) (body : List Byte) :
    (s.sendMsg c kind vc dest body).west = s.west := rfl
@[simp] theorem State.sendMsg_east (s : State) (c : Nat) (kind : Nat) (vc : Nat) (dest : Nat) (body : List Byte) :
    (s.sendMsg c kind vc dest body).east = s.east := rfl
@[simp] theorem State.sendMsg_pwr (s : State) (c : Nat) (kind : Nat) (vc : Nat) (dest : Nat) (body : List Byte) :
    (s.sendMsg c kind vc dest body).pwr = s.pwr := rfl
@[simp] theorem State.sendMsg_rst (s : State) (c : Nat) (kind : Nat) (vc : Nat) (dest : Nat) (body : List Byte) :
    (s.sendMsg c kind vc dest body).rst = s.rst := rfl
@[simp] theorem State.sendMsg_mgt (s : State) (c : Nat) (kind : Nat) (vc : Nat) (dest : Nat) (body : List Byte) :
    (s.sendMsg c kind vc dest body).mgt = s.mgt := rfl
@[simp] theorem State.sendMsg_glb (s : State) (c : Nat) (kind : Nat) (vc : Nat) (dest : Nat) (body : List Byte) :
    (s.sendMsg c kind vc dest body).glb = s.glb := rfl
@[simp] theorem State.sendMsg_flash (s : State) (c : Nat) (kind : Nat) (vc : Nat) (dest : Nat) (body : List Byte) :
    (s.sendMsg c kind vc dest body).flash = s.flash := rfl
@[simp] theorem State.sendMsg_sec (s : State) (c : Nat) (kind : Nat) (vc : Nat) (dest : Nat) (body : List Byte) :
    (s.sendMsg c kind vc dest body).sec = s.sec := rfl
@[simp] theorem State.sendMsg_ens (s : State) (c : Nat) (kind : Nat) (vc : Nat) (dest : Nat) (body : List Byte) :
    (s.sendMsg c kind vc dest body).ens = s.ens := rfl
@[simp] theorem State.sendMsg_drb (s : State) (c : Nat) (kind : Nat) (vc : Nat) (dest : Nat) (body : List Byte) :
    (s.sendMsg c kind vc dest body).drb = s.drb := rfl
@[simp] theorem State.sendMsg_spg (s : State) (c : Nat) (kind : Nat) (vc : Nat) (dest : Nat) (body : List Byte) :
    (s.sendMsg c kind vc dest body).spg = s.spg := rfl
@[simp] theorem State.sendMsg_ras (s : State) (c : Nat) (kind : Nat) (vc : Nat) (dest : Nat) (body : List Byte) :
    (s.sendMsg c kind vc dest body).ras = s.ras := rfl
@[simp] theorem State.sendMsg_dmp (s : State) (c : Nat) (kind : Nat) (vc : Nat) (dest : Nat) (body : List Byte) :
    (s.sendMsg c kind vc dest body).dmp = s.dmp := rfl
@[simp] theorem State.sendMsg_tel (s : State) (c : Nat) (kind : Nat) (vc : Nat) (dest : Nat) (body : List Byte) :
    (s.sendMsg c kind vc dest body).tel = s.tel := rfl
@[simp] theorem State.sendMsg_host (s : State) (c : Nat) (kind : Nat) (vc : Nat) (dest : Nat) (body : List Byte) :
    (s.sendMsg c kind vc dest body).host = s.host := rfl
@[simp] theorem State.sendMsg_cores (s : State) (c : Nat) (kind : Nat) (vc : Nat) (dest : Nat) (body : List Byte) :
    (s.sendMsg c kind vc dest body).cores = s.cores := rfl
@[simp] theorem State.sendMsg_kernels (s : State) (c : Nat) (kind : Nat) (vc : Nat) (dest : Nat) (body : List Byte) :
    (s.sendMsg c kind vc dest body).kernels = s.kernels := rfl
@[simp] theorem State.sendMsg_espConflict (s : State) (c : Nat) (kind : Nat) (vc : Nat) (dest : Nat) (body : List Byte) :
    (s.sendMsg c kind vc dest body).espConflict = s.espConflict := rfl
@[simp] theorem State.sendMsg_espHandleW (s : State) (c : Nat) (kind : Nat) (vc : Nat) (dest : Nat) (body : List Byte) :
    (s.sendMsg c kind vc dest body).espHandleW = s.espHandleW := rfl
@[simp] theorem State.sendMsg_espHandleE (s : State) (c : Nat) (kind : Nat) (vc : Nat) (dest : Nat) (body : List Byte) :
    (s.sendMsg c kind vc dest body).espHandleE = s.espHandleE := rfl
@[simp] theorem State.sendMsg_slices (s : State) (c : Nat) (kind : Nat) (vc : Nat) (dest : Nat) (body : List Byte) :
    (s.sendMsg c kind vc dest body).slices = s.slices := rfl
@[simp] theorem State.sendMsg_exact (s : State) (c : Nat) (kind : Nat) (vc : Nat) (dest : Nat) (body : List Byte) :
    (s.sendMsg c kind vc dest body).exact = s.exact := rfl
@[simp] theorem State.sendMsg_slcSel (s : State) (c : Nat) (kind : Nat) (vc : Nat) (dest : Nat) (body : List Byte) :
    (s.sendMsg c kind vc dest body).slcSel = s.slcSel := rfl
@[simp] theorem State.sendMsg_spareUsed (s : State) (c : Nat) (kind : Nat) (vc : Nat) (dest : Nat) (body : List Byte) :
    (s.sendMsg c kind vc dest body).spareUsed = s.spareUsed := rfl
@[simp] theorem State.sendMsg_lpxMem (s : State) (c : Nat) (kind : Nat) (vc : Nat) (dest : Nat) (body : List Byte) :
    (s.sendMsg c kind vc dest body).lpxMem = s.lpxMem := rfl
@[simp] theorem State.sendMsg_lineGen (s : State) (c : Nat) (kind : Nat) (vc : Nat) (dest : Nat) (body : List Byte) :
    (s.sendMsg c kind vc dest body).lineGen = s.lineGen := rfl
@[simp] theorem State.sendMsg_lineKind (s : State) (c : Nat) (kind : Nat) (vc : Nat) (dest : Nat) (body : List Byte) :
    (s.sendMsg c kind vc dest body).lineKind = s.lineKind := rfl
@[simp] theorem State.sendMsg_lpx (s : State) (c : Nat) (kind : Nat) (vc : Nat) (dest : Nat) (body : List Byte) :
    (s.sendMsg c kind vc dest body).lpx = s.lpx := rfl
@[simp] theorem State.sendMsg_lpxSel (s : State) (c : Nat) (kind : Nat) (vc : Nat) (dest : Nat) (body : List Byte) :
    (s.sendMsg c kind vc dest body).lpxSel = s.lpxSel := rfl
@[simp] theorem State.sendMsg_streamers (s : State) (c : Nat) (kind : Nat) (vc : Nat) (dest : Nat) (body : List Byte) :
    (s.sendMsg c kind vc dest body).streamers = s.streamers := rfl
@[simp] theorem State.sendMsg_jobs (s : State) (c : Nat) (kind : Nat) (vc : Nat) (dest : Nat) (body : List Byte) :
    (s.sendMsg c kind vc dest body).jobs = s.jobs := rfl
@[simp] theorem State.sendMsg_trySel (s : State) (c : Nat) (kind : Nat) (vc : Nat) (dest : Nat) (body : List Byte) :
    (s.sendMsg c kind vc dest body).trySel = s.trySel := rfl
@[simp] theorem State.sendMsg_bedSel (s : State) (c : Nat) (kind : Nat) (vc : Nat) (dest : Nat) (body : List Byte) :
    (s.sendMsg c kind vc dest body).bedSel = s.bedSel := rfl
@[simp] theorem State.sendMsg_cutSel (s : State) (c : Nat) (kind : Nat) (vc : Nat) (dest : Nat) (body : List Byte) :
    (s.sendMsg c kind vc dest body).cutSel = s.cutSel := rfl
@[simp] theorem State.sendMsg_snap (s : State) (c : Nat) (kind : Nat) (vc : Nat) (dest : Nat) (body : List Byte) :
    (s.sendMsg c kind vc dest body).snap = s.snap := rfl
@[simp] theorem State.sendMsg_rz (s : State) (c : Nat) (kind : Nat) (vc : Nat) (dest : Nat) (body : List Byte) :
    (s.sendMsg c kind vc dest body).rz = s.rz := rfl
@[simp] theorem State.sendMsg_links (s : State) (c : Nat) (kind : Nat) (vc : Nat) (dest : Nat) (body : List Byte) :
    (s.sendMsg c kind vc dest body).links = s.links := rfl
@[simp] theorem State.sendMsg_moss (s : State) (c : Nat) (kind : Nat) (vc : Nat) (dest : Nat) (body : List Byte) :
    (s.sendMsg c kind vc dest body).moss = s.moss := rfl

@[simp] theorem State.setPort_freeCtr (s : State) (p : Nat) (x : Port) : (s.setPort p x).freeCtr = s.freeCtr := rfl
@[simp] theorem State.setPort_reply (s : State) (p : Nat) (x : Port) : (s.setPort p x).reply = s.reply := rfl
@[simp] theorem State.setPort_boot (s : State) (p : Nat) (x : Port) : (s.setPort p x).boot = s.boot := rfl
@[simp] theorem State.setPort_pins (s : State) (p : Nat) (x : Port) : (s.setPort p x).pins = s.pins := rfl
@[simp] theorem State.setPort_west (s : State) (p : Nat) (x : Port) : (s.setPort p x).west = s.west := rfl
@[simp] theorem State.setPort_east (s : State) (p : Nat) (x : Port) : (s.setPort p x).east = s.east := rfl
@[simp] theorem State.setPort_pwr (s : State) (p : Nat) (x : Port) : (s.setPort p x).pwr = s.pwr := rfl
@[simp] theorem State.setPort_rst (s : State) (p : Nat) (x : Port) : (s.setPort p x).rst = s.rst := rfl
@[simp] theorem State.setPort_mgt (s : State) (p : Nat) (x : Port) : (s.setPort p x).mgt = s.mgt := rfl
@[simp] theorem State.setPort_glb (s : State) (p : Nat) (x : Port) : (s.setPort p x).glb = s.glb := rfl
@[simp] theorem State.setPort_flash (s : State) (p : Nat) (x : Port) : (s.setPort p x).flash = s.flash := rfl
@[simp] theorem State.setPort_sec (s : State) (p : Nat) (x : Port) : (s.setPort p x).sec = s.sec := rfl
@[simp] theorem State.setPort_ens (s : State) (p : Nat) (x : Port) : (s.setPort p x).ens = s.ens := rfl
@[simp] theorem State.setPort_drb (s : State) (p : Nat) (x : Port) : (s.setPort p x).drb = s.drb := rfl
@[simp] theorem State.setPort_spg (s : State) (p : Nat) (x : Port) : (s.setPort p x).spg = s.spg := rfl
@[simp] theorem State.setPort_ras (s : State) (p : Nat) (x : Port) : (s.setPort p x).ras = s.ras := rfl
@[simp] theorem State.setPort_dmp (s : State) (p : Nat) (x : Port) : (s.setPort p x).dmp = s.dmp := rfl
@[simp] theorem State.setPort_tel (s : State) (p : Nat) (x : Port) : (s.setPort p x).tel = s.tel := rfl
@[simp] theorem State.setPort_host (s : State) (p : Nat) (x : Port) : (s.setPort p x).host = s.host := rfl
@[simp] theorem State.setPort_cores (s : State) (p : Nat) (x : Port) : (s.setPort p x).cores = s.cores := rfl
@[simp] theorem State.setPort_kernels (s : State) (p : Nat) (x : Port) : (s.setPort p x).kernels = s.kernels := rfl
@[simp] theorem State.setPort_espConflict (s : State) (p : Nat) (x : Port) :
    (s.setPort p x).espConflict = s.espConflict := rfl
@[simp] theorem State.setPort_espHandleW (s : State) (p : Nat) (x : Port) :
    (s.setPort p x).espHandleW = s.espHandleW := rfl
@[simp] theorem State.setPort_espHandleE (s : State) (p : Nat) (x : Port) :
    (s.setPort p x).espHandleE = s.espHandleE := rfl
@[simp] theorem State.setPort_slices (s : State) (p : Nat) (x : Port) : (s.setPort p x).slices = s.slices := rfl
@[simp] theorem State.setPort_exact (s : State) (p : Nat) (x : Port) : (s.setPort p x).exact = s.exact := rfl
@[simp] theorem State.setPort_slcSel (s : State) (p : Nat) (x : Port) : (s.setPort p x).slcSel = s.slcSel := rfl
@[simp] theorem State.setPort_spareUsed (s : State) (p : Nat) (x : Port) :
    (s.setPort p x).spareUsed = s.spareUsed := rfl
@[simp] theorem State.setPort_lpxMem (s : State) (p : Nat) (x : Port) : (s.setPort p x).lpxMem = s.lpxMem := rfl
@[simp] theorem State.setPort_lineGen (s : State) (p : Nat) (x : Port) : (s.setPort p x).lineGen = s.lineGen := rfl
@[simp] theorem State.setPort_lineKind (s : State) (p : Nat) (x : Port) : (s.setPort p x).lineKind = s.lineKind := rfl
@[simp] theorem State.setPort_lpx (s : State) (p : Nat) (x : Port) : (s.setPort p x).lpx = s.lpx := rfl
@[simp] theorem State.setPort_lpxSel (s : State) (p : Nat) (x : Port) : (s.setPort p x).lpxSel = s.lpxSel := rfl
@[simp] theorem State.setPort_streamers (s : State) (p : Nat) (x : Port) :
    (s.setPort p x).streamers = s.streamers := rfl
@[simp] theorem State.setPort_jobs (s : State) (p : Nat) (x : Port) : (s.setPort p x).jobs = s.jobs := rfl
@[simp] theorem State.setPort_trySel (s : State) (p : Nat) (x : Port) : (s.setPort p x).trySel = s.trySel := rfl
@[simp] theorem State.setPort_bedSel (s : State) (p : Nat) (x : Port) : (s.setPort p x).bedSel = s.bedSel := rfl
@[simp] theorem State.setPort_cutSel (s : State) (p : Nat) (x : Port) : (s.setPort p x).cutSel = s.cutSel := rfl
@[simp] theorem State.setPort_snap (s : State) (p : Nat) (x : Port) : (s.setPort p x).snap = s.snap := rfl
@[simp] theorem State.setPort_outbox (s : State) (p : Nat) (x : Port) : (s.setPort p x).outbox = s.outbox := rfl
@[simp] theorem State.setPort_links (s : State) (p : Nat) (x : Port) : (s.setPort p x).links = s.links := rfl
@[simp] theorem State.setPort_moss (s : State) (p : Nat) (x : Port) : (s.setPort p x).moss = s.moss := rfl

@[simp] theorem State.setAcc_freeCtr (s : State) (n : Nat) (i : Nat) (a : ExactAcc) :
    (s.setAcc n i a).freeCtr = s.freeCtr := rfl
@[simp] theorem State.setAcc_reply (s : State) (n : Nat) (i : Nat) (a : ExactAcc) :
    (s.setAcc n i a).reply = s.reply := rfl
@[simp] theorem State.setAcc_boot (s : State) (n : Nat) (i : Nat) (a : ExactAcc) :
    (s.setAcc n i a).boot = s.boot := rfl
@[simp] theorem State.setAcc_pins (s : State) (n : Nat) (i : Nat) (a : ExactAcc) :
    (s.setAcc n i a).pins = s.pins := rfl
@[simp] theorem State.setAcc_west (s : State) (n : Nat) (i : Nat) (a : ExactAcc) :
    (s.setAcc n i a).west = s.west := rfl
@[simp] theorem State.setAcc_east (s : State) (n : Nat) (i : Nat) (a : ExactAcc) :
    (s.setAcc n i a).east = s.east := rfl
@[simp] theorem State.setAcc_pwr (s : State) (n : Nat) (i : Nat) (a : ExactAcc) : (s.setAcc n i a).pwr = s.pwr := rfl
@[simp] theorem State.setAcc_rst (s : State) (n : Nat) (i : Nat) (a : ExactAcc) : (s.setAcc n i a).rst = s.rst := rfl
@[simp] theorem State.setAcc_mgt (s : State) (n : Nat) (i : Nat) (a : ExactAcc) : (s.setAcc n i a).mgt = s.mgt := rfl
@[simp] theorem State.setAcc_glb (s : State) (n : Nat) (i : Nat) (a : ExactAcc) : (s.setAcc n i a).glb = s.glb := rfl
@[simp] theorem State.setAcc_flash (s : State) (n : Nat) (i : Nat) (a : ExactAcc) :
    (s.setAcc n i a).flash = s.flash := rfl
@[simp] theorem State.setAcc_sec (s : State) (n : Nat) (i : Nat) (a : ExactAcc) : (s.setAcc n i a).sec = s.sec := rfl
@[simp] theorem State.setAcc_ens (s : State) (n : Nat) (i : Nat) (a : ExactAcc) : (s.setAcc n i a).ens = s.ens := rfl
@[simp] theorem State.setAcc_drb (s : State) (n : Nat) (i : Nat) (a : ExactAcc) : (s.setAcc n i a).drb = s.drb := rfl
@[simp] theorem State.setAcc_spg (s : State) (n : Nat) (i : Nat) (a : ExactAcc) : (s.setAcc n i a).spg = s.spg := rfl
@[simp] theorem State.setAcc_ras (s : State) (n : Nat) (i : Nat) (a : ExactAcc) : (s.setAcc n i a).ras = s.ras := rfl
@[simp] theorem State.setAcc_dmp (s : State) (n : Nat) (i : Nat) (a : ExactAcc) : (s.setAcc n i a).dmp = s.dmp := rfl
@[simp] theorem State.setAcc_tel (s : State) (n : Nat) (i : Nat) (a : ExactAcc) : (s.setAcc n i a).tel = s.tel := rfl
@[simp] theorem State.setAcc_host (s : State) (n : Nat) (i : Nat) (a : ExactAcc) :
    (s.setAcc n i a).host = s.host := rfl
@[simp] theorem State.setAcc_cores (s : State) (n : Nat) (i : Nat) (a : ExactAcc) :
    (s.setAcc n i a).cores = s.cores := rfl
@[simp] theorem State.setAcc_kernels (s : State) (n : Nat) (i : Nat) (a : ExactAcc) :
    (s.setAcc n i a).kernels = s.kernels := rfl
@[simp] theorem State.setAcc_espConflict (s : State) (n : Nat) (i : Nat) (a : ExactAcc) :
    (s.setAcc n i a).espConflict = s.espConflict := rfl
@[simp] theorem State.setAcc_espHandleW (s : State) (n : Nat) (i : Nat) (a : ExactAcc) :
    (s.setAcc n i a).espHandleW = s.espHandleW := rfl
@[simp] theorem State.setAcc_espHandleE (s : State) (n : Nat) (i : Nat) (a : ExactAcc) :
    (s.setAcc n i a).espHandleE = s.espHandleE := rfl
@[simp] theorem State.setAcc_slices (s : State) (n : Nat) (i : Nat) (a : ExactAcc) :
    (s.setAcc n i a).slices = s.slices := rfl
@[simp] theorem State.setAcc_slcSel (s : State) (n : Nat) (i : Nat) (a : ExactAcc) :
    (s.setAcc n i a).slcSel = s.slcSel := rfl
@[simp] theorem State.setAcc_spareUsed (s : State) (n : Nat) (i : Nat) (a : ExactAcc) :
    (s.setAcc n i a).spareUsed = s.spareUsed := rfl
@[simp] theorem State.setAcc_lpxMem (s : State) (n : Nat) (i : Nat) (a : ExactAcc) :
    (s.setAcc n i a).lpxMem = s.lpxMem := rfl
@[simp] theorem State.setAcc_lineGen (s : State) (n : Nat) (i : Nat) (a : ExactAcc) :
    (s.setAcc n i a).lineGen = s.lineGen := rfl
@[simp] theorem State.setAcc_lineKind (s : State) (n : Nat) (i : Nat) (a : ExactAcc) :
    (s.setAcc n i a).lineKind = s.lineKind := rfl
@[simp] theorem State.setAcc_lpx (s : State) (n : Nat) (i : Nat) (a : ExactAcc) : (s.setAcc n i a).lpx = s.lpx := rfl
@[simp] theorem State.setAcc_lpxSel (s : State) (n : Nat) (i : Nat) (a : ExactAcc) :
    (s.setAcc n i a).lpxSel = s.lpxSel := rfl
@[simp] theorem State.setAcc_streamers (s : State) (n : Nat) (i : Nat) (a : ExactAcc) :
    (s.setAcc n i a).streamers = s.streamers := rfl
@[simp] theorem State.setAcc_jobs (s : State) (n : Nat) (i : Nat) (a : ExactAcc) :
    (s.setAcc n i a).jobs = s.jobs := rfl
@[simp] theorem State.setAcc_trySel (s : State) (n : Nat) (i : Nat) (a : ExactAcc) :
    (s.setAcc n i a).trySel = s.trySel := rfl
@[simp] theorem State.setAcc_bedSel (s : State) (n : Nat) (i : Nat) (a : ExactAcc) :
    (s.setAcc n i a).bedSel = s.bedSel := rfl
@[simp] theorem State.setAcc_cutSel (s : State) (n : Nat) (i : Nat) (a : ExactAcc) :
    (s.setAcc n i a).cutSel = s.cutSel := rfl
@[simp] theorem State.setAcc_snap (s : State) (n : Nat) (i : Nat) (a : ExactAcc) :
    (s.setAcc n i a).snap = s.snap := rfl
@[simp] theorem State.setAcc_outbox (s : State) (n : Nat) (i : Nat) (a : ExactAcc) :
    (s.setAcc n i a).outbox = s.outbox := rfl
@[simp] theorem State.setAcc_rz (s : State) (n : Nat) (i : Nat) (a : ExactAcc) : (s.setAcc n i a).rz = s.rz := rfl
@[simp] theorem State.setAcc_links (s : State) (n : Nat) (i : Nat) (a : ExactAcc) :
    (s.setAcc n i a).links = s.links := rfl
@[simp] theorem State.setAcc_moss (s : State) (n : Nat) (i : Nat) (a : ExactAcc) :
    (s.setAcc n i a).moss = s.moss := rfl

@[simp] theorem State.putRecord_freeCtr (s : State) (set : Nat) (which : Nat) (rec : List Byte) :
    (s.putRecord set which rec).freeCtr = s.freeCtr := by
  simp [State.putRecord]
@[simp] theorem State.putRecord_reply (s : State) (set : Nat) (which : Nat) (rec : List Byte) :
    (s.putRecord set which rec).reply = s.reply := by
  simp [State.putRecord]
@[simp] theorem State.putRecord_boot (s : State) (set : Nat) (which : Nat) (rec : List Byte) :
    (s.putRecord set which rec).boot = s.boot := by
  simp [State.putRecord]
@[simp] theorem State.putRecord_pins (s : State) (set : Nat) (which : Nat) (rec : List Byte) :
    (s.putRecord set which rec).pins = s.pins := by
  simp [State.putRecord]
@[simp] theorem State.putRecord_west (s : State) (set : Nat) (which : Nat) (rec : List Byte) :
    (s.putRecord set which rec).west = s.west := by
  simp [State.putRecord]
@[simp] theorem State.putRecord_east (s : State) (set : Nat) (which : Nat) (rec : List Byte) :
    (s.putRecord set which rec).east = s.east := by
  simp [State.putRecord]
@[simp] theorem State.putRecord_pwr (s : State) (set : Nat) (which : Nat) (rec : List Byte) :
    (s.putRecord set which rec).pwr = s.pwr := by
  simp [State.putRecord]
@[simp] theorem State.putRecord_rst (s : State) (set : Nat) (which : Nat) (rec : List Byte) :
    (s.putRecord set which rec).rst = s.rst := by
  simp [State.putRecord]
@[simp] theorem State.putRecord_mgt (s : State) (set : Nat) (which : Nat) (rec : List Byte) :
    (s.putRecord set which rec).mgt = s.mgt := by
  simp [State.putRecord]
@[simp] theorem State.putRecord_glb (s : State) (set : Nat) (which : Nat) (rec : List Byte) :
    (s.putRecord set which rec).glb = s.glb := by
  simp [State.putRecord]
@[simp] theorem State.putRecord_flash (s : State) (set : Nat) (which : Nat) (rec : List Byte) :
    (s.putRecord set which rec).flash = s.flash := by
  simp [State.putRecord]
@[simp] theorem State.putRecord_sec (s : State) (set : Nat) (which : Nat) (rec : List Byte) :
    (s.putRecord set which rec).sec = s.sec := by
  simp [State.putRecord]
@[simp] theorem State.putRecord_ens (s : State) (set : Nat) (which : Nat) (rec : List Byte) :
    (s.putRecord set which rec).ens = s.ens := by
  simp [State.putRecord]
@[simp] theorem State.putRecord_drb (s : State) (set : Nat) (which : Nat) (rec : List Byte) :
    (s.putRecord set which rec).drb = s.drb := by
  simp [State.putRecord]
@[simp] theorem State.putRecord_spg (s : State) (set : Nat) (which : Nat) (rec : List Byte) :
    (s.putRecord set which rec).spg = s.spg := by
  simp [State.putRecord]
@[simp] theorem State.putRecord_ras (s : State) (set : Nat) (which : Nat) (rec : List Byte) :
    (s.putRecord set which rec).ras = s.ras := by
  simp [State.putRecord]
@[simp] theorem State.putRecord_dmp (s : State) (set : Nat) (which : Nat) (rec : List Byte) :
    (s.putRecord set which rec).dmp = s.dmp := by
  simp [State.putRecord]
@[simp] theorem State.putRecord_tel (s : State) (set : Nat) (which : Nat) (rec : List Byte) :
    (s.putRecord set which rec).tel = s.tel := by
  simp [State.putRecord]
@[simp] theorem State.putRecord_cores (s : State) (set : Nat) (which : Nat) (rec : List Byte) :
    (s.putRecord set which rec).cores = s.cores := by
  simp [State.putRecord]
@[simp] theorem State.putRecord_kernels (s : State) (set : Nat) (which : Nat) (rec : List Byte) :
    (s.putRecord set which rec).kernels = s.kernels := by
  simp [State.putRecord]
@[simp] theorem State.putRecord_espConflict (s : State) (set : Nat) (which : Nat) (rec : List Byte) :
    (s.putRecord set which rec).espConflict = s.espConflict := by
  simp [State.putRecord]
@[simp] theorem State.putRecord_espHandleW (s : State) (set : Nat) (which : Nat) (rec : List Byte) :
    (s.putRecord set which rec).espHandleW = s.espHandleW := by
  simp [State.putRecord]
@[simp] theorem State.putRecord_espHandleE (s : State) (set : Nat) (which : Nat) (rec : List Byte) :
    (s.putRecord set which rec).espHandleE = s.espHandleE := by
  simp [State.putRecord]
@[simp] theorem State.putRecord_slices (s : State) (set : Nat) (which : Nat) (rec : List Byte) :
    (s.putRecord set which rec).slices = s.slices := by
  simp [State.putRecord]
@[simp] theorem State.putRecord_exact (s : State) (set : Nat) (which : Nat) (rec : List Byte) :
    (s.putRecord set which rec).exact = s.exact := by
  simp [State.putRecord]
@[simp] theorem State.putRecord_slcSel (s : State) (set : Nat) (which : Nat) (rec : List Byte) :
    (s.putRecord set which rec).slcSel = s.slcSel := by
  simp [State.putRecord]
@[simp] theorem State.putRecord_spareUsed (s : State) (set : Nat) (which : Nat) (rec : List Byte) :
    (s.putRecord set which rec).spareUsed = s.spareUsed := by
  simp [State.putRecord]
@[simp] theorem State.putRecord_lpxMem (s : State) (set : Nat) (which : Nat) (rec : List Byte) :
    (s.putRecord set which rec).lpxMem = s.lpxMem := by
  simp [State.putRecord]
@[simp] theorem State.putRecord_lineGen (s : State) (set : Nat) (which : Nat) (rec : List Byte) :
    (s.putRecord set which rec).lineGen = s.lineGen := by
  simp [State.putRecord]
@[simp] theorem State.putRecord_lineKind (s : State) (set : Nat) (which : Nat) (rec : List Byte) :
    (s.putRecord set which rec).lineKind = s.lineKind := by
  simp [State.putRecord]
@[simp] theorem State.putRecord_lpx (s : State) (set : Nat) (which : Nat) (rec : List Byte) :
    (s.putRecord set which rec).lpx = s.lpx := by
  simp [State.putRecord]
@[simp] theorem State.putRecord_lpxSel (s : State) (set : Nat) (which : Nat) (rec : List Byte) :
    (s.putRecord set which rec).lpxSel = s.lpxSel := by
  simp [State.putRecord]
@[simp] theorem State.putRecord_streamers (s : State) (set : Nat) (which : Nat) (rec : List Byte) :
    (s.putRecord set which rec).streamers = s.streamers := by
  simp [State.putRecord]
@[simp] theorem State.putRecord_jobs (s : State) (set : Nat) (which : Nat) (rec : List Byte) :
    (s.putRecord set which rec).jobs = s.jobs := by
  simp [State.putRecord]
@[simp] theorem State.putRecord_trySel (s : State) (set : Nat) (which : Nat) (rec : List Byte) :
    (s.putRecord set which rec).trySel = s.trySel := by
  simp [State.putRecord]
@[simp] theorem State.putRecord_bedSel (s : State) (set : Nat) (which : Nat) (rec : List Byte) :
    (s.putRecord set which rec).bedSel = s.bedSel := by
  simp [State.putRecord]
@[simp] theorem State.putRecord_cutSel (s : State) (set : Nat) (which : Nat) (rec : List Byte) :
    (s.putRecord set which rec).cutSel = s.cutSel := by
  simp [State.putRecord]
@[simp] theorem State.putRecord_snap (s : State) (set : Nat) (which : Nat) (rec : List Byte) :
    (s.putRecord set which rec).snap = s.snap := by
  simp [State.putRecord]
@[simp] theorem State.putRecord_outbox (s : State) (set : Nat) (which : Nat) (rec : List Byte) :
    (s.putRecord set which rec).outbox = s.outbox := by
  simp [State.putRecord]
@[simp] theorem State.putRecord_rz (s : State) (set : Nat) (which : Nat) (rec : List Byte) :
    (s.putRecord set which rec).rz = s.rz := by
  simp [State.putRecord]
@[simp] theorem State.putRecord_links (s : State) (set : Nat) (which : Nat) (rec : List Byte) :
    (s.putRecord set which rec).links = s.links := by
  simp [State.putRecord]
@[simp] theorem State.putRecord_moss (s : State) (set : Nat) (which : Nat) (rec : List Byte) :
    (s.putRecord set which rec).moss = s.moss := by
  simp [State.putRecord]

@[simp] theorem State.putWriteback_freeCtr (s : State) (set : Nat) : (s.putWriteback set).freeCtr = s.freeCtr := by
  simp [State.putWriteback]
@[simp] theorem State.putWriteback_reply (s : State) (set : Nat) : (s.putWriteback set).reply = s.reply := by
  simp [State.putWriteback]
@[simp] theorem State.putWriteback_boot (s : State) (set : Nat) : (s.putWriteback set).boot = s.boot := by
  simp [State.putWriteback]
@[simp] theorem State.putWriteback_pins (s : State) (set : Nat) : (s.putWriteback set).pins = s.pins := by
  simp [State.putWriteback]
@[simp] theorem State.putWriteback_west (s : State) (set : Nat) : (s.putWriteback set).west = s.west := by
  simp [State.putWriteback]
@[simp] theorem State.putWriteback_east (s : State) (set : Nat) : (s.putWriteback set).east = s.east := by
  simp [State.putWriteback]
@[simp] theorem State.putWriteback_pwr (s : State) (set : Nat) : (s.putWriteback set).pwr = s.pwr := by
  simp [State.putWriteback]
@[simp] theorem State.putWriteback_rst (s : State) (set : Nat) : (s.putWriteback set).rst = s.rst := by
  simp [State.putWriteback]
@[simp] theorem State.putWriteback_mgt (s : State) (set : Nat) : (s.putWriteback set).mgt = s.mgt := by
  simp [State.putWriteback]
@[simp] theorem State.putWriteback_glb (s : State) (set : Nat) : (s.putWriteback set).glb = s.glb := by
  simp [State.putWriteback]
@[simp] theorem State.putWriteback_flash (s : State) (set : Nat) : (s.putWriteback set).flash = s.flash := by
  simp [State.putWriteback]
@[simp] theorem State.putWriteback_sec (s : State) (set : Nat) : (s.putWriteback set).sec = s.sec := by
  simp [State.putWriteback]
@[simp] theorem State.putWriteback_ens (s : State) (set : Nat) : (s.putWriteback set).ens = s.ens := by
  simp [State.putWriteback]
@[simp] theorem State.putWriteback_drb (s : State) (set : Nat) : (s.putWriteback set).drb = s.drb := by
  simp [State.putWriteback]
@[simp] theorem State.putWriteback_spg (s : State) (set : Nat) : (s.putWriteback set).spg = s.spg := by
  simp [State.putWriteback]
@[simp] theorem State.putWriteback_ras (s : State) (set : Nat) : (s.putWriteback set).ras = s.ras := by
  simp [State.putWriteback]
@[simp] theorem State.putWriteback_dmp (s : State) (set : Nat) : (s.putWriteback set).dmp = s.dmp := by
  simp [State.putWriteback]
@[simp] theorem State.putWriteback_tel (s : State) (set : Nat) : (s.putWriteback set).tel = s.tel := by
  simp [State.putWriteback]
@[simp] theorem State.putWriteback_cores (s : State) (set : Nat) : (s.putWriteback set).cores = s.cores := by
  simp [State.putWriteback]
@[simp] theorem State.putWriteback_kernels (s : State) (set : Nat) : (s.putWriteback set).kernels = s.kernels := by
  simp [State.putWriteback]
@[simp] theorem State.putWriteback_espConflict (s : State) (set : Nat) :
    (s.putWriteback set).espConflict = s.espConflict := by
  simp [State.putWriteback]
@[simp] theorem State.putWriteback_espHandleW (s : State) (set : Nat) :
    (s.putWriteback set).espHandleW = s.espHandleW := by
  simp [State.putWriteback]
@[simp] theorem State.putWriteback_espHandleE (s : State) (set : Nat) :
    (s.putWriteback set).espHandleE = s.espHandleE := by
  simp [State.putWriteback]
@[simp] theorem State.putWriteback_slices (s : State) (set : Nat) : (s.putWriteback set).slices = s.slices := by
  simp [State.putWriteback]
@[simp] theorem State.putWriteback_exact (s : State) (set : Nat) : (s.putWriteback set).exact = s.exact := by
  simp [State.putWriteback]
@[simp] theorem State.putWriteback_slcSel (s : State) (set : Nat) : (s.putWriteback set).slcSel = s.slcSel := by
  simp [State.putWriteback]
@[simp] theorem State.putWriteback_spareUsed (s : State) (set : Nat) :
    (s.putWriteback set).spareUsed = s.spareUsed := by
  simp [State.putWriteback]
@[simp] theorem State.putWriteback_lpxMem (s : State) (set : Nat) : (s.putWriteback set).lpxMem = s.lpxMem := by
  simp [State.putWriteback]
@[simp] theorem State.putWriteback_lineGen (s : State) (set : Nat) : (s.putWriteback set).lineGen = s.lineGen := by
  simp [State.putWriteback]
@[simp] theorem State.putWriteback_lineKind (s : State) (set : Nat) : (s.putWriteback set).lineKind = s.lineKind := by
  simp [State.putWriteback]
@[simp] theorem State.putWriteback_lpx (s : State) (set : Nat) : (s.putWriteback set).lpx = s.lpx := by
  simp [State.putWriteback]
@[simp] theorem State.putWriteback_lpxSel (s : State) (set : Nat) : (s.putWriteback set).lpxSel = s.lpxSel := by
  simp [State.putWriteback]
@[simp] theorem State.putWriteback_streamers (s : State) (set : Nat) :
    (s.putWriteback set).streamers = s.streamers := by
  simp [State.putWriteback]
@[simp] theorem State.putWriteback_jobs (s : State) (set : Nat) : (s.putWriteback set).jobs = s.jobs := by
  simp [State.putWriteback]
@[simp] theorem State.putWriteback_trySel (s : State) (set : Nat) : (s.putWriteback set).trySel = s.trySel := by
  simp [State.putWriteback]
@[simp] theorem State.putWriteback_bedSel (s : State) (set : Nat) : (s.putWriteback set).bedSel = s.bedSel := by
  simp [State.putWriteback]
@[simp] theorem State.putWriteback_cutSel (s : State) (set : Nat) : (s.putWriteback set).cutSel = s.cutSel := by
  simp [State.putWriteback]
@[simp] theorem State.putWriteback_snap (s : State) (set : Nat) : (s.putWriteback set).snap = s.snap := by
  simp [State.putWriteback]
@[simp] theorem State.putWriteback_outbox (s : State) (set : Nat) : (s.putWriteback set).outbox = s.outbox := by
  simp [State.putWriteback]
@[simp] theorem State.putWriteback_rz (s : State) (set : Nat) : (s.putWriteback set).rz = s.rz := by
  simp [State.putWriteback]
@[simp] theorem State.putWriteback_links (s : State) (set : Nat) : (s.putWriteback set).links = s.links := by
  simp [State.putWriteback]
@[simp] theorem State.putWriteback_moss (s : State) (set : Nat) : (s.putWriteback set).moss = s.moss := by
  simp [State.putWriteback]

@[simp] theorem State.signal_freeCtr (s : State) (vec : Nat) : (s.signal vec).freeCtr = s.freeCtr := rfl
@[simp] theorem State.signal_reply (s : State) (vec : Nat) : (s.signal vec).reply = s.reply := rfl
@[simp] theorem State.signal_boot (s : State) (vec : Nat) : (s.signal vec).boot = s.boot := rfl
@[simp] theorem State.signal_pins (s : State) (vec : Nat) : (s.signal vec).pins = s.pins := rfl
@[simp] theorem State.signal_west (s : State) (vec : Nat) : (s.signal vec).west = s.west := rfl
@[simp] theorem State.signal_east (s : State) (vec : Nat) : (s.signal vec).east = s.east := rfl
@[simp] theorem State.signal_pwr (s : State) (vec : Nat) : (s.signal vec).pwr = s.pwr := rfl
@[simp] theorem State.signal_rst (s : State) (vec : Nat) : (s.signal vec).rst = s.rst := rfl
@[simp] theorem State.signal_mgt (s : State) (vec : Nat) : (s.signal vec).mgt = s.mgt := rfl
@[simp] theorem State.signal_glb (s : State) (vec : Nat) : (s.signal vec).glb = s.glb := rfl
@[simp] theorem State.signal_flash (s : State) (vec : Nat) : (s.signal vec).flash = s.flash := rfl
@[simp] theorem State.signal_sec (s : State) (vec : Nat) : (s.signal vec).sec = s.sec := rfl
@[simp] theorem State.signal_ens (s : State) (vec : Nat) : (s.signal vec).ens = s.ens := rfl
@[simp] theorem State.signal_drb (s : State) (vec : Nat) : (s.signal vec).drb = s.drb := rfl
@[simp] theorem State.signal_spg (s : State) (vec : Nat) : (s.signal vec).spg = s.spg := rfl
@[simp] theorem State.signal_ras (s : State) (vec : Nat) : (s.signal vec).ras = s.ras := rfl
@[simp] theorem State.signal_dmp (s : State) (vec : Nat) : (s.signal vec).dmp = s.dmp := rfl
@[simp] theorem State.signal_tel (s : State) (vec : Nat) : (s.signal vec).tel = s.tel := rfl
@[simp] theorem State.signal_cores (s : State) (vec : Nat) : (s.signal vec).cores = s.cores := rfl
@[simp] theorem State.signal_kernels (s : State) (vec : Nat) : (s.signal vec).kernels = s.kernels := rfl
@[simp] theorem State.signal_espConflict (s : State) (vec : Nat) : (s.signal vec).espConflict = s.espConflict := rfl
@[simp] theorem State.signal_espHandleW (s : State) (vec : Nat) : (s.signal vec).espHandleW = s.espHandleW := rfl
@[simp] theorem State.signal_espHandleE (s : State) (vec : Nat) : (s.signal vec).espHandleE = s.espHandleE := rfl
@[simp] theorem State.signal_slices (s : State) (vec : Nat) : (s.signal vec).slices = s.slices := rfl
@[simp] theorem State.signal_exact (s : State) (vec : Nat) : (s.signal vec).exact = s.exact := rfl
@[simp] theorem State.signal_slcSel (s : State) (vec : Nat) : (s.signal vec).slcSel = s.slcSel := rfl
@[simp] theorem State.signal_spareUsed (s : State) (vec : Nat) : (s.signal vec).spareUsed = s.spareUsed := rfl
@[simp] theorem State.signal_lpxMem (s : State) (vec : Nat) : (s.signal vec).lpxMem = s.lpxMem := rfl
@[simp] theorem State.signal_lineGen (s : State) (vec : Nat) : (s.signal vec).lineGen = s.lineGen := rfl
@[simp] theorem State.signal_lineKind (s : State) (vec : Nat) : (s.signal vec).lineKind = s.lineKind := rfl
@[simp] theorem State.signal_lpx (s : State) (vec : Nat) : (s.signal vec).lpx = s.lpx := rfl
@[simp] theorem State.signal_lpxSel (s : State) (vec : Nat) : (s.signal vec).lpxSel = s.lpxSel := rfl
@[simp] theorem State.signal_streamers (s : State) (vec : Nat) : (s.signal vec).streamers = s.streamers := rfl
@[simp] theorem State.signal_jobs (s : State) (vec : Nat) : (s.signal vec).jobs = s.jobs := rfl
@[simp] theorem State.signal_trySel (s : State) (vec : Nat) : (s.signal vec).trySel = s.trySel := rfl
@[simp] theorem State.signal_bedSel (s : State) (vec : Nat) : (s.signal vec).bedSel = s.bedSel := rfl
@[simp] theorem State.signal_cutSel (s : State) (vec : Nat) : (s.signal vec).cutSel = s.cutSel := rfl
@[simp] theorem State.signal_snap (s : State) (vec : Nat) : (s.signal vec).snap = s.snap := rfl
@[simp] theorem State.signal_outbox (s : State) (vec : Nat) : (s.signal vec).outbox = s.outbox := rfl
@[simp] theorem State.signal_rz (s : State) (vec : Nat) : (s.signal vec).rz = s.rz := rfl
@[simp] theorem State.signal_links (s : State) (vec : Nat) : (s.signal vec).links = s.links := rfl
@[simp] theorem State.signal_moss (s : State) (vec : Nat) : (s.signal vec).moss = s.moss := rfl

@[simp] theorem State.recordIrq_freeCtr (s : State) (set : Nat) (which : Nat) :
    (s.recordIrq set which).freeCtr = s.freeCtr := by
  unfold State.recordIrq; dsimp only; (repeat' split) <;> simp
@[simp] theorem State.recordIrq_reply (s : State) (set : Nat) (which : Nat) :
    (s.recordIrq set which).reply = s.reply := by
  unfold State.recordIrq; dsimp only; (repeat' split) <;> simp
@[simp] theorem State.recordIrq_boot (s : State) (set : Nat) (which : Nat) :
    (s.recordIrq set which).boot = s.boot := by
  unfold State.recordIrq; dsimp only; (repeat' split) <;> simp
@[simp] theorem State.recordIrq_pins (s : State) (set : Nat) (which : Nat) :
    (s.recordIrq set which).pins = s.pins := by
  unfold State.recordIrq; dsimp only; (repeat' split) <;> simp
@[simp] theorem State.recordIrq_west (s : State) (set : Nat) (which : Nat) :
    (s.recordIrq set which).west = s.west := by
  unfold State.recordIrq; dsimp only; (repeat' split) <;> simp
@[simp] theorem State.recordIrq_east (s : State) (set : Nat) (which : Nat) :
    (s.recordIrq set which).east = s.east := by
  unfold State.recordIrq; dsimp only; (repeat' split) <;> simp
@[simp] theorem State.recordIrq_pwr (s : State) (set : Nat) (which : Nat) : (s.recordIrq set which).pwr = s.pwr := by
  unfold State.recordIrq; dsimp only; (repeat' split) <;> simp
@[simp] theorem State.recordIrq_rst (s : State) (set : Nat) (which : Nat) : (s.recordIrq set which).rst = s.rst := by
  unfold State.recordIrq; dsimp only; (repeat' split) <;> simp
@[simp] theorem State.recordIrq_mgt (s : State) (set : Nat) (which : Nat) : (s.recordIrq set which).mgt = s.mgt := by
  unfold State.recordIrq; dsimp only; (repeat' split) <;> simp
@[simp] theorem State.recordIrq_glb (s : State) (set : Nat) (which : Nat) : (s.recordIrq set which).glb = s.glb := by
  unfold State.recordIrq; dsimp only; (repeat' split) <;> simp
@[simp] theorem State.recordIrq_flash (s : State) (set : Nat) (which : Nat) :
    (s.recordIrq set which).flash = s.flash := by
  unfold State.recordIrq; dsimp only; (repeat' split) <;> simp
@[simp] theorem State.recordIrq_sec (s : State) (set : Nat) (which : Nat) : (s.recordIrq set which).sec = s.sec := by
  unfold State.recordIrq; dsimp only; (repeat' split) <;> simp
@[simp] theorem State.recordIrq_ens (s : State) (set : Nat) (which : Nat) : (s.recordIrq set which).ens = s.ens := by
  unfold State.recordIrq; dsimp only; (repeat' split) <;> simp
@[simp] theorem State.recordIrq_drb (s : State) (set : Nat) (which : Nat) : (s.recordIrq set which).drb = s.drb := by
  unfold State.recordIrq; dsimp only; (repeat' split) <;> simp
@[simp] theorem State.recordIrq_spg (s : State) (set : Nat) (which : Nat) : (s.recordIrq set which).spg = s.spg := by
  unfold State.recordIrq; dsimp only; (repeat' split) <;> simp
@[simp] theorem State.recordIrq_ras (s : State) (set : Nat) (which : Nat) : (s.recordIrq set which).ras = s.ras := by
  unfold State.recordIrq; dsimp only; (repeat' split) <;> simp
@[simp] theorem State.recordIrq_dmp (s : State) (set : Nat) (which : Nat) : (s.recordIrq set which).dmp = s.dmp := by
  unfold State.recordIrq; dsimp only; (repeat' split) <;> simp
@[simp] theorem State.recordIrq_tel (s : State) (set : Nat) (which : Nat) : (s.recordIrq set which).tel = s.tel := by
  unfold State.recordIrq; dsimp only; (repeat' split) <;> simp
@[simp] theorem State.recordIrq_cores (s : State) (set : Nat) (which : Nat) :
    (s.recordIrq set which).cores = s.cores := by
  unfold State.recordIrq; dsimp only; (repeat' split) <;> simp
@[simp] theorem State.recordIrq_kernels (s : State) (set : Nat) (which : Nat) :
    (s.recordIrq set which).kernels = s.kernels := by
  unfold State.recordIrq; dsimp only; (repeat' split) <;> simp
@[simp] theorem State.recordIrq_espConflict (s : State) (set : Nat) (which : Nat) :
    (s.recordIrq set which).espConflict = s.espConflict := by
  unfold State.recordIrq; dsimp only; (repeat' split) <;> simp
@[simp] theorem State.recordIrq_espHandleW (s : State) (set : Nat) (which : Nat) :
    (s.recordIrq set which).espHandleW = s.espHandleW := by
  unfold State.recordIrq; dsimp only; (repeat' split) <;> simp
@[simp] theorem State.recordIrq_espHandleE (s : State) (set : Nat) (which : Nat) :
    (s.recordIrq set which).espHandleE = s.espHandleE := by
  unfold State.recordIrq; dsimp only; (repeat' split) <;> simp
@[simp] theorem State.recordIrq_slices (s : State) (set : Nat) (which : Nat) :
    (s.recordIrq set which).slices = s.slices := by
  unfold State.recordIrq; dsimp only; (repeat' split) <;> simp
@[simp] theorem State.recordIrq_exact (s : State) (set : Nat) (which : Nat) :
    (s.recordIrq set which).exact = s.exact := by
  unfold State.recordIrq; dsimp only; (repeat' split) <;> simp
@[simp] theorem State.recordIrq_slcSel (s : State) (set : Nat) (which : Nat) :
    (s.recordIrq set which).slcSel = s.slcSel := by
  unfold State.recordIrq; dsimp only; (repeat' split) <;> simp
@[simp] theorem State.recordIrq_spareUsed (s : State) (set : Nat) (which : Nat) :
    (s.recordIrq set which).spareUsed = s.spareUsed := by
  unfold State.recordIrq; dsimp only; (repeat' split) <;> simp
@[simp] theorem State.recordIrq_lpxMem (s : State) (set : Nat) (which : Nat) :
    (s.recordIrq set which).lpxMem = s.lpxMem := by
  unfold State.recordIrq; dsimp only; (repeat' split) <;> simp
@[simp] theorem State.recordIrq_lineGen (s : State) (set : Nat) (which : Nat) :
    (s.recordIrq set which).lineGen = s.lineGen := by
  unfold State.recordIrq; dsimp only; (repeat' split) <;> simp
@[simp] theorem State.recordIrq_lineKind (s : State) (set : Nat) (which : Nat) :
    (s.recordIrq set which).lineKind = s.lineKind := by
  unfold State.recordIrq; dsimp only; (repeat' split) <;> simp
@[simp] theorem State.recordIrq_lpx (s : State) (set : Nat) (which : Nat) : (s.recordIrq set which).lpx = s.lpx := by
  unfold State.recordIrq; dsimp only; (repeat' split) <;> simp
@[simp] theorem State.recordIrq_lpxSel (s : State) (set : Nat) (which : Nat) :
    (s.recordIrq set which).lpxSel = s.lpxSel := by
  unfold State.recordIrq; dsimp only; (repeat' split) <;> simp
@[simp] theorem State.recordIrq_streamers (s : State) (set : Nat) (which : Nat) :
    (s.recordIrq set which).streamers = s.streamers := by
  unfold State.recordIrq; dsimp only; (repeat' split) <;> simp
@[simp] theorem State.recordIrq_jobs (s : State) (set : Nat) (which : Nat) :
    (s.recordIrq set which).jobs = s.jobs := by
  unfold State.recordIrq; dsimp only; (repeat' split) <;> simp
@[simp] theorem State.recordIrq_trySel (s : State) (set : Nat) (which : Nat) :
    (s.recordIrq set which).trySel = s.trySel := by
  unfold State.recordIrq; dsimp only; (repeat' split) <;> simp
@[simp] theorem State.recordIrq_bedSel (s : State) (set : Nat) (which : Nat) :
    (s.recordIrq set which).bedSel = s.bedSel := by
  unfold State.recordIrq; dsimp only; (repeat' split) <;> simp
@[simp] theorem State.recordIrq_cutSel (s : State) (set : Nat) (which : Nat) :
    (s.recordIrq set which).cutSel = s.cutSel := by
  unfold State.recordIrq; dsimp only; (repeat' split) <;> simp
@[simp] theorem State.recordIrq_snap (s : State) (set : Nat) (which : Nat) :
    (s.recordIrq set which).snap = s.snap := by
  unfold State.recordIrq; dsimp only; (repeat' split) <;> simp
@[simp] theorem State.recordIrq_outbox (s : State) (set : Nat) (which : Nat) :
    (s.recordIrq set which).outbox = s.outbox := by
  unfold State.recordIrq; dsimp only; (repeat' split) <;> simp
@[simp] theorem State.recordIrq_rz (s : State) (set : Nat) (which : Nat) : (s.recordIrq set which).rz = s.rz := by
  unfold State.recordIrq; dsimp only; (repeat' split) <;> simp
@[simp] theorem State.recordIrq_links (s : State) (set : Nat) (which : Nat) :
    (s.recordIrq set which).links = s.links := by
  unfold State.recordIrq; dsimp only; (repeat' split) <;> simp
@[simp] theorem State.recordIrq_moss (s : State) (set : Nat) (which : Nat) :
    (s.recordIrq set which).moss = s.moss := by
  unfold State.recordIrq; dsimp only; (repeat' split) <;> simp

@[simp] theorem State.setRingState_freeCtr (s : State) (set : Nat) (st : Nat) :
    (s.setRingState set st).freeCtr = s.freeCtr := by
  unfold State.setRingState; dsimp only; (repeat' split) <;> simp
@[simp] theorem State.setRingState_reply (s : State) (set : Nat) (st : Nat) :
    (s.setRingState set st).reply = s.reply := by
  unfold State.setRingState; dsimp only; (repeat' split) <;> simp
@[simp] theorem State.setRingState_boot (s : State) (set : Nat) (st : Nat) :
    (s.setRingState set st).boot = s.boot := by
  unfold State.setRingState; dsimp only; (repeat' split) <;> simp
@[simp] theorem State.setRingState_pins (s : State) (set : Nat) (st : Nat) :
    (s.setRingState set st).pins = s.pins := by
  unfold State.setRingState; dsimp only; (repeat' split) <;> simp
@[simp] theorem State.setRingState_west (s : State) (set : Nat) (st : Nat) :
    (s.setRingState set st).west = s.west := by
  unfold State.setRingState; dsimp only; (repeat' split) <;> simp
@[simp] theorem State.setRingState_east (s : State) (set : Nat) (st : Nat) :
    (s.setRingState set st).east = s.east := by
  unfold State.setRingState; dsimp only; (repeat' split) <;> simp
@[simp] theorem State.setRingState_pwr (s : State) (set : Nat) (st : Nat) : (s.setRingState set st).pwr = s.pwr := by
  unfold State.setRingState; dsimp only; (repeat' split) <;> simp
@[simp] theorem State.setRingState_rst (s : State) (set : Nat) (st : Nat) : (s.setRingState set st).rst = s.rst := by
  unfold State.setRingState; dsimp only; (repeat' split) <;> simp
@[simp] theorem State.setRingState_mgt (s : State) (set : Nat) (st : Nat) : (s.setRingState set st).mgt = s.mgt := by
  unfold State.setRingState; dsimp only; (repeat' split) <;> simp
@[simp] theorem State.setRingState_glb (s : State) (set : Nat) (st : Nat) : (s.setRingState set st).glb = s.glb := by
  unfold State.setRingState; dsimp only; (repeat' split) <;> simp
@[simp] theorem State.setRingState_flash (s : State) (set : Nat) (st : Nat) :
    (s.setRingState set st).flash = s.flash := by
  unfold State.setRingState; dsimp only; (repeat' split) <;> simp
@[simp] theorem State.setRingState_sec (s : State) (set : Nat) (st : Nat) : (s.setRingState set st).sec = s.sec := by
  unfold State.setRingState; dsimp only; (repeat' split) <;> simp
@[simp] theorem State.setRingState_ens (s : State) (set : Nat) (st : Nat) : (s.setRingState set st).ens = s.ens := by
  unfold State.setRingState; dsimp only; (repeat' split) <;> simp
@[simp] theorem State.setRingState_drb (s : State) (set : Nat) (st : Nat) : (s.setRingState set st).drb = s.drb := by
  unfold State.setRingState; dsimp only; (repeat' split) <;> simp
@[simp] theorem State.setRingState_spg (s : State) (set : Nat) (st : Nat) : (s.setRingState set st).spg = s.spg := by
  unfold State.setRingState; dsimp only; (repeat' split) <;> simp
@[simp] theorem State.setRingState_ras (s : State) (set : Nat) (st : Nat) : (s.setRingState set st).ras = s.ras := by
  unfold State.setRingState; dsimp only; (repeat' split) <;> simp
@[simp] theorem State.setRingState_dmp (s : State) (set : Nat) (st : Nat) : (s.setRingState set st).dmp = s.dmp := by
  unfold State.setRingState; dsimp only; (repeat' split) <;> simp
@[simp] theorem State.setRingState_tel (s : State) (set : Nat) (st : Nat) : (s.setRingState set st).tel = s.tel := by
  unfold State.setRingState; dsimp only; (repeat' split) <;> simp
@[simp] theorem State.setRingState_cores (s : State) (set : Nat) (st : Nat) :
    (s.setRingState set st).cores = s.cores := by
  unfold State.setRingState; dsimp only; (repeat' split) <;> simp
@[simp] theorem State.setRingState_kernels (s : State) (set : Nat) (st : Nat) :
    (s.setRingState set st).kernels = s.kernels := by
  unfold State.setRingState; dsimp only; (repeat' split) <;> simp
@[simp] theorem State.setRingState_espConflict (s : State) (set : Nat) (st : Nat) :
    (s.setRingState set st).espConflict = s.espConflict := by
  unfold State.setRingState; dsimp only; (repeat' split) <;> simp
@[simp] theorem State.setRingState_espHandleW (s : State) (set : Nat) (st : Nat) :
    (s.setRingState set st).espHandleW = s.espHandleW := by
  unfold State.setRingState; dsimp only; (repeat' split) <;> simp
@[simp] theorem State.setRingState_espHandleE (s : State) (set : Nat) (st : Nat) :
    (s.setRingState set st).espHandleE = s.espHandleE := by
  unfold State.setRingState; dsimp only; (repeat' split) <;> simp
@[simp] theorem State.setRingState_slices (s : State) (set : Nat) (st : Nat) :
    (s.setRingState set st).slices = s.slices := by
  unfold State.setRingState; dsimp only; (repeat' split) <;> simp
@[simp] theorem State.setRingState_exact (s : State) (set : Nat) (st : Nat) :
    (s.setRingState set st).exact = s.exact := by
  unfold State.setRingState; dsimp only; (repeat' split) <;> simp
@[simp] theorem State.setRingState_slcSel (s : State) (set : Nat) (st : Nat) :
    (s.setRingState set st).slcSel = s.slcSel := by
  unfold State.setRingState; dsimp only; (repeat' split) <;> simp
@[simp] theorem State.setRingState_spareUsed (s : State) (set : Nat) (st : Nat) :
    (s.setRingState set st).spareUsed = s.spareUsed := by
  unfold State.setRingState; dsimp only; (repeat' split) <;> simp
@[simp] theorem State.setRingState_lpxMem (s : State) (set : Nat) (st : Nat) :
    (s.setRingState set st).lpxMem = s.lpxMem := by
  unfold State.setRingState; dsimp only; (repeat' split) <;> simp
@[simp] theorem State.setRingState_lineGen (s : State) (set : Nat) (st : Nat) :
    (s.setRingState set st).lineGen = s.lineGen := by
  unfold State.setRingState; dsimp only; (repeat' split) <;> simp
@[simp] theorem State.setRingState_lineKind (s : State) (set : Nat) (st : Nat) :
    (s.setRingState set st).lineKind = s.lineKind := by
  unfold State.setRingState; dsimp only; (repeat' split) <;> simp
@[simp] theorem State.setRingState_lpx (s : State) (set : Nat) (st : Nat) : (s.setRingState set st).lpx = s.lpx := by
  unfold State.setRingState; dsimp only; (repeat' split) <;> simp
@[simp] theorem State.setRingState_lpxSel (s : State) (set : Nat) (st : Nat) :
    (s.setRingState set st).lpxSel = s.lpxSel := by
  unfold State.setRingState; dsimp only; (repeat' split) <;> simp
@[simp] theorem State.setRingState_streamers (s : State) (set : Nat) (st : Nat) :
    (s.setRingState set st).streamers = s.streamers := by
  unfold State.setRingState; dsimp only; (repeat' split) <;> simp
@[simp] theorem State.setRingState_jobs (s : State) (set : Nat) (st : Nat) :
    (s.setRingState set st).jobs = s.jobs := by
  unfold State.setRingState; dsimp only; (repeat' split) <;> simp
@[simp] theorem State.setRingState_trySel (s : State) (set : Nat) (st : Nat) :
    (s.setRingState set st).trySel = s.trySel := by
  unfold State.setRingState; dsimp only; (repeat' split) <;> simp
@[simp] theorem State.setRingState_bedSel (s : State) (set : Nat) (st : Nat) :
    (s.setRingState set st).bedSel = s.bedSel := by
  unfold State.setRingState; dsimp only; (repeat' split) <;> simp
@[simp] theorem State.setRingState_cutSel (s : State) (set : Nat) (st : Nat) :
    (s.setRingState set st).cutSel = s.cutSel := by
  unfold State.setRingState; dsimp only; (repeat' split) <;> simp
@[simp] theorem State.setRingState_snap (s : State) (set : Nat) (st : Nat) :
    (s.setRingState set st).snap = s.snap := by
  unfold State.setRingState; dsimp only; (repeat' split) <;> simp
@[simp] theorem State.setRingState_outbox (s : State) (set : Nat) (st : Nat) :
    (s.setRingState set st).outbox = s.outbox := by
  unfold State.setRingState; dsimp only; (repeat' split) <;> simp
@[simp] theorem State.setRingState_rz (s : State) (set : Nat) (st : Nat) : (s.setRingState set st).rz = s.rz := by
  unfold State.setRingState; dsimp only; (repeat' split) <;> simp
@[simp] theorem State.setRingState_links (s : State) (set : Nat) (st : Nat) :
    (s.setRingState set st).links = s.links := by
  unfold State.setRingState; dsimp only; (repeat' split) <;> simp
@[simp] theorem State.setRingState_moss (s : State) (set : Nat) (st : Nat) :
    (s.setRingState set st).moss = s.moss := by
  unfold State.setRingState; dsimp only; (repeat' split) <;> simp

/-- Records written one after another leave freeCtr alone. -/
theorem foldl_freeCtr {α : Type} (f : State → α → State) (l : List α) (s : State) (h : ∀ s a, (f s a).freeCtr = s.freeCtr) :
    (l.foldl f s).freeCtr = s.freeCtr := by
  induction l generalizing s with
  | nil => rfl
  | cons a l ih => simp [ih, h]

@[simp] theorem State.writeCpl_freeCtr (s : State) (h : Head) (opcode : Nat) (c : Cpl) :
    (s.writeCpl h opcode c).freeCtr = s.freeCtr := by
  unfold State.writeCpl; dsimp only; split
  · simp
  · simp [foldl_freeCtr]
/-- Records written one after another leave reply alone. -/
theorem foldl_reply {α : Type} (f : State → α → State) (l : List α) (s : State) (h : ∀ s a, (f s a).reply = s.reply) :
    (l.foldl f s).reply = s.reply := by
  induction l generalizing s with
  | nil => rfl
  | cons a l ih => simp [ih, h]

@[simp] theorem State.writeCpl_reply (s : State) (h : Head) (opcode : Nat) (c : Cpl) :
    (s.writeCpl h opcode c).reply = s.reply := by
  unfold State.writeCpl; dsimp only; split
  · simp
  · simp [foldl_reply]
/-- Records written one after another leave boot alone. -/
theorem foldl_boot {α : Type} (f : State → α → State) (l : List α) (s : State) (h : ∀ s a, (f s a).boot = s.boot) :
    (l.foldl f s).boot = s.boot := by
  induction l generalizing s with
  | nil => rfl
  | cons a l ih => simp [ih, h]

@[simp] theorem State.writeCpl_boot (s : State) (h : Head) (opcode : Nat) (c : Cpl) :
    (s.writeCpl h opcode c).boot = s.boot := by
  unfold State.writeCpl; dsimp only; split
  · simp
  · simp [foldl_boot]
/-- Records written one after another leave pins alone. -/
theorem foldl_pins {α : Type} (f : State → α → State) (l : List α) (s : State) (h : ∀ s a, (f s a).pins = s.pins) :
    (l.foldl f s).pins = s.pins := by
  induction l generalizing s with
  | nil => rfl
  | cons a l ih => simp [ih, h]

@[simp] theorem State.writeCpl_pins (s : State) (h : Head) (opcode : Nat) (c : Cpl) :
    (s.writeCpl h opcode c).pins = s.pins := by
  unfold State.writeCpl; dsimp only; split
  · simp
  · simp [foldl_pins]
/-- Records written one after another leave west alone. -/
theorem foldl_west {α : Type} (f : State → α → State) (l : List α) (s : State) (h : ∀ s a, (f s a).west = s.west) :
    (l.foldl f s).west = s.west := by
  induction l generalizing s with
  | nil => rfl
  | cons a l ih => simp [ih, h]

@[simp] theorem State.writeCpl_west (s : State) (h : Head) (opcode : Nat) (c : Cpl) :
    (s.writeCpl h opcode c).west = s.west := by
  unfold State.writeCpl; dsimp only; split
  · simp
  · simp [foldl_west]
/-- Records written one after another leave east alone. -/
theorem foldl_east {α : Type} (f : State → α → State) (l : List α) (s : State) (h : ∀ s a, (f s a).east = s.east) :
    (l.foldl f s).east = s.east := by
  induction l generalizing s with
  | nil => rfl
  | cons a l ih => simp [ih, h]

@[simp] theorem State.writeCpl_east (s : State) (h : Head) (opcode : Nat) (c : Cpl) :
    (s.writeCpl h opcode c).east = s.east := by
  unfold State.writeCpl; dsimp only; split
  · simp
  · simp [foldl_east]
/-- Records written one after another leave pwr alone. -/
theorem foldl_pwr {α : Type} (f : State → α → State) (l : List α) (s : State) (h : ∀ s a, (f s a).pwr = s.pwr) :
    (l.foldl f s).pwr = s.pwr := by
  induction l generalizing s with
  | nil => rfl
  | cons a l ih => simp [ih, h]

@[simp] theorem State.writeCpl_pwr (s : State) (h : Head) (opcode : Nat) (c : Cpl) :
    (s.writeCpl h opcode c).pwr = s.pwr := by
  unfold State.writeCpl; dsimp only; split
  · simp
  · simp [foldl_pwr]
/-- Records written one after another leave rst alone. -/
theorem foldl_rst {α : Type} (f : State → α → State) (l : List α) (s : State) (h : ∀ s a, (f s a).rst = s.rst) :
    (l.foldl f s).rst = s.rst := by
  induction l generalizing s with
  | nil => rfl
  | cons a l ih => simp [ih, h]

@[simp] theorem State.writeCpl_rst (s : State) (h : Head) (opcode : Nat) (c : Cpl) :
    (s.writeCpl h opcode c).rst = s.rst := by
  unfold State.writeCpl; dsimp only; split
  · simp
  · simp [foldl_rst]
/-- Records written one after another leave mgt alone. -/
theorem foldl_mgt {α : Type} (f : State → α → State) (l : List α) (s : State) (h : ∀ s a, (f s a).mgt = s.mgt) :
    (l.foldl f s).mgt = s.mgt := by
  induction l generalizing s with
  | nil => rfl
  | cons a l ih => simp [ih, h]

@[simp] theorem State.writeCpl_mgt (s : State) (h : Head) (opcode : Nat) (c : Cpl) :
    (s.writeCpl h opcode c).mgt = s.mgt := by
  unfold State.writeCpl; dsimp only; split
  · simp
  · simp [foldl_mgt]
/-- Records written one after another leave glb alone. -/
theorem foldl_glb {α : Type} (f : State → α → State) (l : List α) (s : State) (h : ∀ s a, (f s a).glb = s.glb) :
    (l.foldl f s).glb = s.glb := by
  induction l generalizing s with
  | nil => rfl
  | cons a l ih => simp [ih, h]

@[simp] theorem State.writeCpl_glb (s : State) (h : Head) (opcode : Nat) (c : Cpl) :
    (s.writeCpl h opcode c).glb = s.glb := by
  unfold State.writeCpl; dsimp only; split
  · simp
  · simp [foldl_glb]
/-- Records written one after another leave flash alone. -/
theorem foldl_flash {α : Type} (f : State → α → State) (l : List α) (s : State) (h : ∀ s a, (f s a).flash = s.flash) :
    (l.foldl f s).flash = s.flash := by
  induction l generalizing s with
  | nil => rfl
  | cons a l ih => simp [ih, h]

@[simp] theorem State.writeCpl_flash (s : State) (h : Head) (opcode : Nat) (c : Cpl) :
    (s.writeCpl h opcode c).flash = s.flash := by
  unfold State.writeCpl; dsimp only; split
  · simp
  · simp [foldl_flash]
/-- Records written one after another leave sec alone. -/
theorem foldl_sec {α : Type} (f : State → α → State) (l : List α) (s : State) (h : ∀ s a, (f s a).sec = s.sec) :
    (l.foldl f s).sec = s.sec := by
  induction l generalizing s with
  | nil => rfl
  | cons a l ih => simp [ih, h]

@[simp] theorem State.writeCpl_sec (s : State) (h : Head) (opcode : Nat) (c : Cpl) :
    (s.writeCpl h opcode c).sec = s.sec := by
  unfold State.writeCpl; dsimp only; split
  · simp
  · simp [foldl_sec]
/-- Records written one after another leave ens alone. -/
theorem foldl_ens {α : Type} (f : State → α → State) (l : List α) (s : State) (h : ∀ s a, (f s a).ens = s.ens) :
    (l.foldl f s).ens = s.ens := by
  induction l generalizing s with
  | nil => rfl
  | cons a l ih => simp [ih, h]

@[simp] theorem State.writeCpl_ens (s : State) (h : Head) (opcode : Nat) (c : Cpl) :
    (s.writeCpl h opcode c).ens = s.ens := by
  unfold State.writeCpl; dsimp only; split
  · simp
  · simp [foldl_ens]
/-- Records written one after another leave drb alone. -/
theorem foldl_drb {α : Type} (f : State → α → State) (l : List α) (s : State) (h : ∀ s a, (f s a).drb = s.drb) :
    (l.foldl f s).drb = s.drb := by
  induction l generalizing s with
  | nil => rfl
  | cons a l ih => simp [ih, h]

@[simp] theorem State.writeCpl_drb (s : State) (h : Head) (opcode : Nat) (c : Cpl) :
    (s.writeCpl h opcode c).drb = s.drb := by
  unfold State.writeCpl; dsimp only; split
  · simp
  · simp [foldl_drb]
/-- Records written one after another leave spg alone. -/
theorem foldl_spg {α : Type} (f : State → α → State) (l : List α) (s : State) (h : ∀ s a, (f s a).spg = s.spg) :
    (l.foldl f s).spg = s.spg := by
  induction l generalizing s with
  | nil => rfl
  | cons a l ih => simp [ih, h]

@[simp] theorem State.writeCpl_spg (s : State) (h : Head) (opcode : Nat) (c : Cpl) :
    (s.writeCpl h opcode c).spg = s.spg := by
  unfold State.writeCpl; dsimp only; split
  · simp
  · simp [foldl_spg]
/-- Records written one after another leave ras alone. -/
theorem foldl_ras {α : Type} (f : State → α → State) (l : List α) (s : State) (h : ∀ s a, (f s a).ras = s.ras) :
    (l.foldl f s).ras = s.ras := by
  induction l generalizing s with
  | nil => rfl
  | cons a l ih => simp [ih, h]

@[simp] theorem State.writeCpl_ras (s : State) (h : Head) (opcode : Nat) (c : Cpl) :
    (s.writeCpl h opcode c).ras = s.ras := by
  unfold State.writeCpl; dsimp only; split
  · simp
  · simp [foldl_ras]
/-- Records written one after another leave dmp alone. -/
theorem foldl_dmp {α : Type} (f : State → α → State) (l : List α) (s : State) (h : ∀ s a, (f s a).dmp = s.dmp) :
    (l.foldl f s).dmp = s.dmp := by
  induction l generalizing s with
  | nil => rfl
  | cons a l ih => simp [ih, h]

@[simp] theorem State.writeCpl_dmp (s : State) (h : Head) (opcode : Nat) (c : Cpl) :
    (s.writeCpl h opcode c).dmp = s.dmp := by
  unfold State.writeCpl; dsimp only; split
  · simp
  · simp [foldl_dmp]
/-- Records written one after another leave tel alone. -/
theorem foldl_tel {α : Type} (f : State → α → State) (l : List α) (s : State) (h : ∀ s a, (f s a).tel = s.tel) :
    (l.foldl f s).tel = s.tel := by
  induction l generalizing s with
  | nil => rfl
  | cons a l ih => simp [ih, h]

@[simp] theorem State.writeCpl_tel (s : State) (h : Head) (opcode : Nat) (c : Cpl) :
    (s.writeCpl h opcode c).tel = s.tel := by
  unfold State.writeCpl; dsimp only; split
  · simp
  · simp [foldl_tel]
/-- Records written one after another leave cores alone. -/
theorem foldl_cores {α : Type} (f : State → α → State) (l : List α) (s : State) (h : ∀ s a, (f s a).cores = s.cores) :
    (l.foldl f s).cores = s.cores := by
  induction l generalizing s with
  | nil => rfl
  | cons a l ih => simp [ih, h]

@[simp] theorem State.writeCpl_cores (s : State) (h : Head) (opcode : Nat) (c : Cpl) :
    (s.writeCpl h opcode c).cores = s.cores := by
  unfold State.writeCpl; dsimp only; split
  · simp
  · simp [foldl_cores]
/-- Records written one after another leave kernels alone. -/
theorem foldl_kernels {α : Type} (f : State → α → State) (l : List α) (s : State) (h : ∀ s a, (f s a).kernels = s.kernels) :
    (l.foldl f s).kernels = s.kernels := by
  induction l generalizing s with
  | nil => rfl
  | cons a l ih => simp [ih, h]

@[simp] theorem State.writeCpl_kernels (s : State) (h : Head) (opcode : Nat) (c : Cpl) :
    (s.writeCpl h opcode c).kernels = s.kernels := by
  unfold State.writeCpl; dsimp only; split
  · simp
  · simp [foldl_kernels]
/-- Records written one after another leave espConflict alone. -/
theorem foldl_espConflict {α : Type} (f : State → α → State) (l : List α) (s : State) (h : ∀ s a, (f s a).espConflict = s.espConflict) :
    (l.foldl f s).espConflict = s.espConflict := by
  induction l generalizing s with
  | nil => rfl
  | cons a l ih => simp [ih, h]

@[simp] theorem State.writeCpl_espConflict (s : State) (h : Head) (opcode : Nat) (c : Cpl) :
    (s.writeCpl h opcode c).espConflict = s.espConflict := by
  unfold State.writeCpl; dsimp only; split
  · simp
  · simp [foldl_espConflict]
/-- Records written one after another leave espHandleW alone. -/
theorem foldl_espHandleW {α : Type} (f : State → α → State) (l : List α) (s : State) (h : ∀ s a, (f s a).espHandleW = s.espHandleW) :
    (l.foldl f s).espHandleW = s.espHandleW := by
  induction l generalizing s with
  | nil => rfl
  | cons a l ih => simp [ih, h]

@[simp] theorem State.writeCpl_espHandleW (s : State) (h : Head) (opcode : Nat) (c : Cpl) :
    (s.writeCpl h opcode c).espHandleW = s.espHandleW := by
  unfold State.writeCpl; dsimp only; split
  · simp
  · simp [foldl_espHandleW]
/-- Records written one after another leave espHandleE alone. -/
theorem foldl_espHandleE {α : Type} (f : State → α → State) (l : List α) (s : State) (h : ∀ s a, (f s a).espHandleE = s.espHandleE) :
    (l.foldl f s).espHandleE = s.espHandleE := by
  induction l generalizing s with
  | nil => rfl
  | cons a l ih => simp [ih, h]

@[simp] theorem State.writeCpl_espHandleE (s : State) (h : Head) (opcode : Nat) (c : Cpl) :
    (s.writeCpl h opcode c).espHandleE = s.espHandleE := by
  unfold State.writeCpl; dsimp only; split
  · simp
  · simp [foldl_espHandleE]
/-- Records written one after another leave slices alone. -/
theorem foldl_slices {α : Type} (f : State → α → State) (l : List α) (s : State) (h : ∀ s a, (f s a).slices = s.slices) :
    (l.foldl f s).slices = s.slices := by
  induction l generalizing s with
  | nil => rfl
  | cons a l ih => simp [ih, h]

@[simp] theorem State.writeCpl_slices (s : State) (h : Head) (opcode : Nat) (c : Cpl) :
    (s.writeCpl h opcode c).slices = s.slices := by
  unfold State.writeCpl; dsimp only; split
  · simp
  · simp [foldl_slices]
/-- Records written one after another leave exact alone. -/
theorem foldl_exact {α : Type} (f : State → α → State) (l : List α) (s : State) (h : ∀ s a, (f s a).exact = s.exact) :
    (l.foldl f s).exact = s.exact := by
  induction l generalizing s with
  | nil => rfl
  | cons a l ih => simp [ih, h]

@[simp] theorem State.writeCpl_exact (s : State) (h : Head) (opcode : Nat) (c : Cpl) :
    (s.writeCpl h opcode c).exact = s.exact := by
  unfold State.writeCpl; dsimp only; split
  · simp
  · simp [foldl_exact]
/-- Records written one after another leave slcSel alone. -/
theorem foldl_slcSel {α : Type} (f : State → α → State) (l : List α) (s : State) (h : ∀ s a, (f s a).slcSel = s.slcSel) :
    (l.foldl f s).slcSel = s.slcSel := by
  induction l generalizing s with
  | nil => rfl
  | cons a l ih => simp [ih, h]

@[simp] theorem State.writeCpl_slcSel (s : State) (h : Head) (opcode : Nat) (c : Cpl) :
    (s.writeCpl h opcode c).slcSel = s.slcSel := by
  unfold State.writeCpl; dsimp only; split
  · simp
  · simp [foldl_slcSel]
/-- Records written one after another leave spareUsed alone. -/
theorem foldl_spareUsed {α : Type} (f : State → α → State) (l : List α) (s : State) (h : ∀ s a, (f s a).spareUsed = s.spareUsed) :
    (l.foldl f s).spareUsed = s.spareUsed := by
  induction l generalizing s with
  | nil => rfl
  | cons a l ih => simp [ih, h]

@[simp] theorem State.writeCpl_spareUsed (s : State) (h : Head) (opcode : Nat) (c : Cpl) :
    (s.writeCpl h opcode c).spareUsed = s.spareUsed := by
  unfold State.writeCpl; dsimp only; split
  · simp
  · simp [foldl_spareUsed]
/-- Records written one after another leave lpxMem alone. -/
theorem foldl_lpxMem {α : Type} (f : State → α → State) (l : List α) (s : State) (h : ∀ s a, (f s a).lpxMem = s.lpxMem) :
    (l.foldl f s).lpxMem = s.lpxMem := by
  induction l generalizing s with
  | nil => rfl
  | cons a l ih => simp [ih, h]

@[simp] theorem State.writeCpl_lpxMem (s : State) (h : Head) (opcode : Nat) (c : Cpl) :
    (s.writeCpl h opcode c).lpxMem = s.lpxMem := by
  unfold State.writeCpl; dsimp only; split
  · simp
  · simp [foldl_lpxMem]
/-- Records written one after another leave lineGen alone. -/
theorem foldl_lineGen {α : Type} (f : State → α → State) (l : List α) (s : State) (h : ∀ s a, (f s a).lineGen = s.lineGen) :
    (l.foldl f s).lineGen = s.lineGen := by
  induction l generalizing s with
  | nil => rfl
  | cons a l ih => simp [ih, h]

@[simp] theorem State.writeCpl_lineGen (s : State) (h : Head) (opcode : Nat) (c : Cpl) :
    (s.writeCpl h opcode c).lineGen = s.lineGen := by
  unfold State.writeCpl; dsimp only; split
  · simp
  · simp [foldl_lineGen]
/-- Records written one after another leave lineKind alone. -/
theorem foldl_lineKind {α : Type} (f : State → α → State) (l : List α) (s : State) (h : ∀ s a, (f s a).lineKind = s.lineKind) :
    (l.foldl f s).lineKind = s.lineKind := by
  induction l generalizing s with
  | nil => rfl
  | cons a l ih => simp [ih, h]

@[simp] theorem State.writeCpl_lineKind (s : State) (h : Head) (opcode : Nat) (c : Cpl) :
    (s.writeCpl h opcode c).lineKind = s.lineKind := by
  unfold State.writeCpl; dsimp only; split
  · simp
  · simp [foldl_lineKind]
/-- Records written one after another leave lpx alone. -/
theorem foldl_lpx {α : Type} (f : State → α → State) (l : List α) (s : State) (h : ∀ s a, (f s a).lpx = s.lpx) :
    (l.foldl f s).lpx = s.lpx := by
  induction l generalizing s with
  | nil => rfl
  | cons a l ih => simp [ih, h]

@[simp] theorem State.writeCpl_lpx (s : State) (h : Head) (opcode : Nat) (c : Cpl) :
    (s.writeCpl h opcode c).lpx = s.lpx := by
  unfold State.writeCpl; dsimp only; split
  · simp
  · simp [foldl_lpx]
/-- Records written one after another leave lpxSel alone. -/
theorem foldl_lpxSel {α : Type} (f : State → α → State) (l : List α) (s : State) (h : ∀ s a, (f s a).lpxSel = s.lpxSel) :
    (l.foldl f s).lpxSel = s.lpxSel := by
  induction l generalizing s with
  | nil => rfl
  | cons a l ih => simp [ih, h]

@[simp] theorem State.writeCpl_lpxSel (s : State) (h : Head) (opcode : Nat) (c : Cpl) :
    (s.writeCpl h opcode c).lpxSel = s.lpxSel := by
  unfold State.writeCpl; dsimp only; split
  · simp
  · simp [foldl_lpxSel]
/-- Records written one after another leave streamers alone. -/
theorem foldl_streamers {α : Type} (f : State → α → State) (l : List α) (s : State) (h : ∀ s a, (f s a).streamers = s.streamers) :
    (l.foldl f s).streamers = s.streamers := by
  induction l generalizing s with
  | nil => rfl
  | cons a l ih => simp [ih, h]

@[simp] theorem State.writeCpl_streamers (s : State) (h : Head) (opcode : Nat) (c : Cpl) :
    (s.writeCpl h opcode c).streamers = s.streamers := by
  unfold State.writeCpl; dsimp only; split
  · simp
  · simp [foldl_streamers]
/-- Records written one after another leave jobs alone. -/
theorem foldl_jobs {α : Type} (f : State → α → State) (l : List α) (s : State) (h : ∀ s a, (f s a).jobs = s.jobs) :
    (l.foldl f s).jobs = s.jobs := by
  induction l generalizing s with
  | nil => rfl
  | cons a l ih => simp [ih, h]

@[simp] theorem State.writeCpl_jobs (s : State) (h : Head) (opcode : Nat) (c : Cpl) :
    (s.writeCpl h opcode c).jobs = s.jobs := by
  unfold State.writeCpl; dsimp only; split
  · simp
  · simp [foldl_jobs]
/-- Records written one after another leave trySel alone. -/
theorem foldl_trySel {α : Type} (f : State → α → State) (l : List α) (s : State) (h : ∀ s a, (f s a).trySel = s.trySel) :
    (l.foldl f s).trySel = s.trySel := by
  induction l generalizing s with
  | nil => rfl
  | cons a l ih => simp [ih, h]

@[simp] theorem State.writeCpl_trySel (s : State) (h : Head) (opcode : Nat) (c : Cpl) :
    (s.writeCpl h opcode c).trySel = s.trySel := by
  unfold State.writeCpl; dsimp only; split
  · simp
  · simp [foldl_trySel]
/-- Records written one after another leave bedSel alone. -/
theorem foldl_bedSel {α : Type} (f : State → α → State) (l : List α) (s : State) (h : ∀ s a, (f s a).bedSel = s.bedSel) :
    (l.foldl f s).bedSel = s.bedSel := by
  induction l generalizing s with
  | nil => rfl
  | cons a l ih => simp [ih, h]

@[simp] theorem State.writeCpl_bedSel (s : State) (h : Head) (opcode : Nat) (c : Cpl) :
    (s.writeCpl h opcode c).bedSel = s.bedSel := by
  unfold State.writeCpl; dsimp only; split
  · simp
  · simp [foldl_bedSel]
/-- Records written one after another leave cutSel alone. -/
theorem foldl_cutSel {α : Type} (f : State → α → State) (l : List α) (s : State) (h : ∀ s a, (f s a).cutSel = s.cutSel) :
    (l.foldl f s).cutSel = s.cutSel := by
  induction l generalizing s with
  | nil => rfl
  | cons a l ih => simp [ih, h]

@[simp] theorem State.writeCpl_cutSel (s : State) (h : Head) (opcode : Nat) (c : Cpl) :
    (s.writeCpl h opcode c).cutSel = s.cutSel := by
  unfold State.writeCpl; dsimp only; split
  · simp
  · simp [foldl_cutSel]
/-- Records written one after another leave snap alone. -/
theorem foldl_snap {α : Type} (f : State → α → State) (l : List α) (s : State) (h : ∀ s a, (f s a).snap = s.snap) :
    (l.foldl f s).snap = s.snap := by
  induction l generalizing s with
  | nil => rfl
  | cons a l ih => simp [ih, h]

@[simp] theorem State.writeCpl_snap (s : State) (h : Head) (opcode : Nat) (c : Cpl) :
    (s.writeCpl h opcode c).snap = s.snap := by
  unfold State.writeCpl; dsimp only; split
  · simp
  · simp [foldl_snap]
/-- Records written one after another leave outbox alone. -/
theorem foldl_outbox {α : Type} (f : State → α → State) (l : List α) (s : State) (h : ∀ s a, (f s a).outbox = s.outbox) :
    (l.foldl f s).outbox = s.outbox := by
  induction l generalizing s with
  | nil => rfl
  | cons a l ih => simp [ih, h]

@[simp] theorem State.writeCpl_outbox (s : State) (h : Head) (opcode : Nat) (c : Cpl) :
    (s.writeCpl h opcode c).outbox = s.outbox := by
  unfold State.writeCpl; dsimp only; split
  · simp
  · simp [foldl_outbox]
/-- Records written one after another leave rz alone. -/
theorem foldl_rz {α : Type} (f : State → α → State) (l : List α) (s : State) (h : ∀ s a, (f s a).rz = s.rz) :
    (l.foldl f s).rz = s.rz := by
  induction l generalizing s with
  | nil => rfl
  | cons a l ih => simp [ih, h]

@[simp] theorem State.writeCpl_rz (s : State) (h : Head) (opcode : Nat) (c : Cpl) :
    (s.writeCpl h opcode c).rz = s.rz := by
  unfold State.writeCpl; dsimp only; split
  · simp
  · simp [foldl_rz]
/-- Records written one after another leave links alone. -/
theorem foldl_links {α : Type} (f : State → α → State) (l : List α) (s : State) (h : ∀ s a, (f s a).links = s.links) :
    (l.foldl f s).links = s.links := by
  induction l generalizing s with
  | nil => rfl
  | cons a l ih => simp [ih, h]

@[simp] theorem State.writeCpl_links (s : State) (h : Head) (opcode : Nat) (c : Cpl) :
    (s.writeCpl h opcode c).links = s.links := by
  unfold State.writeCpl; dsimp only; split
  · simp
  · simp [foldl_links]
/-- Records written one after another leave moss alone. -/
theorem foldl_moss {α : Type} (f : State → α → State) (l : List α) (s : State) (h : ∀ s a, (f s a).moss = s.moss) :
    (l.foldl f s).moss = s.moss := by
  induction l generalizing s with
  | nil => rfl
  | cons a l ih => simp [ih, h]

@[simp] theorem State.writeCpl_moss (s : State) (h : Head) (opcode : Nat) (c : Cpl) :
    (s.writeCpl h opcode c).moss = s.moss := by
  unfold State.writeCpl; dsimp only; split
  · simp
  · simp [foldl_moss]

end Sys2Proof.Machine
end

