-- ==== Sys2Proof/Laws/Core.lean ====
section
/-!
SUPPORT. Reads of a core's registers, tags and tiles after the operations that write them.
-/
namespace Sys2Proof.Machine
open Sys2Proof

/-! ## Vector registers -/

theorem get_setLanes (xs : List W32) (m : Map W32) (v l k : Nat) :
    Map.get 0#32 (setLanes m v l xs) k =
      if h : 64 * v + l ≤ k ∧ k < 64 * v + l + xs.length then xs[k - (64 * v + l)]'(by omega) else Map.get 0#32 m k := by
  induction xs generalizing m l with
  | nil => rw [setLanes, dif_neg (by simp)]
  | cons x xs ih =>
    rw [setLanes, ih]
    by_cases h1 : 64 * v + (l + 1) ≤ k ∧ k < 64 * v + (l + 1) + xs.length
    · have h2 : 64 * v + l ≤ k ∧ k < 64 * v + l + (x :: xs).length := by simp; omega
      rw [dif_pos h1, dif_pos h2]
      have : k - (64 * v + l) = (k - (64 * v + (l + 1))) + 1 := by omega
      simp [this]
    · rw [dif_neg h1, Map.get_set]
      by_cases h3 : k = 64 * v + l
      · subst h3; simp
      · have h2 : ¬ (64 * v + l ≤ k ∧ k < 64 * v + l + (x :: xs).length) := by simp; omega
        rw [if_neg h3, dif_neg h2]

/-- A lane after a vector register is written: the element written, zero beyond the list, and as before in every other register. -/
theorem Core.lane_setVec (c : Core) (v w l : Nat) (xs : List W32) (hl : l < 64) :
    (c.setVec v xs).lane w l = if w = v then xs.getD l 0#32 else c.lane w l := by
  unfold Core.setVec Core.lane
  rw [get_setLanes]
  have hlen : (xs.take 64 ++ List.replicate (64 - xs.length) 0#32).length = 64 := by simp; omega
  by_cases hw : w = v
  · subst hw
    rw [dif_pos (by omega), if_pos rfl]
    have : 64 * w + l - (64 * w + 0) = l := by omega
    simp only [this]
    rw [List.getElem_append]
    split
    · next h => rw [List.getElem_take, List.getD_eq_getElem?_getD, List.getElem?_eq_getElem (by simp at h; omega)]; rfl
    · next h =>
      simp at h
      rw [List.getElem_replicate, List.getD_eq_getElem?_getD, List.getElem?_eq_none (by omega)]; rfl
  · rw [dif_neg (by omega), if_neg hw]

@[simp] theorem Core.lane_setSreg (c : Core) (r v l : Nat) (x : W64) : (c.setSreg r x).lane v l = c.lane v l := by
  unfold Core.setSreg; split <;> rfl

@[simp] theorem Core.sreg_setVec (c : Core) (v r : Nat) (xs : List W32) : (c.setVec v xs).sreg r = c.sreg r := rfl

/-! ## Tags and block counts -/

@[simp] theorem Core.tag_setTag (c : Core) (t q v : Nat) : (c.setTag t v).tag q = if q = t then v else c.tag q := by
  simp [Core.tag, Core.setTag]

@[simp] theorem Core.blockCount_newChain (c : Core) (t q : Nat) :
    (c.newChain t).blockCount q = if q = t then 0 else c.blockCount q := by
  simp [Core.blockCount, Core.newChain]

/-! ## Tiles -/

/-- The value of an element read where it was written. -/
theorem tileVal_setTileVal (m : Memory) (t : Tile) (r k : Nat) (v : W32) :
    BitVec.ofNat 32 (Memory.readLe (setTileVal m t r k v) (t.addr r k) 4) = v := by
  rw [setTileVal, Memory.readLe_writeLe]
  apply BitVec.eq_of_toNat_eq
  have := v.isLt
  simp
  omega

/-- Two elements of one tile do not overlap. -/
theorem Tile.addr_apart (t : Tile) (r k r' k' : Nat) (hk : k < t.cols) (hk' : k' < t.cols) (h : r ≠ r' ∨ k ≠ k') :
    t.addr r k + 4 ≤ t.addr r' k' ∨ t.addr r' k' + 4 ≤ t.addr r k := by
  have hne : r * t.cols + k ≠ r' * t.cols + k' := by
    intro he
    have h1 : (r * t.cols + k) % t.cols = (r' * t.cols + k') % t.cols := by rw [he]
    rw [Nat.add_comm, Nat.add_mul_mod_self_right, Nat.add_comm (r' * t.cols), Nat.add_mul_mod_self_right, Nat.mod_eq_of_lt hk,
      Nat.mod_eq_of_lt hk'] at h1
    have h2 : r * t.cols = r' * t.cols := by omega
    have h3 : r = r' := Nat.eq_of_mul_eq_mul_right (by omega) h2
    omega
  have he : 4 ≤ t.esize := by unfold Tile.esize; split <;> omega
  unfold Tile.addr
  rcases Nat.lt_or_gt_of_ne hne with h | h
  · left
    have : (r * t.cols + k + 1) * t.esize ≤ (r' * t.cols + k') * t.esize := Nat.mul_le_mul_right _ h
    rw [Nat.add_mul] at this
    omega
  · right
    have : (r' * t.cols + k' + 1) * t.esize ≤ (r * t.cols + k) * t.esize := Nat.mul_le_mul_right _ h
    rw [Nat.add_mul] at this
    omega

/-- Another element's value is as before. -/
theorem tileVal_setTileVal_other (m : Memory) (t : Tile) (r k r' k' : Nat) (v : W32) (hk : k < t.cols) (hk' : k' < t.cols)
    (h : r ≠ r' ∨ k ≠ k') :
    Memory.readLe (setTileVal m t r k v) (t.addr r' k') 4 = Memory.readLe m (t.addr r' k') 4 := by
  rw [setTileVal, Memory.readLe_writeLe_outside]
  have := t.addr_apart r k r' k' hk hk' h
  omega

end Sys2Proof.Machine
end

