-- ==== Sys2Proof/Laws/Crypto.lean ====
section
/-!
SUPPORT. The lengths that the primitives give, and that AES-256-GCM opens what it has sealed.
-/
namespace Sys2Proof.Machine
open Sys2Proof

/-! ## Lengths -/

theorem xorBytes_length (a b : List Byte) : (xorBytes a b).length = Nat.min a.length b.length := by
  simp [xorBytes]

/-- XOR twice with the same bytes changes nothing. -/
theorem xorBytes_xorBytes (a s : List Byte) (h : a.length ≤ s.length) : xorBytes (xorBytes a s) s = a := by
  induction a generalizing s with
  | nil => simp [xorBytes]
  | cons x a ih =>
    cases s with
    | nil => simp at h
    | cons y s =>
      have := ih s (by simpa using h)
      simp only [xorBytes, List.zipWith_cons_cons] at this ⊢
      rw [this, BitVec.xor_assoc, BitVec.xor_self, BitVec.xor_zero]

theorem shaRound_length (h : List (BitVec 64)) (kw : BitVec 64 × BitVec 64) : (shaRound h kw).length = h.length := by
  unfold shaRound
  split <;> rfl

theorem shaRounds_length (ks : List (BitVec 64 × BitVec 64)) (h : List (BitVec 64)) : (ks.foldl shaRound h).length = h.length := by
  induction ks generalizing h with
  | nil => rfl
  | cons k ks ih => rw [List.foldl_cons, ih, shaRound_length]

theorem shaBlocks_length (bs : List (List Byte)) (h : List (BitVec 64)) : (bs.foldl shaBlock h).length = h.length := by
  induction bs generalizing h with
  | nil => rfl
  | cons b bs ih =>
    rw [List.foldl_cons, ih]
    simp only [shaBlock, List.length_zipWith, shaRounds_length, Nat.min_self]

theorem flatten_length {α : Type} (n : Nat) (xs : List (List α)) (h : ∀ x ∈ xs, x.length = n) : xs.flatten.length = n * xs.length := by
  induction xs with
  | nil => simp
  | cons x xs ih =>
    rw [List.flatten_cons, List.length_append, ih fun y hy => h y (.tail _ hy), h x (.head _), List.length_cons, Nat.mul_succ]
    omega

/-- SHA-384 gives 48 bytes. -/
theorem sha384_length (m : List Byte) : (sha384 m).length = 48 := by
  unfold sha384
  rw [List.length_take, flatten_length 8, List.length_map, shaBlocks_length]
  · rfl
  · intro x h
    obtain ⟨w, -, rfl⟩ := List.mem_map.1 h
    simp [toBe]

theorem hkdf32_length (ikm salt info : List Byte) : (hkdf32 ikm salt info).length = 32 := by
  simp [hkdf32, hmac384, sha384_length]

/-! ## AES-256 -/

theorem aesExpand_words (n i : Nat) (w : List (List Byte)) (h : ∀ x ∈ w, x.length = 4) (l : 8 ≤ w.length) :
    (∀ x ∈ aesExpand n i w, x.length = 4) ∧ (aesExpand n i w).length = w.length + n := by
  induction n generalizing i w with
  | zero => exact ⟨h, rfl⟩
  | succ n ih =>
    unfold aesExpand
    have hd : (w.headD []).length = 4 := by
      cases w with
      | nil => simp at l
      | cons x w => exact h x (.head _)
    have h7 : (w.getD 7 []).length = 4 := by
      rw [List.getD_eq_getElem?_getD, List.getElem?_eq_getElem (show 7 < w.length by omega), Option.getD_some]
      exact h _ (List.getElem_mem _)
    have := ih (i + 1) (xorBytes (w.getD 7 []) (if i % 8 = 0 then
        xorBytes (((w.headD []).drop 1 ++ (w.headD []).take 1).map sbox)
          [BitVec.ofNat 8 ((List.range (i / 8 - 1)).foldl (fun a _ => xtime a) 1), 0#8, 0#8, 0#8]
      else if i % 8 = 4 then (w.headD []).map sbox else w.headD []) :: w) ?_ ?_
    · exact ⟨this.1, by rw [this.2, List.length_cons]; omega⟩
    · intro x hx
      rcases List.mem_cons.1 hx with rfl | hx
      · rw [xorBytes_length, h7]
        split
        · rw [xorBytes_length, List.length_map, List.length_append, List.length_drop, List.length_take, hd]
          rfl
        · split
          · rw [List.length_map, hd]; rfl
          · rw [hd]; rfl
      · exact h x hx
    · rw [List.length_cons]; omega

theorem chunksFuel_length {α : Type} (n k fuel : Nat) (xs : List α) (hn : 0 < n) (h : xs.length = n * k) (f : k ≤ fuel) :
    (∀ x ∈ chunksFuel n fuel xs, x.length = n) ∧ (chunksFuel n fuel xs).length = k := by
  induction k generalizing fuel xs with
  | zero =>
    obtain rfl : xs = [] := List.eq_nil_of_length_eq_zero (by simpa using h)
    cases fuel <;> simp [chunksFuel]
  | succ k ih =>
    cases fuel with
    | zero => simp at f
    | succ fuel =>
      cases xs with
      | nil => exact absurd h (by rw [List.length_nil, Nat.mul_succ]; omega)
      | cons x xs =>
        rw [Nat.mul_succ] at h
        have := ih fuel ((x :: xs).drop n) (by rw [List.length_drop, h]; omega) (by omega)
        unfold chunksFuel
        refine ⟨?_, by rw [List.length_cons, this.2]⟩
        intro y hy
        rcases List.mem_cons.1 hy with rfl | hy
        · rw [List.length_take, h]; omega
        · exact this.1 y hy

theorem chunks_length {α : Type} (n k : Nat) (xs : List α) (hn : 0 < n) (h : xs.length = n * k) :
    (∀ x ∈ chunks n xs, x.length = n) ∧ (chunks n xs).length = k :=
  chunksFuel_length n k _ xs hn h (by rw [h]; exact Nat.le_mul_of_pos_left k hn)

/-- A key of 32 bytes has 15 round keys of 16 bytes. -/
theorem aesKeys_length (key : List Byte) (h : key.length = 32) : (∀ k ∈ aesKeys key, k.length = 16) ∧ (aesKeys key).length = 15 := by
  have c := chunks_length 4 8 key (by decide) h
  have e := aesExpand_words 52 8 (chunks 4 key).reverse (fun x hx => c.1 x (by simpa using hx)) (by simp [c.2])
  rw [List.length_reverse, c.2] at e
  refine chunks_length 16 15 _ (by decide) ?_
  rw [flatten_length 4 _ fun x hx => e.1 x (by simpa using hx), List.length_reverse, e.2]

theorem aesRounds_length (ks : List (List Byte)) (s : List Byte) (h : ∀ k ∈ ks, k.length = 16) (n : ks ≠ []) : (aesRounds ks s).length = 16 := by
  induction ks generalizing s with
  | nil => exact absurd rfl n
  | cons k ks ih =>
    cases ks with
    | nil =>
      unfold aesRounds
      rw [xorBytes_length, h k (.head _)]
      rfl
    | cons k2 ks =>
      unfold aesRounds
      exact ih _ (fun x hx => h x (.tail _ hx)) (by simp)

theorem aesBlock_length (key b : List Byte) (h : key.length = 32) : (aesBlock (aesKeys key) b).length = 16 := by
  have := aesKeys_length key h
  unfold aesBlock
  split
  · rename_i e
    rw [e] at this
    exact absurd this.2 (by decide)
  · rename_i k rest e
    rw [e] at this
    refine aesRounds_length _ _ (fun x hx => this.1 x (.tail _ hx)) fun n => ?_
    rw [n] at this
    exact absurd this.2 (by rw [List.length_singleton]; decide)

theorem gcmStream_length (key iv : List Byte) (c n : Nat) (h : key.length = 32) : (gcmStream (aesKeys key) iv c n).length = 16 * n := by
  unfold gcmStream
  rw [flatten_length 16, List.length_map, List.length_range]
  intro x hx
  obtain ⟨i, -, rfl⟩ := List.mem_map.1 hx
  exact aesBlock_length key _ h

/-- The tag of a text has 16 bytes. -/
theorem gcmSeal_tag_length (key iv aad pt : List Byte) (h : key.length = 32) : (gcmSeal key iv aad pt).2.length = 16 := by
  unfold gcmSeal
  rw [xorBytes_length, gcmStream_length _ _ _ _ h]
  simp [toBe]

theorem gcmSeal_text_length (key iv aad pt : List Byte) (h : key.length = 32) : (gcmSeal key iv aad pt).1.length = pt.length := by
  unfold gcmSeal
  simp only [xorBytes_length, gcmStream_length _ _ _ _ h, ceilDiv]
  exact Nat.min_eq_left (by omega)

/-- What was sealed opens to the text. -/
theorem gcmOpen_gcmSeal (key iv aad pt : List Byte) (h : key.length = 32) :
    gcmOpen key iv aad (gcmSeal key iv aad pt).1 (gcmSeal key iv aad pt).2 = some pt := by
  have t := gcmSeal_text_length key iv aad pt h
  unfold gcmOpen
  rw [t]
  refine (if_pos rfl).trans (congrArg some (xorBytes_xorBytes _ _ ?_))
  rw [gcmStream_length _ _ _ _ h]
  simp only [ceilDiv]
  omega

end Sys2Proof.Machine
end

