-- ==== Sys2Proof/Laws/Flit.lean ====
section
/-!
SUPPORT. What a port puts on the line is a sound flit.
-/
namespace Sys2Proof.Machine
open Sys2Proof

/-- A CRC has 32 bits. -/
theorem crc32With_lt (poly : Nat) (hp : poly < 2 ^ 32) (bs : List Byte) : crc32With poly bs < 2 ^ 32 := by
  have step : ∀ (n c : Nat), c < 2 ^ 32 → (List.range n).foldl (fun c _ => if c % 2 = 1 then (c / 2) ^^^ poly else c / 2) c < 2 ^ 32 := by
    intro n
    induction n with
    | zero => intro c h; simpa using h
    | succ n ih =>
      intro c h
      rw [List.range_succ, List.foldl_append]
      simp only [List.foldl_cons, List.foldl_nil]
      have := ih c h
      split
      · exact Nat.xor_lt_two_pow (by omega) hp
      · omega
  have h : ∀ (bs : List Byte) (c : Nat), c < 2 ^ 32 → bs.foldl (crcByte poly) c < 2 ^ 32 := by
    intro bs
    induction bs with
    | nil => intro c h; simpa using h
    | cons b bs ih =>
      intro c h
      refine ih _ (step 8 _ (Nat.xor_lt_two_pow h ?_))
      have := b.isLt
      omega
  exact Nat.xor_lt_two_pow (h bs _ (by decide)) (by decide)

/-- A CRC that stands after the bytes it covers. -/
theorem crcAtEnd (b : List Byte) (n c : Nat) (h : b.length = n) (hc : c < 2 ^ 32) :
    (b ++ toLe 4 c).take n = b ∧ leAt (b ++ toLe 4 c) n 4 = c := by
  subst h
  refine ⟨List.take_left, ?_⟩
  rw [leAt, bytesAt, List.drop_left, List.take_of_length_le (by simp), toLe_length, Nat.sub_self, List.replicate_zero, List.append_nil, ofLe_toLe]
  exact Nat.mod_eq_of_lt hc

theorem bytesAt_length (bs : List Byte) (o n : Nat) : (bytesAt bs o n).length = n := by
  simp only [bytesAt, List.length_append, List.length_take, List.length_drop, List.length_replicate]
  omega

/-- A field that stands after `a` and has b's length is `b`. -/
theorem bytesAt_middle (a b c : List Byte) (o n : Nat) (ho : o = a.length) (hn : n = b.length) : bytesAt (a ++ (b ++ c)) o n = b := by
  subst ho hn
  simp [bytesAt]

/-- The header that a flit was made with is the one it carries, and so is its payload. -/
theorem mkFlit_head (type vc fl seq ackN ackU dest : Nat) (payload : List Byte)
    (ht : type < 16) (hv : vc < 4) (hs : seq < 4096) (ha : ackN < 4096) (hu : ackU < 256) (hd : dest < 4096) :
    leAt (mkFlit type vc fl seq ackN ackU dest payload) 0 8 =
      type + 16 * vc + 64 * (fl % 4) + 2 ^ 8 * seq + 2 ^ 20 * ackN + 2 ^ 32 * ackU + 2 ^ 40 * dest := by
  unfold mkFlit leAt
  rw [List.append_assoc, ← List.nil_append (toLe 8 _ ++ _), bytesAt_middle [] _ _ 0 8 rfl (toLe_length 8 _).symm, ofLe_toLe]
  omega

theorem mkFlit_payload (type vc fl seq ackN ackU dest : Nat) (payload : List Byte) :
    flitPayload (mkFlit type vc fl seq ackN ackU dest payload) = bytesAt payload 0 116 := by
  unfold flitPayload mkFlit
  rw [List.append_assoc]
  exact bytesAt_middle _ _ _ _ _ (toLe_length 8 _).symm (bytesAt_length _ _ _).symm

theorem flitHead_mkFlit (type vc fl seq ackN ackU dest : Nat) (payload : List Byte)
    (ht : type < 16) (hv : vc < 4) (hs : seq < 4096) (ha : ackN < 4096) (hu : ackU < 256) (hd : dest < 4096) :
    flitHead (mkFlit type vc fl seq ackN ackU dest payload) = ⟨type, vc, fl % 4, seq, ackN, ackU, dest⟩ := by
  unfold flitHead
  rw [mkFlit_head _ _ _ _ _ _ _ _ ht hv hs ha hu hd]
  simp only [bits, FlitHead.mk.injEq, Nat.shiftRight_eq_div_pow]
  omega

/-- What a port makes is a sound flit. -/
theorem flitOk_mkFlit (type vc fl seq ackN ackU dest : Nat) (payload : List Byte)
    (ht : type < 6) (hv : vc < 4) (hs : seq < 256) (ha : ackN < 4096) (hu : ackU < 256) (hd : dest < 4096) (h : type = 1 ∨ dest = 0) :
    flitOk (mkFlit type vc fl seq ackN ackU dest payload) = true := by
  have l : (mkFlit type vc fl seq ackN ackU dest payload).length = 128 := by
    simp [mkFlit, bytesAt_length]
  have z : bits (leAt (mkFlit type vc fl seq ackN ackU dest payload) 0 8) 63 52 = 0 := by
    rw [mkFlit_head _ _ _ _ _ _ _ _ (by omega) hv (by omega) ha hu hd]
    simp only [bits, Nat.shiftRight_eq_div_pow]
    omega
  have c : crc32 ((mkFlit type vc fl seq ackN ackU dest payload).take 124) = leAt (mkFlit type vc fl seq ackN ackU dest payload) 124 4 := by
    have := crcAtEnd (toLe 8 (type + 16 * vc + 64 * (fl % 4) + 2 ^ 8 * seq + 2 ^ 20 * ackN + 2 ^ 32 * ackU + 2 ^ 40 * dest) ++
      bytesAt payload 0 116) 124 _ (by simp [bytesAt_length]) (crc32With_lt 0xEDB88320 (by decide) (toLe 8 (type + 16 * vc + 64 * (fl % 4) + 2 ^ 8 * seq +
        2 ^ 20 * ackN + 2 ^ 32 * ackU + 2 ^ 40 * dest) ++ bytesAt payload 0 116))
    unfold mkFlit
    exact (congrArg crc32 this.1).trans this.2.symm
  unfold flitOk
  rw [flitHead_mkFlit _ _ _ _ _ _ _ _ (by omega) hv (by omega) ha hu hd]
  simp only [l, z, beq_self_eq_true, Bool.true_and, Bool.and_true, Bool.and_eq_true, beq_iff_eq, decide_eq_true_eq, Bool.or_eq_true,
    Bool.not_eq_true', hs]
  exact ⟨⟨⟨c, by omega⟩, .inr trivial⟩, h⟩

end Sys2Proof.Machine
end

