-- ==== Sys2Proof/Laws/Issue.lean ====
section
/-!
SUPPORT. The shared operations of the sequencer: when an instruction issues, when it faults, and everything that its command can do.
-/
namespace Sys2Proof.Machine
open Sys2Proof

/-- A command that names a unit of the device answers its next state. -/
theorem noUnit_of {ok : Bool} (h : ok = true) (r : State) : noUnit ok r = .next r := by simp [noUnit, h]

/-- An instruction without a fault issues when its queue has room and no read in flight hinders it. -/
theorem State.issueWith_next (s : State) (p : Nat) (w : W64) (op : Core → KImage → IsaOp) (xf : Core → KImage → Option Xfer)
    (k : KImage) (hk : s.imageOf p = some k) (hi : (s.core p).canIssue = true) (hw : k.code[(s.core p).pc]? = some w)
    (hf : (op (s.core p) k).fault = none) (hd : (s.core p).depth (op (s.core p) k).queue < 16)
    (hl : (s.core p).waitsFor (op (s.core p) k).ranges = false) :
    s.issueWith p w op xf =
      { s.setCore p ((s.core p).issue s.freeCtr (op (s.core p) k) (xf (s.core p) k)) with freeCtr := s.freeCtr + 2 } := by
  simp [State.issueWith, hk, hi, hw, hf, hl, Nat.not_le.mpr hd]

/-- An instruction with a fault stops its core before it. -/
theorem State.issueWith_fault (s : State) (p : Nat) (w : W64) (op : Core → KImage → IsaOp) (xf : Core → KImage → Option Xfer)
    (k : KImage) (cause : Nat) (hk : s.imageOf p = some k) (hi : (s.core p).canIssue = true)
    (hw : k.code[(s.core p).pc]? = some w) (hf : (op (s.core p) k).fault = some cause) :
    s.issueWith p w op xf = s.coreFault p k cause (op (s.core p) k).tile (op (s.core p) k).queue := by
  simp [State.issueWith, hk, hi, hw, hf]

/-- Everything that an instruction's command can do: nothing, the fault of an index past the code, its own fault, or its issue. -/
theorem State.issueWith_cases (s : State) (p : Nat) (w : W64) (op : Core → KImage → IsaOp) (xf : Core → KImage → Option Xfer) :
    s.issueWith p w op xf = s ∨
    (∃ k, s.imageOf p = some k ∧ s.issueWith p w op xf = s.coreFault p k 0x0F 0 5) ∨
    (∃ k cause, s.imageOf p = some k ∧ (op (s.core p) k).fault = some cause ∧
      s.issueWith p w op xf = s.coreFault p k cause (op (s.core p) k).tile (op (s.core p) k).queue) ∨
    (∃ k, s.imageOf p = some k ∧ (op (s.core p) k).fault = none ∧ s.issueWith p w op xf =
      { s.setCore p ((s.core p).issue s.freeCtr (op (s.core p) k) (xf (s.core p) k)) with freeCtr := s.freeCtr + 2 }) := by
  unfold State.issueWith
  dsimp only
  split
  · exact .inl rfl
  · next k hk =>
    split
    · exact .inl rfl
    · split
      · exact .inr (.inl ⟨k, hk, rfl⟩)
      · split
        · exact .inl rfl
        · split
          · next c hc => exact .inr (.inr (.inl ⟨k, c, hk, hc, rfl⟩))
          · next hc =>
            split
            · exact .inl rfl
            · exact .inr (.inr (.inr ⟨k, hk, hc, rfl⟩))

/-- A synchronising instruction without a fault moves the core on and sets what stops issue. -/
theorem State.issueSync_next (s : State) (p : Nat) (w : W64) (checks : Core → List FaultCheck) (stall : Core → Stall) (k : KImage)
    (hk : s.imageOf p = some k) (hi : (s.core p).canIssue = true) (hw : k.code[(s.core p).pc]? = some w)
    (hf : (IsaOp.mk 5 (checks (s.core p)) [] 0 0 (fun _ c => c)).fault = none) :
    s.issueSync p w checks stall = s.setCore p { s.core p with
      pc := (s.core p).pc + 1, issued := ((s.core p).issued + 1) % 2 ^ 64, stall := stall (s.core p) } := by
  simp [State.issueSync, hk, hi, hw, hf]

/-- A fault is raised only by a check whose condition holds or by a range outside local scratch. -/
theorem IsaOp.fault_none (o : IsaOp) (h : ∀ k ∈ o.checks, k.bad = false) (hr : rangesBad o.ranges = false) : o.fault = none := by
  unfold IsaOp.fault
  have : ((o.checks ++ [FaultCheck.mk (rangesBad o.ranges) 0x0D]).filterMap
      fun (k : FaultCheck) => if k.bad then some k.cause else none) = [] := by
    rw [List.filterMap_eq_nil_iff]
    intro k hk
    rw [List.mem_append] at hk
    rcases hk with hk | hk
    · simp [h k hk]
    · simp at hk; subst hk; simp [hr]
  rw [this]
  rfl

end Sys2Proof.Machine
end

