-- ==== Sys2Proof/Laws/Kept.lean ====
section
/-!
SUPPORT. What every operation of the device leaves alone: the fuses and the queue of commands. One lemma per operation, so that a
statement about every command needs none of their texts; then the few operations that burn fuses.
-/
namespace Sys2Proof.Machine
open Sys2Proof

/-- The step leaves the fuses and the queue of commands as they are. -/
def Keeps (o : Out) (s : State) : Prop := ∀ t, o = .next t → t.fuses = s.fuses ∧ t.pending = s.pending
@[simp] theorem keeps_next (s t : State) : Keeps (.next t) s ↔ t.fuses = s.fuses ∧ t.pending = s.pending := by
  simp [Keeps, eq_comm]
@[simp] theorem keeps_fault (s : State) (r : Fault) : Keeps (.fault r) s := by simp [Keeps]
@[simp] theorem keeps_noUnit (b : Bool) (r s : State) :
    Keeps (noUnit b r) s ↔ (b = true → r.fuses = s.fuses ∧ r.pending = s.pending) := by
  unfold noUnit; split <;> simp_all
@[simp] theorem keeps_onSet (h : Head) (r s : State) :
    Keeps (onSet h r) s ↔ (h.set < 16 → r.fuses = s.fuses ∧ r.pending = s.pending) := by
  unfold onSet; simp
@[simp] theorem keeps_onCtx (c : Nat) (r s : State) :
    Keeps (onCtx c r) s ↔ (c < 16 → r.fuses = s.fuses ∧ r.pending = s.pending) := by
  unfold onCtx; simp
@[simp] theorem foldl_kept {α : Type} (f : State → α → State) (l : List α) (s : State)
    (h : ∀ (s : State) (a : α), (f s a).fuses = s.fuses ∧ (f s a).pending = s.pending) :
    (l.foldl f s).fuses = s.fuses ∧ (l.foldl f s).pending = s.pending := by
  induction l generalizing s with
  | nil => exact ⟨rfl, rfl⟩
  | cons a l ih => simp [ih, h]
@[simp] theorem foldl_kept1 {α β : Type} (f : State × β → α → State × β) (l : List α) (s : State × β)
    (h : ∀ (s : State × β) (a : α), (f s a).1.fuses = s.1.fuses ∧ (f s a).1.pending = s.1.pending) :
    (l.foldl f s).1.fuses = s.1.fuses ∧ (l.foldl f s).1.pending = s.1.pending := by
  induction l generalizing s with
  | nil => exact ⟨rfl, rfl⟩
  | cons a l ih => simp [ih, h]
@[simp] theorem ite_fuses (c : Prop) [Decidable c] (a b : State) : (if c then a else b).fuses = if c then a.fuses else b.fuses := by
  split <;> rfl
@[simp] theorem ite_pending (c : Prop) [Decidable c] (a b : State) : (if c then a else b).pending = if c then a.pending else b.pending := by
  split <;> rfl
@[simp] theorem keeps_ite (c : Prop) [Decidable c] (a b : Out) (s : State) (ha : Keeps a s) (hb : Keeps b s) : Keeps (if c then a else b) s := by
  split <;> assumption
theorem foldl_kept_from {α : Type} (f : State → α → State) (l : List α) (s u : State)
    (h : ∀ (s : State) (a : α), (f s a).fuses = s.fuses ∧ (f s a).pending = s.pending)
    (h0 : s.fuses = u.fuses ∧ s.pending = u.pending) :
    (l.foldl f s).fuses = u.fuses ∧ (l.foldl f s).pending = u.pending :=
  ⟨((foldl_kept f l s h).1).trans h0.1, ((foldl_kept f l s h).2).trans h0.2⟩
theorem Keeps.trans_kept {o : Out} {s u : State} (h : Keeps o s) (hu : s.fuses = u.fuses ∧ s.pending = u.pending) : Keeps o u :=
  fun t ht => ⟨(h t ht).1.trans hu.1, (h t ht).2.trans hu.2⟩


@[simp] theorem State.setHalf_kept (s : State) (h : Nat) (x : Half) : ((State.setHalf s h x).fuses = s.fuses ∧
    (State.setHalf s h x).pending = s.pending) := by
  unfold State.setHalf; simp [*]

@[simp] theorem State.onHalves_kept (s : State) (mask : Nat) (f : Nat → Half → Half) : ((State.onHalves s mask
    f).fuses = s.fuses ∧ (State.onHalves s mask f).pending = s.pending) := by
  unfold State.onHalves; simp [*]

@[simp] theorem State.setCore_kept (s : State) (p : Nat) (c : Core) : ((State.setCore s p c).fuses = s.fuses ∧
    (State.setCore s p c).pending = s.pending) := by
  unfold State.setCore; simp [*]

@[simp] theorem State.onCores_kept (s : State) (sel : Nat → Bool) (f : Nat → Core → Core) : ((State.onCores s sel
    f).fuses = s.fuses ∧ (State.onCores s sel f).pending = s.pending) := by
  unfold State.onCores; simp [*]

@[simp] theorem State.setRing_kept (s : State) (c : Nat) (r : RingSet) : ((State.setRing s c r).fuses = s.fuses ∧
    (State.setRing s c r).pending = s.pending) := by
  unfold State.setRing; simp [*]

@[simp] theorem State.setJob_kept (s : State) (c : Nat) (j : Job) : ((State.setJob s c j).fuses = s.fuses ∧
    (State.setJob s c j).pending = s.pending) := by
  unfold State.setJob; simp [*]

@[simp] theorem State.onJob_kept (s : State) (c : Nat) (f : Job → Job) : ((State.onJob s c f).fuses = s.fuses ∧
    (State.onJob s c f).pending = s.pending) := by
  unfold State.onJob; (repeat' split) <;> simp [*]

@[simp] theorem State.dropJob_kept (s : State) (c : Nat) : ((State.dropJob s c).fuses = s.fuses ∧ (State.dropJob s
    c).pending = s.pending) := by
  unfold State.dropJob; simp [*]

@[simp] theorem State.setCtx_kept (s : State) (c : Nat) (x : Ctx) : ((State.setCtx s c x).fuses = s.fuses ∧
    (State.setCtx s c x).pending = s.pending) := by
  unfold State.setCtx; simp [*]

@[simp] theorem State.setLpx_kept (s : State) (i : Nat) (x : Lpx) : ((State.setLpx s i x).fuses = s.fuses ∧
    (State.setLpx s i x).pending = s.pending) := by
  unfold State.setLpx; simp [*]

@[simp] theorem State.setsBit_kept (s : State) (ofs : Nat) : ((State.setsBit s ofs).fuses = s.fuses ∧ (State.setsBit
    s ofs).pending = s.pending) := by
  unfold State.setsBit; simp [*]

@[simp] theorem State.postWith_kept (s : State) (c : Nat) (source : Nat) (code : Nat) (status : Nat) (payload : List
    Byte) (replay : Bool) : ((State.postWith s c source code status payload replay).fuses = s.fuses ∧
    (State.postWith s c source code status payload replay).pending = s.pending) := by
  unfold State.postWith; simp [*]

@[simp] theorem State.postJob_kept (s : State) (c : Nat) (code : Nat) (status : Nat) (payload : List Byte) :
    ((State.postJob s c code status payload).fuses = s.fuses ∧ (State.postJob s c code status payload).pending =
    s.pending) := by
  unfold State.postJob; simp [*]

@[simp] theorem State.postDev_kept (s : State) (source : Nat) (code : Nat) (status : Nat) (payload : List Byte) :
    ((State.postDev s source code status payload).fuses = s.fuses ∧ (State.postDev s source code status
    payload).pending = s.pending) := by
  unfold State.postDev; simp [*]

@[simp] theorem State.hostWrite_kept (s : State) (a : Nat) (bs : List Byte) : ((State.hostWrite s a bs).fuses =
    s.fuses ∧ (State.hostWrite s a bs).pending = s.pending) := by
  unfold State.hostWrite; simp [*]

@[simp] theorem State.logError_kept (s : State) (r : ErrRec) : ((State.logError s r).fuses = s.fuses ∧
    (State.logError s r).pending = s.pending) := by
  unfold State.logError; simp [*]

@[simp] theorem State.logKind_kept (s : State) (source : Nat) (kind : Nat) (cls : Nat) (status : Nat) (ctx : Nat)
    (addr : Nat) (detail : Nat) : ((State.logKind s source kind cls status ctx addr detail).fuses = s.fuses ∧
    (State.logKind s source kind cls status ctx addr detail).pending = s.pending) := by
  unfold State.logKind; simp [*]

@[simp] theorem State.answer_kept (s : State) (bs : List Byte) : ((State.answer s bs).fuses = s.fuses ∧
    (State.answer s bs).pending = s.pending) := by
  unfold State.answer; simp [*]

@[simp] theorem State.tick1_kept (s : State) : ((State.tick1 s).fuses = s.fuses ∧ (State.tick1 s).pending = s.pending) := by
  unfold State.tick1; simp [*]

@[simp] theorem State.putRecord_kept (s : State) (set : Nat) (which : Nat) (rec : List Byte) : ((State.putRecord s
    set which rec).fuses = s.fuses ∧ (State.putRecord s set which rec).pending = s.pending) := by
  unfold State.putRecord; simp [*]

@[simp] theorem State.putWriteback_kept (s : State) (set : Nat) : ((State.putWriteback s set).fuses = s.fuses ∧
    (State.putWriteback s set).pending = s.pending) := by
  unfold State.putWriteback; simp [*]

@[simp] theorem State.signal_kept (s : State) (vec : Nat) : ((State.signal s vec).fuses = s.fuses ∧ (State.signal s
    vec).pending = s.pending) := by
  unfold State.signal; simp [*]

@[simp] theorem State.recordIrq_kept (s : State) (set : Nat) (which : Nat) : ((State.recordIrq s set which).fuses =
    s.fuses ∧ (State.recordIrq s set which).pending = s.pending) := by
  unfold State.recordIrq; simp [*]

@[simp] theorem State.setRingState_kept (s : State) (set : Nat) (st : Nat) : ((State.setRingState s set st).fuses =
    s.fuses ∧ (State.setRingState s set st).pending = s.pending) := by
  unfold State.setRingState; simp [*]

@[simp] theorem State.writeCpl_kept (s : State) (h : Head) (opcode : Nat) (c : Cpl) : ((State.writeCpl s h opcode
    c).fuses = s.fuses ∧ (State.writeCpl s h opcode c).pending = s.pending) := by
  unfold State.writeCpl; simp [*]

@[simp] theorem State.sendMsg_kept (s : State) (c : Nat) (kind : Nat) (vc : Nat) (dest : Nat) (body : List Byte) :
    ((State.sendMsg s c kind vc dest body).fuses = s.fuses ∧ (State.sendMsg s c kind vc dest body).pending =
    s.pending) := by
  unfold State.sendMsg; simp [*]

@[simp] theorem State.sendJob_kept (s : State) (c : Nat) (kind : Nat) (body : List Byte) : ((State.sendJob s c kind
    body).fuses = s.fuses ∧ (State.sendJob s c kind body).pending = s.pending) := by
  unfold State.sendJob; (repeat' split) <;> simp [*]

@[simp] theorem State.lpxWrite_kept (s : State) (dpa : Nat) (kind : Nat) (bs : List Byte) : ((State.lpxWrite s dpa
    kind bs).fuses = s.fuses ∧ (State.lpxWrite s dpa kind bs).pending = s.pending) := by
  unfold State.lpxWrite; simp [*]

@[simp] theorem State.lpxZero_kept (s : State) (dpa : Nat) (n : Nat) : ((State.lpxZero s dpa n).fuses = s.fuses ∧
    (State.lpxZero s dpa n).pending = s.pending) := by
  unfold State.lpxZero; simp [*]

@[simp] theorem State.postDenied_kept (s : State) (c : Nat) (dpa : Nat) : ((State.postDenied s c dpa).fuses =
    s.fuses ∧ (State.postDenied s c dpa).pending = s.pending) := by
  unfold State.postDenied; simp [*]

@[simp] theorem State.tickLpx_kept (s : State) (h : Nat) : ((State.tickLpx s h).fuses = s.fuses ∧ (State.tickLpx s
    h).pending = s.pending) := by
  unfold State.tickLpx; simp [*]

@[simp] theorem State.tickHalf_kept (s : State) (h : Nat) : ((State.tickHalf s h).fuses = s.fuses ∧ (State.tickHalf
    s h).pending = s.pending) := by
  unfold State.tickHalf; dsimp only; (repeat' split) <;> simp [*]

@[simp] theorem State.postThrottle_kept (s : State) (h : Nat) (old : Nat) (new : Nat) (causes : Nat) :
    ((State.postThrottle s h old new causes).fuses = s.fuses ∧ (State.postThrottle s h old new causes).pending =
    s.pending) := by
  unfold State.postThrottle; simp [*]

@[simp] theorem State.throttleInterval_kept (s : State) (h : Nat) : ((State.throttleInterval s h).fuses = s.fuses ∧
    (State.throttleInterval s h).pending = s.pending) := by
  unfold State.throttleInterval; dsimp only; (repeat' split) <;> simp [*]

@[simp] theorem State.tick_kept (s : State) : ((State.tick s).fuses = s.fuses ∧ (State.tick s).pending = s.pending) := by
  unfold State.tick; simp [*]

@[simp] theorem State.setPort_kept (s : State) (p : Nat) (x : Port) : ((State.setPort s p x).fuses = s.fuses ∧
    (State.setPort s p x).pending = s.pending) := by
  unfold State.setPort; simp [*]

@[simp] theorem State.takeSnap_kept (s : State) (h : Nat) : ((State.takeSnap s h).fuses = s.fuses ∧ (State.takeSnap
    s h).pending = s.pending) := by
  unfold State.takeSnap; simp [*]

@[simp] theorem State.takeSnaps_kept (s : State) (mask : Nat) : ((State.takeSnaps s mask).fuses = s.fuses ∧
    (State.takeSnaps s mask).pending = s.pending) := by
  unfold State.takeSnaps; simp [*]

@[simp] theorem State.ringError_kept (s : State) (set : Nat) (which : Nat) (err : Nat) (v : Nat) : ((State.ringError
    s set which err v).fuses = s.fuses ∧ (State.ringError s set which err v).pending = s.pending) := by
  unfold State.ringError; simp [*]

@[simp] theorem State.observeCmd_kept (s : State) (set : Nat) (v : Nat) : ((State.observeCmd s set v).fuses =
    s.fuses ∧ (State.observeCmd s set v).pending = s.pending) := by
  unfold State.observeCmd; simp [*]

@[simp] theorem State.observeCi_kept (s : State) (set : Nat) (which : Nat) (v : Nat) : ((State.observeCi s set which
    v).fuses = s.fuses ∧ (State.observeCi s set which v).pending = s.pending) := by
  unfold State.observeCi; simp [*]

@[simp] theorem State.postLost_kept (s : State) (set : Nat) : ((State.postLost s set).fuses = s.fuses ∧
    (State.postLost s set).pending = s.pending) := by
  unfold State.postLost; simp [*]

@[simp] theorem State.observeAll_kept (s : State) (set : Nat) (vs : List Nat) : ((State.observeAll s set vs).fuses =
    s.fuses ∧ (State.observeAll s set vs).pending = s.pending) := by
  unfold State.observeAll; simp [*]

@[simp] theorem State.haltRing_kept (s : State) (set : Nat) (err : Nat) : ((State.haltRing s set err).fuses =
    s.fuses ∧ (State.haltRing s set err).pending = s.pending) := by
  unfold State.haltRing; simp [*]

@[simp] theorem State.completeEnd_kept (s : State) (h : Head) (opcode : Nat) (c : Cpl) : ((State.completeEnd s h
    opcode c).fuses = s.fuses ∧ (State.completeEnd s h opcode c).pending = s.pending) := by
  unfold State.completeEnd; simp [*]

@[simp] theorem State.startDump_kept (s : State) (c : DumpCause) : ((State.startDump s c).fuses = s.fuses ∧
    (State.startDump s c).pending = s.pending) := by
  unfold State.startDump; simp [*]

@[simp] theorem State.postDomain_kept (s : State) (pd : Nat) (on : Nat) : ((State.postDomain s pd on).fuses =
    s.fuses ∧ (State.postDomain s pd on).pending = s.pending) := by
  unfold State.postDomain; simp [*]

@[simp] theorem State.setTiles_kept (s : State) (ts : List Nat) (v : Nat) : ((State.setTiles s ts v).fuses = s.fuses
    ∧ (State.setTiles s ts v).pending = s.pending) := by
  unfold State.setTiles; simp [*]

@[simp] theorem State.domainOff_kept (s : State) (pd : Nat) : ((State.domainOff s pd).fuses = s.fuses ∧
    (State.domainOff s pd).pending = s.pending) := by
  unfold State.domainOff; simp [*]

@[simp] theorem State.mossIdle_kept (s : State) : ((State.mossIdle s).fuses = s.fuses ∧ (State.mossIdle s).pending =
    s.pending) := by
  unfold State.mossIdle; simp [*]

@[simp] theorem State.clearRegions_kept (s : State) (sel : MRegion → Bool) : ((State.clearRegions s sel).fuses =
    s.fuses ∧ (State.clearRegions s sel).pending = s.pending) := by
  unfold State.clearRegions; simp [*]

@[simp] theorem State.failMoss_kept (s : State) (c : Nat) (status : Nat) : ((State.failMoss s c status).fuses =
    s.fuses ∧ (State.failMoss s c status).pending = s.pending) := by
  unfold State.failMoss; simp [*]

@[simp] theorem State.mark_kept (s : State) (m : Mark) : ((State.mark s m).fuses = s.fuses ∧ (State.mark s
    m).pending = s.pending) := by
  unfold State.mark; simp [*]

@[simp] theorem State.endCounts_kept (s : State) (halves : Nat) : ((State.endCounts s halves).fuses = s.fuses ∧
    (State.endCounts s halves).pending = s.pending) := by
  unfold State.endCounts; simp [*]

@[simp] theorem State.endRing_kept (s : State) (c : Nat) : ((State.endRing s c).fuses = s.fuses ∧ (State.endRing s
    c).pending = s.pending) := by
  unfold State.endRing; simp [*]

@[simp] theorem State.dropStreams_kept (s : State) (c : Nat) : ((State.dropStreams s c).fuses = s.fuses ∧
    (State.dropStreams s c).pending = s.pending) := by
  unfold State.dropStreams; simp [*]

@[simp] theorem State.windJob_kept (s : State) (c : Nat) (status : Nat) (j : Job) : ((State.windJob s c status
    j).fuses = s.fuses ∧ (State.windJob s c status j).pending = s.pending) := by
  unfold State.windJob; simp [*]

@[simp] theorem State.endJob_kept (s : State) (c : Nat) (status : Nat) : ((State.endJob s c status).fuses = s.fuses
    ∧ (State.endJob s c status).pending = s.pending) := by
  unfold State.endJob; (repeat' split) <;> simp [*]

@[simp] theorem State.endAll_kept (s : State) (status : Nat) : ((State.endAll s status).fuses = s.fuses ∧
    (State.endAll s status).pending = s.pending) := by
  unfold State.endAll; simp [*]

@[simp] theorem State.endHalves_kept (s : State) (mask : Nat) (status : Nat) : ((State.endHalves s mask
    status).fuses = s.fuses ∧ (State.endHalves s mask status).pending = s.pending) := by
  unfold State.endHalves
  (try dsimp only)
  (repeat' split)
  all_goals first
    | (simp [*]; done)
    | (refine foldl_kept_from _ _ _ _ ?_ (by simp [*]); intro s a; (try dsimp only); (repeat' split) <;> simp [*]; done)

@[simp] theorem State.ringFault_kept (s : State) (set : Nat) (err : Nat) : ((State.ringFault s set err).fuses =
    s.fuses ∧ (State.ringFault s set err).pending = s.pending) := by
  unfold State.ringFault; simp [*]

@[simp] theorem State.complete_kept (s : State) (h : Head) (opcode : Nat) (c : Cpl) : ((State.complete s h opcode
    c).fuses = s.fuses ∧ (State.complete s h opcode c).pending = s.pending) := by
  unfold State.complete; simp [*]

@[simp] theorem State.done_kept (s : State) (h : Head) (opcode : Nat) (status : Nat) (result : Nat) : ((State.done s
    h opcode status result).fuses = s.fuses ∧ (State.done s h opcode status result).pending = s.pending) := by
  unfold State.done; simp [*]

@[simp] theorem State.jobFatal_kept (s : State) (c : Nat) (source : Nat) (kind : Nat) (status : Nat) (addr : Nat)
    (detail : Nat) : ((State.jobFatal s c source kind status addr detail).fuses = s.fuses ∧ (State.jobFatal s c
    source kind status addr detail).pending = s.pending) := by
  unfold State.jobFatal; simp [*]

@[simp] theorem State.postUe_kept (s : State) (c : Nat) (source : Nat) (kind : Nat) (lineKind : Nat) (unit : Nat)
    (addr : Nat) : ((State.postUe s c source kind lineKind unit addr).fuses = s.fuses ∧ (State.postUe s c source
    kind lineKind unit addr).pending = s.pending) := by
  unfold State.postUe; simp [*]

@[simp] theorem State.raiseAlert_kept (s : State) (v : Nat) : ((State.raiseAlert s v).fuses = s.fuses ∧
    (State.raiseAlert s v).pending = s.pending) := by
  unfold State.raiseAlert; simp [*]

@[simp] theorem State.assertFatal_kept (s : State) : ((State.assertFatal s).fuses = s.fuses ∧ (State.assertFatal
    s).pending = s.pending) := by
  unfold State.assertFatal; simp [*]

@[simp] theorem State.deviceFatal_kept (s : State) (source : Nat) (kind : Nat) (status : Nat) (flags : Nat) :
    ((State.deviceFatal s source kind status flags).fuses = s.fuses ∧ (State.deviceFatal s source kind status
    flags).pending = s.pending) := by
  unfold State.deviceFatal; simp [*]

@[simp] theorem State.controlUe_kept (s : State) (h : Nat) : ((State.controlUe s h).fuses = s.fuses ∧
    (State.controlUe s h).pending = s.pending) := by
  unfold State.controlUe; simp [*]

@[simp] theorem State.countCe_kept (s : State) (c : Nat) (type : Nat) (unit : Nat) (limit : Nat) (source : Nat) :
    ((State.countCe s c type unit limit source).fuses = s.fuses ∧ (State.countCe s c type unit limit source).pending
    = s.pending) := by
  unfold State.countCe; simp [*]

@[simp] theorem State.sramCe_kept (s : State) (slice : Nat) : ((State.sramCe s slice).fuses = s.fuses ∧
    (State.sramCe s slice).pending = s.pending) := by
  unfold State.sramCe; simp [*]

@[simp] theorem State.coreCe_kept (s : State) (p : Nat) : ((State.coreCe s p).fuses = s.fuses ∧ (State.coreCe s
    p).pending = s.pending) := by
  unfold State.coreCe; simp [*]

@[simp] theorem State.lpxCe_kept (s : State) (dpa : Nat) : ((State.lpxCe s dpa).fuses = s.fuses ∧ (State.lpxCe s
    dpa).pending = s.pending) := by
  unfold State.lpxCe; simp [*]

@[simp] theorem State.sramUe_kept (s : State) (slice : Nat) (at_ : Nat) : ((State.sramUe s slice at_).fuses =
    s.fuses ∧ (State.sramUe s slice at_).pending = s.pending) := by
  unfold State.sramUe; simp [*]

@[simp] theorem State.coreUe_kept (s : State) (p : Nat) (at_ : Nat) : ((State.coreUe s p at_).fuses = s.fuses ∧
    (State.coreUe s p at_).pending = s.pending) := by
  unfold State.coreUe; simp [*]

@[simp] theorem State.mossUe_kept (s : State) (c : Nat) (tile : Nat) (at_ : Nat) : ((State.mossUe s c tile
    at_).fuses = s.fuses ∧ (State.mossUe s c tile at_).pending = s.pending) := by
  unfold State.mossUe; simp [*]

@[simp] theorem State.enterUe_kept (s : State) (dpa : Nat) : ((State.enterUe s dpa).fuses = s.fuses ∧ (State.enterUe
    s dpa).pending = s.pending) := by
  unfold State.enterUe; dsimp only; (repeat' split) <;> simp [*]

@[simp] theorem State.lpxUe_kept (s : State) (c : Nat) (dpa : Nat) : ((State.lpxUe s c dpa).fuses = s.fuses ∧
    (State.lpxUe s c dpa).pending = s.pending) := by
  unfold State.lpxUe; simp [*]

@[simp] theorem State.coreFault_kept (s : State) (p : Nat) (k : KImage) (cause : Nat) (tile : Nat) (unit : Nat) :
    ((State.coreFault s p k cause tile unit).fuses = s.fuses ∧ (State.coreFault s p k cause tile unit).pending =
    s.pending) := by
  unfold State.coreFault; simp [*]

@[simp] theorem State.issueWith_kept (s : State) (p : Nat) (w : W64) (op : Core → KImage → IsaOp) (xf : Core →
    KImage → Option Xfer) : ((State.issueWith s p w op xf).fuses = s.fuses ∧ (State.issueWith s p w op xf).pending =
    s.pending) := by
  unfold State.issueWith; dsimp only; (repeat' split) <;> simp [*]

@[simp] theorem State.issueOp_kept (s : State) (p : Nat) (w : W64) (op : Core → KImage → IsaOp) : ((State.issueOp s
    p w op).fuses = s.fuses ∧ (State.issueOp s p w op).pending = s.pending) := by
  unfold State.issueOp; simp [*]

@[simp] theorem State.illegal_kept (s : State) (p : Nat) (w : W64) : ((State.illegal s p w).fuses = s.fuses ∧
    (State.illegal s p w).pending = s.pending) := by
  unfold State.illegal; dsimp only; (repeat' split) <;> simp [*]

@[simp] theorem execInstrComplete_kept (p : Nat) (queue : Nat) (e : Ecc) (s : State) : Keeps (execInstrComplete p
    queue e s) s := by
  unfold execInstrComplete; (repeat' split) <;> simp [*]

@[simp] theorem execWaitRelease_kept (p : Nat) (s : State) : Keeps (execWaitRelease p s) s := by
  unfold execWaitRelease; dsimp only; (repeat' split) <;> simp [*]

@[simp] theorem execXfenceRelease_kept (p : Nat) (s : State) : Keeps (execXfenceRelease p s) s := by
  unfold execXfenceRelease; dsimp only; (repeat' split) <;> simp [*]

@[simp] theorem execIllegalInstruction_kept (p : Nat) (w : W64) (s : State) : Keeps (execIllegalInstruction p w s) s := by
  unfold execIllegalInstruction; simp [*]

@[simp] theorem execXrd_kept (p : Nat) (f : XbFields) (s : State) : Keeps (execXrd p f s) s := by
  unfold execXrd; simp [*]

@[simp] theorem execXwr_kept (p : Nat) (f : XbFields) (s : State) : Keeps (execXwr p f s) s := by
  unfold execXwr; simp [*]

@[simp] theorem execXred_kept (p : Nat) (f : XbFields) (s : State) : Keeps (execXred p f s) s := by
  unfold execXred; simp [*]

@[simp] theorem execXbSlotExecute_kept (p : Nat) (s : State) : Keeps (execXbSlotExecute p s) s := by
  unfold execXbSlotExecute; dsimp only; (repeat' split) <;> simp [*]

@[simp] theorem State.setAcc_kept (s : State) (n : Nat) (i : Nat) (a : ExactAcc) : ((State.setAcc s n i a).fuses =
    s.fuses ∧ (State.setAcc s n i a).pending = s.pending) := by
  unfold State.setAcc; simp [*]

@[simp] theorem State.readAccs_kept (s : State) (x : Xfer) (k : Nat) : ((State.readAccs s x k).2.fuses = s.fuses ∧
    (State.readAccs s x k).2.pending = s.pending) := by
  unfold State.readAccs; simp [*]

@[simp] theorem State.addAccs_kept (s : State) (x : Xfer) (k : Nat) : ((State.addAccs s x k).fuses = s.fuses ∧
    (State.addAccs s x k).pending = s.pending) := by
  unfold State.addAccs; simp [*]

@[simp] theorem State.sliceSlot_kept (s : State) (x : Xfer) (k : Nat) : ((State.sliceSlot s x k).2.fuses = s.fuses ∧
    (State.sliceSlot s x k).2.pending = s.pending) := by
  unfold State.sliceSlot; (repeat' split) <;> simp [*]

@[simp] theorem State.accessSlot_kept (s : State) (p : Nat) : ((State.accessSlot s p).fuses = s.fuses ∧
    (State.accessSlot s p).pending = s.pending) := by
  unfold State.accessSlot; (repeat' split) <;> simp [*]

@[simp] theorem execXbSliceAccess_kept (p : Nat) (e : Ecc) (s : State) : Keeps (execXbSliceAccess p e s) s := by
  unfold execXbSliceAccess; (repeat' split) <;> simp [*]

@[simp] theorem execXbDataLand_kept (p : Nat) (s : State) : Keeps (execXbDataLand p s) s := by
  unfold execXbDataLand; dsimp only; (repeat' split) <;> simp [*]

@[simp] theorem execXbAck_kept (p : Nat) (s : State) : Keeps (execXbAck p s) s := by
  unfold execXbAck; simp [*]

@[simp] theorem execRawPartials_kept (slice : Nat) (acc : Nat) (images : List (List Byte)) (s : State) : Keeps
    (execRawPartials slice acc images s) s := by
  unfold execRawPartials; simp [*]

@[simp] theorem State.endComplete_kept (s : State) (e : Event) : ((State.endComplete s e).fuses = s.fuses ∧
    (State.endComplete s e).pending = s.pending) := by
  unfold State.endComplete; simp [*]

@[simp] theorem State.writeEvent_kept (s : State) (set : Nat) (e : Event) : ((State.writeEvent s set e).fuses =
    s.fuses ∧ (State.writeEvent s set e).pending = s.pending) := by
  unfold State.writeEvent; simp [*]

@[simp] theorem State.deliver_kept (s : State) (e : Event) : ((State.deliver s e).fuses = s.fuses ∧ (State.deliver s
    e).pending = s.pending) := by
  unfold State.deliver; simp [*]

@[simp] theorem State.releaseEvents_kept (s : State) (reported : Nat) : ((State.releaseEvents s reported).fuses =
    s.fuses ∧ (State.releaseEvents s reported).pending = s.pending) := by
  unfold State.releaseEvents; simp [*]

@[simp] theorem State.flushHeld0_kept (s : State) : ((State.flushHeld0 s).fuses = s.fuses ∧ (State.flushHeld0
    s).pending = s.pending) := by
  unfold State.flushHeld0; simp [*]

@[simp] theorem State.activate_kept (s : State) (set : Nat) : ((State.activate s set).fuses = s.fuses ∧
    (State.activate s set).pending = s.pending) := by
  unfold State.activate; simp [*]

@[simp] theorem State.pauseRing_kept (s : State) (c : Nat) : ((State.pauseRing s c).fuses = s.fuses ∧
    (State.pauseRing s c).pending = s.pending) := by
  unfold State.pauseRing; simp [*]

@[simp] theorem State.resumeRing_kept (s : State) (c : Nat) : ((State.resumeRing s c).fuses = s.fuses ∧
    (State.resumeRing s c).pending = s.pending) := by
  unfold State.resumeRing; simp [*]

@[simp] theorem State.pauseRings_kept (s : State) : ((State.pauseRings s).fuses = s.fuses ∧ (State.pauseRings
    s).pending = s.pending) := by
  unfold State.pauseRings; simp [*]

@[simp] theorem State.resumeRings_kept (s : State) : ((State.resumeRings s).fuses = s.fuses ∧ (State.resumeRings
    s).pending = s.pending) := by
  unfold State.resumeRings; simp [*]

@[simp] theorem State.barGate_kept (s : State) (held : List HeldAccess) (ofs : Nat) (k : State → State) (hk : ∀ (y0
    : State), ((k y0).fuses = y0.fuses ∧ (k y0).pending = y0.pending)) : ((State.barGate s held ofs k).fuses =
    s.fuses ∧ (State.barGate s held ofs k).pending = s.pending) := by
  unfold State.barGate; simp [*]

@[simp] theorem State.barWrite32_kept (s : State) (ofs : Nat) (v : W32) (k : State → State) (hk : ∀ (y0 : State),
    ((k y0).fuses = y0.fuses ∧ (k y0).pending = y0.pending)) : ((State.barWrite32 s ofs v k).fuses = s.fuses ∧
    (State.barWrite32 s ofs v k).pending = s.pending) := by
  unfold State.barWrite32; simp [*]

@[simp] theorem State.hdmDeny_kept (s : State) : ((State.hdmDeny s).fuses = s.fuses ∧ (State.hdmDeny s).pending =
    s.pending) := by
  unfold State.hdmDeny; simp [*]

@[simp] theorem State.hdmPoison_kept (s : State) (w : Nat) : ((State.hdmPoison s w).fuses = s.fuses ∧
    (State.hdmPoison s w).pending = s.pending) := by
  unfold State.hdmPoison; simp [*]

@[simp] theorem State.hdmBedWrite_kept (s : State) (c : Nat) (b : Nat) (o : Nat) (bs : List Byte) :
    ((State.hdmBedWrite s c b o bs).fuses = s.fuses ∧ (State.hdmBedWrite s c b o bs).pending = s.pending) := by
  unfold State.hdmBedWrite; (repeat' split) <;> simp [*]

@[simp] theorem State.hdmWriteNow_kept (s : State) (w : Nat) (bs : List Byte) (poison : Bool) : ((State.hdmWriteNow
    s w bs poison).fuses = s.fuses ∧ (State.hdmWriteNow s w bs poison).pending = s.pending) := by
  unfold State.hdmWriteNow; simp [*]

@[simp] theorem State.hdmReadNow_kept (s : State) (w : Nat) (n : Nat) (e : Ecc) : ((State.hdmReadNow s w n e).fuses
    = s.fuses ∧ (State.hdmReadNow s w n e).pending = s.pending) := by
  unfold State.hdmReadNow; (repeat' split) <;> simp [*]

@[simp] theorem execHdmWrite_kept (offset : Nat) (data : List Byte) (poison : Bool) (s : State) : Keeps
    (execHdmWrite offset data poison s) s := by
  unfold execHdmWrite; simp [*]

@[simp] theorem execHdmRead_kept (offset : Nat) (size : Nat) (e : Ecc) (s : State) : Keeps (execHdmRead offset size
    e s) s := by
  unfold execHdmRead; simp [*]

@[simp] theorem State.measure_kept (s : State) (kind : Nat) : ((State.measure s kind).fuses = s.fuses ∧
    (State.measure s kind).pending = s.pending) := by
  unfold State.measure; simp [*]

@[simp] theorem State.askRandom_kept (s : State) (r : RandReq) : ((State.askRandom s r).fuses = s.fuses ∧
    (State.askRandom s r).pending = s.pending) := by
  unfold State.askRandom; simp [*]

@[simp] theorem State.askNonce_kept (s : State) : ((State.askNonce s).fuses = s.fuses ∧ (State.askNonce s).pending =
    s.pending) := by
  unfold State.askNonce; simp [*]

@[simp] theorem State.remap_kept (s : State) : ((State.remap s).fuses = s.fuses ∧ (State.remap s).pending = s.pending) := by
  unfold State.remap; simp [*]

@[simp] theorem State.checkDegraded_kept (s : State) (h : Nat) : ((State.checkDegraded s h).fuses = s.fuses ∧
    (State.checkDegraded s h).pending = s.pending) := by
  unfold State.checkDegraded; simp [*]

@[simp] theorem State.retireUnit_kept (s : State) (m : Mark) : ((State.retireUnit s m).fuses = s.fuses ∧
    (State.retireUnit s m).pending = s.pending) := by
  unfold State.retireUnit; simp [*]

@[simp] theorem State.enterRound_kept (s : State) (units : List (Nat × Nat)) : ((State.enterRound s units).fuses =
    s.fuses ∧ (State.enterRound s units).pending = s.pending) := by
  unfold State.enterRound; simp [*]

@[simp] theorem State.restoreUnit_kept (s : State) (m : Mark) : ((State.restoreUnit s m).fuses = s.fuses ∧
    (State.restoreUnit s m).pending = s.pending) := by
  unfold State.restoreUnit; simp [*]

@[simp] theorem State.sparingPoint_kept (s : State) (mask : Nat) : ((State.sparingPoint s mask).fuses = s.fuses ∧
    (State.sparingPoint s mask).pending = s.pending) := by
  unfold State.sparingPoint; simp [*]

@[simp] theorem State.powerOn_kept (s : State) (pds : List Nat) : ((State.powerOn s pds).fuses = s.fuses ∧
    (State.powerOn s pds).pending = s.pending) := by
  unfold State.powerOn; simp [*]

@[simp] theorem State.startTraining_kept (s : State) (p : Nat) : ((State.startTraining s p).fuses = s.fuses ∧
    (State.startTraining s p).pending = s.pending) := by
  unfold State.startTraining; simp [*]

@[simp] theorem State.portsUp_kept (s : State) (pd : Nat) : ((State.portsUp s pd).fuses = s.fuses ∧ (State.portsUp s
    pd).pending = s.pending) := by
  unfold State.portsUp; simp [*]

@[simp] theorem State.domainOn_kept (s : State) (pd : Nat) : ((State.domainOn s pd).fuses = s.fuses ∧
    (State.domainOn s pd).pending = s.pending) := by
  unfold State.domainOn; simp [*]

@[simp] theorem State.decideHalf_kept (s : State) (h : Nat) : ((State.decideHalf s h).fuses = s.fuses ∧
    (State.decideHalf s h).pending = s.pending) := by
  unfold State.decideHalf; simp [*]

@[simp] theorem State.redecide_kept (s : State) : ((State.redecide s).fuses = s.fuses ∧ (State.redecide s).pending =
    s.pending) := by
  unfold State.redecide; simp [*]

@[simp] theorem State.applyLevel_kept (s : State) (h : Nat) : ((State.applyLevel s h).fuses = s.fuses ∧
    (State.applyLevel s h).pending = s.pending) := by
  unfold State.applyLevel; dsimp only; (repeat' split) <;> simp [*]

@[simp] theorem State.resetHalf_kept (s : State) (h : Nat) : ((State.resetHalf s h).fuses = s.fuses ∧
    (State.resetHalf s h).pending = s.pending) := by
  unfold State.resetHalf; simp [*]

@[simp] theorem State.resetHalves_kept (s : State) (mask : Nat) : ((State.resetHalves s mask).fuses = s.fuses ∧
    (State.resetHalves s mask).pending = s.pending) := by
  unfold State.resetHalves; simp [*]

@[simp] theorem State.setReset_kept (s : State) (kind : Nat) (halves : Nat) (core : Nat) (cause : Nat) :
    ((State.setReset s kind halves core cause).fuses = s.fuses ∧ (State.setReset s kind halves core cause).pending =
    s.pending) := by
  unfold State.setReset; simp [*]

@[simp] theorem State.halfReset_kept (s : State) (h : Nat) : ((State.halfReset s h).fuses = s.fuses ∧
    (State.halfReset s h).pending = s.pending) := by
  unfold State.halfReset; simp [*]

@[simp] theorem State.resetHostSetup_kept (s : State) : ((State.resetHostSetup s).fuses = s.fuses ∧
    (State.resetHostSetup s).pending = s.pending) := by
  unfold State.resetHostSetup; simp [*]

@[simp] theorem State.flrReset_kept (s : State) : ((State.flrReset s).fuses = s.fuses ∧ (State.flrReset s).pending =
    s.pending) := by
  unfold State.flrReset; simp [*]

@[simp] theorem State.abandonDump_kept (s : State) : ((State.abandonDump s).fuses = s.fuses ∧ (State.abandonDump
    s).pending = s.pending) := by
  unfold State.abandonDump; simp [*]

@[simp] theorem State.testWords_kept (s : State) (mask : Nat) (failed : List Nat) : ((State.testWords s mask
    failed).fuses = s.fuses ∧ (State.testWords s mask failed).pending = s.pending) := by
  unfold State.testWords; simp [*]

@[simp] theorem execRootPllLock_kept (s : State) : Keeps (execRootPllLock s) s := by
  unfold execRootPllLock; simp [*]

@[simp] theorem State.releaseHdm_kept (s : State) : ((State.releaseHdm s).fuses = s.fuses ∧ (State.releaseHdm
    s).pending = s.pending) := by
  unfold State.releaseHdm
  (try dsimp only)
  (repeat' split)
  all_goals first
    | (simp [*]; done)
    | (refine foldl_kept_from _ _ _ _ ?_ (by simp [*]); intro s a; (try dsimp only); (repeat' split) <;> simp [*]; done)

@[simp] theorem State.endModeChange_kept (s : State) : ((State.endModeChange s).fuses = s.fuses ∧
    (State.endModeChange s).pending = s.pending) := by
  unfold State.endModeChange; simp [*]

@[simp] theorem execAlignmentRelease_kept (s : State) : Keeps (execAlignmentRelease s) s := by
  unfold execAlignmentRelease; simp [*]

@[simp] theorem State.runImage_kept (s : State) (slot : Nat) (img : List Byte) : ((State.runImage s slot img).fuses
    = s.fuses ∧ (State.runImage s slot img).pending = s.pending) := by
  unfold State.runImage; simp [*]

@[simp] theorem State.recheckPending_kept (s : State) : ((State.recheckPending s).fuses = s.fuses ∧
    (State.recheckPending s).pending = s.pending) := by
  unfold State.recheckPending; simp [*]

@[simp] theorem execFirmwareVerify_kept (slot : Nat) (s : State) : Keeps (execFirmwareVerify slot s) s := by
  unfold execFirmwareVerify; dsimp only; (repeat' split) <;> simp [*]

@[simp] theorem State.applyPlan_kept (s : State) (v : List Nat) : ((State.applyPlan s v).fuses = s.fuses ∧
    (State.applyPlan s v).pending = s.pending) := by
  unfold State.applyPlan; simp [*]

@[simp] theorem State.loadPlan_kept (s : State) : ((State.loadPlan s).fuses = s.fuses ∧ (State.loadPlan s).pending =
    s.pending) := by
  unfold State.loadPlan; simp [*]

@[simp] theorem State.primacyHalt_kept (s : State) : ((State.primacyHalt s).fuses = s.fuses ∧ (State.primacyHalt
    s).pending = s.pending) := by
  unfold State.primacyHalt; simp [*]

@[simp] theorem execPrimacyClaim_kept (half : Nat) (s : State) : Keeps (execPrimacyClaim half s) s := by
  unfold execPrimacyClaim; simp [*]

@[simp] theorem execPrimacyTimeout_kept (s : State) : Keeps (execPrimacyTimeout s) s := by
  unfold execPrimacyTimeout; simp [*]

@[simp] theorem execHeartbeatSend_kept (half : Nat) (s : State) : Keeps (execHeartbeatSend half s) s := by
  unfold execHeartbeatSend; simp [*]

@[simp] theorem execHeartbeatMiss_kept (half : Nat) (s : State) : Keeps (execHeartbeatMiss half s) s := by
  unfold execHeartbeatMiss; simp [*]

@[simp] theorem execLpxTrainingDone_kept (ctrl : Nat) (passed : Bool) (s : State) : Keeps (execLpxTrainingDone ctrl
    passed s) s := by
  unfold execLpxTrainingDone; simp [*]

@[simp] theorem execLpxZeroDone_kept (s : State) : Keeps (execLpxZeroDone s) s := by
  unfold execLpxZeroDone; simp [*]

@[simp] theorem execDomainPowerOn_kept (pd : Nat) (s : State) : Keeps (execDomainPowerOn pd s) s := by
  unfold execDomainPowerOn; simp [*]

@[simp] theorem execDomainIdleOff_kept (pd : Nat) (s : State) : Keeps (execDomainIdleOff pd s) s := by
  unfold execDomainIdleOff; simp [*]

@[simp] theorem State.endCheck_kept (s : State) (failed : Bool) (u : Nat × Nat) : ((State.endCheck s failed u).fuses
    = s.fuses ∧ (State.endCheck s failed u).pending = s.pending) := by
  unfold State.endCheck; simp [*]

@[simp] theorem State.settleRegion_kept (s : State) (n : Nat) (g : MRegion) : ((State.settleRegion s n g).fuses =
    s.fuses ∧ (State.settleRegion s n g).pending = s.pending) := by
  unfold State.settleRegion; (repeat' split) <;> simp [*]

@[simp] theorem State.settleRegions_kept (s : State) : ((State.settleRegions s).fuses = s.fuses ∧
    (State.settleRegions s).pending = s.pending) := by
  unfold State.settleRegions; simp [*]

@[simp] theorem execRejoinRoundDone_kept (failed : List (Nat × Nat)) (lanes : List Nat) (s : State) : Keeps
    (execRejoinRoundDone failed lanes s) s := by
  unfold execRejoinRoundDone; simp [*]

@[simp] theorem execPerstNDeassert_kept (s : State) : Keeps (execPerstNDeassert s) s := by
  unfold execPerstNDeassert; simp [*]

@[simp] theorem execFlr_kept (s : State) : Keeps (execFlr s) s := by
  unfold execFlr; simp [*]

@[simp] theorem execRefclkLoss_kept (s : State) : Keeps (execRefclkLoss s) s := by
  unfold execRefclkLoss; simp [*]

@[simp] theorem execThermtripSense_kept (sensor : Nat) (temp : Nat) (s : State) : Keeps (execThermtripSense sensor
    temp s) s := by
  unfold execThermtripSense; simp [*]

@[simp] theorem execThrottleNEdge_kept (asserted : Bool) (s : State) : Keeps (execThrottleNEdge asserted s) s := by
  unfold execThrottleNEdge; simp [*]

@[simp] theorem execThermalThrottleTick_kept (half : Nat) (temps : List Nat) (s : State) : Keeps
    (execThermalThrottleTick half temps s) s := by
  unfold execThermalThrottleTick; simp [*]

@[simp] theorem execPowerThrottleTick_kept (half : Nat) (watts : Nat) (s : State) : Keeps (execPowerThrottleTick
    half watts s) s := by
  unfold execPowerThrottleTick; simp [*]

@[simp] theorem execThrottleLevelApply_kept (half : Nat) (s : State) : Keeps (execThrottleLevelApply half s) s := by
  unfold execThrottleLevelApply; simp [*]

@[simp] theorem execTelUpdate_kept (temps : List Nat) (device : Nat) (west : Nat) (east : Nat) (s : State) : Keeps
    (execTelUpdate temps device west east s) s := by
  unfold execTelUpdate; simp [*]

@[simp] theorem State.writePlanCmd_kept (s : State) (v : W32) : ((State.writePlanCmd s v).fuses = s.fuses ∧
    (State.writePlanCmd s v).pending = s.pending) := by
  unfold State.writePlanCmd; (repeat' split) <;> simp [*]

@[simp] theorem execMgtPlanWrite_kept (v : W32) (s : State) : Keeps (execMgtPlanWrite v s) s := by
  unfold execMgtPlanWrite; simp [*]

@[simp] theorem execPlanWriteDone_kept (s : State) : Keeps (execPlanWriteDone s) s := by
  unfold execPlanWriteDone; simp [*]

@[simp] theorem State.writeModeReq_kept (s : State) (v : W32) : ((State.writeModeReq s v).fuses = s.fuses ∧
    (State.writeModeReq s v).pending = s.pending) := by
  unfold State.writeModeReq; simp [*]

@[simp] theorem execMgtModeReqWrite_kept (v : W32) (s : State) : Keeps (execMgtModeReqWrite v s) s := by
  unfold execMgtModeReqWrite; simp [*]

@[simp] theorem State.writeKat_kept (s : State) (v : W32) : ((State.writeKat s v).fuses = s.fuses ∧ (State.writeKat
    s v).pending = s.pending) := by
  unfold State.writeKat; simp [*]

@[simp] theorem execSpgKatGo_kept (s : State) : Keeps (execSpgKatGo s) s := by
  unfold execSpgKatGo; simp [*]

@[simp] theorem execSpgKatDone_kept (s : State) : Keeps (execSpgKatDone s) s := by
  unfold execSpgKatDone; simp [*]

@[simp] theorem State.writeView_kept (s : State) (v : W32) : ((State.writeView s v).fuses = s.fuses ∧
    (State.writeView s v).pending = s.pending) := by
  unfold State.writeView; simp [*]

@[simp] theorem execSecViewWrite_kept (v : W32) (s : State) : Keeps (execSecViewWrite v s) s := by
  unfold execSecViewWrite; simp [*]

@[simp] theorem State.writeLcCmd_kept (s : State) (v : W32) : ((State.writeLcCmd s v).fuses = s.fuses ∧
    (State.writeLcCmd s v).pending = s.pending) := by
  unfold State.writeLcCmd; simp [*]

@[simp] theorem execSecLcGo_kept (v : W32) (s : State) : Keeps (execSecLcGo v s) s := by
  unfold execSecLcGo; simp [*]

@[simp] theorem State.activateFw_kept (s : State) : ((State.activateFw s).fuses = s.fuses ∧ (State.activateFw
    s).pending = s.pending) := by
  unfold State.activateFw; simp [*]

@[simp] theorem execFwStagingDone_kept (s : State) : Keeps (execFwStagingDone s) s := by
  unfold execFwStagingDone; dsimp only; (repeat' split) <;> simp [*]

@[simp] theorem execFwVerifyDone_kept (s : State) : Keeps (execFwVerifyDone s) s := by
  unfold execFwVerifyDone; simp [*]

@[simp] theorem State.endActivation_kept (s : State) : ((State.endActivation s).fuses = s.fuses ∧
    (State.endActivation s).pending = s.pending) := by
  unfold State.endActivation; simp [*]

@[simp] theorem execFwReady_kept (s : State) : Keeps (execFwReady s) s := by
  unfold execFwReady; dsimp only; (repeat' split) <;> simp [*]

@[simp] theorem execFwActivateTimeout_kept (s : State) : Keeps (execFwActivateTimeout s) s := by
  unfold execFwActivateTimeout; simp [*]

@[simp] theorem execSpdmGetMeasurements_kept (index : Nat) (s : State) : Keeps (execSpdmGetMeasurements index s) s := by
  unfold execSpdmGetMeasurements; simp [*]

@[simp] theorem State.spdmAnswer_kept (s : State) (r : SpdmReq) : ((State.spdmAnswer s r).fuses = s.fuses ∧
    (State.spdmAnswer s r).pending = s.pending) := by
  unfold State.spdmAnswer; (repeat' split) <;> simp [*]

@[simp] theorem execSpdmRequest_kept (r : SpdmReq) (s : State) : Keeps (execSpdmRequest r s) s := by
  unfold execSpdmRequest; simp [*]

@[simp] theorem State.smb_kept (s : State) (bs : List Byte) : ((State.smb s bs).fuses = s.fuses ∧ (State.smb s
    bs).pending = s.pending) := by
  unfold State.smb; simp [*]

@[simp] theorem execSmbStatus_kept (s : State) : Keeps (execSmbStatus s) s := by
  unfold execSmbStatus; simp [*]

@[simp] theorem execSmbTemp_kept (s : State) : Keeps (execSmbTemp s) s := by
  unfold execSmbTemp; simp [*]

@[simp] theorem execSmbPower_kept (s : State) : Keeps (execSmbPower s) s := by
  unfold execSmbPower; simp [*]

@[simp] theorem execSmbThrottle_kept (s : State) : Keeps (execSmbThrottle s) s := by
  unfold execSmbThrottle; simp [*]

@[simp] theorem execSmbAlert_kept (s : State) : Keeps (execSmbAlert s) s := by
  unfold execSmbAlert; simp [*]

@[simp] theorem execSmbSerial_kept (s : State) : Keeps (execSmbSerial s) s := by
  unfold execSmbSerial; simp [*]

@[simp] theorem execSmbAlertResponse_kept (s : State) : Keeps (execSmbAlertResponse s) s := by
  unfold execSmbAlertResponse; simp [*]

@[simp] theorem execJtagInstruction_kept (ir : JtagIr) (s : State) : Keeps (execJtagInstruction ir s) s := by
  unfold execJtagInstruction; simp [*]

@[simp] theorem State.writeGlbLock_kept (s : State) (v : W32) : ((State.writeGlbLock s v).fuses = s.fuses ∧
    (State.writeGlbLock s v).pending = s.pending) := by
  unfold State.writeGlbLock; simp [*]

@[simp] theorem execGlbLockWrite_kept (v : W32) (s : State) : Keeps (execGlbLockWrite v s) s := by
  unfold execGlbLockWrite; simp [*]

@[simp] theorem State.writeCkpThr_kept (s : State) (v : W32) : ((State.writeCkpThr s v).fuses = s.fuses ∧
    (State.writeCkpThr s v).pending = s.pending) := by
  unfold State.writeCkpThr; simp [*]

@[simp] theorem execCkpThrReqWrite_kept (v : W32) (s : State) : Keeps (execCkpThrReqWrite v s) s := by
  unfold execCkpThrReqWrite; simp [*]

@[simp] theorem State.writeRetire_kept (s : State) (v : W32) : ((State.writeRetire s v).fuses = s.fuses ∧
    (State.writeRetire s v).pending = s.pending) := by
  unfold State.writeRetire; simp [*]

@[simp] theorem execRasRetireCmd_kept (v : W32) (s : State) : Keeps (execRasRetireCmd v s) s := by
  unfold execRasRetireCmd; simp [*]

@[simp] theorem State.writeDmpCtrl_kept (s : State) (v : W32) : ((State.writeDmpCtrl s v).fuses = s.fuses ∧
    (State.writeDmpCtrl s v).pending = s.pending) := by
  unfold State.writeDmpCtrl; simp [*]

@[simp] theorem execDmpGo_kept (v : W32) (s : State) : Keeps (execDmpGo v s) s := by
  unfold execDmpGo; simp [*]

@[simp] theorem State.drainPort_kept (s : State) (p : Nat) : ((State.drainPort s p).fuses = s.fuses ∧
    (State.drainPort s p).pending = s.pending) := by
  unfold State.drainPort; simp [*]

@[simp] theorem State.queueFlit_kept (s : State) (p : Nat) (c : Nat) (fl : Nat) (dest : Nat) (payload : List Byte) :
    ((State.queueFlit s p c fl dest payload).fuses = s.fuses ∧ (State.queueFlit s p c fl dest payload).pending =
    s.pending) := by
  unfold State.queueFlit; simp [*]

@[simp] theorem State.postFailed_kept (s : State) (p : Nat) (prior : Nat) (reason : Nat) : ((State.postFailed s p
    prior reason).fuses = s.fuses ∧ (State.postFailed s p prior reason).pending = s.pending) := by
  unfold State.postFailed; simp [*]

@[simp] theorem State.failPort_kept (s : State) (p : Nat) (reason : Nat) : ((State.failPort s p reason).fuses =
    s.fuses ∧ (State.failPort s p reason).pending = s.pending) := by
  unfold State.failPort; simp [*]

@[simp] theorem State.authFail_kept (s : State) (p : Nat) (step : Nat) : ((State.authFail s p step).fuses = s.fuses
    ∧ (State.authFail s p step).pending = s.pending) := by
  unfold State.authFail; simp [*]

@[simp] theorem State.missRoute_kept (s : State) (c : Nat) (dest : Nat) (inPort : Nat) (vc : Nat) :
    ((State.missRoute s c dest inPort vc).fuses = s.fuses ∧ (State.missRoute s c dest inPort vc).pending =
    s.pending) := by
  unfold State.missRoute; simp [*]

@[simp] theorem State.queuePart_kept (s : State) (p : Nat) (vc : Nat) (dest : Nat) (bs : List Byte) :
    ((State.queuePart s p vc dest bs).fuses = s.fuses ∧ (State.queuePart s p vc dest bs).pending = s.pending) := by
  unfold State.queuePart; simp [*]

@[simp] theorem State.sendObject_kept (s : State) (m : OutMsg) (dest : Nat) : ((State.sendObject s m dest).fuses =
    s.fuses ∧ (State.sendObject s m dest).pending = s.pending) := by
  unfold State.sendObject
  (try dsimp only)
  (repeat' split)
  all_goals first
    | (simp [*]; done)
    | (refine foldl_kept_from _ _ _ _ ?_ (by simp [*]); intro s a; (try dsimp only); (repeat' split) <;> simp [*]; done)

@[simp] theorem State.pump_kept (s : State) : ((State.pump s).fuses = s.fuses ∧ (State.pump s).pending = s.pending) := by
  unfold State.pump; simp [*]

@[simp] theorem State.sendTrain_kept (s : State) (p : Nat) : ((State.sendTrain s p).fuses = s.fuses ∧
    (State.sendTrain s p).pending = s.pending) := by
  unfold State.sendTrain; simp [*]

@[simp] theorem State.gotNonce_kept (s : State) (p : Nat) (bs : List Byte) : ((State.gotNonce s p bs).fuses =
    s.fuses ∧ (State.gotNonce s p bs).pending = s.pending) := by
  unfold State.gotNonce; simp [*]

@[simp] theorem State.sendChain_kept (s : State) (p : Nat) : ((State.sendChain s p).fuses = s.fuses ∧
    (State.sendChain s p).pending = s.pending) := by
  unfold State.sendChain; simp [*]

@[simp] theorem State.askIv_kept (s : State) (p : Nat) : ((State.askIv s p).fuses = s.fuses ∧ (State.askIv s
    p).pending = s.pending) := by
  unfold State.askIv; simp [*]

@[simp] theorem State.sendSecret_kept (s : State) (p : Nat) (iv : List Byte) : ((State.sendSecret s p iv).fuses =
    s.fuses ∧ (State.sendSecret s p iv).pending = s.pending) := by
  unfold State.sendSecret; dsimp only; (repeat' split) <;> simp [*]

@[simp] theorem State.gotSecret_kept (s : State) (c : Nat) (from_ : Nat) (secret : List Byte) : ((State.gotSecret s
    c from_ secret).fuses = s.fuses ∧ (State.gotSecret s c from_ secret).pending = s.pending) := by
  unfold State.gotSecret; (repeat' split) <;> simp [*]

@[simp] theorem State.activatePort_kept (s : State) (p : Nat) : ((State.activatePort s p).fuses = s.fuses ∧
    (State.activatePort s p).pending = s.pending) := by
  unfold State.activatePort; dsimp only; (repeat' split) <;> simp [*]

@[simp] theorem State.policyFail_kept (s : State) (p : Nat) : ((State.policyFail s p).fuses = s.fuses ∧
    (State.policyFail s p).pending = s.pending) := by
  unfold State.policyFail; simp [*]

@[simp] theorem State.tryJoin_kept (s : State) (p : Nat) : ((State.tryJoin s p).fuses = s.fuses ∧ (State.tryJoin s
    p).pending = s.pending) := by
  unfold State.tryJoin; dsimp only; (repeat' split) <;> simp [*]

@[simp] theorem State.openLinks_kept (s : State) (c : Nat) : ((State.openLinks s c).fuses = s.fuses ∧
    (State.openLinks s c).pending = s.pending) := by
  unfold State.openLinks; (repeat' split) <;> simp [*]

@[simp] theorem State.closeLinks_kept (s : State) (c : Nat) (halves : Nat) : ((State.closeLinks s c halves).fuses =
    s.fuses ∧ (State.closeLinks s c halves).pending = s.pending) := by
  unfold State.closeLinks; simp [*]

@[simp] theorem State.linkChunks_kept (s : State) (j : Job) (x0 : List Nat) : ((State.linkChunks s j x0).fuses =
    s.fuses ∧ (State.linkChunks s j x0).pending = s.pending) := by
  induction x0 generalizing s with
  | nil => exact ⟨rfl, rfl⟩
  | cons c cs ih =>
    cases cs with
    | nil => simp [State.linkChunks]
    | cons d ds => unfold State.linkChunks; simp [ih]

@[simp] theorem State.putEntries_kept (s : State) (j : Job) (cs : List Nat) (base : Nat) (x0 : Nat) (x1 : List Nat)
    : ((State.putEntries s j cs base x0 x1).fuses = s.fuses ∧ (State.putEntries s j cs base x0 x1).pending =
    s.pending) := by
  induction x1 generalizing s x0 with
  | nil => exact ⟨rfl, rfl⟩
  | cons c cs ih => unfold State.putEntries; simp [ih]

@[simp] theorem State.writePending_kept (s : State) (j : Job) (t : Stream) (p : Nat) (toks : List Nat) :
    ((State.writePending s j t p toks).fuses = s.fuses ∧ (State.writePending s j t p toks).pending = s.pending) := by
  unfold State.writePending; simp [*]

@[simp] theorem State.writePages_kept (s : State) (j : Job) (t : Stream) (k : Nat) : ((State.writePages s j t
    k).fuses = s.fuses ∧ (State.writePages s j t k).pending = s.pending) := by
  unfold State.writePages; simp [*]

@[simp] theorem State.writeMasks_kept (s : State) (j : Job) (i : Nat) (masks : List W32) : ((State.writeMasks s j i
    masks).fuses = s.fuses ∧ (State.writeMasks s j i masks).pending = s.pending) := by
  unfold State.writeMasks; simp [*]

@[simp] theorem State.askSeed_kept (s : State) (c : Nat) (i : Nat) : ((State.askSeed s c i).fuses = s.fuses ∧
    (State.askSeed s c i).pending = s.pending) := by
  unfold State.askSeed; simp [*]

@[simp] theorem State.cancelSeed_kept (s : State) (c : Nat) (i : Nat) : ((State.cancelSeed s c i).fuses = s.fuses ∧
    (State.cancelSeed s c i).pending = s.pending) := by
  unfold State.cancelSeed; simp [*]

@[simp] theorem State.sealPage_kept (s : State) (c : Nat) (p : Nat) : ((State.sealPage s c p).fuses = s.fuses ∧
    (State.sealPage s c p).pending = s.pending) := by
  unfold State.sealPage; (repeat' split) <;> simp [*]

@[simp] theorem State.clearRefStall_kept (s : State) (halves : Nat) : ((State.clearRefStall s halves).fuses =
    s.fuses ∧ (State.clearRefStall s halves).pending = s.pending) := by
  unfold State.clearRefStall; simp [*]

@[simp] theorem State.startJob_kept (s : State) (c : Nat) (seed : W128) : ((State.startJob s c seed).fuses = s.fuses
    ∧ (State.startJob s c seed).pending = s.pending) := by
  unfold State.startJob; (repeat' split) <;> simp [*]

@[simp] theorem State.openJob_kept (s : State) (h : Head) (p : JobParams) (seed : W128) : ((State.openJob s h p
    seed).fuses = s.fuses ∧ (State.openJob s h p seed).pending = s.pending) := by
  unfold State.openJob; simp [*]

@[simp] theorem State.releaseJob_kept (s : State) (c : Nat) : ((State.releaseJob s c).fuses = s.fuses ∧
    (State.releaseJob s c).pending = s.pending) := by
  unfold State.releaseJob; (repeat' split) <;> simp [*]

@[simp] theorem State.mirrorCapture_kept (s : State) (c : Nat) (j : Job) (q : Nat) : ((State.mirrorCapture s c j
    q).fuses = s.fuses ∧ (State.mirrorCapture s c j q).pending = s.pending) := by
  unfold State.mirrorCapture; simp [*]

@[simp] theorem State.capture_kept (s : State) (c : Nat) : ((State.capture s c).fuses = s.fuses ∧ (State.capture s
    c).pending = s.pending) := by
  unfold State.capture; (repeat' split) <;> simp [*]

@[simp] theorem State.releaseDeferred_kept (s : State) (c : Nat) : ((State.releaseDeferred s c).fuses = s.fuses ∧
    (State.releaseDeferred s c).pending = s.pending) := by
  unfold State.releaseDeferred; (repeat' split) <;> simp [*]

@[simp] theorem State.checkCommon_kept (s : State) (c : Nat) : ((State.checkCommon s c).fuses = s.fuses ∧
    (State.checkCommon s c).pending = s.pending) := by
  unfold State.checkCommon; (repeat' split) <;> simp [*]

@[simp] theorem State.checkCommit_kept (s : State) (c : Nat) : ((State.checkCommit s c).fuses = s.fuses ∧
    (State.checkCommit s c).pending = s.pending) := by
  unfold State.checkCommit; (repeat' split) <;> simp [*]

@[simp] theorem State.flushTables_kept (s : State) (c : Nat) (i : CutImage) : ((State.flushTables s c i).fuses =
    s.fuses ∧ (State.flushTables s c i).pending = s.pending) := by
  unfold State.flushTables; (repeat' split) <;> simp [*]

@[simp] theorem State.applyOpen_kept (s : State) (c : Nat) (kind : Nat) (op : Nat) (h : Head) (index : Nat) (count :
    Nat) (tokens : Nat) (data : List Byte) : ((State.applyOpen s c kind op h index count tokens data).fuses =
    s.fuses ∧ (State.applyOpen s c kind op h index count tokens data).pending = s.pending) := by
  unfold State.applyOpen; (repeat' split) <;> simp [*]

@[simp] theorem State.promptFetched_kept (s : State) (c : Nat) (index : Nat) : ((State.promptFetched s c
    index).fuses = s.fuses ∧ (State.promptFetched s c index).pending = s.pending) := by
  unfold State.promptFetched; dsimp only; (repeat' split) <;> simp [*]

@[simp] theorem State.forkChild_kept (s : State) (c : Nat) (parent : Nat) (mode : Nat) (kid : Nat × W64) :
    ((State.forkChild s c parent mode kid).fuses = s.fuses ∧ (State.forkChild s c parent mode kid).pending =
    s.pending) := by
  unfold State.forkChild; dsimp only; (repeat' split) <;> simp [*]

@[simp] theorem State.applyFork_kept (s : State) (c : Nat) (h : Head) (parent : Nat) (gen : Nat) (mode : Nat) (count
    : Nat) (data : List Byte) : ((State.applyFork s c h parent gen mode count data).fuses = s.fuses ∧
    (State.applyFork s c h parent gen mode count data).pending = s.pending) := by
  unfold State.applyFork; (repeat' split) <;> simp [*]

@[simp] theorem State.applyAppend_kept (s : State) (c : Nat) (h : Head) (index : Nat) (gen : Nat) (count : Nat)
    (tokens : Nat) : ((State.applyAppend s c h index gen count tokens).fuses = s.fuses ∧ (State.applyAppend s c h
    index gen count tokens).pending = s.pending) := by
  unfold State.applyAppend; (repeat' split) <;> simp [*]

@[simp] theorem State.applyResume_kept (s : State) (c : Nat) (h : Head) (index : Nat) (gen : Nat) :
    ((State.applyResume s c h index gen).fuses = s.fuses ∧ (State.applyResume s c h index gen).pending = s.pending) := by
  unfold State.applyResume; (repeat' split) <;> simp [*]

@[simp] theorem State.applyClose_kept (s : State) (c : Nat) (h : Head) (index : Nat) (gen : Nat) :
    ((State.applyClose s c h index gen).fuses = s.fuses ∧ (State.applyClose s c h index gen).pending = s.pending) := by
  unfold State.applyClose; (repeat' split) <;> simp [*]

@[simp] theorem State.applySetLoad_kept (s : State) (c : Nat) (h : Head) (set : Nat) (count : Nat) (data : List
    Byte) : ((State.applySetLoad s c h set count data).fuses = s.fuses ∧ (State.applySetLoad s c h set count
    data).pending = s.pending) := by
  unfold State.applySetLoad; (repeat' split) <;> simp [*]

@[simp] theorem State.copyShards_kept (s : State) (j : Job) (b : Nat) (m : Manifest) : ((State.copyShards s j b
    m).fuses = s.fuses ∧ (State.copyShards s j b m).pending = s.pending) := by
  unfold State.copyShards
  (try dsimp only)
  (repeat' split)
  all_goals first
    | (simp [*]; done)
    | (refine foldl_kept_from _ _ _ _ ?_ (by simp [*]); intro s a; (try dsimp only); (repeat' split) <;> simp [*]; done)

@[simp] theorem State.endCommit_kept (s : State) (c : Nat) (bed : Bed) (status : Nat) (entry : Nat) :
    ((State.endCommit s c bed status entry).fuses = s.fuses ∧ (State.endCommit s c bed status entry).pending =
    s.pending) := by
  unfold State.endCommit; (repeat' split) <;> simp [*]

@[simp] theorem State.endVerify_kept (s : State) (c : Nat) (b : Nat) : ((State.endVerify s c b).fuses = s.fuses ∧
    (State.endVerify s c b).pending = s.pending) := by
  unfold State.endVerify; (repeat' split) <;> simp [*]

@[simp] theorem State.flipBed_kept (s : State) (c : Nat) (j : Job) (b : Nat) : ((State.flipBed s c j b).fuses =
    s.fuses ∧ (State.flipBed s c j b).pending = s.pending) := by
  unfold State.flipBed; simp [*]

@[simp] theorem State.flip_kept (s : State) (c : Nat) : ((State.flip s c).fuses = s.fuses ∧ (State.flip s c).pending
    = s.pending) := by
  unfold State.flip; (repeat' split) <;> simp [*]

@[simp] theorem State.applyBedStage_kept (s : State) (c : Nat) (h : Head) (bed : Nat) (flags : Nat) (epoch : Nat) :
    ((State.applyBedStage s c h bed flags epoch).fuses = s.fuses ∧ (State.applyBedStage s c h bed flags
    epoch).pending = s.pending) := by
  unfold State.applyBedStage; (repeat' split) <;> simp [*]

@[simp] theorem State.applyBedLoad_kept (s : State) (c : Nat) (h : Head) (bed : Nat) (host : Nat) (offset : Nat)
    (length : Nat) : ((State.applyBedLoad s c h bed host offset length).fuses = s.fuses ∧ (State.applyBedLoad s c h
    bed host offset length).pending = s.pending) := by
  unfold State.applyBedLoad; (repeat' split) <;> simp [*]

@[simp] theorem State.applyBedCommit_kept (s : State) (c : Nat) (h : Head) (bed : Nat) (flip : Nat) (data : List
    Byte) : ((State.applyBedCommit s c h bed flip data).fuses = s.fuses ∧ (State.applyBedCommit s c h bed flip
    data).pending = s.pending) := by
  unfold State.applyBedCommit; (repeat' split) <;> simp [*]

@[simp] theorem State.applyBedDrop_kept (s : State) (c : Nat) (h : Head) (bed : Nat) : ((State.applyBedDrop s c h
    bed).fuses = s.fuses ∧ (State.applyBedDrop s c h bed).pending = s.pending) := by
  unfold State.applyBedDrop; (repeat' split) <;> simp [*]

@[simp] theorem State.copyModel_kept (s : State) (m : GModel) : ((State.copyModel s m).fuses = s.fuses ∧
    (State.copyModel s m).pending = s.pending) := by
  unfold State.copyModel
  (try dsimp only)
  (repeat' split)
  all_goals first
    | (simp [*]; done)
    | (refine foldl_kept_from _ _ _ _ ?_ (by simp [*]); intro s a; (try dsimp only); (repeat' split) <;> simp [*]; done)

@[simp] theorem State.writeSpans_kept (s : State) (x0 : List (Nat × Nat)) (x1 : List Byte) : ((State.writeSpans s x0
    x1).fuses = s.fuses ∧ (State.writeSpans s x0 x1).pending = s.pending) := by
  induction x0 generalizing s x1 with
  | nil => exact ⟨rfl, rfl⟩
  | cons c cs ih => unfold State.writeSpans; simp [ih]

@[simp] theorem State.chainWrite_kept (s : State) (t : Stream) (off : Nat) (bs : List Byte) : ((State.chainWrite s t
    off bs).fuses = s.fuses ∧ (State.chainWrite s t off bs).pending = s.pending) := by
  unfold State.chainWrite; simp [*]

@[simp] theorem State.putChain_kept (s : State) (m : GModel) (t : Stream) (sweep : Nat) (vals : List (List Nat)) :
    ((State.putChain s m t sweep vals).fuses = s.fuses ∧ (State.putChain s m t sweep vals).pending = s.pending) := by
  unfold State.putChain; simp [*]

@[simp] theorem State.chainFetched_kept (s : State) (c : Nat) (index : Nat) : ((State.chainFetched s c index).fuses
    = s.fuses ∧ (State.chainFetched s c index).pending = s.pending) := by
  unfold State.chainFetched; dsimp only; (repeat' split) <;> simp [*]

@[simp] theorem State.denied_kept (s : State) (c : Nat) (h : Head) (op : Nat) (dpa : Nat) : ((State.denied s c h op
    dpa).fuses = s.fuses ∧ (State.denied s c h op dpa).pending = s.pending) := by
  unfold State.denied; simp [*]

@[simp] theorem State.applyModelLoad_kept (s : State) (c : Nat) (h : Head) (desc : Nat) (work : Nat) (workSize :
    Nat) : ((State.applyModelLoad s c h desc work workSize).fuses = s.fuses ∧ (State.applyModelLoad s c h desc work
    workSize).pending = s.pending) := by
  unfold State.applyModelLoad; (repeat' split) <;> simp [*]

@[simp] theorem State.applyModelDrop_kept (s : State) (c : Nat) (h : Head) (handle : Nat) : ((State.applyModelDrop s
    c h handle).fuses = s.fuses ∧ (State.applyModelDrop s c h handle).pending = s.pending) := by
  unfold State.applyModelDrop; (repeat' split) <;> simp [*]

@[simp] theorem State.applyChainOpen_kept (s : State) (c : Nat) (h : Head) (index : Nat) (handle : Nat) (init : Nat)
    (seedMode : Nat) (seed : Nat) (temp : Nat) (clampLayers : Nat) (cflags : Nat) (clampPtr : Nat) (host : Nat)
    (user : Nat) : ((State.applyChainOpen s c h index handle init seedMode seed temp clampLayers cflags clampPtr
    host user).fuses = s.fuses ∧ (State.applyChainOpen s c h index handle init seedMode seed temp clampLayers cflags
    clampPtr host user).pending = s.pending) := by
  unfold State.applyChainOpen; (repeat' split) <;> simp [*]

@[simp] theorem State.applyChainSet_kept (s : State) (c : Nat) (h : Head) (index : Nat) (gen : Nat) (select : Nat)
    (temp : Nat) (clampLayers : Nat) (cflags : Nat) (clampPtr : Nat) : ((State.applyChainSet s c h index gen select
    temp clampLayers cflags clampPtr).fuses = s.fuses ∧ (State.applyChainSet s c h index gen select temp clampLayers
    cflags clampPtr).pending = s.pending) := by
  unfold State.applyChainSet; dsimp only; (repeat' split) <;> simp [*]

@[simp] theorem State.applyChainWrite_kept (s : State) (c : Nat) (h : Head) (index : Nat) (gen : Nat) (layers : Nat)
    (host : Nat) : ((State.applyChainWrite s c h index gen layers host).fuses = s.fuses ∧ (State.applyChainWrite s c
    h index gen layers host).pending = s.pending) := by
  unfold State.applyChainWrite; dsimp only; (repeat' split) <;> simp [*]

@[simp] theorem State.applyChainRead_kept (s : State) (c : Nat) (h : Head) (index : Nat) (gen : Nat) (layers : Nat)
    (host : Nat) : ((State.applyChainRead s c h index gen layers host).fuses = s.fuses ∧ (State.applyChainRead s c h
    index gen layers host).pending = s.pending) := by
  unfold State.applyChainRead; dsimp only; (repeat' split) <;> simp [*]

@[simp] theorem State.applyGibbsRun_kept (s : State) (c : Nat) (h : Head) (o : GRunOps) (data : List Byte) :
    ((State.applyGibbsRun s c h o data).fuses = s.fuses ∧ (State.applyGibbsRun s c h o data).pending = s.pending) := by
  unfold State.applyGibbsRun; (repeat' split) <;> simp [*]

@[simp] theorem State.postFaulted_kept (s : State) (c : Nat) (index : Nat) (gen : Nat) (step : Nat) :
    ((State.postFaulted s c index gen step).fuses = s.fuses ∧ (State.postFaulted s c index gen step).pending =
    s.pending) := by
  unfold State.postFaulted; simp [*]

@[simp] theorem State.stepChain_kept (s : State) (c : Nat) (r : GRun) (step : Nat) (acc : GStepAcc) (i : Nat) :
    ((State.stepChain s c r step acc i).1.fuses = s.fuses ∧ (State.stepChain s c r step acc i).1.pending =
    s.pending) := by
  unfold State.stepChain; dsimp only; (repeat' split) <;> simp [*]

@[simp] theorem State.stepChains_kept (c : Nat) (r : GRun) (step : Nat) (x0 : List Nat) (x1 : State × GStepAcc) :
    ((State.stepChains c r step x0 x1).1.fuses = x1.1.fuses ∧ (State.stepChains c r step x0 x1).1.pending =
    x1.1.pending) := by
  induction x0 generalizing x1 with
  | nil => exact ⟨rfl, rfl⟩
  | cons c cs ih => unfold State.stepChains; simp [ih]

@[simp] theorem State.endGibbsRun_kept (s : State) (c : Nat) (r : GRun) (step : Nat) : ((State.endGibbsRun s c r
    step).fuses = s.fuses ∧ (State.endGibbsRun s c r step).pending = s.pending) := by
  unfold State.endGibbsRun; simp [*]

@[simp] theorem State.endEmptyRun_kept (s : State) (c : Nat) : ((State.endEmptyRun s c).fuses = s.fuses ∧
    (State.endEmptyRun s c).pending = s.pending) := by
  unfold State.endEmptyRun; (repeat' split) <;> simp [*]

@[simp] theorem State.gibbsStep_kept (s : State) (c : Nat) (step : Nat) : ((State.gibbsStep s c step).fuses =
    s.fuses ∧ (State.gibbsStep s c step).pending = s.pending) := by
  unfold State.gibbsStep; (repeat' split) <;> simp [*]

@[simp] theorem State.addImage_kept (s : State) (halves : Nat) (k : KImage) : ((State.addImage s halves k).fuses =
    s.fuses ∧ (State.addImage s halves k).pending = s.pending) := by
  unfold State.addImage; simp [*]

@[simp] theorem State.loadKernel_kept (s : State) (c : Nat) (h : Head) (host : Nat) (size : Nat) :
    ((State.loadKernel s c h host size).fuses = s.fuses ∧ (State.loadKernel s c h host size).pending = s.pending) := by
  unfold State.loadKernel; dsimp only; (repeat' split) <;> simp [*]

@[simp] theorem State.unloadKernel_kept (s : State) (c : Nat) (h : Head) (handle : Nat) : ((State.unloadKernel s c h
    handle).fuses = s.fuses ∧ (State.unloadKernel s c h handle).pending = s.pending) := by
  unfold State.unloadKernel; (repeat' split) <;> simp [*]

@[simp] theorem State.reloadKernels_kept (s : State) (c : Nat) : ((State.reloadKernels s c).fuses = s.fuses ∧
    (State.reloadKernels s c).pending = s.pending) := by
  unfold State.reloadKernels; (repeat' split) <;> simp [*]

@[simp] theorem State.applyStepBind_kept (s : State) (c : Nat) (h : Head) (count : Nat) (data : List Byte) :
    ((State.applyStepBind s c h count data).fuses = s.fuses ∧ (State.applyStepBind s c h count data).pending =
    s.pending) := by
  unfold State.applyStepBind; dsimp only; (repeat' split) <;> simp [*]

@[simp] theorem State.launch_kept (s : State) (c : Nat) (j : Job) (e : ProgEntry) : ((State.launch s c j e).fuses =
    s.fuses ∧ (State.launch s c j e).pending = s.pending) := by
  unfold State.launch; (repeat' split) <;> simp [*]

@[simp] theorem State.launchNext_kept (s : State) (c : Nat) : ((State.launchNext s c).fuses = s.fuses ∧
    (State.launchNext s c).pending = s.pending) := by
  unfold State.launchNext; (repeat' split) <;> simp [*]

@[simp] theorem State.dispatchLayer_kept (s : State) (c : Nat) (layer : Nat) : ((State.dispatchLayer s c
    layer).fuses = s.fuses ∧ (State.dispatchLayer s c layer).pending = s.pending) := by
  unfold State.dispatchLayer; (repeat' split) <;> simp [*]

@[simp] theorem State.dispatchFrom_kept (c : Nat) (x0 : Nat) (x1 : Nat) (x2 : State) : ((State.dispatchFrom c x0 x1
    x2).fuses = x2.fuses ∧ (State.dispatchFrom c x0 x1 x2).pending = x2.pending) := by
  induction x0 generalizing x1 x2 with
  | zero => exact ⟨rfl, rfl⟩
  | succ n ih => unfold State.dispatchFrom; dsimp only; (repeat' split) <;> simp [ih]

@[simp] theorem State.startExperts_kept (s : State) (c : Nat) : ((State.startExperts s c).fuses = s.fuses ∧
    (State.startExperts s c).pending = s.pending) := by
  unfold State.startExperts; (repeat' split) <;> simp [*]

@[simp] theorem State.msgAuthFail_kept (s : State) (c : Nat) (src : Nat) (kind : Nat) (mseq : Nat) :
    ((State.msgAuthFail s c src kind mseq).fuses = s.fuses ∧ (State.msgAuthFail s c src kind mseq).pending =
    s.pending) := by
  unfold State.msgAuthFail; simp [*]

@[simp] theorem State.gotHeader_kept (s : State) (c : Nat) (h : DispHeader) : ((State.gotHeader s c h).fuses =
    s.fuses ∧ (State.gotHeader s c h).pending = s.pending) := by
  unfold State.gotHeader; (repeat' split) <;> simp [*]

@[simp] theorem State.gotOutput_kept (s : State) (c : Nat) (r : DispRecord) : ((State.gotOutput s c r).fuses =
    s.fuses ∧ (State.gotOutput s c r).pending = s.pending) := by
  unfold State.gotOutput; dsimp only; (repeat' split) <;> simp [*]

@[simp] theorem State.sendOutput_kept (s : State) (c : Nat) (j : Job) (r : DispRecord) : ((State.sendOutput s c j
    r).fuses = s.fuses ∧ (State.sendOutput s c j r).pending = s.pending) := by
  unfold State.sendOutput; (repeat' split) <;> simp [*]

@[simp] theorem State.runLayer_kept (s : State) (c : Nat) (layer : Nat) : ((State.runLayer s c layer).fuses =
    s.fuses ∧ (State.runLayer s c layer).pending = s.pending) := by
  unfold State.runLayer; dsimp only; (repeat' split) <;> simp [*]

@[simp] theorem State.applyCutNow_kept (s : State) (c : Nat) (h : Head) : ((State.applyCutNow s c h).fuses = s.fuses
    ∧ (State.applyCutNow s c h).pending = s.pending) := by
  unfold State.applyCutNow; simp [*]

@[simp] theorem State.applyClosing_kept (s : State) (c : Nat) (h : Head) : ((State.applyClosing s c h).fuses =
    s.fuses ∧ (State.applyClosing s c h).pending = s.pending) := by
  unfold State.applyClosing; simp [*]

@[simp] theorem State.applyWaiting_kept (s : State) (c : Nat) (w : Waiting) : ((State.applyWaiting s c w).fuses =
    s.fuses ∧ (State.applyWaiting s c w).pending = s.pending) := by
  unfold State.applyWaiting; (repeat' split) <;> simp [*]

@[simp] theorem State.boundaryActions_kept (s : State) (c : Nat) (ws : List Waiting) : ((State.boundaryActions s c
    ws).fuses = s.fuses ∧ (State.boundaryActions s c ws).pending = s.pending) := by
  unfold State.boundaryActions; simp [*]

@[simp] theorem State.captureIfDue_kept (s : State) (c : Nat) : ((State.captureIfDue s c).fuses = s.fuses ∧
    (State.captureIfDue s c).pending = s.pending) := by
  unfold State.captureIfDue; (repeat' split) <;> simp [*]

@[simp] theorem State.tryClose_kept (s : State) (c : Nat) : ((State.tryClose s c).fuses = s.fuses ∧ (State.tryClose
    s c).pending = s.pending) := by
  unfold State.tryClose; (repeat' split) <;> simp [*]

@[simp] theorem State.idleBoundary_kept (s : State) (c : Nat) (ws : List Waiting) : ((State.idleBoundary s c
    ws).fuses = s.fuses ∧ (State.idleBoundary s c ws).pending = s.pending) := by
  unfold State.idleBoundary; simp [*]

@[simp] theorem State.boundaryCommand_kept (s : State) (c : Nat) (cmd : Instr) (data : List Byte) :
    ((State.boundaryCommand s c cmd data).fuses = s.fuses ∧ (State.boundaryCommand s c cmd data).pending =
    s.pending) := by
  unfold State.boundaryCommand; (repeat' split) <;> simp [*]

@[simp] theorem State.addStreamer_kept (s : State) (c : Nat) (dpa : Nat) (slice : Nat) (size : Nat) (toSlice : Bool)
    : ((State.addStreamer s c dpa slice size toSlice).fuses = s.fuses ∧ (State.addStreamer s c dpa slice size
    toSlice).pending = s.pending) := by
  unfold State.addStreamer; simp [*]

@[simp] theorem State.runStream_kept (s : State) (c : Nat) (i : Nat) : ((State.runStream s c i).fuses = s.fuses ∧
    (State.runStream s c i).pending = s.pending) := by
  unfold State.runStream; (repeat' split) <;> simp [*]

@[simp] theorem State.replayDone_kept (s : State) (c : Nat) : ((State.replayDone s c).fuses = s.fuses ∧
    (State.replayDone s c).pending = s.pending) := by
  unfold State.replayDone; (repeat' split) <;> simp [*]

@[simp] theorem State.beginStep_kept (s : State) (c : Nat) (j : Job) (gibbs : Bool) (a : BatchAcc) :
    ((State.beginStep s c j gibbs a).fuses = s.fuses ∧ (State.beginStep s c j gibbs a).pending = s.pending) := by
  unfold State.beginStep; simp [*]

@[simp] theorem State.startStep_kept (s : State) (c : Nat) : ((State.startStep s c).fuses = s.fuses ∧
    (State.startStep s c).pending = s.pending) := by
  unfold State.startStep; dsimp only; (repeat' split) <;> simp [*]

@[simp] theorem State.fetchPage_kept (s : State) (c : Nat) (p : Nat) : ((State.fetchPage s c p).fuses = s.fuses ∧
    (State.fetchPage s c p).pending = s.pending) := by
  unfold State.fetchPage; (repeat' split) <;> simp [*]

@[simp] theorem State.checkPage_kept (s : State) (c : Nat) (p : Nat) : ((State.checkPage s c p).fuses = s.fuses ∧
    (State.checkPage s c p).pending = s.pending) := by
  unfold State.checkPage; (repeat' split) <;> simp [*]

@[simp] theorem State.loadDone_kept (s : State) (t : Streamer) : ((State.loadDone s t).fuses = s.fuses ∧
    (State.loadDone s t).pending = s.pending) := by
  unfold State.loadDone; dsimp only; (repeat' split) <;> simp [*]

@[simp] theorem State.storeDone_kept (s : State) (t : Streamer) : ((State.storeDone s t).fuses = s.fuses ∧
    (State.storeDone s t).pending = s.pending) := by
  unfold State.storeDone; (repeat' split) <;> simp [*]

@[simp] theorem State.transferDone_kept (s : State) (t : Streamer) : ((State.transferDone s t).fuses = s.fuses ∧
    (State.transferDone s t).pending = s.pending) := by
  unfold State.transferDone; simp [*]

@[simp] theorem State.finishTransfers_kept (s : State) (c : Nat) : ((State.finishTransfers s c).fuses = s.fuses ∧
    (State.finishTransfers s c).pending = s.pending) := by
  unfold State.finishTransfers; simp [*]

@[simp] theorem State.endStream_kept (s : State) (c : Nat) (step : Nat) (ls : Logits) (i : Nat) (n : Nat) :
    ((State.endStream s c step ls i n).1.fuses = s.fuses ∧ (State.endStream s c step ls i n).1.pending = s.pending) := by
  unfold State.endStream; dsimp only; (repeat' split) <;> simp [*]

@[simp] theorem State.endStreams_kept (c : Nat) (step : Nat) (ls : Logits) (x0 : List (Nat × Nat)) (x1 : State ×
    List (List Byte)) : ((State.endStreams c step ls x0 x1).1.fuses = x1.1.fuses ∧ (State.endStreams c step ls x0
    x1).1.pending = x1.1.pending) := by
  induction x0 generalizing x1 with
  | nil => exact ⟨rfl, rfl⟩
  | cons c cs ih => unfold State.endStreams; simp [ih]

@[simp] theorem State.putTokens_kept (s : State) (c : Nat) (recs : List (List Byte)) : ((State.putTokens s c
    recs).fuses = s.fuses ∧ (State.putTokens s c recs).pending = s.pending) := by
  unfold State.putTokens; simp [*]

@[simp] theorem State.postBedDenied_kept (s : State) (c : Nat) (step : Nat) : ((State.postBedDenied s c step).fuses
    = s.fuses ∧ (State.postBedDenied s c step).pending = s.pending) := by
  unfold State.postBedDenied; (repeat' split) <;> simp [*]

@[simp] theorem State.boundary_kept (s : State) (c : Nat) (step : Nat) : ((State.boundary s c step).fuses = s.fuses
    ∧ (State.boundary s c step).pending = s.pending) := by
  unfold State.boundary; dsimp only; (repeat' split) <;> simp [*]

@[simp] theorem State.endStep_kept (s : State) (c : Nat) (ls : Logits) : ((State.endStep s c ls).fuses = s.fuses ∧
    (State.endStep s c ls).pending = s.pending) := by
  unfold State.endStep; dsimp only; (repeat' split) <;> simp [*]

@[simp] theorem State.hostCmd_kept (s : State) (h : Head) (op : Nat) (c : Nat) (k : State → State) (hk : ∀ (y0 :
    State), ((k y0).fuses = y0.fuses ∧ (k y0).pending = y0.pending)) : ((State.hostCmd s h op c k).fuses = s.fuses ∧
    (State.hostCmd s h op c k).pending = s.pending) := by
  unfold State.hostCmd; simp [*]

@[simp] theorem State.withData_kept (s : State) (h : Head) (op : Nat) (data : Option (List Byte)) (k : List Byte →
    State) (hk : ∀ (y0 : List Byte), ((k y0).fuses = s.fuses ∧ (k y0).pending = s.pending)) : ((State.withData s h
    op data k).fuses = s.fuses ∧ (State.withData s h op data k).pending = s.pending) := by
  unfold State.withData; (repeat' split) <;> simp [*]

@[simp] theorem State.boundaryCmd_kept (s : State) (h : Head) (op : Nat) (cmd : Instr) : ((State.boundaryCmd s h op
    cmd).fuses = s.fuses ∧ (State.boundaryCmd s h op cmd).pending = s.pending) := by
  unfold State.boundaryCmd; simp [*]

@[simp] theorem State.boundaryData_kept (s : State) (h : Head) (op : Nat) (cmd : Instr) (data : State → Option (List
    Byte)) : ((State.boundaryData s h op cmd data).fuses = s.fuses ∧ (State.boundaryData s h op cmd data).pending =
    s.pending) := by
  unfold State.boundaryData; simp [*]

@[simp] theorem State.cmdJobOpen_kept (s : State) (h : Head) (params : Nat) (paramSize : Nat) : ((State.cmdJobOpen s
    h params paramSize).fuses = s.fuses ∧ (State.cmdJobOpen s h params paramSize).pending = s.pending) := by
  unfold State.cmdJobOpen
  apply State.withData_kept
  intro d
  dsimp only
  (repeat' split) <;> simp [*]

@[simp] theorem State.cmdJobEnd_kept (s : State) (h : Head) (c : Nat) : ((State.cmdJobEnd s h c).fuses = s.fuses ∧
    (State.cmdJobEnd s h c).pending = s.pending) := by
  unfold State.cmdJobEnd; simp [*]

@[simp] theorem State.discardRing_kept (s : State) (c : Nat) : ((State.discardRing s c).fuses = s.fuses ∧
    (State.discardRing s c).pending = s.pending) := by
  unfold State.discardRing; simp [*]

@[simp] theorem State.cmdJobDiscard_kept (s : State) (h : Head) (c : Nat) : ((State.cmdJobDiscard s h c).fuses =
    s.fuses ∧ (State.cmdJobDiscard s h c).pending = s.pending) := by
  unfold State.cmdJobDiscard; (repeat' split) <;> simp [*]

@[simp] theorem execNop_kept (h : Head) (s : State) : Keeps (execNop h s) s := by
  unfold execNop; simp [*]

@[simp] theorem execJobOpen_kept (h : Head) (params : Nat) (paramSize : Nat) (s : State) : Keeps (execJobOpen h
    params paramSize s) s := by
  unfold execJobOpen; simp [*]

@[simp] theorem execJobClose_kept (h : Head) (s : State) : Keeps (execJobClose h s) s := by
  unfold execJobClose; simp [*]

@[simp] theorem execJobEnd_kept (h : Head) (ctx : Nat) (s : State) : Keeps (execJobEnd h ctx s) s := by
  unfold execJobEnd; simp [*]

@[simp] theorem execJobDiscard_kept (h : Head) (ctx : Nat) (s : State) : Keeps (execJobDiscard h ctx s) s := by
  unfold execJobDiscard; simp [*]

@[simp] theorem execOpen_kept (h : Head) (index : Nat) (count : Nat) (tokens : Nat) (params : Nat) (s : State) :
    Keeps (execOpen h index count tokens params s) s := by
  unfold execOpen; simp [*]

@[simp] theorem execScore_kept (h : Head) (index : Nat) (count : Nat) (tokens : Nat) (params : Nat) (s : State) :
    Keeps (execScore h index count tokens params s) s := by
  unfold execScore; simp [*]

@[simp] theorem execFork_kept (h : Head) (parent : Nat) (gen : Nat) (mode : Nat) (count : Nat) (children : Nat)
    (seeds : Nat) (s : State) : Keeps (execFork h parent gen mode count children seeds s) s := by
  unfold execFork; simp [*]

@[simp] theorem execAppend_kept (h : Head) (index : Nat) (gen : Nat) (count : Nat) (tokens : Nat) (s : State) :
    Keeps (execAppend h index gen count tokens s) s := by
  unfold execAppend; simp [*]

@[simp] theorem execResume_kept (h : Head) (index : Nat) (gen : Nat) (s : State) : Keeps (execResume h index gen s) s := by
  unfold execResume; simp [*]

@[simp] theorem execClose_kept (h : Head) (index : Nat) (gen : Nat) (s : State) : Keeps (execClose h index gen s) s := by
  unfold execClose; simp [*]

@[simp] theorem execSetLoad_kept (h : Head) (set : Nat) (count : Nat) (tokens : Nat) (s : State) : Keeps
    (execSetLoad h set count tokens s) s := by
  unfold execSetLoad; simp [*]

@[simp] theorem execBedStage_kept (h : Head) (bed : Nat) (flags : Nat) (epoch : Nat) (s : State) : Keeps
    (execBedStage h bed flags epoch s) s := by
  unfold execBedStage; simp [*]

@[simp] theorem execBedLoad_kept (h : Head) (bed : Nat) (host : Nat) (offset : Nat) (length : Nat) (s : State) :
    Keeps (execBedLoad h bed host offset length s) s := by
  unfold execBedLoad; simp [*]

@[simp] theorem execBedCommit_kept (h : Head) (bed : Nat) (flipStep : Nat) (digest : Nat) (s : State) : Keeps
    (execBedCommit h bed flipStep digest s) s := by
  unfold execBedCommit; simp [*]

@[simp] theorem execBedDrop_kept (h : Head) (bed : Nat) (s : State) : Keeps (execBedDrop h bed s) s := by
  unfold execBedDrop; simp [*]

@[simp] theorem execGibbsModelLoad_kept (h : Head) (desc : Nat) (work : Nat) (workSize : Nat) (s : State) : Keeps
    (execGibbsModelLoad h desc work workSize s) s := by
  unfold execGibbsModelLoad; simp [*]

@[simp] theorem execGibbsModelDrop_kept (h : Head) (handle : Nat) (s : State) : Keeps (execGibbsModelDrop h handle
    s) s := by
  unfold execGibbsModelDrop; simp [*]

@[simp] theorem execChainOpen_kept (h : Head) (index : Nat) (handle : Nat) (init : Nat) (seedMode : Nat) (seed :
    Nat) (temp : Nat) (clampLayers : Nat) (cflags : Nat) (clampPtr : Nat) (host : Nat) (user : Nat) (s : State) :
    Keeps (execChainOpen h index handle init seedMode seed temp clampLayers cflags clampPtr host user s) s := by
  unfold execChainOpen; simp [*]

@[simp] theorem execChainSet_kept (h : Head) (index : Nat) (gen : Nat) (select : Nat) (temp : Nat) (clampLayers :
    Nat) (cflags : Nat) (clampPtr : Nat) (s : State) : Keeps (execChainSet h index gen select temp clampLayers
    cflags clampPtr s) s := by
  unfold execChainSet; simp [*]

@[simp] theorem execChainWrite_kept (h : Head) (index : Nat) (gen : Nat) (layers : Nat) (host : Nat) (s : State) :
    Keeps (execChainWrite h index gen layers host s) s := by
  unfold execChainWrite; simp [*]

@[simp] theorem execChainRead_kept (h : Head) (index : Nat) (gen : Nat) (layers : Nat) (host : Nat) (s : State) :
    Keeps (execChainRead h index gen layers host s) s := by
  unfold execChainRead; simp [*]

@[simp] theorem execGibbsRun_kept (h : Head) (chains : Nat) (layers : Nat) (output : Nat) (list : Nat) (sweeps :
    Nat) (burn : Nat) (interval : Nat) (progressEvery : Nat) (result : Nat) (resultSize : Nat) (s : State) : Keeps
    (execGibbsRun h chains layers output list sweeps burn interval progressEvery result resultSize s) s := by
  unfold execGibbsRun; simp [*]

@[simp] theorem execCutNow_kept (h : Head) (s : State) : Keeps (execCutNow h s) s := by
  unfold execCutNow; simp [*]

@[simp] theorem execKernelLoad_kept (h : Head) (host : Nat) (size : Nat) (s : State) : Keeps (execKernelLoad h host
    size s) s := by
  unfold execKernelLoad; simp [*]

@[simp] theorem execKernelUnload_kept (h : Head) (handle : Nat) (s : State) : Keeps (execKernelUnload h handle s) s := by
  unfold execKernelUnload; simp [*]

@[simp] theorem execStepBind_kept (h : Head) (count : Nat) (list : Nat) (s : State) : Keeps (execStepBind h count
    list s) s := by
  unfold execStepBind; simp [*]

@[simp] theorem State.cmdRegister_kept (s : State) (h : Head) (c : Nat) (block : Nat) : ((State.cmdRegister s h c
    block).fuses = s.fuses ∧ (State.cmdRegister s h c block).pending = s.pending) := by
  unfold State.cmdRegister
  apply State.withData_kept
  intro d
  dsimp only
  (repeat' split) <;> simp [*]

@[simp] theorem State.clearStores_kept (s : State) (mask : Nat) : ((State.clearStores s mask).fuses = s.fuses ∧
    (State.clearStores s mask).pending = s.pending) := by
  unfold State.clearStores; simp [*]

@[simp] theorem State.beginScrub_kept (s : State) (mask : Nat) (reason : Nat) : ((State.beginScrub s mask
    reason).fuses = s.fuses ∧ (State.beginScrub s mask reason).pending = s.pending) := by
  unfold State.beginScrub; simp [*]

@[simp] theorem State.reloadJob_kept (s : State) (c : Nat) : ((State.reloadJob s c).fuses = s.fuses ∧
    (State.reloadJob s c).pending = s.pending) := by
  unfold State.reloadJob
  (try dsimp only)
  (repeat' split)
  all_goals first
    | (simp [*]; done)
    | (refine foldl_kept_from _ _ _ _ ?_ (by simp [*]); intro s a; (try dsimp only); (repeat' split) <;> simp [*]; done)

@[simp] theorem State.endSwitch_kept (s : State) (w : Switch) (mask : Nat) : ((State.endSwitch s w mask).fuses =
    s.fuses ∧ (State.endSwitch s w mask).pending = s.pending) := by
  unfold State.endSwitch; (repeat' split) <;> simp [*]

@[simp] theorem State.finishSwitch_kept (s : State) (w : Switch) : ((State.finishSwitch s w).fuses = s.fuses ∧
    (State.finishSwitch s w).pending = s.pending) := by
  unfold State.finishSwitch; (repeat' split) <;> simp [*]

@[simp] theorem State.beginSwitchScrub_kept (s : State) (w : Switch) : ((State.beginSwitchScrub s w).fuses = s.fuses
    ∧ (State.beginSwitchScrub s w).pending = s.pending) := by
  unfold State.beginSwitchScrub; simp [*]

@[simp] theorem State.beginSwitch_kept (s : State) (w : Switch) (j : Job) : ((State.beginSwitch s w j).fuses =
    s.fuses ∧ (State.beginSwitch s w j).pending = s.pending) := by
  unfold State.beginSwitch; simp [*]

@[simp] theorem State.switchStep_kept (s : State) : ((State.switchStep s).fuses = s.fuses ∧ (State.switchStep
    s).pending = s.pending) := by
  unfold State.switchStep; (repeat' split) <;> simp [*]

@[simp] theorem State.handOver_kept (s : State) (w : Switch) : ((State.handOver s w).fuses = s.fuses ∧
    (State.handOver s w).pending = s.pending) := by
  unfold State.handOver; dsimp only; (repeat' split) <;> simp [*]

@[simp] theorem State.vacate_kept (s : State) : ((State.vacate s).fuses = s.fuses ∧ (State.vacate s).pending =
    s.pending) := by
  unfold State.vacate; simp [*]

@[simp] theorem State.askSwitch_kept (s : State) (h : Head) (op : Nat) (inc : Nat) (mask : Nat) (destroy : Option
    Nat) : ((State.askSwitch s h op inc mask destroy).fuses = s.fuses ∧ (State.askSwitch s h op inc mask
    destroy).pending = s.pending) := by
  unfold State.askSwitch; simp [*]

@[simp] theorem State.cmdCtxRun_kept (s : State) (h : Head) (c : Nat) (mask : Nat) : ((State.cmdCtxRun s h c
    mask).fuses = s.fuses ∧ (State.cmdCtxRun s h c mask).pending = s.pending) := by
  unfold State.cmdCtxRun; simp [*]

@[simp] theorem State.cmdDestroy_kept (s : State) (h : Head) (c : Nat) : ((State.cmdDestroy s h c).fuses = s.fuses ∧
    (State.cmdDestroy s h c).pending = s.pending) := by
  unfold State.cmdDestroy; simp [*]

@[simp] theorem State.putRun_kept (s : State) (r : MRun) : ((State.putRun s r).fuses = s.fuses ∧ (State.putRun s
    r).pending = s.pending) := by
  unfold State.putRun; simp [*]

@[simp] theorem State.dropRun_kept (s : State) (r : MRun) : ((State.dropRun s r).fuses = s.fuses ∧ (State.dropRun s
    r).pending = s.pending) := by
  unfold State.dropRun; simp [*]

@[simp] theorem State.onRegions_kept (s : State) (ns : List Nat) (f : MRegion → MRegion) : ((State.onRegions s ns
    f).fuses = s.fuses ∧ (State.onRegions s ns f).pending = s.pending) := by
  unfold State.onRegions; simp [*]

@[simp] theorem State.setRegion_kept (s : State) (n : Nat) (g : MRegion) : ((State.setRegion s n g).fuses = s.fuses
    ∧ (State.setRegion s n g).pending = s.pending) := by
  unfold State.setRegion; simp [*]

@[simp] theorem State.takeCutting_kept (s : State) (r : MRun) : ((State.takeCutting s r).fuses = s.fuses ∧
    (State.takeCutting s r).pending = s.pending) := by
  unfold State.takeCutting; simp [*]

@[simp] theorem State.putSection_kept (s : State) (r : MRun) : ((State.putSection s r).fuses = s.fuses ∧
    (State.putSection s r).pending = s.pending) := by
  unfold State.putSection; simp [*]

@[simp] theorem State.applySample_kept (s : State) (r : MRun) (cands : List MossCand) (same : List (Option (Nat ×
    Nat))) : ((State.applySample s r cands same).fuses = s.fuses ∧ (State.applySample s r cands same).pending =
    s.pending) := by
  unfold State.applySample; simp [*]

@[simp] theorem State.sampleHere_kept (s : State) (r : MRun) : ((State.sampleHere s r).fuses = s.fuses ∧
    (State.sampleHere s r).pending = s.pending) := by
  unfold State.sampleHere; simp [*]

@[simp] theorem State.applySwaps_kept (s : State) (r : MRun) (rungs : List Nat) (swaps : Nat) : ((State.applySwaps s
    r rungs swaps).fuses = s.fuses ∧ (State.applySwaps s r rungs swaps).pending = s.pending) := by
  unfold State.applySwaps; simp [*]

@[simp] theorem State.exchangeHere_kept (s : State) (r : MRun) : ((State.exchangeHere s r).fuses = s.fuses ∧
    (State.exchangeHere s r).pending = s.pending) := by
  unfold State.exchangeHere; simp [*]

@[simp] theorem State.sendDecision_kept (s : State) (c : Nat) (m : MossDecisionMsg) : ((State.sendDecision s c
    m).fuses = s.fuses ∧ (State.sendDecision s c m).pending = s.pending) := by
  unfold State.sendDecision; simp [*]

@[simp] theorem State.sendFaces_kept (s : State) (r : MRun) (snapshot : Bool) (closing : Bool) : ((State.sendFaces s
    r snapshot closing).fuses = s.fuses ∧ (State.sendFaces s r snapshot closing).pending = s.pending) := by
  unfold State.sendFaces; (repeat' split) <;> simp [*]

@[simp] theorem State.copyRegion_kept (s : State) (h : Head) (n : Nat) (host : Nat) (result : Nat) :
    ((State.copyRegion s h n host result).fuses = s.fuses ∧ (State.copyRegion s h n host result).pending =
    s.pending) := by
  unfold State.copyRegion; simp [*]

@[simp] theorem State.serveReads_kept (s : State) (r : MRun) : ((State.serveReads s r).fuses = s.fuses ∧
    (State.serveReads s r).pending = s.pending) := by
  unfold State.serveReads; simp [*]

@[simp] theorem State.postProgress_kept (s : State) (r : MRun) : ((State.postProgress s r).fuses = s.fuses ∧
    (State.postProgress s r).pending = s.pending) := by
  unfold State.postProgress; simp [*]

@[simp] theorem State.freeRun_kept (s : State) (r : MRun) : ((State.freeRun s r).fuses = s.fuses ∧ (State.freeRun s
    r).pending = s.pending) := by
  unfold State.freeRun; simp [*]

@[simp] theorem State.writeResult_kept (s : State) (r : MRun) : ((State.writeResult s r).1.fuses = s.fuses ∧
    (State.writeResult s r).1.pending = s.pending) := by
  unfold State.writeResult; dsimp only; (repeat' split) <;> simp [*]

@[simp] theorem State.afterRun_kept (s : State) (c : Nat) : ((State.afterRun s c).fuses = s.fuses ∧ (State.afterRun
    s c).pending = s.pending) := by
  unfold State.afterRun; simp [*]

@[simp] theorem State.endRun_kept (s : State) (r : MRun) : ((State.endRun s r).fuses = s.fuses ∧ (State.endRun s
    r).pending = s.pending) := by
  unfold State.endRun; (repeat' split) <;> simp [*]

@[simp] theorem State.endStop_kept (s : State) (r : MRun) : ((State.endStop s r).fuses = s.fuses ∧ (State.endStop s
    r).pending = s.pending) := by
  unfold State.endStop; (repeat' split) <;> simp [*]

@[simp] theorem State.stopRun_kept (s : State) (r : MRun) : ((State.stopRun s r).fuses = s.fuses ∧ (State.stopRun s
    r).pending = s.pending) := by
  unfold State.stopRun; simp [*]

@[simp] theorem State.failRun_kept (s : State) (r : MRun) (status : Nat) : ((State.failRun s r status).fuses =
    s.fuses ∧ (State.failRun s r status).pending = s.pending) := by
  unfold State.failRun; (repeat' split) <;> simp [*]

@[simp] theorem State.chooseStop_kept (s : State) (r : MRun) : ((State.chooseStop s r).fuses = s.fuses ∧
    (State.chooseStop s r).pending = s.pending) := by
  unfold State.chooseStop; (repeat' split) <;> simp [*]

@[simp] theorem State.leadStart_kept (s : State) (r : MRun) : ((State.leadStart s r).fuses = s.fuses ∧
    (State.leadStart s r).pending = s.pending) := by
  unfold State.leadStart; (repeat' split) <;> simp [*]

@[simp] theorem State.applyDecision_kept (s : State) (r : MRun) (cands : List MossCand) (same : List (Option (Nat ×
    Nat))) : ((State.applyDecision s r cands same).fuses = s.fuses ∧ (State.applyDecision s r cands same).pending =
    s.pending) := by
  unfold State.applyDecision; simp [*]

@[simp] theorem State.leadDecide_kept (s : State) (r : MRun) : ((State.leadDecide s r).fuses = s.fuses ∧
    (State.leadDecide s r).pending = s.pending) := by
  unfold State.leadDecide; dsimp only; (repeat' split) <;> simp [*]

@[simp] theorem State.samplePart_kept (s : State) (r : MRun) (x : MExt) : ∀ t, (State.samplePart s r x) = some t →
    (t.fuses = s.fuses ∧ t.pending = s.pending) := by
  unfold State.samplePart; dsimp only; (repeat' split) <;> simp [*]

@[simp] theorem State.nextSegment_kept (s : State) (r : MRun) : ((State.nextSegment s r).fuses = s.fuses ∧
    (State.nextSegment s r).pending = s.pending) := by
  unfold State.nextSegment; simp [*]

@[simp] theorem State.cutStep_kept (s : State) (r : MRun) : ∀ t, (State.cutStep s r) = some t → (t.fuses = s.fuses ∧
    t.pending = s.pending) := by
  unfold State.cutStep; (repeat' split) <;> simp [*]

@[simp] theorem State.endStage_kept (s : State) (r : MRun) : ∀ t, (State.endStage s r) = some t → (t.fuses = s.fuses
    ∧ t.pending = s.pending) := by
  unfold State.endStage; (repeat' split) <;> simp [*]

@[simp] theorem State.mossStage_kept (s : State) (r : MRun) : ∀ t, (State.mossStage s r) = some t → (t.fuses =
    s.fuses ∧ t.pending = s.pending) := by
  intro t h
  unfold State.mossStage at h
  split at h
  · (repeat' split at h) <;> first
      | (simp at h; done)
      | (simp at h; subst h; simp [*]; done)
      | exact State.samplePart_kept _ _ _ _ h
  · (repeat' split at h) <;> first
      | (simp at h; done)
      | (simp at h; subst h; simp [*]; done)
  · (simp at h; subst h; simp)
  · exact State.cutStep_kept _ _ _ h
  · (simp at h; subst h; simp)
  · exact State.endStage_kept _ _ _ h
  · simp at h

@[simp] theorem State.mossAdvance_kept (x0 : Nat) (x1 : State) (x2 : Nat) (x3 : Nat) : ((State.mossAdvance x0 x1 x2
    x3).fuses = x1.fuses ∧ (State.mossAdvance x0 x1 x2 x3).pending = x1.pending) := by
  induction x0 generalizing x1 with
  | zero => exact ⟨rfl, rfl⟩
  | succ n ih =>
    unfold State.mossAdvance
    (repeat' split) <;> simp [*]
    next h => have := State.mossStage_kept _ _ _ h; simp [this]

@[simp] theorem State.halfSweepOf_kept (s : State) (r : MRun) : ((State.halfSweepOf s r).fuses = s.fuses ∧
    (State.halfSweepOf s r).pending = s.pending) := by
  unfold State.halfSweepOf; simp [*]

@[simp] theorem State.mossWaits_kept (s : State) : ((State.mossWaits s).fuses = s.fuses ∧ (State.mossWaits
    s).pending = s.pending) := by
  unfold State.mossWaits; simp [*]

@[simp] theorem State.randDone_kept (s : State) (h : Head) (op : Nat) (host : Nat) (bs : List Byte) :
    ((State.randDone s h op host bs).fuses = s.fuses ∧ (State.randDone s h op host bs).pending = s.pending) := by
  unfold State.randDone; simp [*]

@[simp] theorem State.served_kept (s : State) (r : RandReq) : ((State.served s r).fuses = s.fuses ∧ (State.served s
    r).pending = s.pending) := by
  unfold State.served; (repeat' split) <;> simp [*]

@[simp] theorem State.seedFailed_kept (s : State) (c : Nat) (i : Nat) (status : Nat) : ((State.seedFailed s c i
    status).fuses = s.fuses ∧ (State.seedFailed s c i status).pending = s.pending) := by
  unfold State.seedFailed; (repeat' split) <;> simp [*]

@[simp] theorem State.failed_kept (s : State) (r : RandReq) (status : Nat) : ((State.failed s r status).fuses =
    s.fuses ∧ (State.failed s r status).pending = s.pending) := by
  unfold State.failed; (repeat' split) <;> simp [*]

@[simp] theorem State.failClass_kept (s : State) (security : Bool) (status : Nat) : ((State.failClass s security
    status).fuses = s.fuses ∧ (State.failClass s security status).pending = s.pending) := by
  unfold State.failClass; simp [*]

@[simp] theorem State.deliverBlocks_kept (s : State) (window : Nat) (blocks : List (Nat × List Byte)) :
    ((State.deliverBlocks s window blocks).fuses = s.fuses ∧ (State.deliverBlocks s window blocks).pending =
    s.pending) := by
  unfold State.deliverBlocks; simp [*]

@[simp] theorem State.wantBlock_kept (s : State) : ((State.wantBlock s).fuses = s.fuses ∧ (State.wantBlock
    s).pending = s.pending) := by
  unfold State.wantBlock; simp [*]

@[simp] theorem State.generate_kept (s : State) (r : RandReq) : ((State.generate s r).fuses = s.fuses ∧
    (State.generate s r).pending = s.pending) := by
  unfold State.generate; simp [*]

@[simp] theorem State.serveDrbg_kept (x0 : Nat) (x1 : State) : ((State.serveDrbg x0 x1).fuses = x1.fuses ∧
    (State.serveDrbg x0 x1).pending = x1.pending) := by
  induction x0 generalizing x1 with
  | zero => exact ⟨rfl, rfl⟩
  | succ n ih => unfold State.serveDrbg; dsimp only; (repeat' split) <;> simp [ih]

@[simp] theorem State.serveRandom_kept (s : State) : ((State.serveRandom s).fuses = s.fuses ∧ (State.serveRandom
    s).pending = s.pending) := by
  unfold State.serveRandom; simp [*]

@[simp] theorem State.reseed_kept (s : State) (block : List Byte) : ((State.reseed s block).fuses = s.fuses ∧
    (State.reseed s block).pending = s.pending) := by
  unfold State.reseed; simp [*]

@[simp] theorem State.islandStop_kept (s : State) : ((State.islandStop s).fuses = s.fuses ∧ (State.islandStop
    s).pending = s.pending) := by
  unfold State.islandStop; simp [*]

@[simp] theorem State.askCommand_kept (s : State) (h : Head) (op : Nat) (r : RandReq) : ((State.askCommand s h op
    r).fuses = s.fuses ∧ (State.askCommand s h op r).pending = s.pending) := by
  unfold State.askCommand; simp [*]

@[simp] theorem execStepStart_kept (ctx : Nat) (s : State) : Keeps (execStepStart ctx s) s := by
  unfold execStepStart; simp [*]

@[simp] theorem execStepBoundary_kept (ctx : Nat) (logits : List (Nat × Nat × List W32)) (s : State) : Keeps
    (execStepBoundary ctx logits s) s := by
  unfold execStepBoundary; simp [*]

@[simp] theorem execCoreDrained_kept (p : Nat) (s : State) : Keeps (execCoreDrained p s) s := by
  unfold execCoreDrained; simp [*]

@[simp] theorem execPromptFetchDone_kept (ctx : Nat) (index : Nat) (s : State) : Keeps (execPromptFetchDone ctx
    index s) s := by
  unfold execPromptFetchDone; (repeat' split) <;> simp [*]

@[simp] theorem execLpxTransferDone_kept (ctx : Nat) (id : Nat) (e : Ecc) (s : State) : Keeps (execLpxTransferDone
    ctx id e s) s := by
  unfold execLpxTransferDone; (repeat' split) <;> simp [*]

@[simp] theorem execLpxRefresh_kept (ctrl : Nat) (rate : Nat) (s : State) : Keeps (execLpxRefresh ctrl rate s) s := by
  unfold execLpxRefresh; simp [*]

@[simp] theorem execDispatchHeader_kept (ctx : Nat) (h : DispHeader) (s : State) : Keeps (execDispatchHeader ctx h
    s) s := by
  unfold execDispatchHeader; simp [*]

@[simp] theorem execDispatchRecord_kept (ctx : Nat) (r : DispRecord) (mseq : Nat) (auth : Bool) (s : State) : Keeps
    (execDispatchRecord ctx r mseq auth s) s := by
  unfold execDispatchRecord; (repeat' split) <;> simp [*]

@[simp] theorem execExpertLayerRun_kept (ctx : Nat) (layer : Nat) (s : State) : Keeps (execExpertLayerRun ctx layer
    s) s := by
  unfold execExpertLayerRun; simp [*]

@[simp] theorem execExpertOutput_kept (ctx : Nat) (r : DispRecord) (mseq : Nat) (auth : Bool) (s : State) : Keeps
    (execExpertOutput ctx r mseq auth s) s := by
  unfold execExpertOutput; (repeat' split) <;> simp [*]

@[simp] theorem execBedVerifyDone_kept (ctx : Nat) (bed : Nat) (s : State) : Keeps (execBedVerifyDone ctx bed s) s := by
  unfold execBedVerifyDone; (repeat' split) <;> simp [*]

@[simp] theorem execPeerWaitLimit_kept (ctx : Nat) (rank : Nat) (s : State) : Keeps (execPeerWaitLimit ctx rank s) s := by
  unfold execPeerWaitLimit; (repeat' split) <;> simp [*]

@[simp] theorem execStepWatchdogExpire_kept (ctx : Nat) (s : State) : Keeps (execStepWatchdogExpire ctx s) s := by
  unfold execStepWatchdogExpire; (repeat' split) <;> simp [*]

@[simp] theorem State.defineRegion_kept (s : State) (h : Head) (n : Nat) (tx0 : Nat) (tx1 : Nat) (ty0 : Nat) (ty1 :
    Nat) : ((State.defineRegion s h n tx0 tx1 ty0 ty1).fuses = s.fuses ∧ (State.defineRegion s h n tx0 tx1 ty0
    ty1).pending = s.pending) := by
  unfold State.defineRegion; simp [*]

@[simp] theorem State.cmdMossRegion_kept (s : State) (h : Head) (n : Nat) (action : Nat) (tx0 : Nat) (tx1 : Nat)
    (ty0 : Nat) (ty1 : Nat) : ((State.cmdMossRegion s h n action tx0 tx1 ty0 ty1).fuses = s.fuses ∧
    (State.cmdMossRegion s h n action tx0 tx1 ty0 ty1).pending = s.pending) := by
  unfold State.cmdMossRegion; simp [*]

@[simp] theorem State.cmdMossLoad_kept (s : State) (h : Head) (n : Nat) (format : Nat) (flags : Nat) (ej : Nat) (eh
    : Nat) (source : Nat) : ((State.cmdMossLoad s h n format flags ej eh source).fuses = s.fuses ∧
    (State.cmdMossLoad s h n format flags ej eh source).pending = s.pending) := by
  unfold State.cmdMossLoad; dsimp only; (repeat' split) <;> simp [*]

@[simp] theorem State.setUpRun_kept (s : State) (r : MRun) (g : MRegion) : ((State.setUpRun s r g).fuses = s.fuses ∧
    (State.setUpRun s r g).pending = s.pending) := by
  unfold State.setUpRun; (repeat' split) <;> simp [*]

@[simp] theorem State.startRun_kept (s : State) (r : MRun) (images : List (List Byte)) : ((State.startRun s r
    images).fuses = s.fuses ∧ (State.startRun s r images).pending = s.pending) := by
  unfold State.startRun; simp [*]

@[simp] theorem State.mossStart_kept (s : State) (h : Head) (op : Nat) (slot : Option Nat) (d : MossData) :
    ((State.mossStart s h op slot d).fuses = s.fuses ∧ (State.mossStart s h op slot d).pending = s.pending) := by
  unfold State.mossStart; dsimp only; (repeat' split) <;> simp [*]

@[simp] theorem State.cmdMossRun_kept (s : State) (h : Head) (params : Nat) : ((State.cmdMossRun s h params).fuses =
    s.fuses ∧ (State.cmdMossRun s h params).pending = s.pending) := by
  unfold State.cmdMossRun; (repeat' split) <;> simp [*]

@[simp] theorem State.cmdMossResume_kept (s : State) (h : Head) (params : Nat) (slot : Nat) : ((State.cmdMossResume
    s h params slot).fuses = s.fuses ∧ (State.cmdMossResume s h params slot).pending = s.pending) := by
  unfold State.cmdMossResume; (repeat' split) <;> simp [*]

@[simp] theorem State.cmdMossStop_kept (s : State) (h : Head) (n : Nat) : ((State.cmdMossStop s h n).fuses = s.fuses
    ∧ (State.cmdMossStop s h n).pending = s.pending) := by
  unfold State.cmdMossStop; (repeat' split) <;> simp [*]

@[simp] theorem State.cmdMossRead_kept (s : State) (h : Head) (n : Nat) (host : Nat) : ((State.cmdMossRead s h n
    host).fuses = s.fuses ∧ (State.cmdMossRead s h n host).pending = s.pending) := by
  unfold State.cmdMossRead; dsimp only; (repeat' split) <;> simp [*]

@[simp] theorem execMossRegion_kept (h : Head) (region : Nat) (action : Nat) (tx0 : Nat) (tx1 : Nat) (ty0 : Nat)
    (ty1 : Nat) (s : State) : Keeps (execMossRegion h region action tx0 tx1 ty0 ty1 s) s := by
  unfold execMossRegion; simp [*]

@[simp] theorem execMossLoad_kept (h : Head) (region : Nat) (format : Nat) (flags : Nat) (ej : Nat) (eh : Nat)
    (source : Nat) (s : State) : Keeps (execMossLoad h region format flags ej eh source s) s := by
  unfold execMossLoad; simp [*]

@[simp] theorem execMossRun_kept (h : Head) (params : Nat) (s : State) : Keeps (execMossRun h params s) s := by
  unfold execMossRun; simp [*]

@[simp] theorem execMossStop_kept (h : Head) (run : Nat) (s : State) : Keeps (execMossStop h run s) s := by
  unfold execMossStop; simp [*]

@[simp] theorem execMossResume_kept (h : Head) (params : Nat) (slot : Nat) (s : State) : Keeps (execMossResume h
    params slot s) s := by
  unfold execMossResume; simp [*]

@[simp] theorem execMossRead_kept (h : Head) (region : Nat) (host : Nat) (s : State) : Keeps (execMossRead h region
    host s) s := by
  unfold execMossRead; simp [*]

@[simp] theorem State.ack_kept (s : State) (c : Nat) (j : Job) (kind : Nat) (id : Nat) : ((State.ack s c j kind
    id).fuses = s.fuses ∧ (State.ack s c j kind id).pending = s.pending) := by
  unfold State.ack; simp [*]

@[simp] theorem State.mirrorWrite_kept (s : State) (c : Nat) (j : Job) (kind : Nat) (id : Nat) (dpa : Nat) (line :
    Nat) (data : List Byte) : ((State.mirrorWrite s c j kind id dpa line data).fuses = s.fuses ∧ (State.mirrorWrite
    s c j kind id dpa line data).pending = s.pending) := by
  unfold State.mirrorWrite; simp [*]

@[simp] theorem State.mirrorChain_kept (s : State) (c : Nat) (j : Job) (m : PartnerMirror) (data : List Byte) :
    ((State.mirrorChain s c j m data).fuses = s.fuses ∧ (State.mirrorChain s c j m data).pending = s.pending) := by
  unfold State.mirrorChain; simp [*]

@[simp] theorem State.cutProgress_kept (s : State) (c : Nat) : ((State.cutProgress s c).fuses = s.fuses ∧
    (State.cutProgress s c).pending = s.pending) := by
  unfold State.cutProgress; simp [*]

@[simp] theorem State.gotPage_kept (s : State) (c : Nat) (p : Nat) (data : List Byte) : ((State.gotPage s c p
    data).fuses = s.fuses ∧ (State.gotPage s c p data).pending = s.pending) := by
  unfold State.gotPage; (repeat' split) <;> simp [*]

@[simp] theorem State.rewriteLine_kept (s : State) (c : Nat) (e : UeEntry) : ((State.rewriteLine s c e).fuses =
    s.fuses ∧ (State.rewriteLine s c e).pending = s.pending) := by
  unfold State.rewriteLine
  (try dsimp only)
  (repeat' split)
  all_goals first
    | (simp [*]; done)
    | (refine foldl_kept_from _ _ _ _ ?_ (by simp [*]); intro s a; (try dsimp only); (repeat' split) <;> simp [*]; done)

@[simp] theorem State.postResumable_kept (s : State) (c : Nat) (j : Job) (rec : List Byte) : ((State.postResumable s
    c j rec).fuses = s.fuses ∧ (State.postResumable s c j rec).pending = s.pending) := by
  unfold State.postResumable; simp [*]

@[simp] theorem State.setStage_kept (s : State) (c : Nat) (stage : Nat) (done : Nat) (total : Nat) :
    ((State.setStage s c stage done total).fuses = s.fuses ∧ (State.setStage s c stage done total).pending =
    s.pending) := by
  unfold State.setStage; simp [*]

@[simp] theorem State.regrowFail_kept (s : State) (c : Nat) (status : Nat) : ((State.regrowFail s c status).fuses =
    s.fuses ∧ (State.regrowFail s c status).pending = s.pending) := by
  unfold State.regrowFail; (repeat' split) <;> simp [*]

@[simp] theorem State.copyTables_kept (s : State) (c : Nat) (j : Job) (bmir : Nat) : ((State.copyTables s c j
    bmir).fuses = s.fuses ∧ (State.copyTables s c j bmir).pending = s.pending) := by
  unfold State.copyTables; simp [*]

@[simp] theorem State.refetch_kept (s : State) (c : Nat) (index : Nat) : ((State.refetch s c index).fuses = s.fuses
    ∧ (State.refetch s c index).pending = s.pending) := by
  unfold State.refetch; simp [*]

@[simp] theorem State.startReplay_kept (s : State) (c : Nat) : ((State.startReplay s c).fuses = s.fuses ∧
    (State.startReplay s c).pending = s.pending) := by
  unfold State.startReplay; (repeat' split) <;> simp [*]

@[simp] theorem State.tryRelease_kept (s : State) (c : Nat) : ((State.tryRelease s c).fuses = s.fuses ∧
    (State.tryRelease s c).pending = s.pending) := by
  unfold State.tryRelease; (repeat' split) <;> simp [*]

@[simp] theorem State.startAlign_kept (s : State) (c : Nat) : ((State.startAlign s c).fuses = s.fuses ∧
    (State.startAlign s c).pending = s.pending) := by
  unfold State.startAlign; (repeat' split) <;> simp [*]

@[simp] theorem State.applyRegrow_kept (s : State) (c : Nat) (j : Job) (r : Regrow) (x : CutRead) (other : Option
    CutRead) : ((State.applyRegrow s c j r x other).fuses = s.fuses ∧ (State.applyRegrow s c j r x other).pending =
    s.pending) := by
  unfold State.applyRegrow; dsimp only; (repeat' split) <;> simp [*]

@[simp] theorem State.fetchRegrow_kept (s : State) (c : Nat) : ((State.fetchRegrow s c).fuses = s.fuses ∧
    (State.fetchRegrow s c).pending = s.pending) := by
  unfold State.fetchRegrow; dsimp only; (repeat' split) <;> simp [*]

@[simp] theorem State.beginRegrowReset_kept (s : State) (c : Nat) (j : Job) (r : Regrow) : ((State.beginRegrowReset
    s c j r).fuses = s.fuses ∧ (State.beginRegrowReset s c j r).pending = s.pending) := by
  unfold State.beginRegrowReset; simp [*]

@[simp] theorem State.regrowStep_kept (s : State) (c : Nat) : ((State.regrowStep s c).fuses = s.fuses ∧
    (State.regrowStep s c).pending = s.pending) := by
  unfold State.regrowStep; (repeat' split) <;> simp [*]

@[simp] theorem State.regrowPoll_kept (s : State) : ((State.regrowPoll s).fuses = s.fuses ∧ (State.regrowPoll
    s).pending = s.pending) := by
  unfold State.regrowPoll; simp [*]

@[simp] theorem State.regrowAfterReset_kept (s : State) (mask : Nat) : ((State.regrowAfterReset s mask).fuses =
    s.fuses ∧ (State.regrowAfterReset s mask).pending = s.pending) := by
  unfold State.regrowAfterReset
  (try dsimp only)
  (repeat' split)
  all_goals first
    | (simp [*]; done)
    | (refine foldl_kept_from _ _ _ _ ?_ (by simp [*]); intro s a; (try dsimp only); (repeat' split) <;> simp [*]; done)

@[simp] theorem State.cmdRegrow_kept (s : State) (h : Head) (cut : Nat) (source : Nat) (replace : Nat) (c : Nat)
    (number : Nat) (replayStep : Nat) (replayIndex : Nat) (replayPos : Nat) (replaySample : Nat) : ((State.cmdRegrow
    s h cut source replace c number replayStep replayIndex replayPos replaySample).fuses = s.fuses ∧
    (State.cmdRegrow s h cut source replace c number replayStep replayIndex replayPos replaySample).pending =
    s.pending) := by
  unfold State.cmdRegrow; (repeat' split) <;> simp [*]

@[simp] theorem State.clock_kept (s : State) : ((State.clock s).fuses = s.fuses ∧ (State.clock s).pending = s.pending) := by
  unfold State.clock; simp [*]

@[simp] theorem execCtxRegister_kept (h : Head) (ctx : Nat) (block : Nat) (s : State) : Keeps (execCtxRegister h ctx
    block s) s := by
  unfold execCtxRegister; simp [*]

@[simp] theorem execCtxDestroy_kept (h : Head) (ctx : Nat) (s : State) : Keeps (execCtxDestroy h ctx s) s := by
  unfold execCtxDestroy; simp [*]

@[simp] theorem execCtxRun_kept (h : Head) (ctx : Nat) (halves : Nat) (s : State) : Keeps (execCtxRun h ctx halves
    s) s := by
  unfold execCtxRun; simp [*]

@[simp] theorem execCtxSwitch_kept (half : Nat) (s : State) : Keeps (execCtxSwitch half s) s := by
  unfold execCtxSwitch; (repeat' split) <;> simp [*]

@[simp] theorem execPartitionZeroDone_kept (ctx : Nat) (s : State) : Keeps (execPartitionZeroDone ctx s) s := by
  unfold execPartitionZeroDone; simp [*]

@[simp] theorem execModeChangeStart_kept (s : State) : Keeps (execModeChangeStart s) s := by
  unfold execModeChangeStart; simp [*]

@[simp] theorem execCuttingWriteStart_kept (ctx : Nat) (s : State) : Keeps (execCuttingWriteStart ctx s) s := by
  unfold execCuttingWriteStart; (repeat' split) <;> simp [*]

@[simp] theorem execCuttingWriteDone_kept (ctx : Nat) (s : State) : Keeps (execCuttingWriteDone ctx s) s := by
  unfold execCuttingWriteDone; (repeat' split) <;> simp [*]

@[simp] theorem execCommitNotice_kept (ctx : Nat) (rank : Nat) (step : Nat) (s : State) : Keeps (execCommitNotice
    ctx rank step s) s := by
  unfold execCommitNotice; (repeat' split) <;> simp [*]

@[simp] theorem execCuttingFlush_kept (ctx : Nat) (s : State) : Keeps (execCuttingFlush ctx s) s := by
  unfold execCuttingFlush; (repeat' split) <;> simp [*]

@[simp] theorem execSealedPageMirror_kept (ctx : Nat) (page : Nat) (data : List Byte) (s : State) : Keeps
    (execSealedPageMirror ctx page data s) s := by
  unfold execSealedPageMirror; (repeat' split) <;> simp [*]

@[simp] theorem execOpenPageLines_kept (ctx : Nat) (page : Nat) (line : Nat) (data : List Byte) (s : State) : Keeps
    (execOpenPageLines ctx page line data s) s := by
  unfold execOpenPageLines; (repeat' split) <;> simp [*]

@[simp] theorem execCuttingImageMirror_kept (ctx : Nat) (slot : Nat) (offset : Nat) (data : List Byte) (s : State) :
    Keeps (execCuttingImageMirror ctx slot offset data s) s := by
  unfold execCuttingImageMirror; (repeat' split) <;> simp [*]

@[simp] theorem execChainStateCopy_kept (ctx : Nat) (data : List Byte) (s : State) : Keeps (execChainStateCopy ctx
    data s) s := by
  unfold execChainStateCopy; (repeat' split) <;> simp [*]

@[simp] theorem execBedCopy_kept (ctx : Nat) (bed : Nat) (offset : Nat) (data : List Byte) (s : State) : Keeps
    (execBedCopy ctx bed offset data s) s := by
  unfold execBedCopy; (repeat' split) <;> simp [*]

@[simp] theorem execMirrorAck_kept (ctx : Nat) (kind : Nat) (id : Nat) (s : State) : Keeps (execMirrorAck ctx kind
    id s) s := by
  unfold execMirrorAck; (repeat' split) <;> simp [*]

@[simp] theorem execMirrorSetUp_kept (ctx : Nat) (data : List Byte) (s : State) : Keeps (execMirrorSetUp ctx data s) s := by
  unfold execMirrorSetUp; (repeat' split) <;> simp [*]

@[simp] theorem execPageFetchRequest_kept (ctx : Nat) (page : Nat) (s : State) : Keeps (execPageFetchRequest ctx
    page s) s := by
  unfold execPageFetchRequest; (repeat' split) <;> simp [*]

@[simp] theorem execPageFetchResponse_kept (ctx : Nat) (page : Nat) (data : List Byte) (s : State) : Keeps
    (execPageFetchResponse ctx page data s) s := by
  unfold execPageFetchResponse; (repeat' split) <;> simp [*]

@[simp] theorem execJobEndNotice_kept (ctx : Nat) (rank : Nat) (s : State) : Keeps (execJobEndNotice ctx rank s) s := by
  unfold execJobEndNotice; (repeat' split) <;> simp [*]

@[simp] theorem execRandStoch_kept (h : Head) (length : Nat) (flags : Nat) (host : Nat) (s : State) : Keeps
    (execRandStoch h length flags host s) s := by
  unfold execRandStoch; simp [*]

@[simp] theorem execRandDrbg_kept (h : Head) (length : Nat) (flags : Nat) (host : Nat) (s : State) : Keeps
    (execRandDrbg h length flags host s) s := by
  unfold execRandDrbg; simp [*]

@[simp] theorem execRandRaw_kept (h : Head) (length : Nat) (flags : Nat) (host : Nat) (s : State) : Keeps
    (execRandRaw h length flags host s) s := by
  unfold execRandRaw; simp [*]

@[simp] theorem State.healthFail_kept (s : State) (w : Nat) (consec : Nat) (f : Nat × Nat × Nat) :
    ((State.healthFail s w consec f).fuses = s.fuses ∧ (State.healthFail s w consec f).pending = s.pending) := by
  unfold State.healthFail; simp [*]

@[simp] theorem State.haltSecurity_kept (s : State) (w : Nat) : ((State.haltSecurity s w).fuses = s.fuses ∧
    (State.haltSecurity s w).pending = s.pending) := by
  unfold State.haltSecurity; simp [*]

@[simp] theorem State.failStochastic_kept (s : State) (w : Nat) : ((State.failStochastic s w).fuses = s.fuses ∧
    (State.failStochastic s w).pending = s.pending) := by
  unfold State.failStochastic; simp [*]

@[simp] theorem State.startupPassed_kept (s : State) (w : Nat) : ((State.startupPassed s w).fuses = s.fuses ∧
    (State.startupPassed s w).pending = s.pending) := by
  unfold State.startupPassed; simp [*]

@[simp] theorem State.takeSecurity_kept (s : State) (w : Nat) (sec : Option Nat) (bs : List (List Byte × Nat × Osc))
    : ((State.takeSecurity s w sec bs).fuses = s.fuses ∧ (State.takeSecurity s w sec bs).pending = s.pending) := by
  unfold State.takeSecurity; (repeat' split) <;> simp [*]

@[simp] theorem State.windowEnd_kept (s : State) (samples : List (List Byte)) : ((State.windowEnd s samples).fuses =
    s.fuses ∧ (State.windowEnd s samples).pending = s.pending) := by
  unfold State.windowEnd; simp [*]

@[simp] theorem execEnsWindowEnd_kept (blocks : List (List Byte)) (s : State) : Keeps (execEnsWindowEnd blocks s) s := by
  unfold execEnsWindowEnd; simp [*]

@[simp] theorem execEnsRestartSettle_kept (s : State) : Keeps (execEnsRestartSettle s) s := by
  unfold execEnsRestartSettle; simp [*]

@[simp] theorem State.writeEnsTest_kept (s : State) (v : Nat) : ((State.writeEnsTest s v).fuses = s.fuses ∧
    (State.writeEnsTest s v).pending = s.pending) := by
  unfold State.writeEnsTest; simp [*]

@[simp] theorem execEnsTestWrite_kept (v : W32) (s : State) : Keeps (execEnsTestWrite v s) s := by
  unfold execEnsTestWrite; simp [*]

@[simp] theorem execDrbgInstantiate_kept (kat : Bool) (s : State) : Keeps (execDrbgInstantiate kat s) s := by
  unfold execDrbgInstantiate; (repeat' split) <;> simp [*]

@[simp] theorem execDrbgReseed_kept (s : State) : Keeps (execDrbgReseed s) s := by
  unfold execDrbgReseed; (repeat' split) <;> simp [*]

@[simp] theorem execRegrow_kept (h : Head) (cutStep : Nat) (source : Nat) (replace : Nat) (ctx : Nat) (regrowNo :
    Nat) (replayStep : Nat) (replayIndex : Nat) (replayPos : Nat) (replaySample : Nat) (s : State) : Keeps
    (execRegrow h cutStep source replace ctx regrowNo replayStep replayIndex replayPos replaySample s) s := by
  unfold execRegrow; simp [*]

@[simp] theorem execRegrowReady_kept (ctx : Nat) (rank : Nat) (number : Nat) (s : State) : Keeps (execRegrowReady
    ctx rank number s) s := by
  unfold execRegrowReady; (repeat' split) <;> simp [*]

@[simp] theorem execRegrowRelease_kept (ctx : Nat) (number : Nat) (s : State) : Keeps (execRegrowRelease ctx number
    s) s := by
  unfold execRegrowRelease; (repeat' split) <;> simp [*]

@[simp] theorem execDumpWriteComplete_kept (s : State) : Keeps (execDumpWriteComplete s) s := by
  unfold execDumpWriteComplete; simp [*]

@[simp] theorem State.runHost_kept (s : State) (i : Instr) : Keeps (State.runHost s i) s := by
  unfold State.runHost
  cases i <;> simp

@[simp] theorem State.runDesc_kept (s : State) (set : Nat) (b : List Byte) : Keeps (State.runDesc s set b) s := by
  unfold State.runDesc
  dsimp only
  split
  · simp
  · split
    · exact (State.runHost_kept _ _).trans_kept (by simp)
    · simp

@[simp] theorem execCmdFetch_kept (set : Nat) (s : State) : Keeps (execCmdFetch set s) s := by
  unfold execCmdFetch; dsimp only; (repeat' split) <;> simp [*]

@[simp] theorem execCtlNop_kept (p : Nat) (f : CtlFields) (s : State) : Keeps (execCtlNop p f s) s := by
  unfold execCtlNop; simp [*]

@[simp] theorem execAdd_kept (p : Nat) (f : CtlFields) (s : State) : Keeps (execAdd p f s) s := by
  unfold execAdd; simp [*]

@[simp] theorem execSub_kept (p : Nat) (f : CtlFields) (s : State) : Keeps (execSub p f s) s := by
  unfold execSub; simp [*]

@[simp] theorem execAnd_kept (p : Nat) (f : CtlFields) (s : State) : Keeps (execAnd p f s) s := by
  unfold execAnd; simp [*]

@[simp] theorem execOr_kept (p : Nat) (f : CtlFields) (s : State) : Keeps (execOr p f s) s := by
  unfold execOr; simp [*]

@[simp] theorem execXor_kept (p : Nat) (f : CtlFields) (s : State) : Keeps (execXor p f s) s := by
  unfold execXor; simp [*]

@[simp] theorem execShl_kept (p : Nat) (f : CtlFields) (s : State) : Keeps (execShl p f s) s := by
  unfold execShl; simp [*]

@[simp] theorem execShr_kept (p : Nat) (f : CtlFields) (s : State) : Keeps (execShr p f s) s := by
  unfold execShr; simp [*]

@[simp] theorem execSar_kept (p : Nat) (f : CtlFields) (s : State) : Keeps (execSar p f s) s := by
  unfold execSar; simp [*]

@[simp] theorem execMul_kept (p : Nat) (f : CtlFields) (s : State) : Keeps (execMul p f s) s := by
  unfold execMul; simp [*]

@[simp] theorem execAddi_kept (p : Nat) (f : CtlFields) (s : State) : Keeps (execAddi p f s) s := by
  unfold execAddi; simp [*]

@[simp] theorem execLi_kept (p : Nat) (f : CtlFields) (s : State) : Keeps (execLi p f s) s := by
  unfold execLi; simp [*]

@[simp] theorem execLih_kept (p : Nat) (f : CtlFields) (s : State) : Keeps (execLih p f s) s := by
  unfold execLih; simp [*]

@[simp] theorem execLds_kept (p : Nat) (f : CtlFields) (s : State) : Keeps (execLds p f s) s := by
  unfold execLds; simp [*]

@[simp] theorem execSts_kept (p : Nat) (f : CtlFields) (s : State) : Keeps (execSts p f s) s := by
  unfold execSts; simp [*]

@[simp] theorem execBr_kept (p : Nat) (f : CtlFields) (s : State) : Keeps (execBr p f s) s := by
  unfold execBr; simp [*]

@[simp] theorem execGetid_kept (p : Nat) (f : CtlFields) (s : State) : Keeps (execGetid p f s) s := by
  unfold execGetid; simp [*]

@[simp] theorem execEnd_kept (p : Nat) (f : CtlFields) (s : State) : Keeps (execEnd p f s) s := by
  unfold execEnd; simp [*]

@[simp] theorem execMma_kept (p : Nat) (f : MmaFields) (s : State) : Keeps (execMma p f s) s := by
  unfold execMma; simp [*]

@[simp] theorem execZero_kept (p : Nat) (f : ZeroFields) (s : State) : Keeps (execZero p f s) s := by
  unfold execZero; simp [*]

@[simp] theorem execTld_kept (p : Nat) (f : TldFields) (s : State) : Keeps (execTld p f s) s := by
  unfold execTld; simp [*]

@[simp] theorem execOut_kept (p : Nat) (f : OutFields) (s : State) : Keeps (execOut p f s) s := by
  unfold execOut; simp [*]

@[simp] theorem execSunif_kept (p : Nat) (f : SuFields) (s : State) : Keeps (execSunif p f s) s := by
  unfold execSunif; simp [*]

@[simp] theorem execSbernf_kept (p : Nat) (f : SuFields) (s : State) : Keeps (execSbernf p f s) s := by
  unfold execSbernf; simp [*]

@[simp] theorem execSbernp_kept (p : Nat) (f : SuFields) (s : State) : Keeps (execSbernp p f s) s := by
  unfold execSbernp; simp [*]

@[simp] theorem execSbernq_kept (p : Nat) (f : SuFields) (s : State) : Keeps (execSbernq p f s) s := by
  unfold execSbernq; simp [*]

@[simp] theorem execSgumb_kept (p : Nat) (f : SuFields) (s : State) : Keeps (execSgumb p f s) s := by
  unfold execSgumb; simp [*]

@[simp] theorem execScat_kept (p : Nat) (f : SuFields) (s : State) : Keeps (execScat p f s) s := by
  unfold execScat; simp [*]

@[simp] theorem State.issueSync_kept (s : State) (p : Nat) (w : W64) (checks : Core → List FaultCheck) (stall : Core
    → Stall) : ((State.issueSync s p w checks stall).fuses = s.fuses ∧ (State.issueSync s p w checks stall).pending
    = s.pending) := by
  unfold State.issueSync; dsimp only; (repeat' split) <;> simp [*]

@[simp] theorem execWait_kept (p : Nat) (f : WaitFields) (s : State) : Keeps (execWait p f s) s := by
  unfold execWait; simp [*]

@[simp] theorem execXfence_kept (p : Nat) (rest : BitVec 52) (s : State) : Keeps (execXfence p rest s) s := by
  unfold execXfence; simp [*]

@[simp] theorem execBar_kept (p : Nat) (f : BarFields) (s : State) : Keeps (execBar p f s) s := by
  unfold execBar; simp [*]

@[simp] theorem State.releaseBar_kept (s : State) (p : Nat) : ((State.releaseBar s p).fuses = s.fuses ∧
    (State.releaseBar s p).pending = s.pending) := by
  unfold State.releaseBar; dsimp only; (repeat' split) <;> simp [*]

@[simp] theorem execBarRelease_kept (p : Nat) (e : Ecc) (s : State) : Keeps (execBarRelease p e s) s := by
  unfold execBarRelease; (repeat' split) <;> simp [*]

@[simp] theorem execVadd_kept (p : Nat) (f : VeFields) (s : State) : Keeps (execVadd p f s) s := by
  unfold execVadd; simp [*]

@[simp] theorem execVsub_kept (p : Nat) (f : VeFields) (s : State) : Keeps (execVsub p f s) s := by
  unfold execVsub; simp [*]

@[simp] theorem execVmul_kept (p : Nat) (f : VeFields) (s : State) : Keeps (execVmul p f s) s := by
  unfold execVmul; simp [*]

@[simp] theorem execVfma_kept (p : Nat) (f : VeFields) (s : State) : Keeps (execVfma p f s) s := by
  unfold execVfma; simp [*]

@[simp] theorem execVmax_kept (p : Nat) (f : VeFields) (s : State) : Keeps (execVmax p f s) s := by
  unfold execVmax; simp [*]

@[simp] theorem execVmin_kept (p : Nat) (f : VeFields) (s : State) : Keeps (execVmin p f s) s := by
  unfold execVmin; simp [*]

@[simp] theorem execVadds_kept (p : Nat) (f : VeFields) (s : State) : Keeps (execVadds p f s) s := by
  unfold execVadds; simp [*]

@[simp] theorem execVmuls_kept (p : Nat) (f : VeFields) (s : State) : Keeps (execVmuls p f s) s := by
  unfold execVmuls; simp [*]

@[simp] theorem execVld_kept (p : Nat) (f : VeFields) (s : State) : Keeps (execVld p f s) s := by
  unfold execVld; simp [*]

@[simp] theorem execVst_kept (p : Nat) (f : VeFields) (s : State) : Keeps (execVst p f s) s := by
  unfold execVst; simp [*]

@[simp] theorem execVcvt_kept (p : Nat) (f : VeFields) (s : State) : Keeps (execVcvt p f s) s := by
  unfold execVcvt; simp [*]

@[simp] theorem execVact_kept (p : Nat) (f : VeFields) (s : State) : Keeps (execVact p f s) s := by
  unfold execVact; simp [*]

@[simp] theorem execVlog_kept (p : Nat) (f : VeFields) (s : State) : Keeps (execVlog p f s) s := by
  unfold execVlog; simp [*]

@[simp] theorem execVrsum_kept (p : Nat) (f : VeFields) (s : State) : Keeps (execVrsum p f s) s := by
  unfold execVrsum; simp [*]

@[simp] theorem execVrmaxi_kept (p : Nat) (f : VeFields) (s : State) : Keeps (execVrmaxi p f s) s := by
  unfold execVrmaxi; simp [*]

@[simp] theorem execVsort_kept (p : Nat) (f : VeFields) (s : State) : Keeps (execVsort p f s) s := by
  unfold execVsort; simp [*]

@[simp] theorem execVmerge_kept (p : Nat) (f : VeFields) (s : State) : Keeps (execVmerge p f s) s := by
  unfold execVmerge; simp [*]

@[simp] theorem execVtacc_kept (p : Nat) (f : VeFields) (s : State) : Keeps (execVtacc p f s) s := by
  unfold execVtacc; simp [*]

@[simp] theorem State.receive_kept (s : State) (p : Nat) (m : List Byte) (ts : List Nat) (k : State → FlitHead →
    State) (hk : ∀ (y0 : State) (y1 : FlitHead), ((k y0 y1).fuses = y0.fuses ∧ (k y0 y1).pending = y0.pending)) :
    ((State.receive s p m ts k).fuses = s.fuses ∧ (State.receive s p m ts k).pending = s.pending) := by
  unfold State.receive; simp [*]

@[simp] theorem State.returnCredit_kept (s : State) (p : Nat) (vc : Nat) : ((State.returnCredit s p vc).fuses =
    s.fuses ∧ (State.returnCredit s p vc).pending = s.pending) := by
  unfold State.returnCredit; simp [*]

@[simp] theorem execMessageForward_kept (port : Nat) (msg : List Byte) (s : State) : Keeps (execMessageForward port
    msg s) s := by
  unfold execMessageForward
  simp only [keeps_noUnit]
  intro _
  apply State.receive_kept
  intro s h
  (try dsimp only)
  (repeat' split) <;> simp [*]

@[simp] theorem execCreditReceive_kept (port : Nat) (msg : List Byte) (s : State) : Keeps (execCreditReceive port
    msg s) s := by
  unfold execCreditReceive; simp [*]

@[simp] theorem State.enterRecovery_kept (s : State) (p : Nat) : ((State.enterRecovery s p).fuses = s.fuses ∧
    (State.enterRecovery s p).pending = s.pending) := by
  unfold State.enterRecovery; simp [*]

@[simp] theorem execNakReceive_kept (port : Nat) (msg : List Byte) (s : State) : Keeps (execNakReceive port msg s) s := by
  unfold execNakReceive; simp [*]

@[simp] theorem execNakTimeout_kept (port : Nat) (s : State) : Keeps (execNakTimeout port s) s := by
  unfold execNakTimeout; simp [*]

@[simp] theorem State.loseLock_kept (s : State) (p : Nat) : ((State.loseLock s p).fuses = s.fuses ∧ (State.loseLock
    s p).pending = s.pending) := by
  unfold State.loseLock; simp [*]

@[simp] theorem execLinkLockLoss_kept (port : Nat) (s : State) : Keeps (execLinkLockLoss port s) s := by
  unfold execLinkLockLoss; simp [*]

@[simp] theorem execLrefclkLoss_kept (s : State) : Keeps (execLrefclkLoss s) s := by
  unfold execLrefclkLoss; simp [*]

@[simp] theorem execLinkRecovered_kept (port : Nat) (s : State) : Keeps (execLinkRecovered port s) s := by
  unfold execLinkRecovered; simp [*]

@[simp] theorem execRecoveryTimeout_kept (port : Nat) (s : State) : Keeps (execRecoveryTimeout port s) s := by
  unfold execRecoveryTimeout; simp [*]

@[simp] theorem execTrainReceive_kept (port : Nat) (msg : List Byte) (s : State) : Keeps (execTrainReceive port msg
    s) s := by
  unfold execTrainReceive; simp [*]

@[simp] theorem execLinkTrainingDone_kept (port : Nat) (s : State) : Keeps (execLinkTrainingDone port s) s := by
  unfold execLinkTrainingDone; simp [*]

@[simp] theorem execTrainingAttemptTimeout_kept (port : Nat) (s : State) : Keeps (execTrainingAttemptTimeout port s) s := by
  unfold execTrainingAttemptTimeout; simp [*]

@[simp] theorem State.checkChain_kept (s : State) (p : Nat) (chain : List Byte) : ((State.checkChain s p
    chain).fuses = s.fuses ∧ (State.checkChain s p chain).pending = s.pending) := by
  unfold State.checkChain; (repeat' split) <;> simp [*]

@[simp] theorem execKeyChainFragment_kept (port : Nat) (msg : List Byte) (s : State) : Keeps (execKeyChainFragment
    port msg s) s := by
  unfold execKeyChainFragment
  simp only [keeps_noUnit]
  intro _
  apply State.receive_kept
  intro s h
  (try dsimp only)
  (repeat' split) <;> simp [*]

@[simp] theorem execKeyJobSecret_kept (port : Nat) (msg : List Byte) (s : State) : Keeps (execKeyJobSecret port msg
    s) s := by
  unfold execKeyJobSecret
  simp only [keeps_noUnit]
  intro _
  apply State.receive_kept
  intro s h
  (try dsimp only)
  (repeat' split) <;> simp [*]

@[simp] theorem State.applyEnable_kept (s : State) (p : Nat) : ((State.applyEnable s p).fuses = s.fuses ∧
    (State.applyEnable s p).pending = s.pending) := by
  unfold State.applyEnable; simp [*]

@[simp] theorem State.portDomain_kept (s : State) (h : Nat) : ((State.portDomain s h).fuses = s.fuses ∧
    (State.portDomain s h).pending = s.pending) := by
  unfold State.portDomain; simp [*]

@[simp] theorem State.writeRzlCtrl_kept (s : State) (v : W32) : ((State.writeRzlCtrl s v).fuses = s.fuses ∧
    (State.writeRzlCtrl s v).pending = s.pending) := by
  unfold State.writeRzlCtrl; simp [*]

@[simp] theorem State.unlocked_kept (s : State) (k : State → State) (hk : ∀ (y0 : State), ((k y0).fuses = y0.fuses ∧
    (k y0).pending = y0.pending)) : ((State.unlocked s k).fuses = s.fuses ∧ (State.unlocked s k).pending =
    s.pending) := by
  unfold State.unlocked; simp [*]

@[simp] theorem execPortEnWrite_kept (v : W32) (s : State) : Keeps (execPortEnWrite v s) s := by
  unfold execPortEnWrite; simp [*]

@[simp] theorem execMossHalfSweep_kept (ctx : Nat) (run : Nat) (e : Ecc) (s : State) : Keeps (execMossHalfSweep ctx
    run e s) s := by
  unfold execMossHalfSweep; (repeat' split) <;> simp [*]

@[simp] theorem execAnnealCutWriteDone_kept (ctx : Nat) (run : Nat) (s : State) : Keeps (execAnnealCutWriteDone ctx
    run s) s := by
  unfold execAnnealCutWriteDone; (repeat' split) <;> simp [*]

@[simp] theorem execResultVectorWriteDone_kept (ctx : Nat) (run : Nat) (s : State) : Keeps
    (execResultVectorWriteDone ctx run s) s := by
  unfold execResultVectorWriteDone; (repeat' split) <;> simp [*]

@[simp] theorem execMossSetup_kept (ctx : Nat) (m : MossSetupMsg) (s : State) : Keeps (execMossSetup ctx m s) s := by
  unfold execMossSetup; (repeat' split) <;> simp [*]

@[simp] theorem execMossFace_kept (ctx : Nat) (m : MossFaceMsg) (s : State) : Keeps (execMossFace ctx m s) s := by
  unfold execMossFace; (repeat' split) <;> simp [*]

@[simp] theorem execMossExtHalfSweepStart_kept (ctx : Nat) (run : Nat) (s : State) : Keeps
    (execMossExtHalfSweepStart ctx run s) s := by
  unfold execMossExtHalfSweepStart; (repeat' split) <;> simp [*]

@[simp] theorem execMossPartials_kept (ctx : Nat) (m : MossPartialsMsg) (s : State) : Keeps (execMossPartials ctx m
    s) s := by
  unfold execMossPartials; (repeat' split) <;> simp [*]

@[simp] theorem State.gotDecision_kept (s : State) (r : MRun) (x : MExt) (x0 : MossDecisionMsg) :
    ((State.gotDecision s r x x0).fuses = s.fuses ∧ (State.gotDecision s r x x0).pending = s.pending) := by
  unfold State.gotDecision; (repeat' split) <;> simp [*]

@[simp] theorem execMossDecision_kept (ctx : Nat) (m : MossDecisionMsg) (s : State) : Keeps (execMossDecision ctx m
    s) s := by
  unfold execMossDecision; dsimp only; (repeat' split) <;> simp [*]

@[simp] theorem execDoorbellSnoop_kept (set : Nat) (cmdPi : W32) (tokCi : W32) (cplCi : W32) (evtCi : W32) (s :
    State) : Keeps (execDoorbellSnoop set cmdPi tokCi cplCi evtCi s) s := by
  unfold execDoorbellSnoop; simp [*]

@[simp] theorem execDoorbellObserve_kept (set : Nat) (s : State) : Keeps (execDoorbellObserve set s) s := by
  first
    | (unfold execDoorbellObserve; simp [*]; done)
    | (unfold execDoorbellObserve; (repeat' split) <;> simp [*]; done)
    | (unfold execDoorbellObserve; dsimp only; (repeat' split) <;> simp [*]; done)
    | (unfold execDoorbellObserve; simp; (repeat' split) <;> simp [*]; done)

@[simp] theorem State.bar2Write_kept (s : State) (set : Nat) (i : Nat) (v : W32) (k : State → State) (hk : ∀ (y0 :
    State), ((k y0).fuses = y0.fuses ∧ (k y0).pending = y0.pending)) : ((State.bar2Write s set i v k).fuses =
    s.fuses ∧ (State.bar2Write s set i v k).pending = s.pending) := by
  unfold State.bar2Write; simp [*]

@[simp] theorem execDbCmdPi_kept (set : Nat) (v : W32) (s : State) : Keeps (execDbCmdPi set v s) s := by
  unfold execDbCmdPi State.bar2Write
  rw [keeps_noUnit]
  intro _
  dsimp only
  (repeat' split) <;> simp

@[simp] theorem execDbTokCi_kept (set : Nat) (v : W32) (s : State) : Keeps (execDbTokCi set v s) s := by
  unfold execDbTokCi State.bar2Write
  rw [keeps_noUnit]
  intro _
  dsimp only
  (repeat' split) <;> simp

@[simp] theorem execDbCplCi_kept (set : Nat) (v : W32) (s : State) : Keeps (execDbCplCi set v s) s := by
  unfold execDbCplCi State.bar2Write
  rw [keeps_noUnit]
  intro _
  dsimp only
  (repeat' split) <;> simp

@[simp] theorem execDbEvtCi_kept (set : Nat) (v : W32) (s : State) : Keeps (execDbEvtCi set v s) s := by
  unfold execDbEvtCi State.bar2Write
  rw [keeps_noUnit]
  intro _
  dsimp only
  (repeat' split) <;> simp

@[simp] theorem execHostAccessTimeout_kept (set : Nat) (isWrite : Bool) (s : State) : Keeps (execHostAccessTimeout
    set isWrite s) s := by
  unfold execHostAccessTimeout; simp [*]

@[simp] theorem State.enableRing_kept (s : State) (set : Nat) : ((State.enableRing s set).fuses = s.fuses ∧
    (State.enableRing s set).pending = s.pending) := by
  first
    | (unfold State.enableRing; simp [*]; done)
    | (unfold State.enableRing; (repeat' split) <;> simp [*]; done)
    | (unfold State.enableRing; dsimp only; (repeat' split) <;> simp [*]; done)
    | (unfold State.enableRing; simp; (repeat' split) <;> simp [*]; done)

@[simp] theorem State.disableRing_kept (s : State) (set : Nat) : ((State.disableRing s set).fuses = s.fuses ∧
    (State.disableRing s set).pending = s.pending) := by
  unfold State.disableRing; simp [*]

@[simp] theorem State.writeQueCtrl_kept (s : State) (set : Nat) (v : W32) : ((State.writeQueCtrl s set v).fuses =
    s.fuses ∧ (State.writeQueCtrl s set v).pending = s.pending) := by
  unfold State.writeQueCtrl; simp [*]

@[simp] theorem execQueEnable_kept (set : Nat) (v : W32) (s : State) : Keeps (execQueEnable set v s) s := by
  unfold execQueEnable; simp [*]

@[simp] theorem execQueDisable_kept (set : Nat) (v : W32) (s : State) : Keeps (execQueDisable set v s) s := by
  unfold execQueDisable; simp [*]

@[simp] theorem execEventRelease_kept (reported : Nat) (s : State) : Keeps (execEventRelease reported s) s := by
  unfold execEventRelease; simp [*]

@[simp] theorem execIrqDelayExpire_kept (vec : Nat) (s : State) : Keeps (execIrqDelayExpire vec s) s := by
  unfold execIrqDelayExpire; simp [*]

@[simp] theorem State.onHost_kept (s : State) (f : HostPort → HostPort) : ((State.onHost s f).fuses = s.fuses ∧
    (State.onHost s f).pending = s.pending) := by
  unfold State.onHost; simp [*]

@[simp] theorem State.onSel_kept (s : State) (f : RingSet → RingSet) : ((State.onSel s f).fuses = s.fuses ∧
    (State.onSel s f).pending = s.pending) := by
  unfold State.onSel; simp [*]

@[simp] theorem State.onDisabled_kept (s : State) (f : RingSet → RingSet) : ((State.onDisabled s f).fuses = s.fuses
    ∧ (State.onDisabled s f).pending = s.pending) := by
  unfold State.onDisabled; simp [*]

@[simp] theorem State.writeApt_kept (s : State) (a : Nat) (v : Nat) : ((State.writeApt s a v).fuses = s.fuses ∧
    (State.writeApt s a v).pending = s.pending) := by
  unfold State.writeApt; simp [*]

@[simp] theorem State.writeReg64_kept (s : State) (ofs : Nat) (v : Nat) : ((State.writeReg64 s ofs v).fuses =
    s.fuses ∧ (State.writeReg64 s ofs v).pending = s.pending) := by
  unfold State.writeReg64; (repeat' split) <;> simp [*]

@[simp] theorem State.read4_kept (s : State) (ofs : Nat) : ((State.read4 s ofs).1.fuses = s.fuses ∧ (State.read4 s
    ofs).1.pending = s.pending) := by
  unfold State.read4; (repeat' split) <;> simp [*]

@[simp] theorem State.readBar_kept (s : State) (ofs : Nat) (size : Nat) : ((State.readBar s ofs size).1.fuses =
    s.fuses ∧ (State.readBar s ofs size).1.pending = s.pending) := by
  unfold State.readBar; (repeat' split) <;> simp [*]

@[simp] theorem execRegReadLowLatch_kept (offset : Nat) (size : Nat) (s : State) : Keeps (execRegReadLowLatch offset
    size s) s := by
  unfold execRegReadLowLatch; simp [*]

@[simp] theorem State.resetHalfSelects_kept (s : State) : ((State.resetHalfSelects s).fuses = s.fuses ∧
    (State.resetHalfSelects s).pending = s.pending) := by
  unfold State.resetHalfSelects; simp [*]

@[simp] theorem State.resetSelects_kept (s : State) : ((State.resetSelects s).fuses = s.fuses ∧ (State.resetSelects
    s).pending = s.pending) := by
  unfold State.resetSelects; simp [*]

@[simp] theorem State.resumeOthers_kept (s : State) : ((State.resumeOthers s).fuses = s.fuses ∧ (State.resumeOthers
    s).pending = s.pending) := by
  unfold State.resumeOthers
  (try dsimp only)
  (repeat' split)
  all_goals first
    | (simp [*]; done)
    | (refine foldl_kept_from _ _ _ _ ?_ (by simp [*]); intro s a; (try dsimp only); (repeat' split) <;> simp [*]; done)

@[simp] theorem State.endReset_kept (s : State) (r : ResetRun) : ((State.endReset s r).fuses = s.fuses ∧
    (State.endReset s r).pending = s.pending) := by
  unfold State.endReset; simp [*]

@[simp] theorem State.endBoot_kept (s : State) (failed : List Nat) : ((State.endBoot s failed).fuses = s.fuses ∧
    (State.endBoot s failed).pending = s.pending) := by
  first
    | (unfold State.endBoot; simp [*]; done)
    | (unfold State.endBoot; (repeat' split) <;> simp [*]; done)
    | (unfold State.endBoot; dsimp only; (repeat' split) <;> simp [*]; done)
    | (unfold State.endBoot; simp; (repeat' split) <;> simp [*]; done)

@[simp] theorem State.restartScrub_kept (s : State) : ((State.restartScrub s).fuses = s.fuses ∧ (State.restartScrub
    s).pending = s.pending) := by
  unfold State.restartScrub; (repeat' split) <;> simp [*]

@[simp] theorem State.endPartial_kept (s : State) (failed : List Nat) (r : ResetRun) : ((State.endPartial s failed
    r).fuses = s.fuses ∧ (State.endPartial s failed r).pending = s.pending) := by
  unfold State.endPartial; simp [*]

@[simp] theorem execResetComplete_kept (failed : List Nat) (s : State) : Keeps (execResetComplete failed s) s := by
  unfold execResetComplete; (repeat' split) <;> simp [*]

@[simp] theorem execHostLinkTrained_kept (cxl : Bool) (width : Nat) (rate : Nat) (cacheEn : Bool) (memEn : Bool)
    (ideIo : Bool) (ideCm : Bool) (busMaster : Bool) (s : State) : Keeps (execHostLinkTrained cxl width rate cacheEn
    memEn ideIo ideCm busMaster s) s := by
  unfold execHostLinkTrained; simp [*]

/-! ## The commands that can burn fuses -/

/-- The step leaves the queue and every fuse as they are, but that a lifecycle state may be burnt and the security version number may
rise. -/
def Burns (s t : State) : Prop :=
  t.pending = s.pending ∧ s.fuses.svn ≤ t.fuses.svn ∧ { t.fuses with lc := s.fuses.lc, svn := s.fuses.svn } = s.fuses

theorem Burns.refl (s : State) : Burns s s := ⟨rfl, Nat.le_refl _, rfl⟩

theorem Burns.trans {s t u : State} (h : Burns s t) (k : Burns t u) : Burns s u := by
  obtain ⟨h1, h2, h3⟩ := h
  obtain ⟨k1, k2, k3⟩ := k
  refine ⟨k1.trans h1, Nat.le_trans h2 k2, ?_⟩
  rw [← h3, ← k3]

/-- What keeps the fuses burns none. -/
theorem Burns.of_kept {s t : State} (h : t.fuses = s.fuses ∧ t.pending = s.pending) : Burns s t := by
  refine ⟨h.2, ?_, ?_⟩
  · exact Nat.le_of_eq (congrArg Fuses.svn h.1.symm)
  · rw [h.1]

theorem Burns.then_kept {s t u : State} (h : Burns s t) (k : u.fuses = t.fuses ∧ u.pending = t.pending) : Burns s u :=
  h.trans (Burns.of_kept k)

theorem Burns.foldl {α : Type} (f : State → α → State) (l : List α) (s : State) (h : ∀ s a, Burns s (f s a)) :
    Burns s (l.foldl f s) := by
  induction l generalizing s with
  | nil => exact Burns.refl s
  | cons a l ih => exact (h s a).trans (ih _)

theorem State.loadFuses_burns (s : State) : Burns s s.loadFuses := by
  unfold State.loadFuses
  split
  · exact ⟨rfl, Nat.le_refl _, rfl⟩
  · exact Burns.refl s

theorem State.startBoot_burns (s : State) : Burns s s.startBoot := by
  unfold State.startBoot
  dsimp only
  split
  · exact s.loadFuses_burns.trans (Burns.of_kept ⟨rfl, rfl⟩)
  · exact s.loadFuses_burns

theorem State.deviceReset_burns (s : State) (cause : Nat) : Burns s (s.deviceReset cause) := by
  unfold State.deviceReset
  split
  · exact Burns.refl s
  · refine Burns.trans (Burns.of_kept ?_) (State.startBoot_burns _)
    simp

theorem State.coldReset_burns (s : State) : Burns s s.coldReset := by
  unfold State.coldReset
  refine ⟨rfl, ?_, ?_⟩
  · dsimp only
    split <;> exact Nat.le_refl _
  · dsimp only
    split <;> rfl

theorem State.writeFwCmd_burns (s : State) (v : W32) : Burns s (s.writeFwCmd v) := by
  unfold State.writeFwCmd
  dsimp only
  (repeat' split) <;> first
    | (refine Burns.trans ?_ (Burns.of_kept (State.measure_kept _ _)); exact ⟨rfl, Nat.le_max_left _ _, rfl⟩)
    | exact Burns.of_kept (by simp)

theorem State.barGate_burns (s : State) (held : List HeldAccess) (ofs : Nat) (k : State → State) (h : ∀ s, Burns s (k s)) :
    Burns s (s.barGate held ofs k) := by
  unfold State.barGate
  (repeat' split)
  · exact Burns.refl s
  · exact Burns.of_kept ⟨rfl, rfl⟩
  · exact h s

theorem State.writeRstCmd_burns (s : State) (v : W32) : Burns s (s.writeRstCmd v) := by
  unfold State.writeRstCmd
  dsimp only
  (repeat' split) <;> first
    | exact State.deviceReset_burns _ _
    | exact Burns.of_kept (by simp)

theorem State.writeReg32_burns (s : State) (ofs : Nat) (w : W32) : Burns s (s.writeReg32 ofs w) := by
  unfold State.writeReg32
  dsimp only
  split <;> first
    | exact State.writeFwCmd_burns _ _
    | exact State.writeRstCmd_burns _ _
    | (exact Burns.of_kept (by simp))
    | (split <;> exact Burns.of_kept (by simp))

theorem State.write4_burns (s : State) (ofs : Nat) (w : W32) : Burns s (s.write4 ofs w) := by
  unfold State.write4
  dsimp only
  (repeat' split) <;> first
    | exact State.writeReg32_burns _ _ _
    | (exact Burns.of_kept (by simp))

theorem State.applyWrite_burns (s : State) (ofs size : Nat) (v : W64) : Burns s (s.applyWrite ofs size v) := by
  unfold State.applyWrite
  (repeat' split)
  · exact State.write4_burns _ _ _
  · exact Burns.of_kept (by simp)
  · exact Burns.refl s
  · exact (State.write4_burns _ _ _).trans (State.write4_burns _ _ _)

theorem State.hostWriteReg_burns (s : State) (ofs size : Nat) (v : W64) : Burns s (s.hostWriteReg ofs size v) := by
  unfold State.hostWriteReg
  split
  · exact Burns.refl s
  · exact State.barGate_burns _ _ _ _ fun s => State.applyWrite_burns s _ _ _

theorem State.releaseWrites_burns (s : State) : Burns s s.releaseWrites := by
  unfold State.releaseWrites
  exact Burns.trans (Burns.of_kept ⟨rfl, rfl⟩) (Burns.foldl _ _ _ fun s a => State.hostWriteReg_burns s _ _ _)

theorem State.afterScrub_burns (s : State) (reason : Nat) : Burns s (s.afterScrub reason) := by
  unfold State.afterScrub
  dsimp only
  split
  · refine Burns.trans (Burns.of_kept s.vacate_kept) (Burns.trans (State.releaseWrites_burns _) (Burns.of_kept ⟨rfl, rfl⟩))
  · split
    · next w _ =>
      refine Burns.then_kept (Burns.trans (Burns.of_kept (State.handOver_kept s w)) (State.releaseWrites_burns _)) ?_
      simp
    · refine Burns.then_kept (State.releaseWrites_burns _) ?_
      simp

theorem State.rstCmd_burns (s : State) (kind : Nat) (v : W32) : Burns s (s.rstCmd kind v) := by
  unfold State.rstCmd State.barWrite32
  split
  · exact State.barGate_burns _ _ _ _ fun s => State.writeRstCmd_burns s _
  · exact Burns.refl s

/-- What a command that burns fuses may do. -/
def Fusing (o : Out) (s : State) : Prop := ∀ t, o = .next t → Burns s t

@[simp] theorem fusing_next (s t : State) : Fusing (.next t) s ↔ Burns s t := by
  simp [Fusing]

theorem Keeps.fusing {o : Out} {s : State} (h : Keeps o s) : Fusing o s := fun t ht => Burns.of_kept (h t ht)

theorem execPwrgoodFall_burns (s : State) : Fusing (execPwrgoodFall s) s := by
  unfold execPwrgoodFall
  rw [fusing_next]
  split
  · exact s.coldReset_burns
  · exact Burns.refl s

theorem execPowerUp_burns (a b c k : Bool) (s : State) : Fusing (execPowerUp a b c k s) s := by
  unfold execPowerUp
  rw [fusing_next]
  split
  · exact Burns.refl s
  · have h : ∀ u : State, u.fuses = s.fuses ∧ u.pending = s.pending → Burns s u.startBoot := fun u hu =>
      (Burns.of_kept hu).trans (State.startBoot_burns u)
    have k : ∀ (u : State) (b : Bool), u.fuses = s.fuses ∧ u.pending = s.pending →
        Burns s (({ u.startBoot with sec := { u.startBoot.sec with islandFail := b } }).deviceFatal 0 0x23 0x0A04 8) :=
      fun u b hu => Burns.then_kept (h u hu) (by simp)
    dsimp only
    split
    · exact h _ ⟨rfl, rfl⟩
    · exact k _ _ ⟨rfl, rfl⟩

theorem execPerstNAssert_burns (ts : Nat) (s : State) : Fusing (execPerstNAssert ts s) s := by
  unfold execPerstNAssert
  rw [fusing_next]
  have h : Burns s (s.deviceReset 2) := State.deviceReset_burns s 2
  dsimp only
  split
  · exact Burns.refl s
  · split <;> split
    · exact h.then_kept (by simp)
    · exact Burns.of_kept (by simp)
    · exact h.then_kept (by simp)
    · exact Burns.of_kept (by simp)

theorem execSecFwStage_burns (s : State) : Fusing (execSecFwStage s) s :=
  (fusing_next _ _).2 (State.barGate_burns _ _ _ _ fun s => State.writeFwCmd_burns s _)

theorem execSecFwActivate_burns (s : State) : Fusing (execSecFwActivate s) s :=
  (fusing_next _ _).2 (State.barGate_burns _ _ _ _ fun s => State.writeFwCmd_burns s _)

theorem execSecFwAbort_burns (s : State) : Fusing (execSecFwAbort s) s :=
  (fusing_next _ _).2 (State.barGate_burns _ _ _ _ fun s => State.writeFwCmd_burns s _)

theorem execSecFwCommitSvn_burns (s : State) : Fusing (execSecFwCommitSvn s) s :=
  (fusing_next _ _).2 (State.barGate_burns _ _ _ _ fun s => State.writeFwCmd_burns s _)

theorem execRegWrite_burns (offset size : Nat) (v : W64) (s : State) : Fusing (execRegWrite offset size v s) s :=
  (fusing_next _ _).2 (State.hostWriteReg_burns s _ _ _)

theorem execRw1cWrite_burns (offset size : Nat) (v : W64) (s : State) : Fusing (execRw1cWrite offset size v s) s :=
  (fusing_next _ _).2 (State.hostWriteReg_burns s _ _ _)

theorem execRstCmdCore_burns (v : W32) (s : State) : Fusing (execRstCmdCore v s) s :=
  (fusing_next _ _).2 (State.rstCmd_burns s _ _)

theorem execRstCmdHalf_burns (v : W32) (s : State) : Fusing (execRstCmdHalf v s) s :=
  (fusing_next _ _).2 (State.rstCmd_burns s _ _)

theorem execRstCmdDevice_burns (v : W32) (s : State) : Fusing (execRstCmdDevice v s) s :=
  (fusing_next _ _).2 (State.rstCmd_burns s _ _)

theorem execScrubComplete_burns (s : State) : Fusing (execScrubComplete s) s := by
  unfold execScrubComplete
  rw [fusing_next]
  (repeat' split)
  · exact Burns.refl s
  · exact Burns.refl s
  · exact Burns.trans (Burns.of_kept (by simp)) (State.afterScrub_burns _ _)

end Sys2Proof.Machine
end

