-- ==== Sys2Proof/Laws/Twice.lean ====
section
/-!
SUPPORT. A second write of the same entry replaces the first, and the maps of the state after reset have their canonical form.
-/
namespace Sys2Proof.Machine
open Sys2Proof

theorem Map.del_insert {α : Type} (m : Map α) (k : Nat) (v : α) : Map.del (Map.insert m k v) k = Map.del m k := by
  induction m with
  | nil => simp [Map.insert, Map.del, Map.erase]
  | cons e r ih =>
    obtain ⟨k', w⟩ := e
    unfold Map.insert
    unfold Map.del Map.erase at ih ⊢
    split
    · simp
    · rw [List.filter_cons, ih, List.filter_cons]

theorem Map.del_del {α : Type} (m : Map α) (k : Nat) : Map.del (Map.del m k) k = Map.del m k := by
  simp [Map.del, Map.erase]

@[simp] theorem Map.set_set {α : Type} [DecidableEq α] (d : α) (m : Map α) (k : Nat) (v w : α) :
    Map.set d (Map.set d m k v) k w = Map.set d m k w := by
  have h : Map.del (Map.set d m k v) k = Map.del m k := by
    unfold Map.set
    split
    · exact Map.del_del m k
    · rw [Map.del_insert, Map.del_del]
  simp only [Map.set] at h ⊢
  rw [h]

@[simp] theorem Map.put_put {α : Type} (m : Map α) (k : Nat) (v w : α) : Map.put (Map.put m k v) k w = Map.put m k w := by
  unfold Map.put
  rw [Map.del_insert, Map.del_del]

@[simp] theorem State.setRing_setRing (s : State) (c : Nat) (x y : RingSet) : (s.setRing c x).setRing c y = s.setRing c y := by
  simp [State.setRing]
@[simp] theorem State.setPort_setPort (s : State) (p : Nat) (x y : Port) : (s.setPort p x).setPort p y = s.setPort p y := by
  simp [State.setPort]
@[simp] theorem State.setCore_setCore (s : State) (p : Nat) (x y : Core) : (s.setCore p x).setCore p y = s.setCore p y := by
  simp [State.setCore]
@[simp] theorem State.setLpx_setLpx (s : State) (p : Nat) (x y : Lpx) : (s.setLpx p x).setLpx p y = s.setLpx p y := by
  simp [State.setLpx]
@[simp] theorem State.setCtx_setCtx (s : State) (c : Nat) (x y : Ctx) : (s.setCtx c x).setCtx c y = s.setCtx c y := by
  simp [State.setCtx]
@[simp] theorem State.setJob_setJob (s : State) (c : Nat) (x y : Job) : (s.setJob c x).setJob c y = s.setJob c y := by
  simp [State.setJob]

/-! ## Reset -/

theorem reset_memories_wf : Memory.wf State.reset.flash = true ∧ Memory.wf State.reset.lpxMem = true ∧ Memory.wf State.reset.slices = true ∧
    Memory.wf State.reset.host.mem = true := ⟨rfl, rfl, rfl, rfl⟩

end Sys2Proof.Machine
end

