-- ==== Sys2Proof/WellFormed.lean ====
section
/-!
DEFINITION. The checks on a command's operands: the units that it names exist, and its data has the size that its rule
gives. A command that fails a check names nothing that a host, a kernel or the device can send.
-/
namespace Sys2Proof.Machine

/-- A physical core, 0 to 543 (R16). -/
def okCore (p : Nat) : Bool := decide (p < 544)
/-- A ring set, 0 to 15 (R453). -/
def okSet (c : Nat) : Bool := decide (c < 16)
/-- A context, 0 to 15 (R525). -/
def okCtx (c : Nat) : Bool := decide (c < 16)
/-- A Rhizome port, 0 to 15 (R488). -/
def okPort (p : Nat) : Bool := decide (p < 16)
/-- A half, 0 West or 1 East. -/
def okHalf (h : Nat) : Bool := decide (h < 2)
/-- An LPDDR5X controller, 0 to 31 (R187). -/
def okCtrl (i : Nat) : Bool := decide (i < 32)
/-- A power domain, 0 to 19 (R602). -/
def okDomain (d : Nat) : Bool := decide (d < 20)
/-- An MSI-X vector, 0 to 63 (R447). -/
def okVector (v : Nat) : Bool := decide (v < 64)
/-- A slice, 0 to 511 (R173). -/
def okSlice (i : Nat) : Bool := decide (i < 512)

/-- A host command's ring set exists and its running index has 64 bits (R455). -/
def okHead (h : Head) : Bool := okSet h.set && decide (h.seq < 2 ^ 64)
/-- Does each operand fit the bytes that R468 gives it? -/
def fits (ops : List (Nat × Nat)) : Bool := ops.all fun o => decide (o.1 < 2 ^ (8 * o.2))

/-- Are the operands of a command such as its rule gives them? -/
def wellFormed (i : Instr) : Bool :=
  match i with
  | .nop h => okHead h
  | .jobOpen h params paramSize => okHead h && fits [(params, 8), (paramSize, 4)]
  | .jobClose h => okHead h
  | .jobEnd h ctx => okHead h && fits [(ctx, 1)]
  | .jobDiscard h ctx => okHead h && fits [(ctx, 1)]
  | .open_ h index count tokens params => okHead h && fits [(index, 4), (count, 4), (tokens, 8), (params, 8)]
  | .score h index count tokens params => okHead h && fits [(index, 4), (count, 4), (tokens, 8), (params, 8)]
  | .fork h parent gen mode count children seeds => okHead h && fits [(parent, 4), (gen, 2), (mode, 1), (count, 2), (children, 8), (seeds, 8)]
  | .append h index gen count tokens => okHead h && fits [(index, 4), (gen, 2), (count, 4), (tokens, 8)]
  | .resume h index gen => okHead h && fits [(index, 4), (gen, 2)]
  | .close h index gen => okHead h && fits [(index, 4), (gen, 2)]
  | .setLoad h set count tokens => okHead h && fits [(set, 2), (count, 1), (tokens, 8)]
  | .bedStage h bed flags epoch => okHead h && fits [(bed, 1), (flags, 1), (epoch, 2)]
  | .bedLoad h bed host offset length => okHead h && fits [(bed, 1), (host, 8), (offset, 8), (length, 8)]
  | .bedCommit h bed flipStep digest => okHead h && fits [(bed, 1), (flipStep, 8), (digest, 8)]
  | .bedDrop h bed => okHead h && fits [(bed, 1)]
  | .gibbsModelLoad h desc work workSize => okHead h && fits [(desc, 8), (work, 8), (workSize, 8)]
  | .gibbsModelDrop h handle => okHead h && fits [(handle, 2)]
  | .chainOpen h index handle init seedMode seed temp clampLayers cflags clampPtr host user => okHead h && fits [(index, 4), (handle, 2), (init, 1), (seedMode, 1), (seed, 8), (temp, 4), (clampLayers, 2), (cflags, 2), (clampPtr, 8), (host, 8), (user, 8)]
  | .chainSet h index gen select temp clampLayers cflags clampPtr => okHead h && fits [(index, 4), (gen, 2), (select, 1), (temp, 4), (clampLayers, 2), (cflags, 2), (clampPtr, 8)]
  | .chainWrite h index gen layers host => okHead h && fits [(index, 4), (gen, 2), (layers, 2), (host, 8)]
  | .chainRead h index gen layers host => okHead h && fits [(index, 4), (gen, 2), (layers, 2), (host, 8)]
  | .gibbsRun h chains layers output list sweeps burn interval progressEvery result resultSize => okHead h && fits [(chains, 4), (layers, 2), (output, 1), (list, 8), (sweeps, 4), (burn, 4), (interval, 4), (progressEvery, 4), (result, 8), (resultSize, 8)]
  | .mossRegion h region action tx0 tx1 ty0 ty1 => okHead h && fits [(region, 1), (action, 1), (tx0, 1), (tx1, 1), (ty0, 1), (ty1, 1)]
  | .mossLoad h region format flags ej eh source => okHead h && fits [(region, 1), (format, 1), (flags, 1), (ej, 1), (eh, 1), (source, 8)]
  | .mossRun h params => okHead h && fits [(params, 8)]
  | .mossStop h run => okHead h && fits [(run, 4)]
  | .mossResume h params slot => okHead h && fits [(params, 8), (slot, 8)]
  | .mossRead h region host => okHead h && fits [(region, 1), (host, 8)]
  | .cutNow h => okHead h
  | .regrow h cutStep source replace ctx regrowNo replayStep replayIndex replayPos replaySample => okHead h && fits [(cutStep, 8), (source, 1), (replace, 1), (ctx, 1), (regrowNo, 4), (replayStep, 8), (replayIndex, 4), (replayPos, 4), (replaySample, 8)]
  | .ctxRegister h ctx block => okHead h && fits [(ctx, 1), (block, 8)]
  | .ctxDestroy h ctx => okHead h && fits [(ctx, 1)]
  | .ctxRun h ctx halves => okHead h && fits [(ctx, 1), (halves, 1)]
  | .kernelLoad h host size => okHead h && fits [(host, 8), (size, 4)]
  | .kernelUnload h handle => okHead h && fits [(handle, 4)]
  | .stepBind h count list => okHead h && fits [(count, 2), (list, 8)]
  | .randStoch h length flags host => okHead h && fits [(length, 4), (flags, 4), (host, 8)]
  | .randDrbg h length flags host => okHead h && fits [(length, 4), (flags, 4), (host, 8)]
  | .randRaw h length flags host => okHead h && fits [(length, 4), (flags, 4), (host, 8)]
  | .cmdFetch set => okSet set
  | .doorbellSnoop set _ _ _ _ => okSet set
  | .doorbellObserve set => okSet set
  | .dbCmdPi set _ => okSet set
  | .dbTokCi set _ => okSet set
  | .dbCplCi set _ => okSet set
  | .dbEvtCi set _ => okSet set
  | .hostAccessTimeout set _ => okSet set
  | .queEnable set _ => okSet set
  | .queDisable set _ => okSet set
  | .eventRelease _ => true
  | .irqDelayExpire vec => okVector vec
  | .hdmWrite _ data _ => decide (data.length ≤ 64)
  | .hdmRead _ size _ => decide (size ≤ 64)
  | .mma p _ => okCore p
  | .zero p _ => okCore p
  | .tld p _ => okCore p
  | .out p _ => okCore p
  | .vadd p _ => okCore p
  | .vsub p _ => okCore p
  | .vmul p _ => okCore p
  | .vfma p _ => okCore p
  | .vmax p _ => okCore p
  | .vmin p _ => okCore p
  | .vadds p _ => okCore p
  | .vmuls p _ => okCore p
  | .vld p _ => okCore p
  | .vst p _ => okCore p
  | .vcvt p _ => okCore p
  | .vact p _ => okCore p
  | .vlog p _ => okCore p
  | .vrsum p _ => okCore p
  | .vrmaxi p _ => okCore p
  | .vsort p _ => okCore p
  | .vmerge p _ => okCore p
  | .vtacc p _ => okCore p
  | .sunif p _ => okCore p
  | .sbernf p _ => okCore p
  | .sbernp p _ => okCore p
  | .sbernq p _ => okCore p
  | .sgumb p _ => okCore p
  | .scat p _ => okCore p
  | .xrd p _ => okCore p
  | .xwr p _ => okCore p
  | .xred p _ => okCore p
  | .wait p _ => okCore p
  | .bar p _ => okCore p
  | .xfence p _ => okCore p
  | .ctlNop p _ => okCore p
  | .add p _ => okCore p
  | .sub p _ => okCore p
  | .and_ p _ => okCore p
  | .or_ p _ => okCore p
  | .xor_ p _ => okCore p
  | .shl p _ => okCore p
  | .shr p _ => okCore p
  | .sar p _ => okCore p
  | .mul p _ => okCore p
  | .addi p _ => okCore p
  | .li p _ => okCore p
  | .lih p _ => okCore p
  | .lds p _ => okCore p
  | .sts p _ => okCore p
  | .br p _ => okCore p
  | .getid p _ => okCore p
  | .end_ p _ => okCore p
  | .instrComplete p queue _ => okCore p && decide (1 ≤ queue) && decide (queue ≤ 5)
  | .waitRelease p => okCore p
  | .xfenceRelease p => okCore p
  | .barRelease p _ => okCore p
  | .coreDrained p => okCore p
  | .xbSlotExecute p => okCore p
  | .xbSliceAccess p _ => okCore p
  | .xbDataLand p => okCore p
  | .xbAck p => okCore p
  | .stepStart ctx => okCtx ctx
  | .stepBoundary ctx _ => okCtx ctx
  | .promptFetchDone ctx _ => okCtx ctx
  | .lpxTransferDone ctx _ _ => okCtx ctx
  | .lpxRefresh ctrl _ => okCtrl ctrl
  | .dispatchHeader ctx _ => okCtx ctx
  | .dispatchRecord ctx _ _ _ => okCtx ctx
  | .expertLayerRun ctx _ => okCtx ctx
  | .expertOutput ctx _ _ _ => okCtx ctx
  | .rawPartials slice _ images => okSlice slice && images.all (fun b => b.length == 128)
  | .messageForward port msg => okPort port && msg.length == 128
  | .nakReceive port msg => okPort port && msg.length == 128
  | .nakTimeout port => okPort port
  | .creditReceive port msg => okPort port && msg.length == 128
  | .trainReceive port msg => okPort port && msg.length == 128
  | .keyChainFragment port msg => okPort port && msg.length == 128
  | .keyJobSecret port msg => okPort port && msg.length == 128
  | .linkTrainingDone port => okPort port
  | .trainingAttemptTimeout port => okPort port
  | .linkLockLoss port => okPort port
  | .linkRecovered port => okPort port
  | .recoveryTimeout port => okPort port
  | .portEnWrite _ => true
  | .cuttingWriteStart ctx => okCtx ctx
  | .cuttingWriteDone ctx => okCtx ctx
  | .commitNotice ctx _ _ => okCtx ctx
  | .cuttingFlush ctx => okCtx ctx
  | .sealedPageMirror ctx _ data => okCtx ctx && data.length == 0x40000
  | .openPageLines ctx _ _ _ => okCtx ctx
  | .cuttingImageMirror ctx _ _ _ => okCtx ctx
  | .chainStateCopy ctx _ => okCtx ctx
  | .bedCopy ctx _ _ _ => okCtx ctx
  | .mirrorAck ctx _ _ => okCtx ctx
  | .mirrorSetUp ctx _ => okCtx ctx
  | .pageFetchRequest ctx _ => okCtx ctx
  | .pageFetchResponse ctx _ data => okCtx ctx && data.length == 0x40000
  | .jobEndNotice ctx _ => okCtx ctx
  | .regrowReady ctx _ _ => okCtx ctx
  | .regrowRelease ctx _ => okCtx ctx
  | .mossHalfSweep ctx _ _ => okCtx ctx
  | .annealCutWriteDone ctx _ => okCtx ctx
  | .resultVectorWriteDone ctx _ => okCtx ctx
  | .mossSetup ctx _ => okCtx ctx
  | .mossFace ctx _ => okCtx ctx
  | .mossExtHalfSweepStart ctx _ => okCtx ctx
  | .mossPartials ctx _ => okCtx ctx
  | .mossDecision ctx _ => okCtx ctx
  | .ctxSwitch half => okHalf half
  | .scrubComplete => true
  | .partitionZeroDone ctx => okCtx ctx
  | .mgtModeReqWrite _ => true
  | .modeChangeStart => true
  | .spgKatGo => true
  | .spgKatDone => true
  | .secViewWrite _ => true
  | .secLcGo _ => true
  | .secFwStage => true
  | .secFwActivate => true
  | .secFwAbort => true
  | .secFwCommitSvn => true
  | .fwStagingDone => true
  | .fwVerifyDone => true
  | .fwReady => true
  | .fwActivateTimeout => true
  | .mgtPlanWrite _ => true
  | .planWriteDone => true
  | .glbLockWrite _ => true
  | .rasRetireCmd _ => true
  | .dmpGo _ => true
  | .dumpWriteComplete => true
  | .ckpThrReqWrite _ => true
  | .ensTestWrite _ => true
  | .rstCmdCore _ => true
  | .rstCmdHalf _ => true
  | .rstCmdDevice _ => true
  | .rw1cWrite offset size _ => decide (size ≤ 8) && decide (offset < 0x1000000)
  | .regWrite offset size _ => decide (size ≤ 8) && decide (offset < 0x1000000)
  | .regReadLowLatch offset size => decide (size ≤ 8) && decide (offset < 0x1000000)
  | .pwrgoodFall => true
  | .powerUp _ _ _ _ => true
  | .rootPllLock => true
  | .firmwareVerify slot => decide (slot < 2)
  | .primacyClaim half => okHalf half
  | .primacyTimeout => true
  | .lpxTrainingDone ctrl _ => okCtrl ctrl
  | .lpxZeroDone => true
  | .perstNAssert _ => true
  | .perstNDeassert => true
  | .flr => true
  | .refclkLoss => true
  | .lrefclkLoss => true
  | .thermtripSense sensor _ => decide (sensor < 16)
  | .throttleNEdge _ => true
  | .thermalThrottleTick half temps => okHalf half && temps.length == 8
  | .powerThrottleTick half _ => okHalf half
  | .throttleLevelApply half => okHalf half
  | .alignmentRelease => true
  | .resetComplete failed => failed.all okSlice
  | .domainPowerOn pd => okDomain pd
  | .domainIdleOff pd => okDomain pd
  | .rejoinRoundDone _ _ => true
  | .heartbeatSend half => okHalf half
  | .heartbeatMiss half => okHalf half
  | .telUpdate temps _ _ _ => temps.length == 16
  | .ensWindowEnd blocks => blocks.length == 32 && blocks.all (fun b => b.length == 128)
  | .ensRestartSettle => true
  | .drbgInstantiate _ => true
  | .drbgReseed => true
  | .peerWaitLimit ctx _ => okCtx ctx
  | .stepWatchdogExpire ctx => okCtx ctx
  | .smbStatus => true
  | .smbTemp => true
  | .smbPower => true
  | .smbThrottle => true
  | .smbAlert => true
  | .smbSerial => true
  | .smbAlertResponse => true
  | .jtagInstruction _ => true
  | .spdmGetMeasurements _ => true
  | .spdmRequest _ => true
  | .bedVerifyDone ctx bed => okCtx ctx && decide (bed < 2)
  | .illegalInstruction p _ => okCore p
  | .hostLinkTrained _ width rate _ _ _ _ _ => (width == 16 || width == 8 || width == 4 || width == 2 || width == 1) && decide (1 ≤ rate) && decide (rate ≤ 5)

end Sys2Proof.Machine
end

