-- ==== Sys2Proof/Tests/Slice0.lean ====
section
/-!
SUPPORT. The author's own tests: words written out from the encoding tables, ill-formed commands that WellFormed refuses, and for every
statement with hypotheses a concrete state and operands that meet all of them together.
-/
namespace Sys2Proof.Tests
open Sys2Proof Sys2Proof.Machine Sys2Proof.Slice0
set_option Elab.async false

/-! ## Words written out from the encoding tables (R121 to R141) -/

/-- MX: class 1, opcode 0x01, TD 2, FMTA 3, FMTB 5, TFMT 0, OVW 1, SA 4, SB 6, SK 7; opcode 0x04 is not in the table. -/
theorem test_word_mx : decodeIsa 0 0x101219490C700000#64 = some (.mma 0 ⟨2, 3, 5, 0, 1, 4, 6, 7, 0⟩) ∧
    decodeIsa 0 0x1040000000000000#64 = none := by decide

/-- VE: class 2; VADD opcode 0x01 with VD 2, VA 4, VB 8; VTACC opcode 0x24 with VA 4, VB 8, VC 17, FN 2, IMM 9. -/
theorem test_word_ve : decodeIsa 3 0x2011110000000000#64 = some (.vadd 3 ⟨2, 4, 8, 0, 0, 0, 0, 0, 0⟩) ∧
    decodeIsa 3 0x2240111100020009#64 = some (.vtacc 3 ⟨0, 4, 8, 17, 0, 0, 0, 2, 9⟩) := by decide

/-- SU: class 3, SGUMB opcode 0x05, DST 1, VA 2, SQ 4, SE 3, ST 9, N 64. -/
theorem test_word_su : decodeIsa 0 0x305088834C000000#64 = some (.sgumb 0 ⟨1, 2, 4, 3, 9, 64, 0⟩) := by decide

/-- XB: class 4, XRED opcode 0x03, SL 1, SM 2, SLOT 0x123, ROP 7. -/
theorem test_word_xb : decodeIsa 543 0x40308848DC000000#64 = some (.xred 543 ⟨1, 2, 0x123, 7, 0⟩) := by decide

/-- SYNC: class 5; WAIT opcode 0x01 with MASK 0x10; BAR opcode 0x02 with ID 0x801, SCOPE 2. -/
theorem test_word_sync : decodeIsa 0 0x5018000000000000#64 = some (.wait 0 ⟨16, 0⟩) ∧
    decodeIsa 0 0x5028018000000000#64 = some (.bar 0 ⟨0x801, 2, 0⟩) := by decide

/-- CTL: class 6; NOP is 0x6000000000000000; BR opcode 0x20 with SA 3, SB 4, COND 5, IMM -1; class 7 is not in the table. -/
theorem test_word_ctl : decodeIsa 0 0x6000000000000000#64 = some (.ctlNop 0 ⟨0, 0, 0, 0, 0⟩) ∧
    decodeIsa 0 0x62000C85FFFFFFFF#64 = some (.br 0 ⟨0, 3, 4, 5, 0xFFFFFFFF⟩) ∧ decodeIsa 0 0x7000000000000000#64 = none := by decide

/-! ## One ill-formed command for each check of WellFormed -/

/-- Each check refuses a unit or a size one past its range, and takes the last one in it. -/
theorem test_ill_formed :
    (∀ i ∈ [Instr.add 544 ⟨0, 0, 0, 0, 0⟩, .cmdFetch 16, .stepStart 16, .nakTimeout 16, .heartbeatSend 2, .lpxRefresh 32 0, .domainPowerOn 20,
        .irqDelayExpire 64, .rawPartials 512 0 [], .nop ⟨16, 0, 0#32⟩, .nop ⟨0, 2 ^ 64, 0#32⟩, .jobEnd ⟨0, 0, 0#32⟩ 256,
        .instrComplete 0 6 .clean, .hdmRead 0 65 .clean, .regReadLowLatch 0x1000000 4, .regReadLowLatch 0 9, .firmwareVerify 2, .thermtripSense 16 0,
        .rawPartials 0 0 [[0#8]], .messageForward 0 [], .telUpdate [] 0 0 0, .ensWindowEnd [], .bedVerifyDone 0 2], wellFormed i = false) ∧
    (∀ i ∈ [Instr.add 543 ⟨0, 0, 0, 0, 0⟩, .cmdFetch 15, .stepStart 15, .nakTimeout 15, .heartbeatSend 1, .lpxRefresh 31 0, .domainPowerOn 19,
        .irqDelayExpire 63, .rawPartials 511 0 [], .nop ⟨15, 2 ^ 64 - 1, 0#32⟩, .jobEnd ⟨0, 0, 0#32⟩ 255, .instrComplete 0 5 .clean,
        .hdmRead 0 64 .clean, .regReadLowLatch 0xFFFFFC 4, .firmwareVerify 1, .thermtripSense 15 0, .bedVerifyDone 0 1], wellFormed i = true) := by
  decide

/-! ## Concrete states -/

/-- A ring set after ENABLE with the sizes of R454 at their least. -/
def ring : RingSet :=
  { RingSet.init with enable := true, st := 1, negMinor := 3, szCmd := 6, szTok := 10, szCpl := 6, szEvt := 8,
                      cmdBase := 0x1000, tokBase := 0x4000, cplBase := 0x8000, evtBase := 0xC000, dbAddr := 0x10000, wbAddr := 0x10040 }

/-- A device that is READY in joined mode, with context 1 on both halves and ring sets 0 and 1 ACTIVE. -/
def live : State :=
  { State.reset with
    boot := { Boot.init with running := true, pllLock := true, aligned := true, fuses := true, firmware := true, controllers := true
                             plan := true, zeroed := true, rejoined := true, ready := true, wasReady := true }
    pins := { Pins.init with perst := false }
    west := { Half.init with owner := 1 }, east := { Half.init with owner := 1 }
    pwr := { Pwr.init with on := 0xFFFFF }
    mgt := { Mgt.init with agreed := true }
    sec := { Sec.init with ctxs := [(0, Ctx.host), (1, ⟨2, 0x0, 0x100000000, 1, 7, []⟩)], nextGen := 2 }
    host := { HostPort.init with busMaster := true, trained := true, width := 16, rate := 6, sets := [(0, ring), (1, ring)] } }

/-- A resident image of context 1 with one instruction, a 64 by 64 index tile 0 and a 64 by 64 tile 1 behind it, and a phase table that
gives port 0 a read in slot 0, a write in slot 1, an arithmetic reduction in slot 2 and an exact one in slot 3, of slice 0. -/
def img (i : Instr) : KImage :=
  { handle := 1, ctx := 1, size := 4096, codeOfs := 64, code := [wordOf i], entry := 0, consts := [], constLs := 0, argSize := 0,
    tileMap := [0x00000035#32, 0x00800025#32]
    table := some ⟨8, [0x0000000040000000#64, 0x0000000080000001#64, 0x00000000C0000002#64, 0x00000001C0000003#64]⟩ }

/-- Physical core 0, as `c` says, about to issue instruction `i`. -/
def at0 (c : Core) (i : Instr) : State :=
  { live with kernels := [img i] }.setCore 0 { c with st := .running, handle := 1, pc := 0, ended := false, stall := .none }

theorem at0_core (c : Core) (i : Instr) : (at0 c i).core 0 = { c with st := .running, handle := 1, pc := 0, ended := false, stall := .none } := by
  simp [at0, State.setCore, State.core]

/-- Core 0 stands at its instruction. -/
theorem atCore (c : Core) (i : Instr) : AtCore i 0 (at0 c i) (img i) where
  core := by decide
  image := by rw [State.imageOf, at0_core]; rfl
  runs := by rw [at0_core]; rfl
  word := by rw [at0_core]; rfl

/-- Registers s4 to s12 hold 4 to 12. -/
def core : Core := { Core.init with logical := 0, sregs := (List.range 9).map fun n => (n + 4, BitVec.ofNat 64 (n + 4)) }

/-- Nothing is in flight. -/
theorem core_idle (q : Nat) (i : Instr) : ((at0 core i).core 0).depth q < 16 := by rw [at0_core]; exact Nat.zero_lt_succ 15

/-! ## The cores -/

theorem witness_stepRunsFrontCommand : ({ live with pending := [.nop ⟨0, 0, 0#32⟩] } : State).pending = .nop ⟨0, 0, 0#32⟩ :: [] := rfl

theorem witness_ctlBinary (e : (Nat → CtlFields → Instr) × (W64 → W64 → W64)) (f : CtlFields) :
    AtCore (e.1 0 f) 0 (at0 core (e.1 0 f)) (img (e.1 0 f)) ∧ ((at0 core (e.1 0 f)).core 0).depth 5 < 16 := ⟨atCore _ _, core_idle _ _⟩

/-- A command answers a next state. -/
def ok (o : Out) : Bool := match o with | .next _ => true | _ => false

theorem ok_next {o : Out} (h : ok o = true) : ∃ t, o = .next t := by cases o <;> simp [ok] at h ⊢

theorem unhindered (i : Instr) (q : Nat) (rs : List (Nat × Nat)) : Unhindered ((at0 core i).core 0) q rs where
  room := core_idle q i
  landed := by rw [at0_core]; simp [Core.waitsFor, Core.landing, core, Core.init]

theorem witness_ctlImmediate (f : CtlFields) : ((at0 core (.addi 0 f)).core 0).depth 5 < 16 ∧
    (∀ i ∈ [Instr.addi 0 f, .li 0 f, .lih 0 f, .getid 0 f, .ctlNop 0 f, .end_ 0 f], AtCore i 0 (at0 core i) (img i)) ∧
    (∃ g : CtlFields, g.imm.toNat < 4 ∧ AtCore (.getid 0 g) 0 (at0 core (.getid 0 g)) (img (.getid 0 g))) :=
  ⟨core_idle _ _, fun _ _ => atCore _ _, ⟨⟨1, 0, 0, 0, 3⟩, by decide, atCore _ _⟩⟩

/-- The fields of LDS and STS at the last doubleword of local scratch: s5 at SA = 4, plus an immediate. -/
def lsEnd : CtlFields := ⟨1, 4, 5, 0, 0xFFFF4#32⟩

theorem witness_localScratch : (((at0 core (.sts 0 lsEnd)).core 0).sbits lsEnd.sa.toNat 19 0 : Int) + lsEnd.imm.toInt = (0xFFFF8 : Nat) ∧
    0xFFFF8 + 8 ≤ 0x100000 ∧ 0xFFFF8 % 8 = 0 ∧ (∀ i, Unhindered ((at0 core i).core 0) 5 [(0xFFFF8, 8)]) ∧
    AtCore (.lds 0 lsEnd) 0 (at0 core (.lds 0 lsEnd)) (img (.lds 0 lsEnd)) ∧
    AtCore (.sts 0 lsEnd) 0 (at0 core (.sts 0 lsEnd)) (img (.sts 0 lsEnd)) ∧
    ∃ t, exec (.sts 0 lsEnd) (at0 core (.sts 0 lsEnd)) = .next t :=
  ⟨by decide +kernel, by decide, by decide, fun i => unhindered i 5 _, atCore _ _, atCore _ _, ok_next (by decide +kernel)⟩

/-- One doubleword further, and one byte off. -/
theorem witness_localScratchBounds : ∀ imm ∈ [0xFFFFC#32, 0xFFFF5#32, 0xFFFFFFF4#32], ∃ a : Int,
    a = (((at0 core (.lds 0 ⟨1, 4, 5, 0, imm⟩)).core 0).sbits 4 19 0 : Int) + imm.toInt ∧ (a < 0 ∨ 0x100000 < a + 8 ∨ a % 8 ≠ 0) ∧
    (∀ i, AtCore i 0 (at0 core i) (img i)) := by
  intro imm h
  refine ⟨_, rfl, ?_, fun _ => atCore _ _⟩
  simp only [List.mem_cons, List.not_mem_nil, or_false] at h
  rcases h with rfl | rfl | rfl <;> decide +kernel

theorem witness_branch : ((at0 core (.br 0 ⟨0, 4, 5, 5, 0⟩)).core 0).depth 5 < 16 ∧ (5#5).toNat ≤ 5 ∧
    (((at0 core (.br 0 ⟨0, 4, 5, 5, 0⟩)).core 0).pc : Int) + (0#32).toInt = (0 : Nat) ∧ 0 < (img (.br 0 ⟨0, 4, 5, 5, 0⟩)).code.length ∧
    AtCore (.br 0 ⟨0, 4, 5, 5, 0⟩) 0 (at0 core (.br 0 ⟨0, 4, 5, 5, 0⟩)) (img (.br 0 ⟨0, 4, 5, 5, 0⟩)) :=
  ⟨core_idle _ _, by decide, by decide +kernel, by decide +kernel, atCore _ _⟩

/-- A word of class 0 and a word of class 1 with opcode 0, at core 0. -/
def atWord (w : W64) : State :=
  { live with kernels := [{ img (.ctlNop 0 ⟨0, 0, 0, 0, 0⟩) with code := [w] }] }.setCore 0 { core with st := .running, handle := 1 }

theorem witness_unlistedWord : ∀ w ∈ [0x0#64, 0x1000000000000000#64, 0x7000000000000000#64], 0 < 544 ∧
    (atWord w).imageOf 0 = some { img (.ctlNop 0 ⟨0, 0, 0, 0, 0⟩) with code := [w] } ∧ ((atWord w).core 0).canIssue = true ∧
    [w][((atWord w).core 0).pc]? = some w ∧ decodeIsa 0 w = none := by
  intro w h
  simp only [List.mem_cons, List.not_mem_nil, or_false] at h
  rcases h with rfl | rfl | rfl <;> decide +kernel

theorem witness_vectorArithmetic (e : (Nat → VeFields → Instr) × (W32 → W32 → W32) × (W32 → W32 → W32)) :
    ∃ f : VeFields, AtCore (e.1 0 f) 0 (at0 core (e.1 0 f)) (img (e.1 0 f)) ∧ ((at0 core (e.1 0 f)).core 0).depth 2 < 16 ∧
      veTwoSource f ∧ fp32OrInt32 f :=
  ⟨⟨1, 2, 3, 0, 0, 0x0E, 0, 0, 0⟩, atCore _ _, core_idle _ _, by simp [veTwoSource], .inr rfl⟩

theorem witness_vectorMaps : (∀ i, ((at0 core i).core 0).depth 2 < 16) ∧
    (∃ f : VeFields, f.ss = 0 ∧ f.fmt = 0 ∧ f.rm = 0 ∧ f.fn = 0 ∧ f.imm = 0 ∧ AtCore (.vfma 0 f) 0 (at0 core (.vfma 0 f)) (img (.vfma 0 f))) ∧
    (∃ f : VeFields, veTwoSource f ∧ f.fmt = 0 ∧ AtCore (.vmax 0 f) 0 (at0 core (.vmax 0 f)) (img (.vmax 0 f)) ∧
      AtCore (.vmin 0 f) 0 (at0 core (.vmin 0 f)) (img (.vmin 0 f))) ∧
    (∃ f : VeFields, f.vb = 0 ∧ f.vc = 0 ∧ f.fmt = 0 ∧ f.rm = 0 ∧ f.fn = 0 ∧ f.imm = 0 ∧ f.ss = 12 ∧
      AtCore (.vadds 0 f) 0 (at0 core (.vadds 0 f)) (img (.vadds 0 f)) ∧ AtCore (.vmuls 0 f) 0 (at0 core (.vmuls 0 f)) (img (.vmuls 0 f))) ∧
    (∃ f : VeFields, f.vb = 0 ∧ f.vc = 0 ∧ f.ss = 0 ∧ f.fmt = 0 ∧ f.rm = 0 ∧ f.imm = 0 ∧ f.fn.toNat < 8 ∧
      (∀ x, (activation f.fn.toNat x).isSome = true) ∧ AtCore (.vact 0 f) 0 (at0 core (.vact 0 f)) (img (.vact 0 f))) ∧
    (∃ f : VeFields, f.vb = 0 ∧ f.vc = 0 ∧ f.ss = 0 ∧ f.fmt = 0 ∧ f.rm = 0 ∧ f.imm = 0 ∧ f.fn.toNat < 2 ∧
      AtCore (.vlog 0 f) 0 (at0 core (.vlog 0 f)) (img (.vlog 0 f))) :=
  ⟨fun _ => core_idle _ _, ⟨⟨1, 2, 3, 4, 0, 0, 0, 0, 0⟩, by decide, by decide, by decide, by decide, by decide, atCore _ _⟩,
    ⟨⟨1, 2, 3, 0, 0, 0, 0, 0, 0⟩, by simp [veTwoSource], by decide, atCore _ _, atCore _ _⟩,
    ⟨⟨1, 2, 0, 0, 12, 0, 0, 0, 0⟩, by decide, by decide, by decide, by decide, by decide, by decide, by decide, atCore _ _, atCore _ _⟩,
    ⟨⟨1, 2, 0, 0, 0, 0, 0, 0, 0⟩, by decide, by decide, by decide, by decide, by decide, by decide, by decide, fun _ => rfl, atCore _ _⟩,
    ⟨⟨1, 2, 0, 0, 0, 0, 0, 1, 0⟩, by decide, by decide, by decide, by decide, by decide, by decide, by decide, atCore _ _⟩⟩

/-- The last place of 64 packed words in local scratch: s4 plus 64 times the immediate. -/
theorem witness_vectorLoadStore : ∀ f ∈ [(⟨1, 0, 0, 0, 4, 0x0E, 0, 0, 0x3FFB⟩ : VeFields), ⟨1, 0, 0, 0, 4, 1, 0, 0, 0x3FFB⟩, ⟨0, 1, 0, 0, 4, 0, 0, 0, 0x3FFB⟩],
    ∀ i, bits (((at0 core i).core 0).sreg f.ss.toNat).toNat 19 0 + 64 * f.imm.toNat + 256 ≤ 0x100000 ∧
      Unhindered ((at0 core i).core 0) 2 [(bits (((at0 core i).core 0).sreg f.ss.toNat).toNat 19 0 + 64 * f.imm.toNat, 256)] ∧
      AtCore i 0 (at0 core i) (img i) := by
  intro f hf i
  refine ⟨?_, unhindered _ _ _, atCore _ _⟩
  rw [at0_core]
  revert f
  decide +kernel

theorem witness_conversion : ∃ f : VeFields, AtCore (.vcvt 0 f) 0 (at0 core (.vcvt 0 f)) (img (.vcvt 0 f)) ∧
    ((at0 core (.vcvt 0 f)).core 0).depth 2 < 16 ∧ f.vb = 0 ∧ f.vc = 0 ∧ f.imm = 0 ∧ (isMx f.fmt.toNat = false → f.ss = 0) ∧ f.fn.toNat ≤ 1 ∧
    f.fmt.toNat ≤ 0x0E ∧ f.rm ≠ 3 :=
  ⟨⟨1, 2, 0, 0, 0, 0x0E, 2, 1, 0⟩, atCore _ _, core_idle _ _, by decide, by decide, by decide, by decide, by decide, by decide, by decide⟩

/-- SS = 12 names an array of one element in the register below. -/
def oneElement : Core := { core with sregs := [(4, 0x1FFFFC#64)] }

theorem witness_vectorReductions : ∀ i, bits ((oneElement.sreg 4).toNat) 19 0 + 4 * bits ((oneElement.sreg 4).toNat) 43 20 ≤ 0x100000 ∧
    AtCore i 0 (at0 oneElement i) (img i) ∧ (at0 oneElement i).core 0 = { oneElement with st := .running, handle := 1 } ∧
    Unhindered oneElement 2 [(0xFFFFC, 4)] ∧
    (bestPair true ((wordsAt oneElement.ls 0xFFFFC 1).mapIdx fun i x => IdxPair.mk x (BitVec.ofNat 32 (i + 7)))).isSome = true :=
  fun i => ⟨by decide +kernel, atCore _ _, at0_core _ _, ⟨by decide, by decide⟩, by decide +kernel⟩

theorem witness_sorting : ∃ f : VeFields, veTwoSource f ∧ f.fmt = 0 ∧ f.vd.toNat % 2 = 0 ∧ f.va.toNat % 2 = 0 ∧ f.vb.toNat % 2 = 0 ∧
    (∀ i, ((at0 core i).core 0).depth 2 < 16) ∧ AtCore (.vsort 0 f) 0 (at0 core (.vsort 0 f)) (img (.vsort 0 f)) ∧
    AtCore (.vmerge 0 f) 0 (at0 core (.vmerge 0 f)) (img (.vmerge 0 f)) :=
  ⟨⟨30, 2, 4, 0, 0, 0, 0, 0, 0⟩, by simp [veTwoSource], by decide, by decide, by decide, by decide, fun _ => core_idle _ _, atCore _ _, atCore _ _⟩

/-- Tile 0 holds pairs, tile 1 FP32 values. -/
def tiled : Core := { core with tags := [(0, 2), (1, 0)] }

theorem witness_tileAccumulate : ∀ e ∈ [((⟨0, 1, 2, 1, 0, 0, 0, 0, 63⟩ : VeFields), 1, false), (⟨0, 1, 2, 0, 0, 0, 0, 2, 63⟩, 0, true)],
    AtCore (.vtacc 0 e.1) 0 (at0 tiled (.vtacc 0 e.1)) (img (.vtacc 0 e.1)) ∧ e.1.fn.toNat ≤ 2 ∧ e.2.1 = e.1.vc.toNat ∧ e.2.1 < 16 ∧
    (∃ t, (img (.vtacc 0 e.1)).tile e.2.1 = some t ∧ t.cols = 64 ∧ e.1.imm.toNat < t.rows ∧
      ((e.1.fn = 0 ∧ tiled.tag e.2.1 = 0) ∨ (e.1.fn ≠ 0 ∧ tiled.tag e.2.1 = 2 ∧ t.idx = true))) := by
  intro e he
  refine ⟨atCore _ _, ?_⟩
  simp only [List.mem_cons, List.not_mem_nil, or_false] at he
  rcases he with rfl | rfl
  · exact ⟨by decide, by decide, by decide, ⟨_, rfl, by decide, by decide, .inl (by decide)⟩⟩
  · exact ⟨by decide, by decide, by decide, ⟨_, rfl, by decide, by decide, .inr (by decide)⟩⟩

/-- `core` with tile 1 an FP32 tile. -/
theorem witness_matrixMultiply : ∃ f : MmaFields, AtCore (.mma 0 f) 0 (at0 core (.mma 0 f)) (img (.mma 0 f)) ∧
    (opMma core (img (.mma 0 f)) f).fault = none ∧ Unhindered ((at0 core (.mma 0 f)).core 0) 1 (opMma core (img (.mma 0 f)) f).ranges ∧
    ((img (.mma 0 f)).tile f.td.toNat).isSome = true ∧ bits (core.sreg f.sk.toNat).toNat 23 0 = 7 :=
  ⟨⟨1, 3, 3, 0, 1, 4, 6, 7, 0⟩, atCore _ _, by decide +kernel, unhindered _ _ _, by decide +kernel, by decide +kernel⟩

theorem witness_tileMoves :
    (∃ f : ZeroFields, AtCore (.zero 0 f) 0 (at0 core (.zero 0 f)) (img (.zero 0 f)) ∧ f.rsvHi = 0 ∧ f.rsvLo = 0 ∧ f.tfmt = 2 ∧
      (∃ t, (img (.zero 0 f)).tile f.td.toNat = some t ∧ t.idx = true) ∧ ((at0 core (.zero 0 f)).core 0).depth 1 < 16) ∧
    (∃ f : TldFields, AtCore (.tld 0 f) 0 (at0 core (.tld 0 f)) (img (.tld 0 f)) ∧ (opTld core (img (.tld 0 f)) f).fault = none ∧
      Unhindered ((at0 core (.tld 0 f)).core 0) 1 (opTld core (img (.tld 0 f)) f).ranges ∧ ((img (.tld 0 f)).tile f.td.toNat).isSome = true) ∧
    (∃ f : OutFields, AtCore (.out 0 f) 0 (at0 tiled (.out 0 f)) (img (.out 0 f)) ∧ (opOut tiled (img (.out 0 f)) f).fault = none ∧
      tiled.waitsFor (opOut tiled (img (.out 0 f)) f).ranges = false ∧ ((img (.out 0 f)).tile f.ts.toNat).isSome = true) :=
  ⟨⟨⟨0, 0, 2, 0⟩, atCore _ _, by decide, by decide, by decide, ⟨_, rfl, by decide⟩, core_idle _ _⟩,
    ⟨⟨1, 0, 0, 0, 4, 0⟩, atCore _ _, by decide +kernel, unhindered _ _ _, by decide +kernel⟩,
    ⟨⟨1, 0, 0, 0, 0, 0, 0, 0, 0, 4, 0, 0, 0, 0⟩, atCore _ _, by decide +kernel, by decide +kernel, by decide +kernel⟩⟩

/-- Two elements from the quad s4 to s7. -/
def draw : SuFields := ⟨1, 2, 4, 8, 9, 64, 0⟩

theorem witness_stochasticDraws : suOperands draw ∧ (∀ i, ((at0 core i).core 0).depth 3 < 16) ∧
    ∀ i ∈ [Instr.sunif 0 draw, .sgumb 0 draw, .sbernf 0 draw, .sbernp 0 draw, .sbernq 0 draw], AtCore i 0 (at0 core i) (img i) :=
  ⟨by simp [suOperands, draw], fun _ => core_idle _ _, fun _ _ => atCore _ _⟩

/-- The group length 64 is the whole draw: s9 holds 64. -/
def groups : Core := { core with sregs := [(9, 0x3F80000000000040#64)] }

theorem witness_categoricalDraw : AtCore (.scat 0 draw) 0 (at0 groups (.scat 0 draw)) (img (.scat 0 draw)) ∧ groups.depth 3 < 16 ∧ suOperands draw ∧
    bits (groups.sreg draw.st.toNat).toNat 6 0 = 64 ∧ 64 ∈ [2, 4, 8, 16, 32, 64] ∧ draw.n.toNat % 64 = 0 :=
  ⟨atCore _ _, by decide, by simp [suOperands, draw], by decide +kernel, by decide, by decide⟩

/-- SL 4, SM 0, and the slot and operation of each entry of the table. -/
theorem witness_crossbarIssue : ∀ e ∈ [(1, (⟨4, 0, 0, 0, 0⟩ : XbFields)), (2, ⟨4, 0, 1, 0, 0⟩), (3, ⟨4, 0, 2, 2, 0⟩), (3, ⟨4, 0, 3, 1, 0⟩)],
    e.2.rsv = 0 ∧ (∀ i, AtCore i 0 (at0 core i) (img i)) ∧ (∀ i rs, Unhindered ((at0 core i).core 0) 4 rs) ∧
    (∀ i, ∃ x, (img i).slotEntry core.logical e.2.slot.toNat e.1 = some x ∧ sliceFits x e.2.rop.toNat (bits (core.sreg e.2.sm.toNat).toNat 23 0) = true ∧
      bits (core.sreg e.2.sl.toNat).toNat 19 0 + x.len ≤ 0x100000 ∧
      (e.1 = 3 → 1 ≤ e.2.rop.toNat ∧ e.2.rop.toNat ≤ 7 ∧ x.space = (if e.2.rop = 1 ∨ e.2.rop = 5 then 1 else 0))) := by
  intro e he
  simp only [List.mem_cons, List.not_mem_nil, or_false] at he
  rcases he with rfl | rfl | rfl | rfl <;>
    exact ⟨by decide, fun _ => atCore _ _, fun _ _ => unhindered _ _ _, fun _ => ⟨_, rfl, by decide +kernel, by decide +kernel, by decide +kernel⟩⟩

theorem witness_syncInstructions : (∃ f : WaitFields, f.rest = 0 ∧ f.mask = 31 ∧ AtCore (.wait 0 f) 0 (at0 core (.wait 0 f)) (img (.wait 0 f))) ∧
    AtCore (.xfence 0 0) 0 (at0 core (.xfence 0 0)) (img (.xfence 0 0)) ∧
    (∃ f : BarFields, AtCore (.bar 0 f) 0 (at0 core (.bar 0 f)) (img (.bar 0 f)) ∧ f.rest = 0 ∧ f.scope ≠ 3 ∧
      (at0 core (.bar 0 f)).barClash 0 f.scope.toNat f.id.toNat 0 = false) :=
  ⟨⟨⟨31, 0⟩, by decide, by decide, atCore _ _⟩, atCore _ _, ⟨⟨0xFFF, 2, 0⟩, atCore _ _, by decide, by decide, by decide +kernel⟩⟩

/-- Core 0 in any condition. -/
def at1 (c : Core) : State := live.setCore 0 c

theorem at1_core (c : Core) : (at1 c).core 0 = c := by simp [at1, State.setCore, State.core]

/-- A write of two slots of 256 bytes to slice 0, and the read like it. -/
def write : Xfer :=
  { slice := 0, dir := 2, space := 0, view := 0, clr := false, rot := 0, rop := 0, slot := 1, run := 1, len := 320, ls := 0, sm := 0
    data := List.replicate 320 7#8, executed := false, accessed := 0, landed := 0, got := [] }

/-- Core 0 RUNNING with one transfer in flight. -/
def moving (x : Xfer) : Core := { core with st := .running, flight := [⟨4, 0, some x⟩] }

/-- A device in which the sixteen cores of logical row 0 wait at barrier 5 and its delay has passed. -/
def barred : State :=
  { live with
    cores := (List.range 16).map fun p => (p, { core with st := .running, logical := p, stall := .bar 5 0 0 })
    west := { live.west with nc := 4 }, east := { live.east with nc := 4 } }

theorem witness_sequencerEvents :
    (((at1 { core with stall := .wait 31 }).core 0).stall = .wait 31 ∧ ((at1 { core with stall := .wait 31 }).core 0).drained 31 = true) ∧
    (((at1 { core with stall := .xfence }).core 0).stall = .xfence ∧ ((at1 { core with stall := .xfence }).core 0).fenced = true) ∧
    ((barred.core 0).stall = .bar 5 0 0 ∧ (barred.scopePhys 0 0 (barred.core 0).logical).length = barred.scopeSize 0 ∧
      ∀ q ∈ barred.scopePhys 0 0 (barred.core 0).logical, barred.arrived q (barred.core q) 5 0 = true) ∧
    (∃ x, (moving { write with executed := true, accessed := 2, landed := 2 }).flight = x :: [] ∧ x.queue = 4 ∧ x.finished = true) ∧
    (let c := (at1 { core with st := .running, ended := true }).core 0
     c.st = .running ∧ c.ended = true ∧ c.flight = []) :=
  ⟨by simp only [at1_core]; decide, by simp only [at1_core]; decide, by decide +kernel, ⟨_, rfl, by decide, by decide⟩, by simp only [at1_core]; decide⟩

/-- The half's phase stands at slot 1 of a table of eight slots. -/
def inSlot (c : Core) : State :=
  { at1 { c with handle := 1 } with kernels := [img (.ctlNop 0 ⟨0, 0, 0, 0, 0⟩)], espHandleW := 1, west := { live.west with phase := 1 } }

theorem witness_transferSteps : ((moving write).flight = ⟨4, 0, some write⟩ :: [] ∧ write.executed = false ∧ (inSlot (moving write)).atSlot 0 write.slot = true) ∧
    (∃ x : Xfer, x.executed = true ∧ x.accessed ≤ x.run ∧ x.space = 0 ∧ x.dir = 2 ∧ ((at1 (moving x)).core 0).flight = ⟨4, 0, some x⟩ :: []) ∧
    (∃ x : Xfer, x.executed = true ∧ x.accessed ≤ x.run ∧ x.space = 0 ∧ x.dir = 1 ∧ ((at1 (moving x)).core 0).flight = ⟨4, 0, some x⟩ :: []) ∧
    (∃ x : Xfer, x.dir = 1 ∧ x.landed < x.accessed ∧ ((at1 (moving x)).core 0).flight = ⟨4, 0, some x⟩ :: []) ∧
    (∃ x : Xfer, x.dir ≠ 1 ∧ x.landed < x.accessed ∧ ((at1 (moving x)).core 0).flight = ⟨4, 0, some x⟩ :: []) :=
  ⟨⟨rfl, rfl, by decide +kernel⟩,
    ⟨{ write with executed := true, accessed := 1 }, by decide, by decide, by decide, by decide, by rw [at1_core]; rfl⟩,
    ⟨{ write with dir := 1, executed := true, accessed := 1 }, by decide, by decide, by decide, by decide, by rw [at1_core]; rfl⟩,
    ⟨{ write with dir := 1, executed := true, accessed := 2, landed := 1 }, by decide, by decide, by rw [at1_core]; rfl⟩,
    ⟨{ write with executed := true, accessed := 2, landed := 1 }, by decide, by decide, by rw [at1_core]; rfl⟩⟩

/-- An image fits its accumulator at both ends of the range. -/
theorem witness_rawImages : -(2 ^ 639) ≤ (-(2 ^ 639) : Int) ∧ (2 ^ 639 - 1 : Int) < 2 ^ 639 ∧ 511 < 512 ∧ 4095 < 4096 := by decide +kernel

/-! ## Ring sets, doorbells, events and the staging window -/

/-- Ring set 1 as `r` says, and host memory as `m` says. -/
def hosted (r : RingSet) (m : Memory) : State := { live with host := { live.host with mem := m, sets := [(0, ring), (1, r), (2, { ring with st := 0, enable := false })] } }

/-- A ring set with two fetched commands, a token, a completion and an event that the host has not taken. -/
def used : RingSet := { ring with cmdCi := 2, cmdPi := 2, tokPi := 1, cplPi := 1, evtPi := 1 }

theorem hosted_takes (r : RingSet) (m : Memory) (h : r.st = 1) : takesBar2 (hosted r m) 1 :=
  ⟨by decide, h, by simp [hosted, State.usesLine, live, State.reset, HostPort.init]⟩

/-- Each bound of the indices: CMD_PI from CMD_CI to CMD_CI + 64 and one beyond, the others up to their producer indices. -/
theorem witness_doorbellWrites :
    (∀ v ∈ [2, 66], validIndex used.cmdCi (used.cmdCi + 2 ^ used.szCmd) v) ∧ (∀ v ∈ [1, 67], ¬ validIndex used.cmdCi (used.cmdCi + 2 ^ used.szCmd) v) ∧
    (∀ v ∈ [0, 1], validIndex used.tokCi used.tokPi v ∧ validIndex used.cplCi used.cplPi v ∧ validIndex used.evtCi used.evtPi v) ∧
    used.errWait % 2 = 0 ∧ used.evtWait = 0 ∧ takesBar2 (hosted used []) 1 ∧
    (let r := { used with evtWait := 3, evtPi := 256 }
     takesBar2 (hosted r []) 1 ∧ validIndex r.evtCi r.evtPi 1 ∧ r.evtWait ≠ 0 ∧ r.evtPi - extendIndex r.evtCi 1 < 2 ^ r.szEvt) ∧
    (15 < 16 ∧ ((hosted used []).ring 15).st = 0) := by
  simp only [validIndex]
  refine ⟨by decide, by decide, by decide, by decide, by decide, hosted_takes _ _ rfl, ⟨hosted_takes _ _ rfl, by decide⟩, by decide +kernel⟩

theorem witness_doorbellLine : 1 < 16 ∧
    (let s := hosted { used with await := true, st := 2 } []
     (s.ring 1).await = true ∧ (s.ring 1).st ≠ 1 ∧ (s.hostRead (s.ring 1).dbAddr 64).isSome = true) ∧
    (let s := { hosted { used with await := true } [] with host := { (hosted { used with await := true } []).host with bad := [(0x10000, 1)] } }
     (s.ring 1).await = true ∧ s.hostRead (s.ring 1).dbAddr 64 = none) ∧
    (let s := hosted { used with await := true } (Memory.writeBytes [] 0x10000 (toLe 4 2 ++ toLe 4 1 ++ toLe 4 1 ++ toLe 4 1))
     let r := s.ring 1
     r.await = true ∧ r.st = 1 ∧ (s.hostRead r.dbAddr 64).isSome = true ∧ s.lineValues 1 = [2, 1, 1, 1] ∧
       (belowIndex r.cmdCi 2 = false ∧ extendIndex r.cmdCi 2 ≤ r.cmdCi + 2 ^ r.szCmd) ∧ extendIndex r.cmdCi 2 = r.cmdPi ∧
       (belowIndex r.tokCi 1 = false ∧ extendIndex r.tokCi 1 ≤ r.tokPi) ∧ (belowIndex r.cplCi 1 = false ∧ extendIndex r.cplCi 1 ≤ r.cplPi) ∧
       (belowIndex r.evtCi 1 = false ∧ extendIndex r.evtCi 1 ≤ r.evtPi) ∧ r.errWait = 0 ∧ r.evtWait = 0) := by
  and_intros <;> decide +kernel

theorem witness_ringSetStates :
    (let s := hosted { ring with st := 0, enable := false } []
     s.barAnswers 0x40004 = true ∧ s.sec.scrub = none ∧ (s.ring 1).enable = false ∧ bits (0x00010301#32).toNat 23 16 = 1 ∧
       bits (0x00020301#32).toNat 23 16 ≠ 1 ∧ (s.ring 1).setupOk = true ∧ s.job 1 = none ∧ s.pauseCause 1 = false) ∧
    (let s := hosted ring []
     (s.ring 1).enable = true ∧ s.job 1 = none ∧ (s.ring 1).st ≠ 0 ∧ (s.ring 1).st ≠ 4) ∧
    (let s := hosted { ring with irqEn := true, unsig := [0, 0, 5] } []
     2 < 3 ∧ (s.ring 1).irqEn = true ∧ (s.ring 1).unsig.getD 2 0 ≠ 0) := by
  and_intros <;> decide +kernel

theorem witness_eventRelease : live.sec.scrub = none ∧ ({ live with sec := { live.sec with scrub := some ⟨3, 1, 5⟩ } } : State).sec.scrub.isSome = true ∧
    live.hostCanWrite = true ∧ (live.ring 1).irqEn = false ∧ (List.replicate 16 1#8).length ≤ 16 ∧
    (live.ring 1).evtPi - (live.ring 1).evtCi < 2 ^ (live.ring 1).szEvt := by
  and_intros <;> decide +kernel

/-- A job open block with every limit of R469 and R470 met and one device. -/
def block (flags : Nat) : List Byte :=
  toLe 4 0x4B564A50 ++ toLe 2 1 ++ toLe 2 flags ++ toLe 2 0 ++ toLe 2 1 ++ toLe 2 0 ++ toLe 2 0xFFFF ++ toLe 16 5 ++ toLe 8 0 ++
    toLe 8 0x10000000 ++ toLe 8 0x20000000 ++ toLe 4 1024 ++ toLe 4 256 ++ toLe 4 4096 ++ toLe 4 1024 ++ toLe 4 16 ++ toLe 4 16 ++ toLe 4 16 ++
    toLe 4 0 ++ toLe 8 0x1000000000 ++ toLe 8 0x10000000 ++ toLe 8 0x30000000 ++ toLe 8 0x100000 ++ toLe 2 0xFFFF ++ toLe 6 0 ++ toLe 16 0 ++
    toLe 8 0x80000000 ++ toLe 8 0x200000 ++ toLe 8 0x90000000 ++ toLe 8 0x200000 ++ toLe 8 0x38000000 ++ toLe 8 0x39000000 ++ toLe 4 0 ++ toLe 60 0

/-- The job of that block in context 1. -/
def job : Job := Job.fresh (parseJobParams (block 0)) 3 false ⟨1, 0, 0#32⟩ 5#128

/-- The device with the job `j` in context 1. -/
def jobbed (j : Job) : State := { live with jobs := [(1, j)] }

/-- The staging window of 1 GiB with aperture 0 as `a` says. -/
def windowed (j : Job) (a : Aperture) : State :=
  { jobbed j with host := { live.host with cxl := true, hdmLog2 := 30, apts := [(0, a)] } }

/-- The last 64 bytes of aperture 0. -/
theorem witness_stagingWindow :
    (∀ a : Aperture, a ∈ [⟨0, 0, 0⟩, ⟨2, 1, 0⟩, ⟨3, 1, 0⟩] → (windowed job a).inWindow 0x7FFFFC0 = true ∧ (windowed job a).holdsMem = false ∧
      (windowed job a).apertureAt 0x7FFFFC0 = (a, 0x7FFFFC0)) ∧
    ({ windowed job ⟨0, 0, 0⟩ with mgt := { live.mgt with changing := true } } : State).holdsMem = true ∧
    (windowed job ⟨3, 1, 0⟩).inPartition 1 0x7FFFFC0 64 = true ∧ ((windowed job ⟨3, 1, 0⟩).ctx 1).st ≠ 3 ∧
    (let j := { job with bedB := { Bed.empty with st := 1 } }
     (windowed j ⟨2, 1, 0⟩).apertureAt 0x1FFFC0 = (⟨2, 1, 0⟩, 0x1FFFC0) ∧ (windowed j ⟨2, 1, 0⟩).job 1 = some j ∧ j.st = .running ∧ (j.bed 1).st = 1 ∧
       0x1FFFC0 + 64 ≤ (j.bedRange 1).2) := by
  refine ⟨?_, by decide +kernel, by decide +kernel, by decide +kernel, ?_⟩
  · intro a h
    simp only [List.mem_cons, List.not_mem_nil, or_false] at h
    rcases h with rfl | rfl | rfl <;> decide +kernel
  · exact ⟨by decide +kernel, rfl, by decide +kernel, by decide +kernel, by decide +kernel⟩

/-- A NOP descriptor with TAG 7, and one of an opcode that no table lists, in the first entry of ring 1. -/
theorem witness_commandFetch :
    (let s := hosted { ring with cmdPi := 1 } (Memory.writeBytes [] 0x1000 [0#8, 1#8, 0#8, 0#8, 7#8])
     (s.ring 1).takes = true ∧ (s.ring 1).cmdCi < (s.ring 1).cmdPi ∧ ∃ b, s.hostRead 0x1000 64 = some b ∧ descStatus b = 0) ∧
    (let s := hosted { ring with cmdPi := 1 } (Memory.writeBytes [] 0x1000 [0xFF#8])
     ∃ b, s.hostRead 0x1000 64 = some b ∧ descStatus b ≠ 0) ∧
    (let s := { hosted { ring with cmdPi := 1 } [] with host := { (hosted { ring with cmdPi := 1 } []).host with bad := [(0x103F, 1)] } }
     s.hostRead 0x1000 64 = none) :=
  ⟨⟨by decide +kernel, by decide +kernel, ⟨_, rfl, by decide +kernel⟩⟩, ⟨_, rfl, by decide +kernel⟩, by decide +kernel⟩

/-- A full completion ring for one, an opened job for the other. -/
theorem witness_hostCommandsAreChecked : hostOp (.jobOpen ⟨1, 0, 0#32⟩ 0 256) = some (⟨1, 0, 0#32⟩, 1, 1) ∧ 1 < 16 ∧
    ((hosted { ring with reserved := 61 } []).ring 1).takes = false ∧ ((hosted { ring with reserved := 60 } []).ring 1).takes = true ∧
    ((jobbed job).ring 1).takes = true ∧ (jobbed job).gateStatus 1 1 1 ≠ 0 := by
  refine ⟨rfl, ?_⟩
  and_intros <;> decide +kernel

theorem witness_completionIsWritten : live.hostCanWrite = true ∧ (live.ring 1).st ≠ 0 ∧ (live.ring 1).st ≠ 4 ∧ (live.ring 1).irqEn = false := by
  and_intros <;> decide +kernel

/-! ## Commands that take their effect at once -/

/-- A device without a job whose host memory holds a job open block at 0x100000; context 2 is registered behind context 1. -/
def opening (flags : Nat) : State := { live with host := { live.host with mem := Memory.writeBytes [] 0x100000 (block flags) } }

/-- A command of ring set 1, and one of ring set 0. -/
def h1 : Head := ⟨1, 0, 7#32⟩
def h0 : Head := ⟨0, 0, 7#32⟩

theorem taken (s : State) (h : Head) (op c : Nat) (a : decide (h.set < 16) = true) (b : (s.ring h.set).takes = true)
    (d : (s.gateStatus h.set op c == 0) = true) : Taken s h op c := ⟨by simpa using a, b, by simpa using d⟩

theorem witness_jobCommands :
    Taken live h1 0x00 1 ∧
    (∀ f, f < 2 → Taken (opening f) h1 0x01 1 ∧ (∃ b, (opening f).readJobBlock 0x100000 = some b ∧ (opening f).jobOpenStatus 1 b 256 = 0 ∧
      (parseJobParams b).batchMax + (parseJobParams b).ingestBudget ≤ 2 ^ ((opening f).ring 1).szTok ∧ (parseJobParams b).seedDev = (f == 1))) ∧
    (∀ n, n < 16 → bit (live.halvesOf 1) (n / 8) = true → (live.port n).st ≠ 2) ∧ (opening 1).seedRefused 1 = none ∧
    (Taken (jobbed job) h0 0x03 1 ∧ (jobbed job).job 1 = some job) ∧
    (let j := { job with st := .ended }
     Taken (jobbed j) h0 0x04 0 ∧ (jobbed j).job 1 = some j ∧ j.st = .ended) := by
  refine ⟨taken _ _ _ _ (by decide +kernel) (by decide +kernel) (by decide +kernel), ?_, by decide +kernel, by decide +kernel,
    ⟨taken _ _ _ _ (by decide +kernel) (by decide +kernel) (by decide +kernel), rfl⟩,
    ⟨taken _ _ _ _ (by decide +kernel) (by decide +kernel) (by decide +kernel), rfl, rfl⟩⟩
  intro f hf
  have h : f = 0 ∨ f = 1 := by omega
  refine ⟨taken _ _ _ _ ?_ ?_ ?_, block f, ?_⟩ <;> rcases h with rfl | rfl <;> and_intros <;> decide +kernel

theorem witness_jobEnd : (jobbed job).job 1 = some job ∧ (job.st = .running ∨ job.st = .suspended) := ⟨rfl, .inl (by decide +kernel)⟩

/-- An image of one END, without a phase table. -/
def image : List Byte :=
  let b := toLe 4 0x4B564B49 ++ toLe 2 1 ++ toLe 2 0 ++ toLe 4 184 ++ toLe 4 128 ++ toLe 4 1 ++ toLe 4 0 ++ toLe 4 136 ++ toLe 4 0 ++ toLe 4 0x100 ++
    toLe 12 0 ++ toLe 80 0 ++ toLe 8 (wordOf (.end_ 0 ⟨0, 0, 0, 0, 0⟩)).toNat
  b ++ sha384 b

theorem image_ok : imgOk image 184 = true := by decide +kernel

theorem witness_kernelCommands :
    (let s := { jobbed job with host := { live.host with mem := Memory.writeBytes [] 0x2000 image } }
     s.job 1 = some job ∧ Taken s h1 0x80 1 ∧ s.hostRead 0x2000 184 = some image ∧ imgOk image 184 = true ∧ phaseHeaderOk image = true ∧
       (imgParse image job.freeHandle 1 184).table = none ∧ (imgParse image job.freeHandle 1 184).handle ≤ 0xFFFF ∧
       s.storesHold 1 3 (imgParse image job.freeHandle 1 184) = true ∧ job.place 184 = some 0x30000000) ∧
    (let s := { jobbed job with kernels := [img (.end_ 0 ⟨0, 0, 0, 0, 0⟩)] }
     Taken s h1 0x81 1 ∧ (s.image 1 1).isSome = true ∧ ∀ e ∈ job.program, e.handle ≠ 1) := by
  refine ⟨⟨rfl, taken _ _ _ _ (by decide +kernel) (by decide +kernel) (by decide +kernel), ?_, image_ok, by decide +kernel, by decide +kernel,
      by decide +kernel, by decide +kernel, by decide +kernel⟩,
    ⟨taken _ _ _ _ (by decide +kernel) (by decide +kernel) (by decide +kernel), by decide +kernel, by decide +kernel⟩⟩
  decide +kernel

theorem witness_randomCommands : Taken live h0 0x90 0 ∧ Taken live h0 0x91 0 ∧ Taken live h0 0x92 0 ∧ live.ens.stoch ≠ 3 ∧ live.ens.secHalt = false ∧
    live.randFull 0 = false ∧ live.randFull 1 = false ∧ live.randFull 2 = false ∧ (65536 ≤ 65536 ∧ 65416 ≤ 65416 ∧ 65416 % 136 = 0 ∧ 63 < 64) := by
  refine ⟨taken _ _ _ _ (by decide +kernel) (by decide +kernel) (by decide +kernel), taken _ _ _ _ (by decide +kernel) (by decide +kernel) (by decide +kernel),
    taken _ _ _ _ (by decide +kernel) (by decide +kernel) (by decide +kernel), ?_⟩
  and_intros <;> decide +kernel

/-- Context 2 registered and on no half. -/
def two : State := { live with sec := { live.sec with ctxs := live.sec.ctxs ++ [(2, ⟨1, 0x100000000, 0x40000000, 2, 9, []⟩)] } }

/-- A switch of both halves from context 1 to context 2. -/
def switching : Switch := ⟨h0, 0x72, 2, 3, none, 1, none, false⟩

theorem witness_contextCommands :
    (Taken two h0 0x71 0 ∧ (two.ctx 2).st = 1 ∧ two.holdsJob 2 = false ∧ two.halvesOf 2 = 0) ∧
    (Taken two h0 0x72 0 ∧ two.split = false ∧ two.halvesOf 2 ≠ 3 ∧ two.sec.scrub = none ∧ two.boot.aligned = true ∧ two.rst.busy = none ∧
      two.job two.west.owner = none) ∧
    (Taken live h0 0x72 0 ∧ live.split = false ∧ (live.ctx 1).st = 2 ∧ live.halvesOf 1 = 3) ∧
    (let s := { two with sec := { two.sec with switch := some switching } }
     bit switching.halves 1 = true ∧ s.sec.switch = some switching ∧ s.sec.scrub = none ∧ s.boot.aligned = true ∧ s.rst.busy = none ∧
       switching.scrubbing = false ∧ s.job switching.outgoing = none ∧ switching.destroy = none) ∧
    (let s := { live with sec := { live.sec with scrub := some ⟨3, 2, 0⟩ } }
     s.sec.scrub = some ⟨3, 2, 0⟩ ∧ s.boot.aligned = true ∧ s.rst.busy = none ∧ s.host.accesses = []) ∧
    (let s := { live with sec := { live.sec with ctxs := [(0, Ctx.host), (15, ⟨3, 0, 0x40000000, 1, 7, []⟩)] } }
     15 < 16 ∧ (s.ctx 15).st = 3 ∧ s.boot.ready = true) ∧
    (let j := { job with st := .ended }
     Taken (jobbed j) h0 0x61 1 ∧ (jobbed j).job 1 = some j ∧ j.st = .ended ∧ (jobbed j).halvesOf 1 ≠ 0 ∧ (jobbed j).dmp.st = 0 ∧
       (jobbed j).rst.busy = none ∧ (jobbed j).boot.ready = true) := by
  refine ⟨⟨taken _ _ _ _ (by decide +kernel) (by decide +kernel) (by decide +kernel), ?_⟩,
    ⟨taken _ _ _ _ (by decide +kernel) (by decide +kernel) (by decide +kernel), ?_⟩,
    ⟨taken _ _ _ _ (by decide +kernel) (by decide +kernel) (by decide +kernel), ?_⟩, ?_, ?_, ?_,
    ⟨taken _ _ _ _ (by decide +kernel) (by decide +kernel) (by decide +kernel), rfl, rfl, ?_⟩⟩ <;>
    and_intros <;> decide +kernel

theorem hostRead_some (s : State) (a n : Nat) (h : s.host.bad = []) : s.hostRead a n = some (Memory.readBytes s.host.mem (a % 2 ^ 64) n) := by
  simp [State.hostRead, HostPort.fails, h]

/-- Region 127 on the last FULL tile, as `st` says. -/
def region (st : Nat) : MRegion := { MRegion.free with ctx := 1, tx0 := 14, tx1 := 14, ty0 := 7, ty1 := 7, st := st }

/-- The parameter block, the region list and the run block of MOSS_RUN: one replica, one segment of ten sweeps, no optional part. -/
def mossParam : List Byte :=
  toLe 8 0x3000 ++ toLe 8 0x2800 ++ toLe 8 0 ++ toLe 8 0x40000000 ++ toLe 8 0x100000 ++ toLe 8 0 ++ toLe 4 0 ++ [1#8, 0#8, 0#8, 0#8] ++ toLe 8 0 ++
    toLe 8 0x41000000 ++ toLe 8 0x100000 ++ toLe 8 0x5000 ++ toLe 8 0x100000 ++ toLe 32 0
def mossBlock : List Byte :=
  toLe 4 0x4B564D52 ++ toLe 2 1 ++ [0#8, 1#8] ++ toLe 4 5 ++ toLe 4 1 ++ toLe 8 3 ++ toLe 4 0 ++ toLe 4 0 ++ toLe 32 0 ++
    toLe 4 0x3F800000 ++ toLe 508 0 ++ toLe 4 0x3F800000 ++ toLe 4 10 ++ toLe 4 1 ++ toLe 4 0
def mossData : MossData := ⟨mossParam, mossBlock, [127#8], [], [], []⟩

/-- The device with region 127 LOADED and the blocks in host memory. -/
def mossed (j : Job) (g : MRegion) : State :=
  { jobbed j with
    moss := { Moss.init with tiles := (rectTiles 14 14 7 7).map fun t => (t, 2), regions := [(127, g)] }
    host := { live.host with mem := Memory.writeBytes (Memory.writeBytes (Memory.writeBytes [] 0x2000 mossParam) 0x2800 [127#8]) 0x3000 mossBlock } }

theorem mayStart (op : Nat) (slot : Option Nat) (hs : (mossed job (region 2)).deniedRange (mossData.run h1 op (region 2)) (region 2) slot = none)
    (hf : mossData.regionOk (mossData.run h1 op (region 2)) (region 2) = true) :
    MayStart (mossed job (region 2)) h1 op slot mossData (region 2) (mossData.run h1 op (region 2)) where
  static := ⟨job, rfl, by decide +kernel⟩
  first := ⟨127#8, [], rfl, by decide +kernel⟩
  regions := by
    intro x hx
    simp only [mossData, List.mem_singleton] at hx
    subst hx
    decide +kernel
  fresh := by decide +kernel
  run := rfl
  fits := hf
  within := hs

theorem witness_mossCommands :
    (∀ op, op ∈ [0x50, 0x51, 0x52, 0x53, 0x54, 0x55] → Taken (mossed job (region 2)) h1 op 1) ∧
    (let s := mossed job (region 0)
     Taken s h1 0x50 1 ∧ (s.region 127).st = 0 ∧ (s.region 127).await = none ∧ (∀ t ∈ rectTiles 14 14 7 7, Map.get 0 s.moss.tiles t = 2) ∧
       mixesKinds 14 14 = false ∧ s.columnsOk 1 14 14 = true) ∧
    (let s := mossed job (region 2)
     (s.region 127).st ≠ 0 ∧ (s.region 127).st ≠ 3 ∧ (s.region 127).ctx = 1 ∧
       (∃ bs, s.hostRead 0x10000 ((region 2).sourceBytes 0x0E) = some bs ∧ (region 2).fpBad 0x0E bs = false) ∧
       s.readMoss 0x2000 = some mossData ∧ MayStart s h1 0x52 none mossData (region 2) (mossData.run h1 0x52 (region 2)) ∧
       (mossData.run h1 0x52 (region 2)).ext = none ∧ (mossData.run h1 0x52 (region 2)).init = 0 ∧
       s.runOf (region 2) = none ∧ s.hostCanWrite = true) ∧
    (let s := { mossed job (region 3) with moss := { (mossed job (region 3)).moss with runs := [mossData.run h1 0x52 (region 2)] } }
     Taken s h1 0x53 1 ∧ s.mossRun 1 5 = some (mossData.run h1 0x52 (region 2)) ∧ (mossData.run h1 0x52 (region 2)).stop = none ∧
       (mossData.run h1 0x52 (region 2)).ext = none) := by
  refine ⟨?_, ⟨taken _ _ _ _ (by decide +kernel) (by decide +kernel) (by decide +kernel), ?_⟩,
    ⟨by decide +kernel, by decide +kernel, by decide +kernel, ⟨_, hostRead_some _ _ _ rfl, by simp [MRegion.fpBad]⟩, by decide +kernel, mayStart _ _ (by decide +kernel) (by decide +kernel),
      by decide +kernel, by decide +kernel, by decide +kernel, by decide +kernel⟩,
    ⟨taken _ _ _ _ (by decide +kernel) (by decide +kernel) (by decide +kernel), ?_, by decide +kernel, by decide +kernel⟩⟩
  · intro op h
    refine taken _ _ _ _ (by decide +kernel) (by decide +kernel) ?_
    revert op
    decide +kernel
  · and_intros <;> decide +kernel
  · rfl

/-! ## Commands at a step boundary -/

/-- A manifest, a job with the CURRENT bed A, a READY stream 0, a PARKED stream 1 and free entries. -/
def manifest : Manifest :=
  { epoch := 3, vocab := 1024, hidden := 2, layers := 1, experts := 2, topk := 2, gate := 0, actFmt := 0, cap := 4, homeOfs := 0, shards := [], home := [0, 0] }
def token (st : Nat) : Stream := { Stream.free with kind := 1, st := st, gen := 1, maxLen := 4096, temp := 0x3F800000#32, topP := 0x3F800000#32, epoch := 3 }
def served : Job :=
  { job with bedA := { Bed.empty with st := 4, epoch := 3, manifest := some manifest }, tray := [(0, token 2), (1, token 4)] }

/-- The state and the job in which a command of ring set 1 takes its effect. -/
def bv (s : State) (op : Nat) : State := beforeCommands (Slice0.taken s h1 op) 1
def bj (s : State) (op : Nat) : Job := ((bv s op).job 1).getD job

theorem atBoundary (s : State) (op : Nat) (t : Taken s h1 op 1) (b : (s.job 1).any (fun k => k.atBoundary && k.waiting.isEmpty && k.closing.isNone) = true)
    (j : ((bv s op).job 1).isSome = true) : AtBoundary s h1 op (bv s op) (bj s op) where
  taken := t
  stands := by
    cases h : s.job 1 with
    | none => simp [h] at b
    | some k =>
      simp only [h, Option.any_some, Bool.and_eq_true, List.isEmpty_iff, Option.isNone_iff_eq_none] at b
      exact ⟨k, h, b.1.1, b.1.2, b.2⟩
  before := rfl
  job := by obtain ⟨k, hk⟩ := Option.isSome_iff_exists.1 j; show (bv s op).job 1 = some (bj s op); rw [bj, hk]; rfl

theorem witness_boundaryCommandsWait : plainBoundary.all (fun op => (jobbed served).gateStatus 1 op 1 == 0) = true ∧
    (let j := { job with run := some ⟨false, 0, [], [], 0, 0⟩ }
     (jobbed j).job 1 = some j ∧ j.run.isSome = true ∧ Taken (jobbed j) h1 0x60 1) :=
  ⟨by decide +kernel, rfl, rfl, taken _ _ _ _ (by decide +kernel) (by decide +kernel) (by decide +kernel)⟩

/-- Every command of the boundary group finds the job of `served` at a boundary. -/
theorem served_boundary (op : Nat) (h : op ∈ [0x02, 0x10, 0x11, 0x12, 0x13, 0x14, 0x15, 0x16, 0x60, 0x82, 0x30, 0x31, 0x32, 0x33]) (m : Memory) :
    AtBoundary { jobbed served with host := { live.host with mem := m } } h1 op (bv { jobbed served with host := { live.host with mem := m } } op)
      (bj { jobbed served with host := { live.host with mem := m } } op) := by
  simp only [List.mem_cons, List.not_mem_nil, or_false] at h
  rcases h with rfl | rfl | rfl | rfl | rfl | rfl | rfl | rfl | rfl | rfl | rfl | rfl | rfl | rfl <;>
    exact atBoundary _ _ (taken _ _ _ _ rfl rfl rfl) rfl rfl

/-- A stream parameter block with a temperature and TOP_P of one and the last set numbers. -/
def streamBlock (oflags : Nat) : List Byte :=
  toLe 8 77 ++ toLe 4 4096 ++ toLe 4 0x3F800000 ++ toLe 4 0x3F800000 ++ toLe 2 256 ++ toLe 2 4095 ++ toLe 2 0xFFFF ++ toLe 1 0 ++ toLe 1 oflags ++
    toLe 36 0

/-- Host memory for the stream commands: the block at 0x2000, child indices and seeds at 0x3000. -/
def streamMem (oflags : Nat) : Memory :=
  Memory.writeBytes (Memory.writeBytes [] 0x2000 (streamBlock oflags)) 0x3000 (toLe 4 5 ++ toLe 4 1048575 ++ toLe 8 11 ++ toLe 8 12)

/-- `served` with that memory. -/
def serving (oflags : Nat) : State := { jobbed served with host := { live.host with mem := streamMem oflags } }

theorem witness_streamCommands :
    (∀ f ∈ [3, 7], ∀ e ∈ [(1, 0x10), (2, 0x11)], AtBoundary (serving f) h1 e.2 (bv (serving f) e.2) (bj (serving f) e.2) ∧
      (serving f).readStreamBlock 0x2000 = some (streamBlock f) ∧
      (bv (serving f) e.2).openStatus (bj (serving f) e.2) e.1 1048575 4095 (parseStreamParams (streamBlock f)) = 0) ∧
    (∀ m ∈ [0, 1, 2], (∃ d, (serving 0).readFork m 2 0x3000 0x3008 = some d ∧
      (bv (serving 0) 0x12).forkStatus (bj (serving 0) 0x12) 0 1 m 2 (forkChildren 2 d) = 0)) ∧
    ((bj (serving 0) 0x13).appendStatus 1 1 4095 = 0 ∧ ∃ bs, (serving 0).hostRead 0x3000 (4 * 4095) = some bs) ∧
    (let j := bj (serving 0) 0x14
     1 < j.trayEntries ∧ (j.stream 1).st = 4 ∧ (j.stream 1).gen = 1) ∧
    (let j := bj (serving 0) 0x15
     0 < j.trayEntries ∧ (j.stream 0).st ≠ 0 ∧ (j.stream 0).gen = 1 ∧ (j.stream 0).seedWait = false) ∧
    (4095 ≤ 4095 ∧ 16 ≤ 16 ∧ ∃ d, (serving 0).hostRead 0x3000 (4 * 16) = some d) ∧
    (∃ d, (serving 0).readBind 1 0x4000 = some d) := by
  refine ⟨?_, ?_, ⟨by decide +kernel, ⟨_, hostRead_some _ _ _ rfl⟩⟩, by decide +kernel, by decide +kernel, ⟨by decide, by decide, ⟨_, hostRead_some _ _ _ rfl⟩⟩, ?_⟩
  · intro f hf e he
    simp only [List.mem_cons, List.not_mem_nil, or_false] at hf he
    rcases hf with rfl | rfl <;> rcases he with rfl | rfl <;>
      exact ⟨served_boundary _ (by decide) _, by decide +kernel, by decide +kernel⟩
  · intro m hm
    simp only [List.mem_cons, List.not_mem_nil, or_false] at hm
    rcases hm with rfl | rfl | rfl
    · exact ⟨toLe 4 5 ++ toLe 4 1048575 ++ toLe 8 11 ++ toLe 8 12, by decide +kernel, by decide +kernel⟩
    · exact ⟨toLe 4 5 ++ toLe 4 1048575, by decide +kernel, by decide +kernel⟩
    · exact ⟨toLe 4 5 ++ toLe 4 1048575, by decide +kernel, by decide +kernel⟩
  · exact ⟨toLe 16 0, by decide +kernel⟩

/-- A step list of one image with an argument block of 64 bytes at host address 0x5000. -/
def bindList : List Byte := toLe 4 1 ++ toLe 4 64 ++ toLe 8 0x5000
def binding : State :=
  { jobbed served with kernels := [{ img (.end_ 0 ⟨0, 0, 0, 0, 0⟩) with argSize := 64 }]
                       host := { live.host with mem := Memory.writeBytes [] 0x4000 bindList } }

theorem witness_stepBind : ∃ d, AtBoundary binding h1 0x82 (bv binding 0x82) (bj binding 0x82) ∧ binding.readBind 1 0x4000 = some d ∧
    (∀ x, x < 1 → ∃ k, (bv binding 0x82).image 1 (leAt d (16 * x) 4) = some k ∧ k.argSize = leAt d (16 * x + 4) 4) ∧
    ∃ r, (bj binding 0x82).placeArgs ((List.range 1).map (bindEntry d)) = some r := by
  refine ⟨bindList ++ toLe 64 0, atBoundary _ _ (taken _ _ _ _ rfl rfl rfl) rfl rfl, by decide +kernel, ?_,
    Option.isSome_iff_exists.1 (by decide +kernel)⟩
  intro x hx
  obtain rfl : x = 0 := by omega
  exact ⟨{ img (.end_ 0 ⟨0, 0, 0, 0, 0⟩) with argSize := 64 }, by decide +kernel, by decide +kernel⟩

/-- A bed of context 1 in the state and epoch given. -/
def bed (st epoch : Nat) : Bed := { Bed.empty with st := st, epoch := epoch }

theorem witness_bedCommands :
    (∀ j ∈ [served, { served with bedB := bed 6 2 }], ((jobbed j).job 1).any (fun k => k.atBoundary) = true ∧
      ((j.bed 1).st = 0 ∨ (j.bed 1).st = 1 ∨ (j.bed 1).st = 6) ∧ ((j.bed 0).st = 0 ∨ (j.bed 0).epoch ≠ 4)) ∧
    (let s := { jobbed served with host := live.host }
     AtBoundary s h1 0x30 (bv s 0x30) (bj s 0x30) ∧ ((bj s 0x30).bed 1).st = 0 ∧ ((bj s 0x30).bed 0).epoch ≠ 4) ∧
    (let s := { jobbed { served with bedB := { bed 5 2 with flip := 1 } } with host := live.host }
     AtBoundary s h1 0x30 (bv s 0x30) (bj s 0x30) ∧ ((bj s 0x30).bed 1).st = 5 ∧ bit 0 0 = false) ∧
    (let s := { jobbed { served with bedB := bed 1 4 } with host := live.host }
     AtBoundary s h1 0x31 (bv s 0x31) (bj s 0x31) ∧ ((bj s 0x31).bed 1).st = 1 ∧ 0x1FFFC0 + 64 ≤ ((bj s 0x31).bedRange 1).2 ∧
       (∃ bs, s.hostRead 0x7000 64 = some bs) ∧
       AtBoundary s h1 0x32 (bv s 0x32) (bj s 0x32) ∧ ((bj s 0x32).bed 1).poisoned = false ∧ (∃ d, s.hostRead 0x7000 48 = some d) ∧
       (bj s 0x32).stepNext < 1 ∧ AtBoundary s h1 0x33 (bv s 0x33) (bj s 0x33)) := by
  refine ⟨by decide +kernel, ⟨atBoundary _ _ (taken _ _ _ _ rfl rfl rfl) rfl rfl, rfl, by decide +kernel⟩,
    ⟨atBoundary _ _ (taken _ _ _ _ rfl rfl rfl) rfl rfl, rfl, rfl⟩,
    ⟨atBoundary _ _ (taken _ _ _ _ rfl rfl rfl) rfl rfl, rfl, by decide +kernel, ⟨_, hostRead_some _ _ _ rfl⟩,
      atBoundary _ _ (taken _ _ _ _ rfl rfl rfl) rfl rfl, rfl, ⟨_, hostRead_some _ _ _ rfl⟩, by decide +kernel,
      atBoundary _ _ (taken _ _ _ _ rfl rfl rfl) rfl rfl⟩⟩

/-- A model of two layers of one binary unit and one FP16 weight, at DPA 0x50000000 with its working area at 0x51000000. -/
def modelBytes : List Byte :=
  toLe 4 0x4B56474D ++ toLe 2 1 ++ [2#8, 1#8, 1#8] ++ toLe 7 0 ++ toLe 8 0x2000 ++ toLe 8 0 ++ toLe 8 1 ++ toLe 8 128 ++ toLe 8 1 ++ toLe 8 192 ++
    [0#8, 1#8] ++ toLe 6 0 ++ toLe 8 4096 ++ toLe 8 2 ++ toLe 8 0
def model : GModel := ⟨0x50000000, 0x51000000, 1, [⟨1, false, 0, 128⟩, ⟨1, false, 0, 192⟩], [⟨0, 1, 4096, 2⟩]⟩

/-- A chain of model 16 in the state given. -/
def chain (st : Nat) : Stream := { Stream.free with kind := 3, st := st, gen := 1, model := 16, temp := 0x3F800000#32, pages := [4096] }
def chained : Job := { job with tray := [(0, chain 2), (1, chain 6)], models := [(16, model)] }
def gibbs (j : Job) : State :=
  { jobbed j with lpxMem := Memory.writeBytes [] 0x50000000 modelBytes, lineGen := [(0x1400000, 1), (0x1400001, 1)] }

theorem gibbs_boundary (op : Nat) (h : op ∈ [0x40, 0x41, 0x42, 0x43, 0x44, 0x45, 0x46]) :
    AtBoundary (gibbs chained) h1 op (bv (gibbs chained) op) (bj (gibbs chained) op) := by
  simp only [List.mem_cons, List.not_mem_nil, or_false] at h
  rcases h with rfl | rfl | rfl | rfl | rfl | rfl | rfl <;> exact atBoundary _ _ (taken _ _ _ _ rfl rfl rfl) rfl rfl

/-- A run of the chain 0 with every limit at its least. -/
def runOps : GRunOps := ⟨1, 3, 2, 0x3000, 1, 0, 1, 0, 0x5000, 4096⟩

theorem witness_gibbsCommands :
    (∀ op ∈ [0x40, 0x41, 0x42, 0x43, 0x44, 0x45, 0x46], AtBoundary (gibbs chained) h1 op (bv (gibbs chained) op) (bj (gibbs chained) op)) ∧
    (let v := bv (gibbs chained) 0x40
     v.inPartition 1 0x50000000 32 = true ∧ v.inPartition 1 0x51000000 4 = true ∧ v.inPartition 1 0x50000000 (v.lpxLe (0x50000000 + 16) 8) = true ∧
       v.checkModel 0x50000000 0x51000000 = .good model ∧ model.need ≤ 4 ∧ (bj (gibbs chained) 0x40).freeModel = some 1) ∧
    (let j := { chained with tray := [] }
     AtBoundary (gibbs j) h1 0x41 (bv (gibbs j) 0x41) (bj (gibbs j) 0x41) ∧ ((bj (gibbs j) 0x41).model 16).isSome = true ∧
       ∀ e ∈ (bj (gibbs j) 0x41).tray, e.2.kind = 3 → e.2.model = 16 → e.2.st = 0 ∧ e.2.seedWait = false) ∧
    (∀ m, m < 2 → (bv (gibbs chained) 0x42).chainOpenStatus (bj (gibbs chained) 0x42) 1048575 16 2 m 0x3F800000 3 3 = 0) ∧
    (bj (gibbs chained) 0x42).model 16 = some model ∧ (bv (gibbs chained) 0x42).inPartition 1 0x52000000 model.maskBytes = true ∧
    (let x := (bj (gibbs chained) 0x43).stream 0
     0 < (bj (gibbs chained) 0x43).trayEntries ∧ x.kind = 3 ∧ x.st = 2 ∧ x.gen = 1 ∧ (bj (gibbs chained) 0x43).model x.model = some model ∧
       chainFieldsOk (some model) 0 3 3 = true ∧ (bv (gibbs chained) 0x43).inPartition 1 0x52000000 model.maskBytes = true ∧
       3 < 2 ^ model.layers.length ∧ (∃ bs, (gibbs chained).hostRead 0x3000 (model.partBytes (bit 3)) = some bs) ∧
       ((bj (gibbs chained) 0x45).stream 1).st = 6 ∧ (gibbs chained).hostCanWrite = true) ∧
    (∃ d, (gibbs { chained with tray := [(0, { chain 2 with gen := 0 })] }).hostRead 0x3000 4 = some d ∧
      ({ chained with tray := [(0, { chain 2 with gen := 0 })] } : Job).gibbsRunStatus runOps (gibbsList 1 d) = 0) := by
  refine ⟨gibbs_boundary, by and_intros <;> decide +kernel, ⟨atBoundary _ _ (taken _ _ _ _ rfl rfl rfl) rfl rfl, by decide +kernel, by decide +kernel⟩,
    ?_, by decide +kernel, by decide +kernel, ?_, ?_⟩
  · decide +kernel
  · refine ⟨by decide +kernel, by decide +kernel, by decide +kernel, by decide +kernel, by decide +kernel, by decide +kernel, by decide +kernel,
      by decide +kernel, ⟨_, hostRead_some _ _ _ rfl⟩, by decide +kernel, by decide +kernel⟩
  · exact ⟨toLe 4 0, by decide +kernel, by decide +kernel⟩

/-! ## Steps -/

/-- A job whose step program is one kernel and whose READY stream 0 has two tokens to ingest. -/
def ready : Job :=
  { served with tray := [(0, { token 2 with pending := [7, 8], pendChunks := [0] })], program := [⟨1, 0, 0⟩] }
/-- The same with a Gibbs run over chain 0. -/
def sweeping : Job :=
  { chained with tray := [(0, chain 2)], grun := some ⟨h1, [], [0], 1, 3, 0, 1, 3, 2, 0x5000, 0, 0, 0, 0, 0, false, 0⟩, lastGibbs := false }

/-- The state and the job in which the engine of context 1 may start a step. -/
def sv (j : Job) : State := ((jobbed j).setJob 1 { j with waiting := [] }).idleBoundary 1 j.waiting
def sj (j : Job) : Job := ((sv j).job 1).getD j

/-- A step in progress: stream 0 RUNNING in a token step, chain 0 in a Gibbs step. -/
def stepped : Job :=
  { ready with tray := [(0, { token 3 with pending := [7, 8, 9], pendChunks := [0], pages := [4096] })]
               run := some ⟨false, 0, [0], [2], 1, 0⟩, moe := 1, ranLayers := [0] }
def swept : Job := { sweeping with tray := [(0, chain 3)], run := some ⟨true, 0, [], [], 0, 0⟩ }

theorem witness_stepsStart :
    (∀ e ∈ [(ready, false), (sweeping, true)], e.1.atBoundary = true ∧ (jobbed e.1).halvesOf 1 ≠ 0 ∧ ((sv e.1).job 1).isSome = true ∧
      (sv e.1).mayStart 1 (sj e.1) = true ∧ (sj e.1).stepNext < 2 ^ 48 ∧
      e.2 = (sj e.1).refill.nextGibbs (sj e.1).refill.formBatch.batch ∧
      ((sj e.1).refill.formBatch.batch.map (sj e.1).refill.recordsOf).foldl (· + ·) 0 ≤ ((sv e.1).ring 1).room 1) := by
  intro e h
  simp only [List.mem_cons, List.not_mem_nil, or_false] at h
  rcases h with rfl | rfl <;> and_intros <;> decide +kernel

theorem witness_stepsEnd :
    (∀ j ∈ [stepped, swept], (jobbed j).job 1 = some j ∧ j.st = .running ∧ j.waiting = [] ∧ j.closing = none ∧ (jobbed j).streamers = [] ∧
      (∀ p, (j.page p).st ≠ 3) ∧ (jobbed j).hostCanWrite = true ∧ ∃ r, j.run = some r ∧ (jobbed j).stepDone j r = true) ∧
    (∃ r, stepped.run = some r ∧ r.gibbs = false ∧ r.batch.Nodup) ∧
    (∃ g, swept.grun = some g ∧ g.chains.Nodup ∧ ∀ i ∈ g.chains, (swept.model (swept.stream i).model).isSome = true) := by
  refine ⟨?_, ⟨_, rfl, rfl, by decide⟩, ⟨_, rfl, by decide, by decide⟩⟩
  intro j h
  simp only [List.mem_cons, List.not_mem_nil, or_false] at h
  rcases h with rfl | rfl <;>
    exact ⟨rfl, rfl, rfl, rfl, rfl, fun _ => (by decide : (PageRec.free).st ≠ 3), by decide +kernel, _, rfl, by decide +kernel⟩

/-! ## Step events -/

/-- The job of `block` opened with a second device. -/
def paired (j : Job) : Job := { j with params := { j.params with devices := 2 } }

/-- A bed of one dense FP32 shard of no bytes, and its header alone. -/
def bedBytes : List Byte :=
  toLe 4 0x4B564244 ++ toLe 2 1 ++ toLe 2 3 ++ toLe 4 1 ++ toLe 4 1024 ++ toLe 4 64 ++ toLe 2 0 ++ toLe 2 1 ++ [1#8, 0#8, 0#8, 0#8] ++ toLe 4 1 ++ toLe 8 192 ++
    toLe 24 0 ++ [1#8, 0#8] ++ toLe 4 0 ++ toLe 2 0xFFFF ++ toLe 8 4096 ++ toLe 8 0 ++ toLe 8 0 ++ sha384 [] ++ toLe 16 0

/-- The job in which bed A is VERIFYING against the digest given, and the device that holds the bed's bytes. -/
def verifying (d : List Byte) : Job := { job with bedA := { bed 2 3 with digest := d } }
def bedded (j : Job) : State :=
  { jobbed j with lpxMem := Memory.writeBytes [] 0x80000000 bedBytes, lineGen := [(0x2000000, 1), (0x2000001, 1), (0x2000002, 1)] }

/-- Stream 1048575 waits for its prompt, or chain 0 for its image. -/
def waiting : Job := { served with tray := [(1048575, { token 1 with fetch := (0x3000, 4095) })] }
def imaged (mode : Nat) : Job := { chained with tray := [(0, { chain 1 with fetch := (0x3000, mode) })] }

theorem witness_fetches :
    ((jobbed waiting).job 1 = some waiting ∧ waiting.atWork = true ∧
      (let x := waiting.stream 1048575
       x.st = 1 ∧ x.fetched = false ∧ x.seedWait = false ∧ x.kind ≠ 3 ∧ ∃ bs, (jobbed waiting).hostRead x.fetch.1 (4 * x.fetch.2) = some bs)) ∧
    (∀ mode ∈ [1, 2], (gibbs (imaged mode)).job 1 = some (imaged mode) ∧ (imaged mode).atWork = true ∧
      (let x := (imaged mode).stream 0
       x.st = 1 ∧ x.fetched = false ∧ x.seedWait = false ∧ x.kind = 3 ∧ (imaged mode).model x.model = some model ∧
       ∃ bs, if initNeedsImage x.fetch.2 x.clampLayers then (gibbs (imaged mode)).hostRead x.fetch.1 model.imageBytes = some bs else bs = [])) := by
  refine ⟨⟨rfl, rfl, by decide +kernel, by decide +kernel, by decide +kernel, by decide +kernel, ⟨_, hostRead_some _ _ _ rfl⟩⟩, ?_⟩
  intro m h
  simp only [List.mem_cons, List.not_mem_nil, or_false] at h
  rcases h with rfl | rfl <;> refine ⟨rfl, rfl, rfl, rfl, rfl, rfl, rfl, ?_⟩
  · exact ⟨_, hostRead_some _ _ _ rfl⟩
  · exact ⟨[], by decide +kernel⟩

/-- A transfer of the last 64 bytes of page 4096, in either direction. -/
def moved (toSlice : Bool) : Streamer := ⟨7, 1, 0x4003FFC0, 0x1000000, 64, toSlice, false, 0⟩

theorem witness_transfers : ∀ d ∈ [false, true],
    (let s := { jobbed job with streamers := [moved d] }
     s.job 1 = some job ∧ (s.streamers.find? fun t => t.id == (moved d).id && t.ctx == 1) = some (moved d) ∧ (moved d).toSlice = d ∧
       (job.page ((moved d).dpa / 0x40000)).st ≠ 2 ∧ (job.page ((moved d).dpa / 0x40000)).st ≠ 3 ∧ job.needsCheck ((moved d).dpa / 0x40000) = false) := by
  intro d h
  simp only [List.mem_cons, List.not_mem_nil, or_false] at h
  rcases h with rfl | rfl <;> exact ⟨rfl, rfl, rfl, by decide +kernel, by decide +kernel, by decide +kernel⟩

theorem witness_bedVerify :
    ((bedded (verifying (sha384 bedBytes))).job 1 = some (verifying (sha384 bedBytes)) ∧ (verifying (sha384 bedBytes)).atWork = true ∧
      ((verifying (sha384 bedBytes)).bed 0).st = 2 ∧
      (bedded (verifying (sha384 bedBytes))).verifyBed (verifying (sha384 bedBytes)) 0 = .good (parseManifest bedBytes []) ∧
      (verifying (sha384 bedBytes)).params.bedMirror = false) ∧
    ((verifying []).atWork = true ∧ ((verifying []).bed 0).st = 2 ∧ (bedded (verifying [])).verifyBed (verifying []) 0 = .bad 0x0405 0xFFFFFFFF ∧
      ((verifying []).bed 0).commit = none) := by
  refine ⟨⟨rfl, rfl, rfl, ?_, rfl⟩, rfl, rfl, ?_, rfl⟩
  · decide +kernel
  · decide +kernel

theorem witness_stepEvents :
    (let s := { jobbed job with lpx := [(31, { Lpx.init with st := 2 })], streamers := [moved false] }
     s.job 1 = some job ∧ (s.lpxCtrl 31).st = 2) ∧
    (let j := { paired job with committed := some (0, 0) }
     (jobbed j).job 1 = some j ∧ j.st = .running ∧ (jobbed j).waitsOn 1 j 1 = true) ∧
    (let j := { stepped with elapsed := 2 ^ 20 + 1 }
     let s := { jobbed j with ras := { live.ras with wdog := 1 } }
     s.job 1 = some j ∧ j.run.isSome = true ∧ s.ras.wdog ≠ 0 ∧ j.overdue = false ∧
       s.ras.wdog * 2 ^ 20 < j.elapsed - j.refreshStall - j.retryStall - j.stepStartNominal) := by
  refine ⟨⟨rfl, ?_⟩, ⟨rfl, rfl, ?_⟩, rfl, rfl, by decide, rfl, by decide⟩ <;> decide +kernel

/-! ## Experts -/

/-- A record of device 1 for expert 0 of layer 0, and a first output of row 0. -/
def record : DispRecord := ⟨1, 0, 0, 0, 0, 5, 3, toLe 8 0⟩
def output (rank : Nat) : DispRecord := ⟨0, 0, 1, rank, 0, 0, 3, toLe 8 0⟩

/-- Device 0 of two, a home of layer 0, in a token step of two rows, with a header and a record of device 1. -/
def routed : Job :=
  { paired ready with run := some ⟨false, 0, [0], [2], 0, 0⟩, dispHeaders := [⟨1, 0, 1, 3⟩], dispRecords := [record] }

theorem witness_experts :
    (jobbed routed).job 1 = some routed ∧ routed.atWork = true ∧
    ((paired job).current = none ∧ (⟨1, 0, 1, 3⟩ : DispHeader).epoch = routed.epoch) ∧
    (routed.current.isSome = true ∧ (⟨1, 0, 1, 4⟩ : DispHeader).epoch ≠ routed.epoch) ∧
    (routed.run.isSome = true ∧ routed.layerReady 0 = true ∧ 0 ∉ routed.ranLayers ∧ 0 < routed.moeLayers ∧
      ∀ r ∈ routed.dispRecords, r.layer = 0 → routed.servingManifest r.epoch = some manifest ∧ r.origin ≠ routed.params.rank) ∧
    (routed.servingManifest (output 0).epoch = some manifest ∧
      (routed.rowOutputs (output 0).layer (output 0).row).length + 1 < manifest.topk) ∧
    (let j := { routed with outputs := [output 0] }
     j.servingManifest (output 1).epoch = some manifest ∧ manifest.topk ≤ (j.rowOutputs (output 1).layer (output 1).row).length + 1 ∧
       (j.combined.filter fun x => x.1 == (output 1).layer).length + 1 < j.rowEpochs.length) := by
  refine ⟨rfl, rfl, ?_, ?_, ⟨rfl, by decide, by decide, by decide, ?_⟩, ?_, ?_⟩
  · decide
  · decide
  · intro r h _
    simp only [routed, paired, List.mem_cons, List.not_mem_nil, or_false] at h
    subst h
    decide
  · decide
  · decide

/-! ## Cuttings and mirrors -/

/-- Cutting q as it would be captured in the job `ready`. -/
def cutting (q : Nat) : CutImage := (jobbed ready).cutImage 1 { ready with nextCut := q, stepNext := q + 1 }

theorem witness_cuttings :
    (∀ e ∈ [(0, none, none), (2, some (1, 1), some (0, 0))],
      let j := { ready with captured := [cutting e.1], common := e.2.1, flushed := e.2.2, run := some ⟨false, 0, [], [], 0, 0⟩ }
      (jobbed j).job 1 = some j ∧ j.cuts = true ∧ j.closing = none ∧ j.writing = false ∧ j.run.isSome = true ∧
        ((cutting e.1).seq = 0 ∨ ∃ x, j.common = some x ∧ (cutting e.1).seq ≤ x.1 + 1) ∧
        ((cutting e.1).seq < 2 ∨ ∃ x, j.flushed = some x ∧ (cutting e.1).seq ≤ x.1 + 2)) ∧
    (let j := { ready with captured := [cutting 0, cutting 1], writing := true }
     (jobbed j).job 1 = some j ∧ j.cuts = true ∧ j.closing = none ∧ j.params.buddy = 0xFFFF ∧ (jobbed j).hostCanWrite = true) ∧
    (let j := paired { ready with committed := some (3, 7) }
     (jobbed j).job 1 = some j ∧ j.cuts = true ∧ j.closing = none ∧ 1 ≠ j.params.rank ∧ 1 < j.params.devices ∧ (1, 7) ∉ j.notices ∧ j.written = none ∧
       j.common ≠ some (3, 7) ∧ (∀ r, r < j.params.devices → r ≠ j.params.rank → r ≠ 1 → (r, 7) ∈ j.notices) ∧ (jobbed j).hostCanWrite = true) ∧
    (let j := paired ready
     j.cuts = true ∧ (1, 7) ∉ j.notices ∧ j.written = none ∧ ∀ q n, j.committed = some (q, n) → j.common = some (q, n)) ∧
    (let j := { ready with unflushed := [cutting 5], common := some (5, 5) }
     (jobbed j).job 1 = some j ∧ j.cuts = true ∧ j.closing = none ∧ (cutting 5).seq ≤ 5) ∧
    (∀ e ∈ [(1, 0), (5, 1)],
      let j := { ready with mirror := [⟨e.1, e.2, 64, 0⟩], pages := [(4096, { PageRec.free with st := 2 })] }
      (jobbed j).job 1 = some j ∧ j.cuts = true ∧ j.closing = none ∧ (∃ m ∈ j.mirror, m.kind = e.1 ∧ m.id = e.2) ∧ j.written = none ∧
        j.committed = none ∧ (j.page (j.params.pageFirst + 0)).st = 2) := by
  refine ⟨?_, ⟨rfl, rfl, rfl, rfl, by decide +kernel⟩, ⟨rfl, rfl, rfl, by decide, by decide, by decide, rfl, by decide, ?_, by decide +kernel⟩,
    ⟨rfl, by decide, rfl, ?_⟩, ⟨rfl, rfl, rfl, by decide +kernel⟩, ?_⟩
  · intro e h
    simp only [List.mem_cons, List.not_mem_nil, or_false] at h
    rcases h with rfl | rfl
    · exact ⟨rfl, rfl, rfl, rfl, rfl, .inl rfl, .inl (by decide +kernel)⟩
    · exact ⟨rfl, rfl, rfl, rfl, rfl, .inr ⟨_, rfl, by decide +kernel⟩, .inr ⟨_, rfl, by decide +kernel⟩⟩
  · intro r h hr h1
    have : r < 2 := h
    have : r ≠ 0 := hr
    omega
  · intro q n h
    cases h
  · intro e h
    simp only [List.mem_cons, List.not_mem_nil, or_false] at h
    rcases h with rfl | rfl
    · exact ⟨rfl, rfl, rfl, ⟨_, .head _, rfl, rfl⟩, rfl, rfl, by decide +kernel⟩
    · exact ⟨rfl, rfl, rfl, ⟨_, .head _, rfl, rfl⟩, rfl, rfl, by decide +kernel⟩

/-- The set-up that a partner of 1024 pages sends, and a device that holds its mirror. -/
def setUp : List Byte := toLe 8 0x1000 ++ toLe 4 256 ++ toLe 4 1024 ++ toLe 4 1 ++ toLe 4 1 ++ toLe 8 4096 ++ toLe 8 4096 ++ toLe 8 0
def holding (size : Nat) : Job :=
  { ready with params := { job.params with devices := 2, partner := 1, mirrorBase := 0xA0000000, mirrorSize := size }, partner := some (parseMirrorSetUp setUp) }

theorem witness_mirrors :
    (let j := holding 0x1000000
     let m := parseMirrorSetUp setUp
     (jobbed j).job 1 = some j ∧ j.st ≠ .waitSeed ∧ j.params.partner ≠ 0xFFFF ∧ j.st ≠ .ended ∧ j.partner = some m ∧ 0 < m.pageCount ∧
       64 * 4095 + (toLe 64 1).length ≤ 0x40000 ∧ 0xFC0 + (toLe 64 1).length ≤ m.slotSize ∧ m.bedMirror = true ∧
       0xFC0 + (toLe 64 1).length ≤ m.bedA ∧ 0xFC0 + (toLe 64 1).length ≤ m.bedB ∧ m.need ≤ j.params.mirrorSize ∧
       leAt (toLe 4 9 ++ toLe 4 1 ++ toLe 4 0) 4 4 = 1 ∧ leAt (toLe 4 9 ++ toLe 4 1 ++ toLe 4 0) 8 4 = 0) ∧
    (holding 0).params.mirrorSize < (parseMirrorSetUp setUp).need ∧
    (1 ≠ (paired job).params.rank ∧ 1 < (paired job).params.devices) := by
  refine ⟨⟨rfl, by decide +kernel, by decide +kernel, by decide +kernel, rfl, ?_⟩, by decide +kernel, by decide +kernel⟩
  and_intros <;> decide +kernel

/-- A page that has been asked for, under the tag that the sealing key gives the bytes `data`. -/
def fetched (data : List Byte) : Job :=
  { ready with fetching := [4096 + 5], pages := [(4096 + 5, { PageRec.free with st := 3, sealSeq := 9, tag := live.pageTag 1 ready (4096 + 5) 9 data })] }

theorem witness_pageFetch (data : List Byte) :
    (jobbed (fetched data)).job 1 = some (fetched data) ∧ ready.params.pageFirst + 5 ∈ (fetched data).fetching ∧
    (jobbed (fetched data)).pageTag 1 (fetched data) (4096 + 5) ((fetched data).page (4096 + 5)).sealSeq data = ((fetched data).page (4096 + 5)).tag :=
  ⟨rfl, .head _, rfl⟩

/-- Device 0 or 1 of two in a regrow under number 4 in the stage given. -/
def regrowing (rank stage : Nat) : Job :=
  { ready with st := .regrow, params := { job.params with devices := 2, rank := rank }
               regrow := some ⟨h1, 0, 0, false, 4, 0, 0, 0, 0, stage, 0, 0, [0], 0, 0⟩ }

theorem witness_regrowMessages :
    (let j := regrowing 0 6
     (jobbed j).job 1 = some j ∧ j.st = .regrow ∧ j.params.rank = 0 ∧ 1 < j.params.devices) ∧
    (let j := regrowing 0 7
     (jobbed j).job 1 = some j ∧ j.st = .regrow ∧ j.params.rank = 0 ∧ 1 < j.params.devices ∧ ∀ q, q < j.params.devices → q ≠ 1 → q ∈ [0]) ∧
    (let j := regrowing 1 7
     (jobbed j).job 1 = some j ∧ j.st = .regrow ∧ j.params.rank ≠ 0 ∧ 0 < j.params.devices) := by
  refine ⟨⟨rfl, rfl, rfl, by decide⟩, ⟨rfl, rfl, rfl, by decide, ?_⟩, rfl, rfl, by decide, by decide⟩
  intro q h hq
  have : q < 2 := h
  simp only [List.mem_cons, List.not_mem_nil, or_false]
  omega

/-! ## Links -/

/-- Port 15 as `x` says, in a job of two devices whose rank is 0 and whose routes name port 14 for rank 7. -/
def linked (x : Port) (l : JobLink) : State :=
  { jobbed (paired job) with links := [(1, l)], rz := { live.rz with ports := [(14, { Port.init with st := 4 }), (15, x)] } }
def routes : JobLink := ⟨[(7, 30)], none, none, 0, 5⟩

/-- A flit of a type and a sequence number on VC1, or on VC0 for the urgent space. -/
def flit (ty vc seq dest : Nat) (b : List Byte) : List Byte := mkFlit ty vc 3 seq 0 0 dest b

/-- The port once it has acknowledged and accepted a flit. -/
def accepted (x : Port) (m : List Byte) (ty : Nat) : Port :=
  if ty = 3 ∨ ty = 4 then x.acked (flitHead m) else
    { x.acked (flitHead m) with
      nakSent := false
      expectU := if (flitHead m).urgent then (x.expectU + 1) % 256 else x.expectU
      expectN := if (flitHead m).urgent then x.expectN else (x.expectN + 1) % 4096 }

theorem arrives (x : Port) (l : JobLink) (m : List Byte) (ty : Nat) (st : decide (1 ≤ x.st) && decide (x.st ≤ 4) = true) (ok : flitOk m = true)
    (type : (flitHead m).type = ty) (h : x = (linked x l).port 15)
    (order : (flitHead m).seq = if (flitHead m).urgent then x.expectU else x.expectN) : Arrives (linked x l) 15 m ty (accepted x m ty) where
  port := by decide
  scrub := rfl
  listens := by rw [← h]; simpa using st
  sound := ok
  type := type
  order := by rw [← h]; exact fun _ _ => order
  after := by rw [← h]; rfl

/-- An ACTIVE port that expects the last sequence number of both spaces. -/
def active : Port := { Port.init with st := 4, expectN := 4095, expectU := 255 }

theorem witness_flits :
    (∀ n, 1 ≤ n → n ≤ 4 → (15 < 16 ∧ (linked { active with st := n } routes).sec.scrub = none ∧ flitOk [] = false)) ∧
    (∀ e ∈ [(0, 255), (1, 4095)], ∃ y, Arrives (linked active routes) 15 (flit 1 e.1 e.2 0 [1#8]) 1 y) ∧
    (linked active routes).job ((linked active routes).portCtx 15) = some (paired job) ∧ (flitHead (flit 1 0 255 0 [1#8])).dest = (paired job).params.rank ∧
    (∃ y, Arrives (linked active routes) 15 (flit 1 3 4095 7 [1#8]) 1 y ∧ (flitHead (flit 1 3 4095 7 [1#8])).dest ≠ (paired job).params.rank ∧
      (linked active routes).route ((linked active routes).portCtx 15) (flitHead (flit 1 3 4095 7 [1#8])).dest = some 14) ∧
    (∃ y, Arrives (linked active routes) 15 (flit 2 0 255 0 [1#8]) 2 y ∧ y.queue = []) ∧
    (∃ y, Arrives (linked active routes) 15 (flit 3 0 0 0 (toLe 2 4095 ++ toLe 1 255)) 3 y ∧ y.queue = [] ∧ (nakRun y.nakN 4095).2 < 8 ∧
      (nakRun y.nakU 255).2 < 8) ∧
    (let x := { active with nakN := (4095, 7) }
     ∃ y, Arrives (linked x routes) 15 (flit 3 0 0 0 (toLe 2 4095)) 3 y ∧ 8 ≤ (nakRun y.nakN 4095).2 ∧ y.st = 4) := by
  refine ⟨?_, ?_, rfl, by decide +kernel, ⟨accepted active _ 1, arrives _ _ _ _ rfl ?_ ?_ rfl ?_, ?_, ?_⟩,
    ⟨accepted active _ 2, arrives _ _ _ _ rfl ?_ ?_ rfl ?_, rfl⟩,
    ⟨accepted active _ 3, ⟨by decide, rfl, by decide +kernel, ?_, ?_, by decide, rfl⟩, rfl, by decide, by decide⟩,
    ⟨accepted { active with nakN := (4095, 7) } _ 3, ⟨by decide, rfl, by decide +kernel, ?_, ?_, by decide, rfl⟩, by decide, rfl⟩⟩
  case refine_1 => exact fun n _ _ => ⟨by decide, rfl, by decide +kernel⟩
  case refine_2 =>
    intro e h
    simp only [List.mem_cons, List.not_mem_nil, or_false] at h
    rcases h with rfl | rfl
    · exact ⟨accepted active _ 1, arrives _ _ _ _ rfl (by decide +kernel) (by decide +kernel) rfl (by decide +kernel)⟩
    · exact ⟨accepted active _ 1, arrives _ _ _ _ rfl (by decide +kernel) (by decide +kernel) rfl (by decide +kernel)⟩
  all_goals decide +kernel

/-- A port in training, and one that exchanges keys with a peer whose chain is 04 00 05 06. -/
def training : Port := { Port.init with st := 1 }
def keying : Port := { Port.init with st := 3, frags := [(0, [4#8, 0#8])], peerDigest := sha384 [4#8, 0#8, 5#8, 6#8] }

theorem witness_training :
    (∃ y, Arrives (linked training routes) 15 (flit 4 0 0 0 [3#8]) 4 y ∧ y.st = 1 ∧
      (leAt (flitPayload (flit 4 0 0 0 [3#8])) 0 1 &&& (linked training routes).versions) % 4 ≠ 0 ∧ y.queue = []) ∧
    (let x := { keying with frags := [] }
     ∃ y, Arrives (linked x routes) 15 (flit 5 0 0 0 [1#8, 0#8, 2#8, 0#8, 4#8, 0#8]) 5 y ∧ y.st = 3 ∧ y.chainOk = false ∧ y.queue = [] ∧
      y.frags = [] ∧ chainOf [(0, [4#8, 0#8])] = none) ∧
    (∃ y, Arrives (linked keying routes) 15 (flit 5 0 0 0 [1#8, 1#8, 2#8, 0#8, 5#8, 6#8]) 5 y ∧ y.st = 3 ∧ y.chainOk = false ∧ y.queue = [] ∧
      y.frags = [(0, [4#8, 0#8])] ∧ chainOf [(0, [4#8, 0#8]), (1, [5#8, 6#8])] = some [4#8, 0#8, 5#8, 6#8] ∧
      sha384 [4#8, 0#8, 5#8, 6#8] = y.peerDigest ∧ (linked keying routes).link ((linked keying routes).portCtx 15) = some routes ∧ routes.secret = none) ∧
    (let b := flitPayload (flit 5 0 0 0 [1#8, 1#8, 2#8, 0#8, 5#8, 6#8])
     leAt b 0 1 = 1 ∧ leAt b 1 1 = 1 ∧ bytesAt b 4 (Nat.min 112 (leAt b 2 2)) = [5#8, 6#8]) := by
  refine ⟨⟨accepted training _ 4, ⟨by decide, rfl, by decide +kernel, ?_, ?_, by decide, rfl⟩, rfl, ?_, rfl⟩,
    ⟨accepted { keying with frags := [] } _ 5, ⟨by decide, rfl, by decide +kernel, ?_, ?_, ?_, rfl⟩, rfl, rfl, rfl, rfl, ?_⟩,
    ⟨accepted keying _ 5, ⟨by decide, rfl, by decide +kernel, ?_, ?_, ?_, rfl⟩, rfl, rfl, rfl, rfl, ?_, ?_, rfl, rfl⟩, ?_⟩
  all_goals decide +kernel

/-- The job secret `sec` wrapped under a link key of zeros. -/
def seal_ : List Byte × List Byte := gcmSeal (toLe 32 0) (toLe 12 1) (toLe 4 2) (toLe 48 5)
def wrapped (ct tag : List Byte) : List Byte := toLe 4 2 ++ (toLe 12 1 ++ (ct ++ (tag ++ List.replicate 36 0#8)))

theorem witness_jobSecret : ∃ y, Arrives (linked { active with linkKey := some (toLe 32 0) } routes) 15 (flit 5 0 255 0 (wrapped seal_.1 seal_.2)) 5 y ∧
    y.linkKey = some (toLe 32 0) ∧
    (let b := flitPayload (flit 5 0 255 0 (wrapped seal_.1 seal_.2))
     leAt b 0 1 = 2 ∧ gcmOpen (toLe 32 0) (bytesAt b 4 12) (b.take 4) (bytesAt b 16 48) (bytesAt b 64 16) = some (toLe 48 5)) := by
  have lc : seal_.1.length = 48 := gcmSeal_text_length _ _ _ _ rfl
  have lt : seal_.2.length = 16 := gcmSeal_tag_length _ _ _ _ rfl
  have o : gcmOpen (toLe 32 0) (toLe 12 1) (toLe 4 2) seal_.1 seal_.2 = some (toLe 48 5) := gcmOpen_gcmSeal _ _ _ _ rfl
  generalize seal_.1 = ct at lc o ⊢
  generalize seal_.2 = tag at lt o ⊢
  have p : flitPayload (flit 5 0 255 0 (wrapped ct tag)) = wrapped ct tag := by
    rw [flit, mkFlit_payload]
    have := bytesAt_middle [] (wrapped ct tag) [] 0 116 rfl (by simp [wrapped, lc, lt])
    rwa [List.nil_append, List.append_nil] at this
  have h := flitHead_mkFlit 5 0 3 255 0 0 0 (wrapped ct tag) (by decide) (by decide) (by decide) (by decide) (by decide) (by decide)
  refine ⟨accepted _ _ 5, arrives _ _ _ _ rfl ?_ (by rw [flit, h]) rfl (by rw [flit, h]; rfl), rfl, by rw [p]; rfl, ?_⟩
  · exact flitOk_mkFlit _ _ _ _ _ _ _ _ (by decide) (by decide) (by decide) (by decide) (by decide) (by decide) (.inr rfl)
  · have a : bytesAt (wrapped ct tag) 16 48 = ct := by
      rw [wrapped, ← List.append_assoc]; exact bytesAt_middle _ _ _ _ _ rfl lc.symm
    have b : bytesAt (wrapped ct tag) 64 16 = tag := by
      rw [wrapped, ← List.append_assoc, ← List.append_assoc]; exact bytesAt_middle _ _ _ _ _ (by simp [lc]) lt.symm
    rw [p, a, b]
    exact o

theorem witness_linkStates :
    ((linked active routes).job ((linked active routes).portCtx 15) = some (paired job) ∧ (linked active routes).link ((linked active routes).portCtx 15) = some routes ∧
      routes.secret = none) ∧
    (let s := { live with pins := { live.pins with lrefclk := true }, rz := { live.rz with ports := [(15, { training with version := 2, nonce := toLe 32 1 })] } }
     s.pins.lrefclk = true ∧ s.isOn (17 + 15 / 8) = true ∧ s.link (s.portCtx 15) = none ∧ (s.port 15).st = 1 ∧ (s.port 15).version ≠ 0 ∧ (s.port 15).nonce ≠ []) ∧
    (∀ n ∈ [1, 2, 4, 5], ((linked { active with st := n } routes).port 15).st = n) ∧ State.reset.pins.lrefclk = true ∧
    (∀ l, ({ live with glb := { live.glb with lock := l } } : State).barAnswers 0x110004 = true) ∧ live.sec.scrub = none := by
  refine ⟨⟨rfl, rfl, rfl⟩, by and_intros <;> decide +kernel, by decide +kernel, by decide +kernel, ?_, rfl⟩
  intro l
  cases l <;> decide +kernel

/-! ## The Moss by itself -/

/-- The run of `mossData` on region 127, its part of an extended run, and the device with it. -/
def mrun : MRun := mossData.run h1 0x52 (region 2)
def mext (parts part : Nat) : MExt :=
  ⟨9, parts, part, 0, 0, 1, 1, 1, 0, none, none, none, none, [], [], 0, true, false, none, none, none, none, 0, 0⟩
def annealing (r : MRun) : State := { mossed job (region 3) with moss := { (mossed job (region 3)).moss with runs := [r] } }
def setup (part : Nat) : MossSetupMsg := ⟨9, 3, part, 0, 0, 1, 0, 0, 1, 1, 7, 0, 0, 0, [], []⟩
def face (part : Nat) : MossFaceMsg := ⟨9, part, 3, false, false, [], []⟩

theorem witness_mossEvents :
    (∀ n ∈ [0, 1], let r := { mrun with half := n }
      (annealing r).mossRun 1 5 = some r ∧ (annealing r).canSweep r = true ∧ r.ext = none ∧ r.regions.Nodup ∧ r.half % 2 = n) ∧
    (let r := { mrun with cut := some (1, 3, 0x40000000, toLe 64 1) }
     (∃ x ∈ (annealing r).moss.runs, x = r) ∧ ((annealing r).moss.runs.find? fun r => r.ctx == 1 && r.run == 5 && r.cut.isSome) = some r ∧ r.stage = 0) ∧
    (let r := { mrun with resBusy := true }
     (annealing r).mossRun 1 5 = some r ∧ r.stage = 0) ∧
    ((annealing mrun).mossExt 1 (setup 1).extId = none ∧ (annealing mrun).job 1 = some job ∧ job.st = .running) ∧
    (let x := { mext 3 0 with ready := false }
     let r := { mrun with ext := some x }
     (annealing r).mossExt 1 x.extId = some r ∧ r.stage = 0 ∧ (setup 1).extId = x.extId ∧ x.isLead = true ∧
       ∃ q, q < x.parts ∧ q ≠ (setup 1).part ∧ ∀ y ∈ x.setups, y.part ≠ q) ∧
    (let x := mext 3 1
     let r := { mrun with ext := some x }
     (annealing r).mossExt 1 x.extId = some r ∧ r.stage = 0 ∧ (face 0).extId = x.extId ∧ (face 0).snapshot = false ∧ x.hasPrev = true ∧
       (face 0).part + 1 = x.part ∧ x.hasNext = true ∧ (face 2).part = x.part + 1 ∧ x.isLead = false) ∧
    (let x := mext 3 1
     let r := { mrun with ext := some x }
     (annealing r).mossRun 1 5 = some r ∧ r.stage = 0 ∧ x.ready = true ∧ x.started = false ∧ x.mayStart r.half = true) ∧
    (let x := mext 3 0
     let r := { mrun with ext := some x }
     (annealing r).mossExt 1 x.extId = some r ∧ r.stage = 0 ∧ x.isLead = true ∧ 2 < x.parts ∧ (∀ q ∈ x.partials, q.part ≠ 2 ∨ q.sweep ≠ 4) ∧
       ∀ w, ∃ q, q < x.parts ∧ (q ≠ 2 ∨ w ≠ 4) ∧ ∀ y ∈ x.partials, y.sweep = w → y.part ≠ q) := by
  refine ⟨?_, ⟨⟨_, .head _, rfl⟩, rfl, rfl⟩, ⟨rfl, rfl⟩, ⟨rfl, rfl, rfl⟩, ⟨rfl, rfl, rfl, rfl, 0, by decide, by decide, ?_⟩, ?_, ⟨rfl, rfl, rfl, rfl, rfl⟩,
    ⟨rfl, rfl, rfl, by decide, ?_, ?_⟩⟩
  · intro n h
    simp only [List.mem_cons, List.not_mem_nil, or_false] at h
    rcases h with rfl | rfl <;> exact ⟨rfl, by decide +kernel, rfl, by decide, rfl⟩
  · intro y h
    cases h
  · exact ⟨rfl, rfl, rfl, rfl, rfl, rfl, rfl, rfl, rfl⟩
  · intro q h
    cases h
  · exact fun w => ⟨0, by decide, .inl (by decide), fun y h => by cases h⟩

/-! ## Security and firmware -/

theorem witness_securityRegisters :
    (Writable live 0x90040 ∧ live.spg.busy = false ∧ ({ live with spg := { live.spg with busy := true } } : State).spg.busy = true) ∧
    (Writable live 0x60030 ∧ bits (0#32).toNat 3 0 = 0 ∧ bits (1#32).toNat 3 0 = 1 ∧ (live.ctx 1).st ≠ 0 ∧
      (live.ctx 1).viewKey = ({ live with sec := { live.sec with viewKey := 7 } } : State).sec.viewKey ∧
      (live.ctx 1).viewKey ≠ live.sec.viewKey ∧ (live.ctx 15).st = 0) := by
  refine ⟨⟨⟨by decide +kernel, rfl⟩, rfl, rfl⟩, ⟨by decide +kernel, rfl⟩, by decide, by decide, by decide +kernel, by decide +kernel, by decide +kernel, by decide +kernel⟩

/-- A device without contexts in a lifecycle state, whose fuses hold the key `q`; host memory holds the signature `sig`. -/
def lifecycle (lc : Nat) (q : Nat × Nat) (sig : List Byte) : State :=
  { live with
    fuses := { live.fuses with lc := lc, serial := 2, keys := [q] }, sec := { live.sec with ctxs := [(0, Ctx.host)] }
    host := { live.host with mem := Memory.writeBytes [] 0 sig } }

/-- The key under which the digest of (serial 2, target 2, nonce 0) as r and as s is a signature of itself. -/
def lcKey : Nat × Nat :=
  (0xb98e6e15b66245e0dee2b8d4e31a2e397aad29d80edc98d3886fe7c70909f135d6d195935328ad71b3a61fdaf5ab043e,
    0x957d733ad15a8c02ced06ec916aa5ae668ae302fe3398ff167f4e18e375a6890c3418ae404fe0b990b3d4d9ab69086be)
def lcSig : List Byte :=
  let d := toBe 48 0x870fa3ca3be56b5ebd6d2f2072280f2b3fb40615d47068827413e956923a406bc42c29f12e96c2c5057cff604eed4f36
  d ++ d

theorem lcKey_authorises : (lifecycle 1 lcKey lcSig).lcAuthorised 2 = true := by decide +kernel

theorem witness_lcGo :
    (∀ e ∈ [(0, 5#32, 1), (1, 6#32, 2), (2, 7#32, 3)], let s := lifecycle e.1 lcKey lcSig
      Writable s 0x6000C ∧ bit e.2.1.toNat 2 = true ∧ s.sec.islandFail = false ∧ e.2.2 = bits e.2.1.toNat 1 0 ∧ lcAllowed s.fuses.lc e.2.2 = true ∧
        (∀ x ∈ s.sec.ctxs, x.1 = 0 ∨ x.2.st = 0)) ∧
    lcAllowed 3 2 = false ∧ (lifecycle 1 lcKey []).lcAuthorised 2 = false := by
  refine ⟨?_, rfl, by decide +kernel⟩
  intro e h
  simp only [List.mem_cons, List.not_mem_nil, or_false] at h
  have c : ∀ x ∈ [(0, Ctx.host)], x.1 = 0 ∨ x.2.st = 0 := by
    intro x h
    simp only [List.mem_singleton] at h
    exact .inl (by rw [h])
  rcases h with rfl | rfl | rfl <;> exact ⟨⟨by decide +kernel, rfl⟩, by decide, rfl, by decide, by decide, c⟩

/-- An image without a body under the key index 3, whose digest as r and as s is a signature of itself under the key `fwKey`. -/
def fwImage : List Byte :=
  let d := toBe 48 0xc0a3dbf52bee9961f2931d5c331bf56b6fae566b14260e661d926f5c18e0f9529fc1d8251677961ea18621b627fb3f1a
  toLe 4 0x4B564657 ++ toLe 2 1 ++ toLe 2 15 ++ toLe 4 1 ++ toLe 4 64 ++ toLe 8 0 ++ [3#8] ++ toLe 39 0 ++ d ++ d
def fwKey : Nat × Nat :=
  (0x700bf146aab5667646461a1df86e8a43f2118f87e8845e5bcf3322033f66316e6688ea718395aedab967d8cdc62f951c,
    0x2c6dc8bb6bc5f69746a438fb003e9268cc8d8d090fae02cfc3fa1298cb74322e077edb961e4c2a45de2b1946a7a01265)

/-- The device with the image in slot 1, the other slot, and the update in the state given. -/
def updating (st : Nat) : State :=
  { live with
    fuses := { live.fuses with keys := [fwKey, fwKey, fwKey, fwKey] }, flash := Memory.writeBytes [] 0x2000000 fwImage
    sec := { live.sec with fwState := st, fwAt := (0x3000, 160) } }

theorem witness_firmwarePasses : (updating 2).fwCheck (1 - (updating 2).sec.slot) = 0 := by decide +kernel

theorem witness_firmwareReady : (updating 4).slotImage (1 - (updating 4).sec.slot) = some fwImage := by decide +kernel

theorem witness_firmwareUpdate :
    (∀ n ∈ [0, 1, 2, 3, 4], (updating n).sec.fwState = n ∧ Writable (updating n) 0x60064 ∧ (updating n).sec.islandFail = false) ∧
    (∃ bs, (updating 1).hostRead (updating 1).sec.fwAt.1 (updating 1).sec.fwAt.2 = some bs) ∧
    (let s := { updating 1 with host := { live.host with bad := [(0x309F, 1)] } }
     s.sec.fwState = 1 ∧ s.hostRead s.sec.fwAt.1 s.sec.fwAt.2 = none) ∧
    (let s := { updating 2 with flash := [] }
     s.sec.fwState = 2 ∧ s.fwCheck (1 - s.sec.slot) ≠ 0) ∧
    ((updating 3).jobs = [] ∧ ({ updating 3 with jobs := [(1, job)] } : State).jobs ≠ []) := by
  refine ⟨?_, ⟨_, hostRead_some _ _ _ rfl⟩, ⟨rfl, by decide +kernel⟩, ⟨rfl, by decide +kernel⟩, rfl, List.cons_ne_nil _ _⟩
  intro n h
  simp only [List.mem_cons, List.not_mem_nil, or_false] at h
  rcases h with rfl | rfl | rfl | rfl | rfl <;> exact ⟨rfl, ⟨by decide +kernel, rfl⟩, rfl⟩

/-! ## Management writes and registers -/

/-- A configuration block whose CRC is right, at host address 0. -/
def planBytes : List Byte := List.replicate 4092 0#8 ++ toLe 4 (crc32c (List.replicate 4092 0#8))
def planned : State := { live with host := { live.host with mem := Memory.writeBytes [] 0 planBytes } }

theorem witness_planWrite : Writable planned 0x10020 ∧ planned.mgt.busy = false ∧ planned.glb.lock = false ∧ planned.jobs = [] ∧
    planned.hostRead planned.mgt.src 4096 = some planBytes ∧ crc32c (planBytes.take 4092) = leAt planBytes 4092 4 := by
  have c := crcAtEnd (List.replicate 4092 0#8) 4092 _ List.length_replicate (crc32With_lt 0x82F63B78 (by decide) (List.replicate 4092 0#8))
  refine ⟨⟨by decide +kernel, rfl⟩, rfl, rfl, rfl, ?_, (congrArg crc32c c.1).trans c.2.symm⟩
  have l : planBytes.length = 4096 := by rw [planBytes, List.length_append, List.length_replicate, toLe_length]
  have := Memory.readBytes_writeBytes [] 0 planBytes
  rw [l] at this
  have m : planned.host.mem = Memory.writeBytes [] 0 planBytes := by dsimp only [planned]
  have z : planned.mgt.src = 0 := rfl
  rw [hostRead_some _ _ _ rfl, m, z, Nat.zero_mod, this]

theorem witness_managementWrites :
    (∀ o ∈ [0x10040, 0x10020, 0x28, 0x12004C, 0x14000C, 0x20004, 0x70008], Writable live o) ∧
    bits (1#32).toNat 1 0 ≤ 1 ∧
    ({ live with mgt := { live.mgt with pend := true } } : State).modeMayChange = true ∧
    ({ live with glb := { live.glb with lock := true } } : State).barAnswers 0x10020 = true ∧
    ({ live with mgt := { live.mgt with busy := true } } : State).mgt.busy = true ∧
    (let m : Mark := ⟨1, 1023, 0x03⟩
     let s := { live with ras := { live.ras with retired := [m] } }
     m = ⟨b2n (bit (0xFFF#32).toNat 10), bits (0xFFF#32).toNat 9 0, 0x03⟩ ∧ bit (0xFFF#32).toNat 11 = true ∧ m ∈ s.ras.retired ∧ m ∉ s.ras.restore ∧
       Writable s 0x12004C) ∧
    (bit (3#32).toNat 1 = true ∧ bit (3#32).toNat 0 = true ∧ live.dmp.st ≠ 1 ∧ live.boot.halt = .none ∧ bit (1#32).toNat 1 = false) ∧
    (∀ n ∈ [81919, 81920], ({ live with dmp := { live.dmp with st := 1, size := n } } : State).dmp.st = 1) ∧ live.hostCanWrite = true ∧
    (live.fuses.lc = 0 ∧ bit (1#32).toNat 0 ≠ live.ens.testEn ∧ Writable { live with fuses := { live.fuses with lc := 1 } } 0x70008) := by
  refine ⟨?_, ?_⟩
  · intro o h
    refine ⟨?_, rfl⟩
    revert o
    decide +kernel
  · refine ⟨by decide, by decide +kernel, by decide +kernel, rfl, ⟨rfl, by decide, .head _, by decide, ⟨by decide +kernel, rfl⟩⟩, ?_⟩
    refine ⟨⟨by decide, by decide, by decide +kernel, by decide +kernel, by decide⟩, fun n h => rfl, by decide +kernel, by decide +kernel, by decide +kernel,
      ⟨by decide +kernel, rfl⟩⟩

theorem witness_registerAccess :
    (barFits 0xFFFFFC 4 = true ∧ barFits 0xFFFFF8 8 = true ∧ barFits 0xFFFFFC 8 = false ∧ barFits 0x1000000 4 = false ∧ barFits 2 4 = false ∧
      Writable live 0xFFFFF8) ∧
    (let s := { live with sec := { live.sec with scrub := some ⟨3, 1, 5⟩ } }
     s.barAnswers 0x40000 = true ∧ s.sec.scrub.isSome = true) ∧
    (∀ o ∈ lockedOffsets, let s := { live with glb := { live.glb with lock := true } }
      Writable s o ∧ s.glb.lock = true) ∧
    (∀ o ∈ [0x10018, 0x60018, 0x60058, 0x90020, 0x90028, 0x90030, 0x90038, 0x140000],
      let s := { live with glb := { live.glb with low := [(o, 0xFFFFFFFF)] } }
      Writable s o ∧ Map.find s.glb.low o = some 0xFFFFFFFF ∧ 0xFFFFFFFF < 2 ^ 32 ∧ o % 8 = 0 ∧ o < 0x1000000 ∧ writable64 o = true ∧ reg64 o = true ∧
        reg64 (o + 4) = false) ∧
    (∀ a ∈ [(0x28, 2), (0x30004, 7), (0x90044, 1), (0x140010, 2)], Writable live a.1 ∧ bit (0xFFFFFFFF#64).toNat a.2 = true ∧
      Map.find live.glb.setAt a.1 ≠ some (live.boot.edges / 8) ∧
      Map.find ({ live with glb := { live.glb with setAt := [(a.1, live.boot.edges / 8)] } } : State).glb.setAt a.1 = some (live.boot.edges / 8)) ∧
    (barFits 0x60018 8 = true ∧ live.barAnswers 0x60018 = true ∧ reg64 0x60018 = true ∧ barFits 0x60018 4 = true ∧ barFits 0x6001C 4 = true ∧
      live.barAnswers 0x6001C = true ∧ reg64 0x6001C = false ∧ reg64 (0x6001C - 4) = true ∧
      Map.find ({ live with glb := { live.glb with latch := [(0x6001C - 4, 5)] } } : State).glb.latch (0x6001C - 4) = some 5 ∧
      barFits 0x28 4 = true ∧ live.barAnswers 0x28 = true ∧ reg64 0x28 = false ∧ 0x28 % 8 ≠ 4) := by
  refine ⟨?_, ⟨by decide +kernel, rfl⟩, ?_, ?_, ?_, ?_⟩
  · exact ⟨rfl, rfl, rfl, rfl, rfl, ⟨by decide +kernel, rfl⟩⟩
  · intro o h
    refine ⟨⟨?_, rfl⟩, rfl⟩
    revert o
    decide +kernel
  · intro o h
    refine ⟨⟨?_, rfl⟩, ?_⟩ <;> revert o <;> decide +kernel
  · intro a h
    refine ⟨⟨?_, rfl⟩, ?_⟩
    · revert a; decide +kernel
    · simp only [List.mem_cons, List.not_mem_nil, or_false] at h
      rcases h with rfl | rfl | rfl | rfl <;> decide +kernel
  · and_intros <;> decide +kernel

/-! ## Resets and boot -/

/-- Physical core 543, the last one, in the state given. -/
def core543 (st : CoreSt) : State := live.setCore 543 { Core.init with st := st, logical := 511 }

/-- The live device in split mode with context 1 on the west half only. -/
def splitLive : State := { live with mgt := { live.mgt with modeCur := 1 }, east := { live.east with owner := 0 } }

/-- The device before READY: everything that the boot waits for is done. -/
def booting : State :=
  { live with boot := { live.boot with ready := false, wasReady := false }
              lpx := (List.range 32).map fun i => (i, { Lpx.init with st := 2 }) }

theorem witness_resets :
    (Writable (core543 .idle) 0x30000 ∧ bits (0x21F3#32).toNat 2 0 = 3 ∧ bits (0x21F3#32).toNat 13 4 = 543 ∧ (core543 .idle).boot.halt = .none ∧
      (core543 .idle).boot.ready = true ∧ (core543 .idle).rst.busy = none ∧ ((core543 .idle).core 543).st = .idle ∧
      ((core543 .running).core 543).st = .running) ∧
    (∀ s ∈ [live, splitLive], s.barAnswers 0x30000 = true ∧ s.sec.scrub = none ∧ s.boot.halt = .none ∧ s.boot.ready = true ∧ s.rst.busy = none) ∧
    bits (10#32).toNat 2 0 = 2 ∧ splitLive.split = true ∧ live.split = false ∧
    ((jobbed job).job 1 = some job ∧ job.st = .running ∧ job.halves = 3 ∧ (jobbed job).halvesOf 1 ≠ 0) ∧
    (bits (4#32).toNat 2 0 = 4 ∧ live.fuses.lc ≠ 3 ∧ live.sec.lcPend = false ∧
      Writable { live with boot := { live.boot with halt := .fatal 0x21 } } 0x30000) ∧
    live.pins.pwrgood = true ∧
    (let s := { live with rst := { live.rst with busy := some ⟨1, 0, 543, 3⟩ } }
     s.boot.ready = true ∧ s.rst.busy = some ⟨1, 0, 543, 3⟩ ∧ s.boot.aligned = true ∧ s.pwr.round = [] ∧ (⟨1, 0, 543, 3⟩ : ResetRun).cause ≠ 5) ∧
    (booting.boot.ready = false ∧ booting.bootDone = true) := by
  refine ⟨⟨⟨by decide +kernel, rfl⟩, by decide, by decide, rfl, rfl, rfl, ?_, ?_⟩, ?_, by decide, by decide, by decide, ⟨rfl, by decide +kernel, by decide +kernel, by decide +kernel⟩,
    ⟨by decide, by decide +kernel, rfl, ⟨by decide +kernel, rfl⟩⟩, rfl, ⟨rfl, rfl, rfl, rfl, by decide⟩, rfl, by decide +kernel⟩
  · decide +kernel
  · decide +kernel
  · intro s h
    simp only [List.mem_cons, List.not_mem_nil, or_false] at h
    rcases h with rfl | rfl <;> exact ⟨by decide +kernel, rfl, rfl, rfl, rfl⟩

/-- The powered device with locked PLLs and the firmware image in slot 0 or 1. -/
def powered (slot : Nat) : State :=
  { State.reset with
    pins := { Pins.init with pwrgood := true, refclk := true }, boot := { Boot.init with pllLock := true }
    fuses := { Fuses.init with keys := [fwKey, fwKey, fwKey, fwKey] }
    flash := Memory.write (Memory.writeBytes [] (slotBase slot) fwImage) 0x1000 (BitVec.ofNat 8 slot) }
def aligned (slot : Nat) : State := { powered slot with boot := { (powered slot).boot with aligned := true, running := true } }

theorem witness_firmwareBoots : (aligned 1).fwCheck 1 = 0 ∧ (aligned 1).activeSlot = 1 ∧ (aligned 1).slotImage 1 = some fwImage := by
  refine ⟨?_, ?_, ?_⟩ <;> decide +kernel

/-- The device without power. -/
def unpowered : State := { State.reset with pins := { Pins.init with pwrgood := false } }

theorem witness_boot :
    (unpowered.pins.pwrgood = false ∧ unpowered.sec.lcPend = false ∧ unpowered.fuses.lc ≠ 3) ∧
    (∀ n ∈ [1, 3], let s := { unpowered with sec := { Sec.init with lcPend := true, lcTarget := n } }
      s.pins.pwrgood = false ∧ s.sec.lcPend = true ∧ s.sec.lcTarget = n) ∧
    ((powered 0).pins.pwrgood = true ∧ (powered 0).pins.refclk = true ∧ (powered 0).boot.aligned = false ∧ (powered 0).boot.pllLock = true ∧
      (powered 0).rst.busy = none ∧ (powered 0).mgt.changing = false ∧ (powered 0).sec.scrub = none) ∧
    (let s := { live with boot := { live.boot with aligned := false }, mgt := { live.mgt with changing := true }, pins := { live.pins with refclk := true } }
     s.boot.aligned = false ∧ s.boot.pllLock = true ∧ s.pins.refclk = true ∧ s.rst.busy = none ∧ s.mgt.changing = true ∧ s.sec.scrub = none) ∧
    ((aligned 1).boot.aligned = true ∧ (aligned 1).boot.firmware = false ∧ (aligned 1).boot.halt = .none ∧ (aligned 1).fuses.lc ≠ 2) ∧
    (let s := { aligned 1 with flash := [] }
     s.activeSlot = 0 ∧ s.fwCheck 0 ≠ 0 ∧ s.fwCheck 1 ≠ 0 ∧ ({ s with sec := { s.sec with fallback := true } } : State).sec.fallback = true) ∧
    (∀ w ∈ [0, 1, 2], ∀ h, h < 2 → let s := { aligned 0 with boot := { (aligned 0).boot with controllers := true }, mgt := { Mgt.init with claimW := w, claimE := w } }
      s.boot.controllers = true ∧ s.mgt.agreed = false ∧ s.boot.halt = .none ∧ (if h = 0 then s.mgt.claimE else s.mgt.claimW) = w ∧ s.claimOf h = (if h = 0 then 1 else 2)) ∧
    (let s := { live with lpx := [(31, { Lpx.init with st := 1 })] }
     (s.lpxCtrl 31).st = 1 ∧ s.fuses.lc ≠ 2) ∧
    (let s := { booting with boot := { booting.boot with zeroed := false }, sec := { booting.sec with ctxs := [] } }
     s.boot.zeroed = false ∧ (∀ a, s.genAt a = 0) ∧ ∀ k, k < 32 → (s.lpxCtrl k).st = 2) := by
  refine ⟨⟨rfl, rfl, by decide +kernel⟩, fun n h => ⟨rfl, rfl, rfl⟩, ⟨rfl, rfl, rfl, rfl, rfl, rfl, rfl⟩, ⟨rfl, rfl, rfl, rfl, rfl, rfl⟩,
    ⟨rfl, rfl, rfl, by decide +kernel⟩, ⟨by decide +kernel, by decide +kernel, by decide +kernel, rfl⟩, ?_, ⟨by decide +kernel, by decide +kernel⟩, rfl, fun a => rfl, ?_⟩
  · intro w hw h hh
    refine ⟨rfl, rfl, rfl, ?_, ?_⟩ <;> rcases (by omega : h = 0 ∨ h = 1) with rfl | rfl <;> rfl
  · decide +kernel

/-! ## Pins, throttling, domains and device-fatal errors -/

theorem witness_hostPins :
    (let s := { live with boot := { live.boot with ready := false, wasReady := false } }
     s.pins.perst = false ∧ s.pins.pwrgood = true ∧ s.boot.halt = .none ∧ s.boot.ready = false ∧ s.boot.wasReady = false) ∧
    (live.pins.perst = false ∧ live.boot.ready = true ∧ live.fuses.lc ≠ 3 ∧ live.sec.lcPend = false ∧ live.isOn 19 = true ∧ live.boot.halt ≠ .refclk) ∧
    (State.reset.pins.perst = true ∧ State.reset.boot.halt ≠ .primacy) := by
  and_intros <;> decide +kernel

/-- A half that has decided a level for the root edge 128. -/
def deciding (split : Nat) : State :=
  { live with
    mgt := { live.mgt with modeCur := split }, boot := { live.boot with edges := 128 }
    west := { live.west with next := [(3, 128)] }, east := { live.east with next := [(3, 128)] } }

theorem witness_throttle :
    (live.pins.thermtrip = false ∧ live.pins.pwrgood = true ∧ live.boot.halt = .none) ∧
    ((∃ t ∈ [95], live.pwr.tThrottle ≤ t) ∧ (∀ t ∈ [89], t + 5 < live.pwr.tThrottle) ∧
      (∀ t ∈ [90], t < live.pwr.tThrottle) ∧ ∃ t ∈ [90], live.pwr.tThrottle ≤ t + 5) ∧
    (live.pwr.limit < 1401 ∧ 100 * 1329 < 95 * live.pwr.limit ∧ 1330 ≤ live.pwr.limit ∧ 95 * live.pwr.limit ≤ 100 * 1330) ∧
    ((deciding 1).split = true ∧ ((deciding 1).half 0).next = (3, 128) :: [] ∧ (deciding 1).boot.aligned = true ∧ 128 ≤ (deciding 1).boot.edges ∧
      ((deciding 1).half 0).slot (deciding 1).boot.edges = 0) ∧
    ((deciding 0).split = false ∧ (∀ n, n < 2 → ((deciding 0).half n).next = [(3, 128)] ∧ ((deciding 0).half n).slot (deciding 0).boot.edges = 0)) := by
  refine ⟨⟨rfl, rfl, rfl⟩, ⟨⟨95, .head _, by decide⟩, by decide, by decide, ⟨90, .head _, by decide⟩⟩, by decide, ⟨rfl, rfl, rfl, by decide, by decide +kernel⟩, rfl, ?_⟩
  intro n h
  rcases (by omega : n = 0 ∨ n = 1) with rfl | rfl <;> exact ⟨rfl, by decide +kernel⟩

theorem witness_domains :
    (∀ d ∈ [0, 3, 10, 15, 16, 19], d ∈ ({ live with pwr := { live.pwr with rising := [0, 3, 10, 15, 16, 19] } } : State).pwr.rising) ∧
    (let s := { live with pwr := { live.pwr with idleOff := true } }
     s.idleDomain 10 = true ∧ s.idleDomain 16 = true ∧ s.idleDomain 19 = false) ∧
    (let s := { live with pwr := { live.pwr with round := [(0, 543), (1, 127)] } }
     s.pwr.round ≠ [] ∧ s.boot.aligned = true ∧ s.pwr.round.Nodup ∧ ∀ x ∈ s.pwr.round, x.1 < 2) ∧
    (live.boot.controllers = true ∧ live.boot.halt = .none ∧ (live.half 1).hbSent = 0) ∧
    (let s := { live with east := { live.east with hbSent := 5, nc := 7503 } }
     (s.half 1).hbSent ≠ 0 ∧ (s.half 1).nc + 1 < (s.half 1).hbSent + 7500) := by
  refine ⟨by decide, by decide +kernel, ⟨by decide, rfl, by decide, ?_⟩, by decide +kernel, by decide +kernel⟩
  intro x h
  simp only [List.mem_cons, List.not_mem_nil, or_false] at h
  rcases h with rfl | rfl <;> decide

theorem witness_deviceFatal : (jobbed job).boot.halt = .none ∧ (jobbed job).job 1 = some job ∧ job.st = .running := ⟨rfl, rfl, rfl⟩

/-! ## Entropy and the management ports -/

/-- The source in a start-up window whose samples are the test pattern given (R587): 1 passes every test, 0 fails both. -/
def starting (pattern consec : Nat) : State :=
  { live with ens := { live.ens with settling := false, startup := true, testEn := true, pattern := pattern, consec := consec, stoch := 0 } }

/-- A byte of alternating samples keeps every run at one. -/
theorem alternating (n : Nat) (h : Bool) (m : Nat) :
    (List.replicate n 0xAA#8).foldl (fun (x : Scan) b => (List.range 8).foldl (fun (x : Scan) i => x.next 0 (b2n (bit b.toNat i))) x) ⟨1, 1, h, m⟩ =
      ⟨1, 1, h, m + 4 * n⟩ := by
  induction n generalizing m with
  | zero => rfl
  | succ n ih =>
    rw [List.replicate_succ, List.foldl_cons]
    have : (List.range 8).foldl (fun (x : Scan) i => x.next 0 (b2n (bit (0xAA#8).toNat i))) ⟨1, 1, h, m⟩ = ⟨1, 1, h, m + 4⟩ := by
      cases h <;> rfl
    rw [this, ih]
    congr 1
    omega

/-- A byte of zeros agrees with sample 0 eight times. -/
theorem constant (n : Nat) (x : Scan) :
    ((List.replicate n 0#8).foldl (fun (x : Scan) b => (List.range 8).foldl (fun (x : Scan) i => x.next 0 (b2n (bit b.toNat i))) x) x).same =
      x.same + 8 * n := by
  induction n generalizing x with
  | zero => rfl
  | succ n ih =>
    rw [List.replicate_succ, List.foldl_cons, ih]
    show x.same + 8 + 8 * n = _
    omega

theorem passing_block (k : Nat) : ((starting 1 0).ens.block [] k).2.1 = 0 := by
  have e : scanBlock (Osc.start k) (List.replicate (127 + 1) 0xAA#8) = ⟨1, 1, false, 4 + 4 * 127⟩ := by
    rw [List.replicate_succ]
    unfold scanBlock
    rw [List.foldl_cons, ← alternating 127 false 4]
    rfl
  exact congrArg Scan.failed e

theorem failing_block (c k : Nat) : ((starting 0 c).ens.block [] k).2.1 ≠ 0 := by
  have e : (scanBlock (Osc.start k) (List.replicate (127 + 1) 0#8)).same = 0 + 8 * 128 := by
    unfold scanBlock
    rw [← constant 128 ⟨(Osc.start k).last, (Osc.start k).run, false, 0⟩]
    rfl
  have f : (scanBlock (Osc.start k) (List.replicate (127 + 1) 0#8)).failed ≠ 0 := by
    simp only [Scan.failed, e, b2n]
    split <;> decide
  exact f

theorem witness_windows :
    ((starting 1 0).ens.settling = false ∧ (starting 1 0).pins.pwrgood = true ∧ (starting 1 0).ens.startup = true ∧ (starting 1 0).ens.stoch ≠ 3 ∧
      (starting 1 0).ens.failures ((starting 1 0).ens.window32 []) = []) ∧
    ∀ c, (starting 0 c).ens.failures ((starting 0 c).ens.window32 []) ≠ [] := by
  refine ⟨⟨rfl, rfl, rfl, by decide, ?_⟩, ?_⟩
  · rw [Ens.failures, List.map_eq_nil_iff, List.filter_eq_nil_iff]
    intro b hb
    have m := List.fst_mem_of_mem_zipIdx hb
    obtain ⟨k, -, e⟩ := List.mem_map.1 m
    rw [← e, passing_block]
    simp
  · intro c h
    rw [Ens.failures, List.map_eq_nil_iff, List.filter_eq_nil_iff] at h
    refine h ((starting 0 c).ens.block [] 0, 0) ?_ ?_
    · exact List.mem_zipIdx_iff_getElem?.2 rfl
    · have := failing_block c 0
      simp only [bne_iff_ne.2 this, Bool.true_and]
      rfl

theorem witness_drbg :
    (let s := { live with ens := { live.ens with secBlock := some (toLe 128 1) } }
     s.ens.secBlock = some (toLe 128 1) ∧ s.drb.st = 0 ∧ s.sec.islandFail = false) ∧
    (let s := { live with ens := { live.ens with secBlock := some (toLe 128 1) }, drb := { live.drb with st := 1 } }
     s.ens.secBlock = some (toLe 128 1) ∧ s.drb.st = 1 ∧ s.sec.islandFail = false ∧ s.mayReseed = true) ∧ live.pins.pwrgood = true := by
  refine ⟨⟨rfl, rfl, rfl⟩, ⟨rfl, rfl, rfl, by decide +kernel⟩, rfl⟩

theorem witness_managementPorts :
    (live.pins.pwrgood = true ∧ live.coarseTel = false ∧ ({ live with sec := { live.sec with scrub := some ⟨3, 1, 5⟩ } } : State).coarseTel = true ∧
      unpowered.pins.pwrgood = false) ∧
    (live.jtagOpen = true ∧ ({ live with fuses := { live.fuses with lc := 1 } } : State).jtagOpen = false) ∧
    (live.islandAnswers = true ∧ live.boot.activating = false ∧ live.fuses.lc ≠ 2 ∧ live.sec.sessions + live.sec.handshakes < 15 ∧
      unpowered.islandAnswers = false ∧ ({ live with boot := { live.boot with activating := true } } : State).islandAnswers = true) ∧
    (({ live with sec := { live.sec with handshakes := 1 } } : State).sec.handshakes ≠ 0 ∧ ({ live with sec := { live.sec with sessions := 1 } } : State).sec.sessions ≠ 0) := by
  and_intros <;> decide +kernel

/-! ## The remaining hypotheses -/

theorem witness_fusesNeverGoBack : ∃ t, step { live with pending := [.secFwCommitSvn] } = .next t := ⟨_, rfl⟩

theorem witness_accumulation : [Contribution.value 1#32, .image [1#8]].Perm [.image [1#8], .value 1#32] := List.Perm.swap _ _ _

theorem witness_rawImage : -(2 ^ 639) ≤ ExactAcc.zero.acc ∧ ExactAcc.zero.acc < 2 ^ 639 ∧ 511 < 512 ∧ 4095 < 4096 := by decide +kernel

/-- Each side of the nearest value: an index just behind its reference, and one just ahead of it. -/
theorem witness_indexExtends : belowIndex (2 ^ 32 + 5) 4 = true ∧ belowIndex (2 ^ 32 + 5) 5 = false ∧ belowIndex 0xFFFFFFFF 0 = false ∧
    belowIndex 0 0x80000000 = true ∧ belowIndex 0 0x7FFFFFFF = false := by decide +kernel

/-! ## The registration of a context and a run resumed from its slot -/

/-- A field within the first part of a list is that part's. -/
theorem bytesAt_left (a b : List Byte) (i n : Nat) (h : i + n ≤ a.length) : bytesAt (a ++ b) i n = bytesAt a i n := by
  have e : a = a.take i ++ ((a.drop i).take n ++ (a.drop i).drop n) := by rw [List.take_append_drop, List.take_append_drop]
  have li : i = (a.take i).length := by rw [List.length_take]; omega
  have ln : n = ((a.drop i).take n).length := by rw [List.length_take, List.length_drop]; omega
  have f := bytesAt_middle _ _ ((a.drop i).drop n) i n li ln
  rw [← e] at f
  rw [f]
  conv => lhs; arg 1; arg 1; rw [e]
  rw [List.append_assoc, List.append_assoc]
  exact bytesAt_middle _ _ _ _ _ li ln

/-- A context block of version 1: its header, and the block of a wrapped secret. The host's point is P-384's base point, the identity key 1. -/
def blockHead : List Byte := toLe 4 0x4B564358 ++ toLe 2 1 ++ toLe 2 0 ++ toLe 8 0x100000000 ++ toLe 8 0x40000000 ++ toLe 8 9 ++
  toBe 48 p384G.1 ++ toBe 48 p384G.2 ++ toLe 12 7 ++ toLe 4 0
def ctxBlock (ct tag : List Byte) : List Byte := blockHead ++ (ct ++ (tag ++ List.replicate 48 0#8))
def blockKey : List Byte := hkdf32 (toBe 48 p384G.1) (List.replicate 48 0#8) (wrapLabel ++ toLe 1 2 ++ toLe 8 live.fuses.serial)
def blockSeal : List Byte × List Byte := gcmSeal blockKey (toLe 12 7) blockHead (toLe 48 5)
def keyed (b : List Byte) : State :=
  { live with fuses := { live.fuses with identity := 1 }, host := { live.host with mem := Memory.writeBytes [] 0 b } }

theorem witness_registration : ∃ b secret : List Byte, Taken (keyed b) h0 0x70 0 ∧ (keyed b).hostRead 0 256 = some b ∧ ctxBlockOk (keyed b).split b = true ∧
    ((keyed b).ctx 2).st = 0 ∧ (keyed b).partitionTaken (leAt b 8 8) (leAt b 16 8) = false ∧ (keyed b).openSecret 2 b = some secret ∧
    (keyed b).fuses.lc ≠ 3 ∧ nextGen (keyed b).heldGens 18 (keyed b).sec.nextGen = some 2 := by
  have lk : blockKey.length = 32 := hkdf32_length _ _ _
  have lc : blockSeal.1.length = 48 := gcmSeal_text_length _ _ _ _ lk
  have lt : blockSeal.2.length = 16 := gcmSeal_tag_length _ _ _ _ lk
  have o : gcmOpen blockKey (toLe 12 7) blockHead blockSeal.1 blockSeal.2 = some (toLe 48 5) := gcmOpen_gcmSeal _ _ _ _ lk
  have lh : blockHead.length = 144 := by decide +kernel
  generalize blockSeal.1 = ct at lc o
  generalize blockSeal.2 = tag at lt o
  have ll : (ctxBlock ct tag).length = 256 := by
    rw [ctxBlock, List.length_append, List.length_append, List.length_append, lh, lc, lt, List.length_replicate]
  have inHead (i n : Nat) (h : i + n ≤ 144) : bytesAt (ctxBlock ct tag) i n = bytesAt blockHead i n :=
    bytesAt_left _ _ i n (by rw [lh]; exact h)
  have le (i n : Nat) (h : i + n ≤ 144) : leAt (ctxBlock ct tag) i n = leAt blockHead i n := by
    rw [leAt, inHead i n h, leAt]
  have ze (i n : Nat) (h : i + n ≤ 144) : zeroAt (ctxBlock ct tag) i n = zeroAt blockHead i n := by
    rw [zeroAt, inHead i n h, zeroAt]
  have at144 : bytesAt (ctxBlock ct tag) 144 48 = ct := by rw [ctxBlock]; exact bytesAt_middle _ _ _ _ _ lh.symm lc.symm
  have at192 : bytesAt (ctxBlock ct tag) 192 16 = tag := by
    rw [ctxBlock, ← List.append_assoc]; exact bytesAt_middle _ _ _ _ _ (by rw [List.length_append, lh, lc]) lt.symm
  have at208 : bytesAt (ctxBlock ct tag) 208 48 = List.replicate 48 0#8 := by
    have := bytesAt_middle (blockHead ++ (ct ++ tag)) (List.replicate 48 0#8) [] 208 48
      (by rw [List.length_append, List.length_append, lh, lc, lt]) (by rw [List.length_replicate])
    rwa [List.append_nil, List.append_assoc, List.append_assoc] at this
  have take144 : (ctxBlock ct tag).take 144 = blockHead := by rw [ctxBlock, List.take_left' lh]
  refine ⟨ctxBlock ct tag, toLe 48 5, ⟨by decide, rfl, rfl⟩, ?_, ?_, rfl, ?_, ?_, (by decide : live.fuses.lc ≠ 3), rfl⟩
  · have := Memory.readBytes_writeBytes [] 0 (ctxBlock ct tag)
    rw [ll] at this
    have m : (keyed (ctxBlock ct tag)).host.mem = Memory.writeBytes [] 0 (ctxBlock ct tag) := by dsimp only [keyed]
    rw [hostRead_some _ _ _ rfl, m, Nat.zero_mod, this]
  · have z : zeroAt (ctxBlock ct tag) 208 48 = true := by rw [zeroAt, at208]; decide
    have sp : (keyed (ctxBlock ct tag)).split = false := rfl
    simp only [ctxBlockOk, z, sp, le 0 4 (by decide), le 4 2 (by decide), ze 6 2 (by decide), ze 140 4 (by decide), le 8 8 (by decide), le 16 8 (by decide)]
    decide +kernel
  · rw [le 8 8 (by decide), le 16 8 (by decide)]
    generalize ctxBlock ct tag = b
    have : ∀ s : State, s.partitionTaken (leAt blockHead 8 8) (leAt blockHead 16 8) = s.partitionTaken 0x100000000 0x40000000 := by
      intro s
      have a : leAt blockHead 8 8 = 0x100000000 := by decide +kernel
      have b : leAt blockHead 16 8 = 0x40000000 := by decide +kernel
      rw [a, b]
    rw [this]
    rfl
  · have x : ecdhX 1 (ofBe (bytesAt blockHead 32 48), ofBe (bytesAt blockHead 80 48)) = some (toBe 48 p384G.1) := by decide +kernel
    have i : ((keyed (ctxBlock ct tag)).fuses).identity = 1 := rfl
    have lcy : (keyed (ctxBlock ct tag)).fuses.lc ≠ 2 := (by decide : live.fuses.lc ≠ 2)
    have se : ((keyed (ctxBlock ct tag)).fuses).serial = live.fuses.serial := rfl
    rw [State.openSecret, if_neg lcy, i, inHead 32 48 (by decide), inHead 80 48 (by decide), x, se]
    have iv : bytesAt blockHead 128 12 = toLe 12 7 := by decide +kernel
    show gcmOpen blockKey _ _ _ _ = _
    rw [inHead 128 12 (by decide), at144, at192, take144, iv]
    exact o

/-- Region 127 with couplings whose digest is zero, and the run that resumes on it. -/
def kept : MRegion := { region 2 with digest := List.replicate 48 0#8 }
def again : MRun := mossData.run h1 0x54 kept

/-- A slot of the run after five sweeps: its first 48 bytes, the digests of R360, zeros, and the trailer. -/
def slotHead : List Byte := toLe 4 0x4B564143 ++ toLe 2 1 ++ [1#8, 0#8] ++ toLe 2 1 ++ toLe 2 1 ++ toLe 4 0 ++ toLe 8 5 ++ toLe 4 0 ++ toLe 4 0 ++ toLe 8 0 ++
  toLe 8 (slotBytes again.replicas kept.imageBytes (again.sectionBytes kept))
def slotRest : Nat := slotBytes again.replicas kept.imageBytes (again.sectionBytes kept) - 48 - 96
def slotFull (d : List Byte) : List Byte :=
  let b := slotHead ++ (d ++ List.replicate slotRest 0#8)
  b ++ sha384 b
def slotAt : Nat := slotDpa again.cutArea again.replicas kept.imageBytes (again.sectionBytes kept) 0
def cutState (b : List Byte) : State :=
  { mossed job kept with lpxMem := Memory.writeBytes [] slotAt b, lineGen := (linesOf slotAt b.length).map fun l => (l, 1) }

theorem get_mapped (ls : List Nat) (l : Nat) (h : l ∈ ls) : Map.get 0 (ls.map fun l => (l, 1)) l = 1 := by
  induction ls with
  | nil => simp at h
  | cons x xs ih =>
    rcases List.mem_cons.mp h with rfl | h
    · simp [Map.get]
    · rw [List.map_cons, Map.get, ih h, ite_self]

/-- Bytes of lines of the context's own generation read as they were written. -/
theorem lpxRead_written (s : State) (a n : Nat) (bs : List Byte) (hm : s.lpxMem = Memory.writeBytes [] a bs) (hl : bs.length = n)
    (hg : ∀ i, i < n → Map.get 0 s.lineGen ((a + i) / 64) = s.genAt (a + i)) : s.lpxRead a n = bs := by
  rw [← Memory.readBytes_writeBytes [] a bs, ← hm, hl]
  refine List.ext_getElem (by simp [State.lpxRead]) fun i h _ => ?_
  have hi : i < n := by simpa [State.lpxRead] using h
  rw [Memory.readBytes_getElem]
  simp only [State.lpxRead, List.getElem_map, List.getElem_range, State.lpxByte, if_pos (hg i hi)]

theorem run_digest (d : MossData) (h : Head) (op : Nat) (g : MRegion) : (d.run h op g).digest = sha384 d.block := rfl

/-- What does not look at the slot's bytes. -/
theorem cutState_starts (b : List Byte) :
    Taken (cutState b) h1 0x54 1 ∧ (cutState b).readMoss 0x2000 = some mossData ∧ MayStart (cutState b) h1 0x54 (some slotAt) mossData kept again := by
  refine ⟨taken _ _ _ _ rfl rfl rfl, ?_, ⟨⟨job, rfl, by decide +kernel⟩, ⟨127#8, [], rfl, ?_⟩, ?_, ?_, rfl, by decide +kernel, ?_⟩⟩
  · have : (mossed job kept).readMoss 0x2000 = some mossData := by decide +kernel
    exact this
  · have : kept = (mossed job kept).region 127 := by decide +kernel
    exact this
  · intro x hx
    simp only [mossData, List.mem_singleton] at hx
    subst hx
    have : ((mossed job kept).region 127).st = 2 ∧ ((mossed job kept).region 127).ctx = 1 ∧ ((mossed job kept).region 127).wx = kept.wx ∧
      ((mossed job kept).region 127).wy = kept.wy ∧ ((mossed job kept).region 127).exact = kept.exact ∧
      ((mossed job kept).region 127).digest = kept.digest := by decide +kernel
    exact this
  · intro x hx
    cases hx
  · have : (mossed job kept).deniedRange again kept (some slotAt) = none := by decide +kernel
    exact this

theorem cutState_replica (b : List Byte) : (cutState b).replica again 0 = kept := by
  have : (mossed job kept).replica again 0 = kept := by decide +kernel
  exact this

theorem cutState_slotHit (b : List Byte) (a n : Nat) : (cutState b).slotHit a n = false := rfl

/-- The slot's lines are of the context's generation. -/
theorem cutState_reads (b : List Byte) (n : Nat) (h : b.length = n) (hn : n ≤ 100000) : (cutState b).lpxRead slotAt n = b := by
  refine lpxRead_written _ _ _ _ rfl h fun i hi => ?_
  have a : slotAt = 1073745920 := by decide +kernel
  have e : (cutState b).sec.ctxs = live.sec.ctxs := rfl
  have g : (cutState b).genAt (slotAt + i) = 1 := by
    have l : live.sec.ctxs = [(0, Ctx.host), (1, ⟨2, 0x0, 0x100000000, 1, 7, []⟩)] := rfl
    have lt : 1073745920 + i < 4294967296 := by omega
    simp [State.genAt, e, a, l, Ctx.owns, Ctx.host, lt]
  rw [g]
  refine get_mapped _ _ ?_
  rw [h, a, linesOf, if_neg (by omega)]
  simp only [List.mem_map, List.mem_range]
  exact ⟨(1073745920 + i) / 64 - 1073745920 / 64, by omega, by omega⟩

theorem witness_mossResume : ∃ b : List Byte,
    (let s := cutState b
     Taken s h1 0x54 1 ∧ s.readMoss 0x2000 = some mossData ∧ MayStart s h1 0x54 (some slotAt) mossData kept again ∧ again.ext = none ∧
       b = s.lpxRead slotAt (slotBytes again.replicas kept.imageBytes (again.sectionBytes kept)) ∧ s.slotHit slotAt b.length = false ∧
       s.slotMatches again kept b = true ∧ leAt b 16 8 ≠ again.total) := by
  have n : slotBytes again.replicas kept.imageBytes (again.sectionBytes kept) = 18160 := by decide +kernel
  have lh : slotHead.length = 48 := by decide +kernel
  have ld : again.digest.length = 48 := by rw [again, run_digest]; exact sha384_length _
  have ls : slotRest = 18016 := by decide +kernel
  have e : again.digest = again.digest := rfl
  generalize hd : again.digest = d at ld e
  have lb : (slotHead ++ (d ++ List.replicate slotRest 0#8)).length = 18112 := by
    rw [List.length_append, List.length_append, lh, ld, List.length_replicate, ls]
  have sf : slotFull d = (slotHead ++ (d ++ List.replicate slotRest 0#8)) ++ sha384 (slotHead ++ (d ++ List.replicate slotRest 0#8)) := by
    unfold slotFull; rfl
  have ll : (slotFull d).length = 18160 := by
    rw [sf, List.length_append, lb, sha384_length]
  have zeros (i k : Nat) (h : i + k ≤ slotRest) : bytesAt (slotFull d) (96 + i) k = List.replicate k 0#8 := by
    have z : List.replicate slotRest 0#8 = List.replicate i 0#8 ++ (List.replicate k 0#8 ++ List.replicate (slotRest - i - k) 0#8) := by
      rw [List.replicate_append_replicate, List.replicate_append_replicate]
      exact congrArg (List.replicate · 0#8) (by omega)
    rw [sf]
    generalize sha384 (slotHead ++ (d ++ List.replicate slotRest 0#8)) = m
    have r : slotHead ++ (d ++ (List.replicate i 0#8 ++ (List.replicate k 0#8 ++ List.replicate (slotRest - i - k) 0#8))) ++ m =
        (slotHead ++ (d ++ List.replicate i 0#8)) ++ (List.replicate k 0#8 ++ (List.replicate (slotRest - i - k) 0#8 ++ m)) := by
      simp only [List.append_assoc]
    rw [z, r]
    exact bytesAt_middle (slotHead ++ (d ++ List.replicate i 0#8)) _ _ _ _ (by rw [List.length_append, List.length_append, lh, ld, List.length_replicate]; omega) (List.length_replicate).symm
  have le (i k : Nat) (h : i + k ≤ 48) : leAt (slotFull d) i k = leAt slotHead i k := by
    rw [leAt, sf, List.append_assoc, bytesAt_left _ _ i k (by rw [lh]; exact h), leAt]
  have dig : bytesAt (slotFull d) 48 48 = d := by
    rw [sf, List.append_assoc, List.append_assoc]
    exact bytesAt_middle _ _ _ _ _ lh.symm ld.symm
  have tr : sha384 ((slotFull d).take (18160 - 48)) = (slotFull d).drop (18160 - 48) := by
    rw [sf, List.take_left' lb, List.drop_left' lb]
  have st := cutState_starts (slotFull d)
  refine ⟨slotFull d, st.1, st.2.1, st.2.2, by decide +kernel, ?_, cutState_slotHit _ _ _, ?_, ?_⟩
  · rw [n]
    exact (cutState_reads _ _ ll (by decide)).symm
  · have r1 : again.replicas = 1 := by decide +kernel
    have ib : kept.imageBytes = 4096 := by decide +kernel
    have rep := cutState_replica (slotFull d)
    have cd : again.chainDigest = List.replicate 48 0#8 := by decide +kernel
    have kd : again.constrDigest = List.replicate 48 0#8 := by decide +kernel
    have z1 := zeros 0 48 (by rw [ls]; decide)
    have z2 := zeros 4416 48 (by rw [ls]; decide)
    have z3 := zeros 4464 48 (by rw [ls]; decide)
    rw [State.slotMatches, n, r1, ib]
    simp only [Bool.and_eq_true, beq_iff_eq, List.all_eq_true]
    refine ⟨⟨⟨⟨⟨⟨⟨⟨tr, ?_⟩, ?_⟩, ?_⟩, ?_⟩, ?_⟩, ?_⟩, ?_⟩, ?_⟩
    · rw [le 0 4 (by decide)]; decide +kernel
    · rw [le 4 2 (by decide)]; decide +kernel
    · rw [le 40 8 (by decide)]; decide +kernel
    · rw [dig, hd]
    · rw [le 6 1 (by decide)]; decide +kernel
    · intro x hx
      have : x = kept := by simpa [rep] using hx
      rw [this, le 8 2 (by decide), le 10 2 (by decide), le 7 1 (by decide), z1]
      decide +kernel
    · rw [cd]; exact z2
    · rw [kd]; exact z3
  · rw [le 16 8 (by decide)]
    decide +kernel

end Sys2Proof.Tests
end

/-!
PROOFS. Host accesses to BAR0 (R8 to R12, R539, R541, R655): what a write of either half of a 64-bit register, of an RW1C bit and of an RWL
field does, what a read answers and latches, and the state in which the statement about them (O49) fails.
-/
namespace Sys2Proof.Slice0
open Sys2Proof Sys2Proof.Machine

/-! ## What the state of the device makes of an access (R11, R539, R614) -/

theorem exec_regWrite (o size : Nat) (v : W64) (s : State) : exec (.regWrite o size v) s = .next (s.hostWriteReg o size v) := rfl

theorem exec_rw1cWrite (o size : Nat) (v : W64) (s : State) : exec (.rw1cWrite o size v) s = .next (s.hostWriteReg o size v) := rfl

theorem hostWriteReg_of_writable {s : State} {o size : Nat} {v : W64} (hf : barFits o size = true) (hw : Writable s o) :
    s.hostWriteReg o size v = s.applyWrite o size v := by
  obtain ⟨ha, hs⟩ := hw
  simp [State.hostWriteReg, State.barGate, hf, ha, hs]

theorem hostWriteReg_of_notTaken {s : State} {o size : Nat} {v : W64} (h : barFits o size = false ∨ s.barAnswers o = false) :
    s.hostWriteReg o size v = s := by
  rcases h with h | h <;> simp [State.hostWriteReg, State.barGate, h]

theorem hostWriteReg_of_scrub {s : State} {o size : Nat} {v : W64} (hf : barFits o size = true) (ha : s.barAnswers o = true)
    (hs : s.sec.scrub.isSome = true) :
    s.hostWriteReg o size v = { s with host := { s.host with accesses := s.host.accesses ++ [.bar0Write o size v] } } := by
  simp [State.hostWriteReg, State.barGate, hf, ha, hs]

/-- BAR0 answers block by block, so it answers at a high half where it answers at the low half. -/
theorem Writable.highHalf {s : State} {o : Nat} (h8 : o % 8 = 0) (hw : Writable s o) : Writable s (o + 4) := by
  have : (o + 4) / 0x10000 = o / 0x10000 := by omega
  simpa [Writable, State.barAnswers, this] using hw

theorem hostWriteReg_4 {s : State} {o : Nat} {v : W64} (hf : barFits o 4 = true) (hw : Writable s o) :
    s.hostWriteReg o 4 v = s.write4 o (v.setWidth 32) := by
  rw [hostWriteReg_of_writable hf hw, State.applyWrite, if_pos rfl]

/-! ## 32-bit registers -/

theorem write4_of_reg32 {s : State} {o : Nat} (w : W32) (h : reg64 o = false) (hh : o % 8 ≠ 4 ∨ reg64 (o - 4) = false) :
    s.write4 o w = s.writeReg32 o w := by
  rcases hh with hh | hh <;> simp [State.write4, h, hh]

theorem unlocked_of_lock {s : State} (hl : s.glb.lock = true) (k : State → State) :
    s.unlocked k = { s with glb := { s.glb with denied := true, setAt := Map.put s.glb.setAt 0x28 (s.boot.edges / 8) } } := by
  simp [State.unlocked, hl, State.setsBit]

/-- Under SETUP_LOCK a write of a register with RWL fields changes nothing but the record of the denial (R655). -/
theorem regWrite_of_locked {s : State} {o : Nat} {v : W64} (ho : o ∈ lockedOffsets) (hw : Writable s o) (hl : s.glb.lock = true) :
    exec (.regWrite o 4 v) s = .next { s with glb := { s.glb with
      denied := true, setAt := Map.put s.glb.setAt 0x28 (s.boot.edges / 8) } } := by
  obtain ⟨hf, h32, hh⟩ : barFits o 4 = true ∧ reg64 o = false ∧ (o % 8 ≠ 4 ∨ reg64 (o - 4) = false) :=
    (by decide : ∀ o ∈ lockedOffsets, barFits o 4 = true ∧ reg64 o = false ∧ (o % 8 ≠ 4 ∨ reg64 (o - 4) = false)) o ho
  rw [exec_regWrite, hostWriteReg_4 hf hw, write4_of_reg32 _ h32 hh]
  simp only [lockedOffsets, List.mem_cons, List.not_mem_nil, or_false] at ho
  rcases ho with rfl | rfl | rfl | rfl | rfl | rfl | rfl | rfl | rfl <;>
    simp only [State.writeReg32, unlocked_of_lock hl]

/-! ## 64-bit registers (R12) -/

/-- A low half is held, and the register keeps its value. -/
theorem regWrite_lowHalf {s : State} {o : Nat} {v : W64} (h8 : o % 8 = 0) (hlt : o < 0x1000000) (hx : writable64 o = true)
    (h64 : reg64 o = true) (hw : Writable s o) :
    exec (.regWrite o 4 v) s = .next { s with glb := { s.glb with low := Map.put s.glb.low o (v.toNat % 2 ^ 32) } } := by
  have hf : barFits o 4 = true := by simp [barFits]; omega
  rw [exec_regWrite, hostWriteReg_4 hf hw]
  simp [State.write4, h64, hx]

/-- A high half takes effect together with the low half that is held. -/
theorem regWrite_highHalf {s : State} {o l : Nat} {v : W64} (h8 : o % 8 = 0) (hlt : o < 0x1000000) (hx : writable64 o = true)
    (h64 : reg64 o = true) (h32 : reg64 (o + 4) = false) (hw : Writable s o) (hl : Map.find s.glb.low o = some l) :
    exec (.regWrite (o + 4) 4 v) s = .next
      (({ s with glb := { s.glb with low := Map.del s.glb.low o } } : State).writeReg64 o (l + v.toNat % 2 ^ 32 * 2 ^ 32)) := by
  have hf : barFits (o + 4) 4 = true := by simp [barFits]; omega
  have h4 : (o + 4) % 8 = 4 := by omega
  rw [exec_regWrite, hostWriteReg_4 hf (hw.highHalf h8)]
  simp [State.write4, h64, hx, h32, h4, hl]

theorem regWrite_8 {s : State} {o : Nat} {v : W64} (hf : barFits o 8 = true) (hx : writable64 o = true) (h64 : reg64 o = true)
    (hw : Writable s o) : exec (.regWrite o 8 v) s = .next (s.writeReg64 o v.toNat) := by
  rw [exec_regWrite, hostWriteReg_of_writable hf hw]
  simp [State.applyWrite, h64, hx]

/-- A register without coarsened fields, outside the SPG block, reads as its live value. -/
theorem regRead_of_exact {s : State} {o : Nat} (h9 : o / 0x10000 ≠ 9) (hd : coarseDevice o = []) (hj : coarseJob o = []) :
    s.regRead o = s.regVal o (s.selected (o / 0x10000)) := by
  simp [State.regRead, State.observed, h9, hd, hj, coarsen]

/-- The unconditional 64-bit RW registers read back what was written. -/
theorem regRead_writeReg64 {s : State} {o x : Nat} (hx : x < 2 ^ 64)
    (ho : o ∈ [0x10018, 0x60018, 0x60058, 0x90020, 0x90028, 0x90030, 0x90038, 0x140000]) : (s.writeReg64 o x).regRead o = x := by
  simp only [List.mem_cons, List.not_mem_nil, or_false] at ho
  rcases ho with rfl | rfl | rfl | rfl | rfl | rfl | rfl | rfl
  case inr.inr.inr.inl | inr.inr.inr.inr.inl | inr.inr.inr.inr.inr.inl | inr.inr.inr.inr.inr.inr.inl =>
    exact Nat.mod_eq_of_lt hx
  all_goals exact regRead_of_exact (by decide) (by decide) (by decide)

/-! ## Reads (R8, R12) -/

theorem regReadLowLatch_of_notTaken {s : State} {o size : Nat} (h : barFits o size = false ∨ s.barAnswers o = false) :
    exec (.regReadLowLatch o size) s = .next { s with reply := List.replicate size 0#8 } := by
  show execRegReadLowLatch o size s = _
  rcases h with h | h <;> simp [execRegReadLowLatch, h, State.answer]

section Taken
variable {s : State} {o size : Nat} (hf : barFits o size = true) (ha : s.barAnswers o = true)
include hf ha

theorem regReadLowLatch_of_taken :
    exec (.regReadLowLatch o size) s = .next ((s.readBar o size).1.answer (toLe size (s.readBar o size).2)) := by
  show execRegReadLowLatch o size s = _
  simp [execRegReadLowLatch, hf, ha]

theorem regReadLowLatch_8 (hs : size = 8) (h64 : reg64 o = true) :
    exec (.regReadLowLatch o size) s = .next { s with reply := toLe 8 (s.regRead o) } := by
  subst hs
  rw [regReadLowLatch_of_taken hf ha]
  simp [State.readBar, h64, State.answer]

/-- A read of a low half latches the high half. -/
theorem regReadLowLatch_lowHalf (hs : size = 4) (h64 : reg64 o = true) :
    exec (.regReadLowLatch o size) s = .next { s with
      reply := toLe 4 (s.regRead o % 2 ^ 32), glb := { s.glb with latch := Map.put s.glb.latch o (s.regRead o / 2 ^ 32) } } := by
  subst hs
  rw [regReadLowLatch_of_taken hf ha]
  simp [State.readBar, State.read4, h64, State.answer]

/-- The next read of the high half answers and releases what is latched. -/
theorem regReadLowLatch_highHalf {h : Nat} (hs : size = 4) (h32 : reg64 o = false) (h4 : o % 8 = 4) (hr : reg64 (o - 4) = true)
    (hl : Map.find s.glb.latch (o - 4) = some h) :
    exec (.regReadLowLatch o size) s = .next { s with
      reply := toLe 4 h, glb := { s.glb with latch := Map.del s.glb.latch (o - 4) } } := by
  subst hs
  rw [regReadLowLatch_of_taken hf ha]
  simp [State.readBar, State.read4, h32, h4, hr, hl, State.answer]

theorem regReadLowLatch_reg32 (hs : size = 4) (h32 : reg64 o = false) (hh : o % 8 ≠ 4 ∨ reg64 (o - 4) = false) :
    exec (.regReadLowLatch o size) s = .next { s with reply := toLe 4 (s.regRead o) } := by
  subst hs
  rw [regReadLowLatch_of_taken hf ha]
  rcases hh with hh | hh <;> simp [State.readBar, State.read4, h32, hh, State.answer]

end Taken

/-! ## RW1C bits (R10) -/

/-- A flag above fields that keep to their bits reads as the flag. -/
theorem bit_flag {a k : Nat} (ha : a < 2 ^ k) (f : Bool) (c : Nat) : bit (a + fld k 1 (b2n f) + c * 2 ^ (k + 1)) k = f := by
  have hsum : a + fld k 1 (b2n f) + c * 2 ^ (k + 1) = a + 2 ^ k * (b2n f + 2 * c) := by
    have : b2n f % 2 ^ 1 = b2n f := by cases f <;> rfl
    rw [fld, this, Nat.shiftLeft_eq, Nat.pow_succ, Nat.mul_add, Nat.add_assoc, Nat.mul_comm (b2n f), Nat.mul_left_comm c (2 ^ k) 2,
      Nat.mul_comm 2 c]
  have hdiv : (a + 2 ^ k * (b2n f + 2 * c)) / 2 ^ k = b2n f + 2 * c := by
    rw [Nat.add_mul_div_left _ _ (Nat.two_pow_pos k), Nat.div_eq_of_lt ha, Nat.zero_add]
  rw [bit, Nat.testBit_eq_decide_div_mod_eq, hsum, hdiv]
  cases f <;> simp [b2n]

theorem b2n_le_one (b : Bool) : b2n b ≤ 1 := by cases b <;> decide

/-- Bit 2 of GLB_LOCK. -/
theorem bit_regRead_lockDenied (s : State) : bit (s.regRead 0x28) 2 = s.glb.denied := by
  have hb := b2n_le_one s.glb.lock
  rw [regRead_of_exact (by decide) (by decide) (by decide)]
  exact bit_flag (k := 2) (c := 0) (by omega) _

/-- Bit 7 of RST_STATUS. -/
theorem bit_regRead_resetRefused (s : State) : bit (s.regRead 0x30004) 7 = s.rst.refused := by
  have hb := b2n_le_one s.rst.busy.isSome
  have hr : s.regRead 0x30004 = b2n s.rst.busy.isSome + fld 1 3 s.rst.lastKind + fld 4 3 s.rst.lastCause +
      fld 7 1 (b2n s.rst.refused) + (s.west.flags % 4 + s.east.flags % 4 * 4) * 2 ^ (7 + 1) := by
    rw [regRead_of_exact (by decide) (by decide) (by decide)]
    show _ + fld 8 2 s.west.flags + fld 10 2 s.east.flags = _
    simp only [fld, Nat.shiftLeft_eq]
    omega
  rw [hr]
  exact bit_flag (by simp only [fld, Nat.shiftLeft_eq]; omega) _ _

/-- Bit 1 of SPG_KAT_STATUS. -/
theorem bit_regRead_katDone (s : State) : bit (s.regRead 0x90044) 1 = s.spg.done := by
  have hb := b2n_le_one s.spg.busy
  exact bit_flag (k := 1) (c := 0) (by omega) _

/-- Bit 2 of DMP_STATUS, while the state code keeps to its field of two bits. -/
theorem bit_regRead_dumpDone {s : State} (hst : s.dmp.st < 4) : bit (s.regRead 0x140010) 2 = s.dmp.doneBit := by
  have hr : s.regRead 0x140010 = s.dmp.st + fld 2 1 (b2n s.dmp.doneBit) + s.dmp.status % 2 ^ 16 * 2 ^ 13 * 2 ^ (2 + 1) := by
    rw [regRead_of_exact (by decide) (by decide) (by decide)]
    show _ + fld 16 16 s.dmp.status = _
    simp only [fld, Nat.shiftLeft_eq]
    omega
  rw [hr]
  exact bit_flag hst _ _

theorem rw1cWrite_reg32 {s : State} {o : Nat} {v : W64} (hf : barFits o 4 = true) (h32 : reg64 o = false)
    (hh : o % 8 ≠ 4 ∨ reg64 (o - 4) = false) (hw : Writable s o) :
    exec (.rw1cWrite o 4 v) s = .next (s.writeReg32 o (v.setWidth 32)) := by
  rw [exec_rw1cWrite, hostWriteReg_4 hf hw, write4_of_reg32 _ h32 hh]

/-- A write of 1 to an RW1C bit clears it, unless the device has set it in this nc: the clause of O49 with the one hypothesis it lacks. -/
theorem rw1cWrite_flag {s : State} {v : W64} (hst : s.dmp.st < 4) (a : Nat × Nat)
    (ha : a ∈ [(0x28, 2), (0x30004, 7), (0x90044, 1), (0x140010, 2)]) (hw : Writable s a.1) (hv : bit v.toNat a.2 = true) :
    Answers (.rw1cWrite a.1 4 v) s fun t => bit (t.regRead a.1) a.2 = (bit (s.regRead a.1) a.2 && !s.clears a.1) := by
  have hlow (k : Nat) (hk : k < 32) : bit (v.setWidth 32).toNat k = bit v.toNat k := by
    rw [bit, bit, BitVec.toNat_setWidth, Nat.testBit_mod_two_pow, decide_eq_true hk, Bool.true_and]
  simp only [List.mem_cons, List.not_mem_nil, or_false] at ha
  rcases ha with rfl | rfl | rfl | rfl <;> refine ⟨_, rw1cWrite_reg32 (by decide) (by decide) (by decide) hw, ?_⟩
  · show bit ((s.writeGlbLock (v.setWidth 32)).regRead 0x28) 2 = _
    rw [bit_regRead_lockDenied, bit_regRead_lockDenied, State.writeGlbLock, hlow 2 (by decide), hv, Bool.true_and]
  · show bit ((if bit (v.setWidth 32).toNat 7 && s.clears 0x30004 then
      ({ s with rst := { s.rst with refused := false } } : State) else s).regRead 0x30004) 7 = _
    rw [bit_regRead_resetRefused, bit_regRead_resetRefused, hlow 7 (by decide), hv]
    cases s.clears 0x30004 <;> simp
  · show bit ((if bit (v.setWidth 32).toNat 1 && s.clears 0x90044 then
      ({ s with spg := { s.spg with done := false } } : State) else s).regRead 0x90044) 1 = _
    rw [bit_regRead_katDone, bit_regRead_katDone, hlow 1 (by decide), hv]
    cases s.clears 0x90044 <;> simp
  · show bit ((if bit (v.setWidth 32).toNat 2 && s.clears 0x140010 then
      ({ s with dmp := { s.dmp with doneBit := false } } : State) else s).regRead 0x140010) 2 = _
    rw [bit_regRead_dumpDone hst, hlow 2 (by decide), hv]
    cases s.clears 0x140010 <;> simp [bit_regRead_dumpDone, hst]

/-- A READY device whose dump is in state 4. The commands set only the codes 0 to 3 of the two-bit field of R649, but the model's `Dmp.st` is a
natural number and DMP_STATUS adds it uncut. -/
def dumpStateBeyondField : State :=
  { State.reset with boot := { Boot.init with ready := true }, dmp := { Dmp.init with st := 4, doneBit := true } }

/-- Refutes O49: its clause on RW1C bits quantifies over every dump state code. In `dumpStateBeyondField` a host write of 1 clears DONE, but
bit 2 of DMP_STATUS, where DONE stands, goes on reading 1 from the state code. With `s.dmp.st < 4` the clause holds (`rw1cWrite_flag`);
the other clauses hold of every state and are the theorems above. -/
theorem not_registerAccessCompletes : ¬ Obligations.RegisterAccessCompletes := by
  unfold Obligations.RegisterAccessCompletes
  intro h
  have hw : Writable dumpStateBeyondField 0x140010 := ⟨by decide +kernel, rfl⟩
  obtain ⟨-, -, -, -, -, -, hrw1c, -⟩ := h dumpStateBeyondField 0x140010 4 4#64
  obtain ⟨t, ht, hclear⟩ := (hrw1c (0x140010, 2) (by simp) rfl hw (by decide)).1 (by decide +kernel)
  rw [rw1cWrite_reg32 (by decide) (by decide) (by decide) hw] at ht
  cases ht
  have hstill : bit ((dumpStateBeyondField.writeReg32 0x140010 (BitVec.setWidth 32 4#64)).regRead 0x140010) 2 = true := by
    decide +kernel
  exact absurd hclear (by rw [hstill]; decide)

end Sys2Proof.Slice0

/-!
PROOFS. What an instruction's command answers (R142 to R151), and precise faults (R95, R122, R148 to R150): the statement O9.
-/
namespace Sys2Proof.Slice0
open Sys2Proof Sys2Proof.Machine

/-! ## The fault of an instruction (R144) -/

/-- An instruction has no fault exactly when no check's condition holds and its ranges lie in local scratch. -/
theorem isaOp_fault_eq_none_iff (o : IsaOp) :
    o.fault = none ↔ (∀ k ∈ o.checks, k.bad = false) ∧ rangesBad o.ranges = false := by
  refine ⟨fun h => ?_, fun ⟨hc, hr⟩ => o.fault_none hc hr⟩
  unfold IsaOp.fault at h
  dsimp only at h
  generalize hcs : List.filterMap _ _ = causes at h
  cases causes with
  | nil =>
    rw [List.filterMap_eq_nil_iff] at hcs
    have good : ∀ k ∈ o.checks ++ [FaultCheck.mk (rangesBad o.ranges) 0x0D], k.bad = false := by
      intro k hk
      have := hcs k hk
      cases hb : k.bad <;> simp_all
    exact ⟨fun k hk => good k (List.mem_append_left _ hk), good _ (List.mem_append_right _ (List.mem_singleton_self _))⟩
  | cons x xs =>
    rw [List.foldl_cons] at h
    have some_stays : (List.foldl (fun m k => match m with | none => some k | some x => some (Nat.min x k)) (some x) xs).isSome :=
      List.foldlRecOn (motive := fun m : Option Nat => m.isSome) xs _ rfl fun m hm k _ => by cases m <;> rfl
    rw [Option.isSome_iff_ne_none] at some_stays
    exact absurd h some_stays

/-- The ranges of an instruction lie in local scratch (R149). -/
theorem rangesBad_eq_false_iff (rs : List (Nat × Nat)) :
    rangesBad rs = false ↔ ∀ r ∈ rs, 0 < r.2 → r.1 + r.2 ≤ 0x100000 := by
  simp [rangesBad, lsBytes]

/-- A CTL instruction with one check, for LS_BOUNDS, raises it when the check's condition holds. -/
theorem opCtl_fault_lsBounds (cc : Nat) (ranges : List (Nat × Nat)) (effect : Nat → Core → Core) :
    (opCtl cc [⟨true, 0x0D⟩] ranges effect).fault = some 0x0D := by
  cases h : rangesBad ranges <;> simp [IsaOp.fault, opCtl, h]

/-! ## What an instruction's command answers -/

/-- The command of `i` on core p is the issue of `op`. -/
def Issues (i : Instr) (p : Nat) (s : State) (op : Core → KImage → IsaOp) : Prop :=
  exec i s = noUnit (decide (p < 544)) (s.issueOp p (wordOf i) op)

section
variable {i : Instr} {p : Nat} {s : State} {k : KImage} {op : Core → KImage → IsaOp} {o : IsaOp}

/-- An instruction without a fault, which nothing hinders, issues: only its core changes, by the instruction's effect. -/
theorem AtCore.answers (h : AtCore i p s k) (hi : Issues i p s op) (ho : op (s.core p) k = o) (hf : o.fault = none)
    (hu : Unhindered (s.core p) o.queue o.ranges) {P : State → Prop}
    (hP : ∀ u, OnlyCore s u p (o.effect s.freeCtr (issued (s.core p) o.queue o.cc none)) → P u) : Answers i s P := by
  subst ho
  refine ⟨{ s.setCore p ((s.core p).issue s.freeCtr (op (s.core p) k) none) with freeCtr := s.freeCtr + 2 }, hi.trans ?_, hP _ rfl⟩
  rw [noUnit_of (by simpa using h.core), State.issueOp,
    State.issueWith_next s p _ _ _ k h.image h.runs h.word hf hu.room hu.landed]

/-- An instruction with a fault stops its core before it. -/
theorem AtCore.faults (h : AtCore i p s k) (hi : Issues i p s op) (ho : op (s.core p) k = o) {cause : Nat}
    (hf : o.fault = some cause) : exec i s = .next (s.coreFault p k cause o.tile o.queue) := by
  subst ho
  rw [hi, noUnit_of (by simpa using h.core), State.issueOp, State.issueWith_fault s p _ _ _ k cause h.image h.runs h.word hf]

end

/-! ## Precise faults -/

/-- The check of LDS and STS where the address lies outside local scratch, or is no multiple of 8 (R149). -/
theorem ldsCheck_of_outside {c : Core} {f : CtlFields} {a : Int} (ha : a = (c.sbits f.sa.toNat 19 0 : Int) + f.imm.toInt)
    (h : a < 0 ∨ 0x100000 < a + 8 ∨ a % 8 ≠ 0) : ldsCheck c f = ⟨true, 0x0D⟩ := by
  subst ha
  rcases h with h | h | h <;> simp [ldsCheck, ldsAddr, lsBytes, h]

theorem localScratchBoundsFault : LocalScratchBoundsFault := by
  intro p f s k a ha hout
  have hcheck := ldsCheck_of_outside ha hout
  constructor <;> intro hat
  · refine hat.faults (op := fun c _ => opLds c f) rfl rfl ?_
    rw [opLds, hcheck]
    exact opCtl_fault_lsBounds ..
  · refine hat.faults (op := fun c _ => opSts c f) rfl rfl ?_
    rw [opSts, hcheck]
    exact opCtl_fault_lsBounds ..

/-- The fault of a word that its table does not list, at the core's index (R122). -/
theorem illegal_of_unlisted {p : Nat} {w : W64} {s : State} {k : KImage} (hk : s.imageOf p = some k)
    (hr : (s.core p).canIssue = true) (hw : k.code[(s.core p).pc]? = some w) (hd : decodeIsa p w = none) :
    s.illegal p w = if classListed w
      then s.coreFault p k 0x02 0 (if (w.extractLsb' 60 4).toNat = 6 then 5 else (w.extractLsb' 60 4).toNat)
      else s.coreFault p k 0x01 0 0 := by
  simp [State.illegal, hk, hr, hw, hd]

theorem unlistedWordFaults : UnlistedWordFaults := by
  intro p w s k hp hk hr hw hd
  refine ⟨_, noUnit_of (by simpa using hp) _, ?_⟩
  rw [illegal_of_unlisted hk hr hw hd]
  constructor <;> intro hcls
  · have : classListed w = false := by simp only [classListed, Bool.and_eq_false_iff, decide_eq_false_iff_not]; omega
    rw [this, if_neg (by decide)]
  · have : classListed w = true := by simpa [classListed] using hcls
    rw [this, if_pos rfl]
    exact ⟨_, by split <;> omega, by split <;> omega, rfl⟩

/-- An event changes no core. -/
theorem core_postWith (s : State) (c source code status : Nat) (payload : List Byte) (replay : Bool) (q : Nat) :
    (s.postWith c source code status payload replay).core q = s.core q := rfl

/-- The core and its event stand in the state that `endJob` then leaves. -/
theorem preciseFaultRecords : PreciseFaultRecords := by
  intro s p k cause tile unit
  refine ⟨_, _, rfl, ?core, ?others, rfl, rfl, rfl, rfl, rfl⟩
  case core => rw [core_postWith, State.core_setCore, if_pos rfl]
  case others =>
    intro q hq
    rw [core_postWith, State.core_setCore, if_neg hq]

/-- Settles O9: its three parts are the theorems above. -/
theorem coreFaultsArePrecise : Obligations.CoreFaultsArePrecise :=
  ⟨localScratchBoundsFault, unlistedWordFaults, preciseFaultRecords⟩

end Sys2Proof.Slice0

/-!
PROOFS. Sorting pairs by the order of R104: the order of pairs is that of their class, their value in units of 2^-149 and their index, and
insertion keeps a list sorted by it. The statement O13.
-/
namespace Sys2Proof.Slice0
open Sys2Proof Sys2Proof.Machine

/-! ## The order of values -/

/-- No finite value of a format has bits below its subnormal spacing (R43). -/
theorem exponent_of_unpack_fin {f : FFormat} {w : Nat} {n : Bool} {m : Nat} {e : Int} (h : f.unpack w = .fin n m e) :
    1 - f.bias - f.mb ≤ e := by
  unfold FFormat.unpack at h
  dsimp only at h
  split at h
  · split at h <;> cases h
  · split at h
    · cases h
    · split at h
      · cases h
        exact Int.le_refl _
      · cases h
        omega

/-- No FP32 value has bits below 2^-149 (R98). -/
theorem exponent_of_fin {x : W32} {n : Bool} {m : Nat} {e : Int} (h : f32Val x = .fin n m e) : -149 ≤ e :=
  exponent_of_unpack_fin h

/-- A magnitude in units of 2^-149, split at a lower common scale. -/
theorem mul_two_pow_split (m : Nat) {k e : Int} (he : -149 ≤ e) (hk : e ≤ k) :
    m * 2 ^ (k + 149).toNat = m * 2 ^ (k - e).toNat * 2 ^ (e + 149).toNat := by
  rw [Nat.mul_assoc, ← Nat.pow_add]
  congr 2
  omega

/-- The exact sum on the common scale is the sum in units of 2^-149. -/
theorem addExact_eq_add (n1 n2 : Bool) (m1 m2 : Nat) {e1 e2 : Int} (h1 : -149 ≤ e1) (h2 : -149 ≤ e2) :
    (addExact n1 m1 e1 n2 m2 e2).1 * ((2 ^ (min e1 e2 + 149).toNat : Nat) : Int) =
      (if n1 then -1 else 1) * ((m1 * 2 ^ (e1 + 149).toNat : Nat) : Int) +
        (if n2 then -1 else 1) * ((m2 * 2 ^ (e2 + 149).toNat : Nat) : Int) := by
  have hmin : -149 ≤ min e1 e2 := by omega
  rw [mul_two_pow_split m1 hmin (Int.min_le_left e1 e2), mul_two_pow_split m2 hmin (Int.min_le_right e1 e2),
    Int.natCast_mul (m1 * _), Int.natCast_mul (m2 * _), ← Int.mul_assoc, ← Int.mul_assoc, ← Int.add_mul]
  rfl

/-- The order of two finite FP32 values is the order of their integers in units of 2^-149. -/
theorem f32Lt_of_fin {x y : W32} {n1 n2 : Bool} {m1 m2 : Nat} {e1 e2 : Int} (hx : f32Val x = .fin n1 m1 e1)
    (hy : f32Val y = .fin n2 m2 e2) : f32Lt x y = true ↔ f32ToFixed x < f32ToFixed y := by
  have hsum := addExact_eq_add n1 (!n2) m1 m2 (exponent_of_fin hx) (exponent_of_fin hy)
  have hneg : (if (!n2) then -1 else 1) * ((m2 * 2 ^ (e2 + 149).toNat : Nat) : Int) = -f32ToFixed y := by
    rw [f32ToFixed, hy]
    cases n2 <;> simp
  have hpos : (0 : Int) < ((2 ^ (min e1 e2 + 149).toNat : Nat) : Int) := Int.natCast_pos.mpr (Nat.two_pow_pos _)
  have hx' : f32ToFixed x = (if n1 then -1 else 1) * ((m1 * 2 ^ (e1 + 149).toNat : Nat) : Int) := by rw [f32ToFixed, hx]
  rw [hneg, ← hx'] at hsum
  rw [f32Lt, hx, hy, ltVal, decide_eq_true_iff]
  constructor
  · intro h
    have := Int.mul_neg_of_neg_of_pos h hpos
    omega
  · intro h
    exact Int.neg_of_mul_neg_left (by omega) hpos

/-- The class of a value in the order of MAX_F32_IDX, the first to rank greatest (R104). -/
def rankClass : FVal → Nat
  | .nan => 3
  | .inf false => 2
  | .fin _ _ _ => 1
  | .inf true => 0

/-- A value ranks before another exactly when its class is greater, or in one class its number (0 for what is not finite). -/
theorem rankBefore_iff (v w : W32) : rankBefore true v w = true ↔ rankClass (f32Val w) < rankClass (f32Val v) ∨
    (rankClass (f32Val w) = rankClass (f32Val v) ∧ f32ToFixed w < f32ToFixed v) := by
  have fixed (x : W32) (h : rankClass (f32Val x) ≠ 1) : f32ToFixed x = 0 := by
    unfold f32ToFixed
    split
    · next hx => exact absurd (by rw [hx]; rfl) h
    · rfl
  cases hv : f32Val v with
  | nan => cases hw : f32Val w with
    | nan => simp [rankBefore, f32IsNaN, hv, hw, rankClass, fixed v (by simp [hv, rankClass]), fixed w (by simp [hw, rankClass])]
    | inf b => cases b <;> simp [rankBefore, f32IsNaN, hv, hw, rankClass]
    | fin n m e => simp [rankBefore, f32IsNaN, hv, hw, rankClass]
  | inf a => cases hw : f32Val w with
    | nan => cases a <;> simp [rankBefore, f32IsNaN, hv, hw, rankClass]
    | inf b =>
      have hv0 := fixed v (by cases a <;> simp [hv, rankClass])
      have hw0 := fixed w (by cases b <;> simp [hw, rankClass])
      cases a <;> cases b <;> simp [rankBefore, f32IsNaN, f32Lt, ltVal, hv, hw, rankClass, hv0, hw0]
    | fin n m e => cases a <;> simp [rankBefore, f32IsNaN, f32Lt, ltVal, hv, hw, rankClass]
  | fin n m e => cases hw : f32Val w with
    | nan => simp [rankBefore, f32IsNaN, hv, hw, rankClass]
    | inf b => cases b <;> simp [rankBefore, f32IsNaN, f32Lt, ltVal, hv, hw, rankClass]
    | fin n' m' e' =>
      rw [rankBefore, f32IsNaN, f32IsNaN, hv, hw]
      simpa [rankClass] using f32Lt_of_fin hw hv

/-! ## The order of pairs -/

/-- One pair beats another by its class, then its number, then the lower index (R104): the order of R104 is lexicographic on integers. -/
theorem beats_iff (a b : IdxPair) : beats true a b = true ↔
    rankClass (f32Val b.value) < rankClass (f32Val a.value) ∨
      (rankClass (f32Val b.value) = rankClass (f32Val a.value) ∧
        (f32ToFixed b.value < f32ToFixed a.value ∨ (f32ToFixed b.value = f32ToFixed a.value ∧ a.index.toNat < b.index.toNat))) := by
  simp only [beats, Bool.or_eq_true, Bool.and_eq_true, Bool.not_eq_true', ← Bool.not_eq_true, rankBefore_iff, decide_eq_true_iff,
    BitVec.lt_def]
  omega

/-- `a` may stand before `b`: `b` does not beat it. -/
def Before (a b : IdxPair) : Prop := beats true b a = false

theorem before_of_beats {a b : IdxPair} (h : beats true a b = true) : Before a b := by
  rw [Before, ← Bool.not_eq_true, beats_iff]
  rw [beats_iff] at h
  omega

theorem Before.trans {a b c : IdxPair} (hab : Before a b) (hbc : Before b c) : Before a c := by
  rw [Before, ← Bool.not_eq_true, beats_iff] at *
  omega

/-! ## Insertion -/

theorem insertPair_perm (p : IdxPair) (qs : List IdxPair) : (insertPair p qs).Perm (p :: qs) := by
  induction qs with
  | nil => exact .refl _
  | cons q qs ih =>
    rw [insertPair]
    split
    · exact .refl _
    · exact (ih.cons q).trans (.swap p q qs)

/-- A pair inserted into a sorted list leaves it sorted. -/
theorem insertPair_sorted (p : IdxPair) (qs : List IdxPair) (h : qs.Pairwise Before) :
    (insertPair p qs).Pairwise Before := by
  induction qs with
  | nil => exact List.pairwise_singleton _ _
  | cons q qs ih =>
    obtain ⟨hq, hqs⟩ := List.pairwise_cons.mp h
    rw [insertPair]
    split
    · next hb =>
      have hpq := before_of_beats hb
      refine List.pairwise_cons.mpr ⟨fun r hr => ?_, h⟩
      rcases List.mem_cons.mp hr with rfl | hr
      · exact hpq
      · exact hpq.trans (hq r hr)
    · next hb =>
      have hqp : Before q p := Bool.eq_false_iff.mpr hb
      refine List.pairwise_cons.mpr ⟨fun r hr => ?_, ih hqs⟩
      rcases List.mem_cons.mp ((insertPair_perm p qs).mem_iff.mp hr) with rfl | hr
      · exact hqp
      · exact hq r hr

/-- Pairs inserted one after another into a sorted list: all of them are in the result, and it is sorted. -/
theorem foldl_insertPair (ps acc : List IdxPair) (h : acc.Pairwise Before) :
    (ps.foldl (fun acc p => insertPair p acc) acc).Perm (ps ++ acc) ∧
      (ps.foldl (fun acc p => insertPair p acc) acc).Pairwise Before := by
  induction ps generalizing acc with
  | nil => exact ⟨.refl _, h⟩
  | cons p ps ih =>
    obtain ⟨hperm, hsorted⟩ := ih (insertPair p acc) (insertPair_sorted p acc h)
    exact ⟨hperm.trans (((insertPair_perm p acc).append_left ps).trans List.perm_middle), hsorted⟩

/-- Settles O13: inserted one after another into the empty list, the pairs stand in order. -/
theorem sortIsOrderedPermutation : Obligations.SortIsOrderedPermutation := by
  intro ps
  obtain ⟨hperm, hsorted⟩ := foldl_insertPair ps [] List.Pairwise.nil
  rw [List.append_nil] at hperm
  exact ⟨hperm, hsorted⟩

end Sys2Proof.Slice0

/-!
PROOFS. The exact accumulators (R97 to R101): their integers add modulo 2^640 and their flags add by OR, so that contributions commute,
and a raw image holds an accumulator whole. The statements O20 and O21.
-/
namespace Sys2Proof.Slice0
open Sys2Proof Sys2Proof.Machine

/-! ## Two's complement of 640 bits -/

theorem int_two_pow (w : Nat) : (2 : Int) ^ w = ((2 ^ w : Nat) : Int) := (Int.natCast_pow 2 w).symm

/-- A residue of `w` bits spells a number of `w` bits. -/
theorem unsigned_cast (w : Nat) (v : Int) : (unsigned w v : Int) = v % ((2 ^ w : Nat) : Int) ∧ unsigned w v < 2 ^ w := by
  have hpos : (0 : Int) < ((2 ^ w : Nat) : Int) := Int.natCast_pos.mpr (Nat.two_pow_pos w)
  have hnonneg := Int.emod_nonneg v (Int.ne_of_gt hpos)
  have hlt := Int.emod_lt_of_pos v hpos
  rw [unsigned, int_two_pow]
  omega

/-- The number that two's complement of `w` bits keeps of an integer is its balanced residue. -/
theorem signed_unsigned (w : Nat) (v : Int) : signed (w + 1) (unsigned (w + 1) v) = v.bmod (2 ^ (w + 1)) := by
  obtain ⟨hcast, hlt⟩ := unsigned_cast (w + 1) v
  have hhalf : (((2 ^ (w + 1) : Nat) : Int) + 1) / 2 = ((2 ^ w : Nat) : Int) := by
    rw [Nat.pow_succ]
    omega
  simp only [signed, Nat.mod_eq_of_lt hlt, Int.bmod, Nat.add_sub_cancel, hhalf, ← hcast, int_two_pow, Int.ofNat_lt]

theorem wrap640_eq_bmod (v : Int) : wrap640 v = v.bmod (2 ^ (639 + 1)) := signed_unsigned 639 v

theorem wrap640_wrap640_add (v w : Int) : wrap640 (wrap640 v + w) = wrap640 (v + w) := by
  rw [wrap640_eq_bmod v, wrap640_eq_bmod, wrap640_eq_bmod (v + w), Int.bmod_add_bmod]

/-- An integer of `w + 1` bits is its own balanced residue. -/
theorem bmod_of_mem {w : Nat} {v : Int} (h : -(2 ^ w) ≤ v) (h' : v < 2 ^ w) : v.bmod (2 ^ (w + 1)) = v := by
  rw [int_two_pow] at h h'
  apply Int.bmod_eq_of_le <;> rw [Nat.pow_succ] <;> omega

/-- An integer of 640 bits stays. -/
theorem wrap640_of_mem {v : Int} (h : -(2 ^ 639) ≤ v) (h' : v < 2 ^ 639) : wrap640 v = v :=
  (wrap640_eq_bmod v).trans (bmod_of_mem (w := 639) h h')

/-- Two's complement of `n` bytes spells a number of `n` bytes. -/
theorem unsigned_lt_bytes (n : Nat) (v : Int) : unsigned (8 * n) v < 256 ^ n :=
  (Nat.pow_mul 2 8 n ▸ (unsigned_cast (8 * n) v).2 : unsigned (8 * n) v < (2 ^ 8) ^ n)

/-! ## Contributions -/

/-- The integer that a contribution adds; an infinity or a NaN adds none (R98). -/
def addend : Contribution → Option Int
  | .value x => if f32Finite x then some (f32ToFixed x) else none
  | .image b => some (signed 640 (leAt b 0 80))

/-- The accumulator's integer with an addend applied. -/
def addTo (v : Int) : Option Int → Int
  | none => v
  | some n => wrap640 (v + n)

/-- The flags PINF, NINF and NAN that a contribution sets (R98, R101). -/
def flagsSet : Contribution → Bool × Bool × Bool
  | .value x => (f32Val x == .inf false, f32Val x == .inf true, f32Val x == .nan)
  | .image b => (bit (leAt b 80 1) 0, bit (leAt b 80 1) 1, bit (leAt b 80 1) 2)

/-- A contribution adds its integer and ORs its flags. -/
theorem contribute_eq (a : ExactAcc) (c : Contribution) :
    contribute a c = ⟨addTo a.acc (addend c), a.pinf || (flagsSet c).1, a.ninf || (flagsSet c).2.1, a.nan || (flagsSet c).2.2⟩ := by
  cases c with
  | image b => rfl
  | value x =>
    show a.addF32 x = _
    cases h : f32Val x with
    | nan => simp [ExactAcc.addF32, addend, flagsSet, f32Finite, addTo, h]
    | inf neg => cases neg <;> simp [ExactAcc.addF32, addend, flagsSet, f32Finite, addTo, h]
    | fin n m e => simp [ExactAcc.addF32, addend, flagsSet, f32Finite, addTo, h]

theorem addTo_comm (v : Int) (x y : Option Int) : addTo (addTo v x) y = addTo (addTo v y) x := by
  cases x <;> cases y <;> simp only [addTo]
  rw [wrap640_wrap640_add, wrap640_wrap640_add, Int.add_right_comm]

/-- Two contributions to one accumulator commute (R100). -/
theorem contribute_comm (a : ExactAcc) (x y : Contribution) : contribute (contribute a x) y = contribute (contribute a y) x := by
  rw [contribute_eq (contribute a x), contribute_eq (contribute a y), contribute_eq a x, contribute_eq a y]
  simp only [addTo_comm a.acc (addend x), Bool.or_right_comm]

/-- Settles O20: contributions commute in pairs, so a permutation of them leaves their fold. -/
theorem accumulationIsOrderFree : Obligations.AccumulationIsOrderFree := by
  intro a xs ys h
  exact h.foldl_eq' (fun x _ y _ z => contribute_comm z x y) a

/-! ## Raw images -/

/-- The field that is the first bytes of a list. -/
theorem leAt_append_left {bs cs : List Byte} {n : Nat} (h : bs.length = n) : leAt (bs ++ cs) 0 n = ofLe bs := by
  subst h
  simp [leAt, bytesAt]

/-- A field behind the first bytes of a list lies in the rest. -/
theorem leAt_append_right {bs cs : List Byte} {off n : Nat} (h : bs.length = off) : leAt (bs ++ cs) off n = leAt cs 0 n := by
  subst h
  simp [leAt, bytesAt]

theorem raw_length (a : ExactAcc) : a.raw.length = 128 := by simp [ExactAcc.raw]

/-- The integer's field of a raw image (R101). -/
theorem leAt_raw_acc (a : ExactAcc) : leAt a.raw 0 80 = unsigned 640 a.acc := by
  rw [ExactAcc.raw, List.append_assoc, leAt_append_left (toLe_length 80 _), ofLe_toLe]
  exact Nat.mod_eq_of_lt (unsigned_lt_bytes 80 a.acc)

/-- The flags' field of a raw image (R101). -/
theorem leAt_raw_flags (a : ExactAcc) : leAt a.raw 80 1 = b2n a.pinf + 2 * b2n a.ninf + 4 * b2n a.nan := by
  rw [ExactAcc.raw, List.append_assoc, leAt_append_right (toLe_length 80 _), leAt_append_left (n := 1) rfl]
  cases a.pinf <;> cases a.ninf <;> cases a.nan <;> rfl

theorem bits_of_flags (x y z : Bool) :
    bit (b2n x + 2 * b2n y + 4 * b2n z) 0 = x ∧ bit (b2n x + 2 * b2n y + 4 * b2n z) 1 = y ∧
      bit (b2n x + 2 * b2n y + 4 * b2n z) 2 = z := by
  revert x y z
  decide

/-- A cleared accumulator becomes the accumulator whose image is added to it. -/
theorem zero_addRaw_raw {a : ExactAcc} (h : -(2 ^ 639) ≤ a.acc) (h' : a.acc < 2 ^ 639) : ExactAcc.zero.addRaw a.raw = a := by
  obtain ⟨hp, hn, hx⟩ := bits_of_flags a.pinf a.ninf a.nan
  have hacc : wrap640 (0 + signed 640 (unsigned 640 a.acc)) = a.acc := by
    show wrap640 (0 + wrap640 a.acc) = a.acc
    rw [Int.zero_add, wrap640_of_mem h h', wrap640_of_mem h h']
  rw [ExactAcc.addRaw, leAt_raw_acc, leAt_raw_flags, hp, hn, hx]
  simp only [ExactAcc.zero, hacc, Bool.false_or]

/-! ## RAW_PARTIALS -/

/-- An accumulator of any slice after one is written: two of 4,096 per slice have one key only if they are the same. -/
theorem acc_setAcc_other (s : State) {n i m j : Nat} (a : ExactAcc) (hi : i < 4096) (hj : j < 4096) (h : m ≠ n ∨ j ≠ i) :
    (s.setAcc n i a).acc m j = s.acc m j := by
  have hne : m * 4096 + j ≠ n * 4096 + i := by omega
  simp [State.acc, State.setAcc, hne]

/-- An accumulator that is written changes nothing else of the state. -/
theorem setAcc_frame (s : State) (n i : Nat) (a : ExactAcc) : { s.setAcc n i a with exact := s.exact } = s := rfl

/-- RAW_PARTIALS of one image, within the slice's accumulators. -/
theorem exec_rawPartials_one {slice n : Nat} (image : List Byte) (s : State) (hs : slice < 512) (hn : n < 4096) :
    exec (.rawPartials slice n [image]) s = .next (s.setAcc slice n ((s.acc slice n).addRaw image)) := by
  show execRawPartials slice n [image] s = _
  simp [execRawPartials, noUnit_of, hs, hn]

theorem rawImageCarriesAccumulator : RawImageCarriesAccumulator := by
  unfold RawImageCarriesAccumulator
  intro a h h'
  exact ⟨raw_length a, zero_addRaw_raw h h'⟩

theorem rawPartialsComplete : RawPartialsComplete := by
  intro slice n image s hs hn
  refine ⟨_, exec_rawPartials_one image s hs hn, setAcc_frame .., ?written, fun m j h hj => acc_setAcc_other s _ hn hj h⟩
  case written => rw [State.acc_setAcc, if_pos rfl]

/-- Settles O21: the image's fields hold the accumulator, and RAW_PARTIALS writes one accumulator. -/
theorem rawImagesAccumulate : Obligations.RawImagesAccumulate := ⟨rawImageCarriesAccumulator, rawPartialsComplete⟩

end Sys2Proof.Slice0

/-!
PROOFS. Tiles (R89 to R94): what writing the elements of a tile, or its rows, leaves in the accumulator store; and MMA (R77 to R95, R123 to
R132): the statement O14.
-/
namespace Sys2Proof.Slice0
open Sys2Proof Sys2Proof.Machine

/-! ## The elements of a tile -/

/-- An element lies in the tile's extent (R89, R91). -/
theorem addr_add_esize_le (t : Tile) {r q : Nat} (hr : r < t.rows) (hq : q < t.cols) : t.addr r q + t.esize ≤ t.base + t.extent := by
  have hcell : r * t.cols + q + 1 ≤ t.rows * t.cols := by
    have := Nat.mul_le_mul_right t.cols (Nat.succ_le_of_lt hr)
    rw [Nat.succ_mul] at this
    omega
  have := Nat.mul_le_mul_right t.esize hcell
  rw [Nat.succ_mul] at this
  unfold Tile.addr Tile.extent
  omega

theorem base_le_addr (t : Tile) (r q : Nat) : t.base ≤ t.addr r q := Nat.le_add_right _ _

theorem four_le_esize (t : Tile) : 4 ≤ t.esize := by
  unfold Tile.esize
  split <;> decide

/-- The 4-byte value of element (r, q) in a store. -/
def valueAt (m : Memory) (t : Tile) (r q : Nat) : W32 := BitVec.ofNat 32 (Memory.readLe m (t.addr r q) 4)

theorem valueAt_setTileVal {m : Memory} {t : Tile} {r q r' q' : Nat} {v : W32} (hq : q < t.cols) (hq' : q' < t.cols) :
    valueAt (setTileVal m t r q v) t r' q' = if r = r' ∧ q = q' then v else valueAt m t r' q' := by
  split
  · next h =>
    obtain ⟨rfl, rfl⟩ := h
    exact tileVal_setTileVal m t r q v
  · next h => rw [valueAt, valueAt, tileVal_setTileVal_other m t r q r' q' v hq hq' (by omega)]

/-- A byte outside the extent is as before. -/
theorem read_setTileVal_outside {m : Memory} {t : Tile} {r q a : Nat} (v : W32) (hr : r < t.rows) (hq : q < t.cols)
    (ha : a < t.base ∨ t.base + t.extent ≤ a) : Memory.read (setTileVal m t r q v) a = Memory.read m a := by
  have h1 := addr_add_esize_le t hr hq
  have h2 := base_le_addr t r q
  have h3 := four_le_esize t
  refine Memory.read_writeBytes_outside _ _ _ _ ?_
  rw [toLe_length]
  omega

/-! ## A tile written element by element -/

/-- The store with the cells of a list written, `w` giving their values. -/
def writeCells (t : Tile) (w : Nat → Nat → W32) (cells : List (Nat × Nat)) (m : Memory) : Memory :=
  cells.foldl (fun m x => setTileVal m t x.1 x.2 (w x.1 x.2)) m

theorem valueAt_writeCells {t : Tile} {w : Nat → Nat → W32} {cells : List (Nat × Nat)} {m : Memory} {r q : Nat}
    (hcols : ∀ x ∈ cells, x.2 < t.cols) (hq : q < t.cols) :
    valueAt (writeCells t w cells m) t r q = if (r, q) ∈ cells then w r q else valueAt m t r q := by
  induction cells generalizing m with
  | nil => rfl
  | cons x cells ih =>
    have hstep : writeCells t w (x :: cells) m = writeCells t w cells (setTileVal m t x.1 x.2 (w x.1 x.2)) := rfl
    rw [hstep, ih fun y hy => hcols y (List.mem_cons_of_mem x hy), valueAt_setTileVal (hcols x List.mem_cons_self) hq]
    by_cases hx : x = (r, q)
    · simp only [hx, and_self, if_true, ite_self, List.mem_cons_self]
    · have hne : ¬(x.1 = r ∧ x.2 = q) := fun h => hx (Prod.ext h.1 h.2)
      simp only [hne, if_false, List.mem_cons, Ne.symm hx, false_or]

theorem read_writeCells_outside {t : Tile} {w : Nat → Nat → W32} {cells : List (Nat × Nat)} {m : Memory} {a : Nat}
    (hcells : ∀ x ∈ cells, x.1 < t.rows ∧ x.2 < t.cols) (ha : a < t.base ∨ t.base + t.extent ≤ a) :
    Memory.read (writeCells t w cells m) a = Memory.read m a :=
  List.foldlRecOn (motive := fun m' => Memory.read m' a = Memory.read m a) cells _ rfl fun _ hm x hx =>
    (read_setTileVal_outside _ (hcells x hx).1 (hcells x hx).2 ha).trans hm

/-- Every element's row and column. -/
def cellsOf (t : Tile) : List (Nat × Nat) := (List.range t.rows).flatMap fun r => (List.range t.cols).map fun q => (r, q)

theorem mem_cellsOf {t : Tile} {x : Nat × Nat} : x ∈ cellsOf t ↔ x.1 < t.rows ∧ x.2 < t.cols := by
  obtain ⟨r, q⟩ := x
  simp [cellsOf]

/-- The whole tile written, row after row. -/
def writeTile (t : Tile) (w : Nat → Nat → W32) (m : Memory) : Memory := writeCells t w (cellsOf t) m

theorem valueAt_writeTile {t : Tile} (w : Nat → Nat → W32) (m : Memory) {r q : Nat} (hr : r < t.rows) (hq : q < t.cols) :
    valueAt (writeTile t w m) t r q = w r q := by
  rw [writeTile, valueAt_writeCells (fun x hx => (mem_cellsOf.mp hx).2) hq, if_pos (mem_cellsOf.mpr ⟨hr, hq⟩)]

theorem read_writeTile_outside {t : Tile} (w : Nat → Nat → W32) (m : Memory) {a : Nat} (ha : a < t.base ∨ t.base + t.extent ≤ a) :
    Memory.read (writeTile t w m) a = Memory.read m a := read_writeCells_outside (fun _ hx => mem_cellsOf.mp hx) ha

theorem writeTile_eq_foldl (t : Tile) (w : Nat → Nat → W32) (m : Memory) :
    writeTile t w m =
      (List.range t.rows).foldl (fun m r => (List.range t.cols).foldl (fun m q => setTileVal m t r q (w r q)) m) m := by
  simp only [writeTile, writeCells, cellsOf, List.foldl_flatMap, List.foldl_map]

/-! ## MMA -/

theorem zipIdx_map_range {α : Type} (n : Nat) (f : Nat → α) :
    ((List.range n).map f).zipIdx = (List.range n).map fun i => (f i, i) := by
  apply List.ext_getElem <;> simp

/-- An MMA with floating-point operands writes the whole tile, each element from its row of A and its row of B. -/
theorem mmaFloat_eq_writeTile (acc : Memory) (t : Tile) (prior : Nat → Nat → W32) (A B : Nat → List FVal) :
    mmaFloat acc t prior ((List.range t.rows).map A) ((List.range t.cols).map B) =
      writeTile t (fun r q => mmaElem (prior r q) (A r) (B q)) acc := by
  rw [writeTile_eq_foldl, mmaFloat, zipIdx_map_range, zipIdx_map_range]
  simp only [List.foldl_map]

/-- An MMA with integer operands writes the whole tile likewise; INT_WRAP stands beside the store. -/
theorem mmaInt_eq_writeTile (acc : Memory) (t : Tile) (prior : Nat → Nat → W32) (A B : Nat → List Int) :
    (mmaInt acc t prior ((List.range t.rows).map A) ((List.range t.cols).map B)).1 =
      writeTile t (fun r q => (mmaElemInt (prior r q) (A r) (B q)).1) acc := by
  rw [writeTile_eq_foldl, mmaInt, zipIdx_map_range, zipIdx_map_range]
  simp only [List.foldl_map]
  refine (List.foldl_hom Prod.fst fun m r => ?_).symm
  exact List.foldl_hom Prod.fst fun m q => rfl

/-- The prior value of an element: zero with OVW (R128). -/
def mmaPrior (c : Core) (t : Tile) (f : MmaFields) (r q : Nat) : W32 := if f.ovw = 1 then 0 else c.tileVal t r q

/-- What MMA writes into element (r, q) (R78 to R81, R88). -/
def mmaValue (c : Core) (t : Tile) (f : MmaFields) (n r q : Nat) : W32 :=
  if isIntOperand f.fmta.toNat
  then (mmaElemInt (mmaPrior c t f r q) (mmaRowInt c.ls (c.mmaOperand f.sa.toNat) f.fmta.toNat n r)
    (mmaRowInt c.ls (c.mmaOperand f.sb.toNat) f.fmtb.toNat n q)).1
  else mmaElem (mmaPrior c t f r q) (mmaRow c.ls (c.mmaOperand f.sa.toNat) f.fmta.toNat n r)
    (mmaRow c.ls (c.mmaOperand f.sb.toNat) f.fmtb.toNat n q)

/-- The core that MMA leaves but for the tile's bytes and INT_WRAP. -/
def mmaHead (c : Core) (f : MmaFields) (blocks : Nat) : Core :=
  ((if f.ovw == 1#1 then c.newChain f.td.toNat else c).setTag f.td.toNat f.tfmt.toNat).addBlocks f.td.toNat blocks

theorem mmaPrior_eq (c : Core) (t : Tile) (f : MmaFields) :
    (fun r q => if f.ovw == 1#1 then 0#32 else c.tileVal t r q) = mmaPrior c t f := by
  funext r q
  simp [mmaPrior]

theorem tileD_of_some {k : KImage} {n : Nat} {t : Tile} (h : k.tile n = some t) : k.tileD n = t := by
  rw [KImage.tileD, h, Option.getD_some]

/-- MMA's effect at its issue: the tag and the block count of the tile, INT_WRAP, and the whole tile written. -/
theorem opMma_effect {c : Core} {k : KImage} {f : MmaFields} {t : Tile} (ht : k.tile f.td.toNat = some t) (ctr q cc : Nat) :
    ∃ wrap, (opMma c k f).effect ctr (issued c q cc none) =
      { mmaHead (issued c q cc none) f (ceilDiv (c.sbits f.sk.toNat 23 0) 32) with
        intWrap := wrap, acc := writeTile t (mmaValue c t f (c.sbits f.sk.toNat 23 0)) c.acc } := by
  simp only [opMma, tileD_of_some ht, mmaPrior_eq]
  unfold mmaValue
  by_cases hint : isIntOperand f.fmta.toNat = true
  · rw [if_pos hint, mmaInt_eq_writeTile]
    simp only [if_pos hint]
    exact ⟨_, rfl⟩
  · rw [if_neg hint, mmaFloat_eq_writeTile]
    simp only [if_neg hint]
    exact ⟨_, rfl⟩

/-- What MMA's head gives of the tags, and what it leaves. -/
theorem mmaHead_fields (c : Core) (f : MmaFields) (blocks : Nat) :
    (∀ q, (mmaHead c f blocks).tag q = if q = f.td.toNat then f.tfmt.toNat else c.tag q) ∧
      (mmaHead c f blocks).sregs = c.sregs ∧ (mmaHead c f blocks).vregs = c.vregs ∧ (mmaHead c f blocks).ls = c.ls ∧
      (mmaHead c f blocks).pc = c.pc := by
  refine ⟨fun q => ?_, ?_⟩
  · have h : (mmaHead c f blocks).tag q = ((if f.ovw == 1#1 then c.newChain f.td.toNat else c).setTag f.td.toNat f.tfmt.toNat).tag q :=
      rfl
    rw [h, Core.tag_setTag]
    congr 1
    split <;> rfl
  · unfold mmaHead
    split <;> exact ⟨rfl, rfl, rfl, rfl⟩

theorem matrixMultiplyCompletes : MatrixMultiplyCompletes := by
  intro p n f s k c t hat hc hf hu ht hn
  subst hc hn
  obtain ⟨wrap, heffect⟩ := opMma_effect (c := s.core p) ht s.freeCtr 1 (opMma (s.core p) k f).cc
  refine hat.answers (op := fun c k => opMma c k f) rfl rfl hf hu fun u hu => ⟨_, heffect ▸ hu, ?_⟩
  obtain ⟨htag, hsregs, hvregs, hls, hpc⟩ :=
    mmaHead_fields (issued (s.core p) 1 (opMma (s.core p) k f).cc none) f (ceilDiv ((s.core p).sbits f.sk.toNat 23 0) 32)
  exact ⟨(htag _).trans (if_pos rfl), fun q hq => (htag q).trans (if_neg hq), hsregs, hvregs, hls, hpc,
    fun r q hr hq => valueAt_writeTile _ _ hr hq, fun a ha => read_writeTile_outside _ _ ha⟩

/-! ## The faults of MMA -/

/-- The checks and the ranges of MMA, one by one, are the conditions of the statement. -/
theorem matrixMultiplyFaults : MatrixMultiplyFaults := by
  intro c k f
  rw [isaOp_fault_eq_none_iff, rangesBad_eq_false_iff]
  simp only [opMma, unmapped, List.forall_mem_cons, List.not_mem_nil, false_implies, implies_true, true_and, Bool.or_eq_false_iff,
    bne_eq_false_iff_eq, beq_eq_false_iff_ne, Bool.not_eq_false', Bool.and_eq_false_imp, Bool.or_eq_true, beq_iff_eq,
    Option.isNone_eq_false_iff, and_assoc]
  rfl

/-- Settles O14: MMA writes the tile element by element, and its checks are the conditions. -/
theorem matrixMultiplyCompletesOrFaults : Obligations.MatrixMultiplyCompletesOrFaults :=
  ⟨matrixMultiplyCompletes, matrixMultiplyFaults⟩

end Sys2Proof.Slice0

/-!
PROOFS. ZERO, TLD, OUT and VTACC (R92 to R94, R106 to R113, R127 to R134): the statement O15.
-/
namespace Sys2Proof.Slice0
open Sys2Proof Sys2Proof.Machine

/-! ## Rows of bytes -/

/-- The store with `n` rows of `w` bytes written from `base` on. -/
def writeRows (base w : Nat) (row : Nat → List Byte) (n : Nat) (m : Memory) : Memory :=
  (List.range n).foldl (fun m r => Memory.writeBytes m (base + r * w) (row r)) m

theorem writeRows_succ (base w : Nat) (row : Nat → List Byte) (n : Nat) (m : Memory) :
    writeRows base w row (n + 1) m = Memory.writeBytes (writeRows base w row n m) (base + n * w) (row n) := by
  simp [writeRows, List.range_succ]

section
variable {base w n : Nat} {row : Nat → List Byte} (hlen : ∀ r, (row r).length = w)
include hlen

theorem read_writeRows_outside {m : Memory} {a : Nat} (ha : a < base ∨ base + n * w ≤ a) :
    Memory.read (writeRows base w row n m) a = Memory.read m a := by
  induction n with
  | zero => rfl
  | succ n ih =>
    rw [Nat.succ_mul] at ha
    rw [writeRows_succ, Memory.read_writeBytes_outside _ _ _ _ (by rw [hlen]; omega), ih (by omega)]

theorem read_writeRows (m : Memory) {r b : Nat} (hr : r < n) (hb : b < w) :
    Memory.read (writeRows base w row n m) (base + r * w + b) = (row r)[b]'(by rw [hlen]; exact hb) := by
  induction n with
  | zero => omega
  | succ n ih =>
    rw [writeRows_succ]
    by_cases h : r = n
    · subst h
      rw [Memory.read_writeBytes, dif_pos (by rw [hlen]; omega)]
      congr 1
      omega
    · have hrow := Nat.mul_le_mul_right w (show r + 1 ≤ n by omega)
      rw [Nat.succ_mul] at hrow
      rw [Memory.read_writeBytes_outside _ _ _ _ (by omega), ih (by omega)]

end

/-! ## ZERO and TLD (R129) -/

theorem opZero_fault {c : Core} {k : KImage} {f : ZeroFields} {t : Tile} (hhi : f.rsvHi = 0) (hlo : f.rsvLo = 0) (hfmt : f.tfmt ≠ 3)
    (ht : k.tile f.td.toNat = some t) (hidx : f.tfmt = 2 → t.idx = true) : (opZero c k f).fault = none := by
  have h2 : f.tfmt.toNat = 2 → t.idx = true := fun h => hidx (BitVec.eq_of_toNat_eq h)
  rw [isaOp_fault_eq_none_iff, rangesBad_eq_false_iff]
  simpa [opZero, unmapped, idxCheck, tileD_of_some ht, ht, hhi, hlo] using ⟨hfmt, h2⟩

/-- ZERO's effect on a core: the tag and the block count of the tile, and its extent zero. -/
theorem opZero_effect {c d : Core} {k : KImage} {f : ZeroFields} {t : Tile} (ht : k.tile f.td.toNat = some t) (ctr : Nat) :
    (opZero c k f).effect ctr d =
      (({ d with acc := Memory.zeroRange d.acc t.base t.extent }).newChain f.td.toNat).setTag f.td.toNat f.tfmt.toNat := by
  simp only [opZero, tileD_of_some ht]

/-- TLD's effect on a core: the tag and the block count of the tile, and its rows from local scratch. -/
theorem opTld_effect {c d : Core} {k : KImage} {f : TldFields} {t : Tile} (ht : k.tile f.td.toNat = some t) (ctr : Nat) :
    (opTld c k f).effect ctr d = (({ d with acc := writeRows t.base (t.cols * t.esize) (fun r => Memory.readBytes d.ls
        (c.sbits f.sa.toNat 19 0 + r * c.sbits f.sa.toNat 59 40) (t.cols * t.esize)) t.rows d.acc }).newChain
      f.td.toNat).setTag f.td.toNat f.tfmt.toNat := by
  simp only [opTld, tileD_of_some ht, writeRows]

/-- A tile replaced whole: its tag is the one named and its block count restarts (R85, R93). -/
theorem tag_and_blockCount_of_replaced (c : Core) (n v : Nat) :
    ((c.newChain n).setTag n v).tag n = v ∧ ((c.newChain n).setTag n v).blockCount n = 0 :=
  ⟨(Core.tag_setTag ..).trans (if_pos rfl), (Core.blockCount_newChain ..).trans (if_pos rfl)⟩

/-! ## OUT (R130, R131) -/

/-- One row of OUT: its bytes into local scratch and its flags into the core's, the elements read from `c`. -/
def outStep (c : Core) (f : OutFields) (a : OutArgs) (t : Tile) (st : Core) (r : Nat) : Core :=
  { st.orConv (outRow c f a t r).2 with ls := Memory.writeBytes st.ls (a.dst + r * a.stride) (outRow c f a t r).1 }

theorem opOut_effect {c d : Core} {k : KImage} {f : OutFields} {t : Tile} (ht : k.tile f.ts.toNat = some t) (ctr : Nat) :
    (opOut c k f).effect ctr d = (List.range t.rows).foldl (outStep d f (c.outArgs f) t) d := by
  simp only [opOut, tileD_of_some ht]
  rfl

/-- Rows of OUT write local scratch one after another, and leave the tiles and the registers. -/
theorem foldl_outStep (c : Core) (f : OutFields) (a : OutArgs) (t : Tile) (rs : List Nat) (st : Core) :
    (rs.foldl (outStep c f a t) st).acc = st.acc ∧ (rs.foldl (outStep c f a t) st).tags = st.tags ∧
      (rs.foldl (outStep c f a t) st).sregs = st.sregs ∧ (rs.foldl (outStep c f a t) st).vregs = st.vregs ∧
      (rs.foldl (outStep c f a t) st).ls =
        rs.foldl (fun m r => Memory.writeBytes m (a.dst + r * a.stride) (outRow c f a t r).1) st.ls := by
  induction rs generalizing st with
  | nil => exact ⟨rfl, rfl, rfl, rfl, rfl⟩
  | cons r rs ih => exact ih (outStep c f a t st r)

theorem tileMovesComplete : TileMovesComplete := by
  intro p s k c t hc
  subst hc
  refine ⟨fun f hat hhi hlo hfmt ht hidx hd => ?zero, fun f hat hf hu ht => ?tld, fun f hat hf hu ht => ?out⟩
  case zero =>
    refine hat.answers (op := fun c k => opZero c k f) rfl rfl (opZero_fault hhi hlo hfmt ht hidx) ⟨hd, rfl⟩ fun u hu =>
      ⟨_, opZero_effect ht _ ▸ hu, ?_⟩
    obtain ⟨htag, hcount⟩ := tag_and_blockCount_of_replaced _ f.td.toNat f.tfmt.toNat
    exact ⟨htag, hcount, rfl, rfl, rfl, Memory.read_zeroRange _ _ _⟩
  case tld =>
    refine hat.answers (op := fun c k => opTld c k f) rfl rfl hf hu fun u hu => ⟨_, opTld_effect ht _ ▸ hu, ?_⟩
    obtain ⟨htag, hcount⟩ := tag_and_blockCount_of_replaced _ f.td.toNat f.tfmt.toNat
    refine ⟨htag, hcount, rfl, rfl, rfl, fun r b hr hb => ?_, fun a ha => ?_⟩
    · exact (read_writeRows (fun _ => Memory.readBytes_length ..) _ hr hb).trans (Memory.readBytes_getElem ..)
    · exact read_writeRows_outside (fun _ => Memory.readBytes_length ..) (by rwa [Tile.extent, Nat.mul_assoc] at ha)
  case out =>
    exact hat.answers (op := fun c k => opOut c k f) rfl rfl hf hu fun u hu =>
      ⟨_, opOut_effect ht _ ▸ hu, foldl_outStep _ f _ t _ _⟩

/-! ## VTACC (R134) -/

theorem vtaccFormat_eq (f : VeFields) : vtaccFormat f = if f.fn = 0 then 0 else 2 := by simp [vtaccFormat]

theorem opVtacc_fault {c : Core} {k : KImage} {f : VeFields} {t : Tile} {n : Nat} (hvd : f.vd = 0) (hss : f.ss = 0) (hfmt : f.fmt = 0)
    (hrm : f.rm = 0) (hfn : f.fn.toNat ≤ 2) (hn : f.vc.toNat = n) (hn16 : n < 16) (ht : k.tile n = some t) (hcols : t.cols = 64)
    (hrow : f.imm.toNat < t.rows) (htag : (f.fn = 0 ∧ c.tag n = 0) ∨ (f.fn ≠ 0 ∧ c.tag n = 2 ∧ t.idx = true)) :
    (opVtacc c k f).fault = none := by
  have hmod : f.vc.toNat % 16 = n := by omega
  obtain ⟨htag, hidx⟩ : c.tag n = vtaccFormat f ∧ (vtaccFormat f = 2 → t.idx = true) := by
    rw [vtaccFormat_eq]
    rcases htag with ⟨h, htag⟩ | ⟨h, htag, hidx⟩
    · simp [h, htag]
    · rw [if_neg h]
      exact ⟨htag, fun _ => hidx⟩
  have hunused : VeUse.reserved { va := true, vb := true, vc := true, fn := true, imm := true } f = false := by
    simp [VeUse.reserved, hvd, hss, hfmt, hrm]
  rw [isaOp_fault_eq_none_iff, rangesBad_eq_false_iff]
  simp only [opVtacc, opVec, hunused, hmod, unmapped, idxCheck, tileD_of_some ht, ht, hcols, htag]
  simpa using ⟨⟨show f.vc.toNat < 16 by omega, show f.fn.toNat < 3 by omega⟩, hrow, hidx⟩

theorem opVtacc_effect {c d : Core} {k : KImage} {f : VeFields} {t : Tile} {n : Nat} (hn : f.vc.toNat = n) (hn16 : n < 16)
    (ht : k.tile n = some t) (ctr : Nat) :
    (opVtacc c k f).effect ctr d = { d with acc := (List.range 64).foldl (fun m i =>
        if f.fn = 0 then setTileVal m t f.imm.toNat i (f32Add (d.tileVal t f.imm.toNat i) (d.lane f.va.toNat i))
        else setTilePair m t f.imm.toNat i (winner (f.fn == 1#4) (d.tilePair t f.imm.toNat i)
          ⟨d.lane f.va.toNat i, d.lane f.vb.toNat i⟩)) d.acc } := by
  have hmod : f.vc.toNat % 16 = n := by omega
  simp only [opVtacc, opVec, hmod, tileD_of_some ht, beq_iff_eq]
  rfl

theorem tileAccumulateCompletes : TileAccumulateCompletes := by
  intro p n f s k c t hat hc hd hvd hss hfmt hrm hfn hn hn16 ht hcols hrow htag
  subst hc
  refine hat.answers (op := fun c k => opVtacc c k f) rfl rfl
    (opVtacc_fault hvd hss hfmt hrm hfn hn.symm hn16 ht hcols hrow htag) ⟨hd, rfl⟩ fun u hu => ?_
  rw [opVtacc_effect hn.symm hn16 ht] at hu
  exact hu

/-- Settles O15: each instruction issues with the effect above. -/
theorem tilesMoveAndAccumulate : Obligations.TilesMoveAndAccumulate := ⟨tileMovesComplete, tileAccumulateCompletes⟩

end Sys2Proof.Slice0

/-!
PROOFS. The words of the core instructions (R121 to R141): the fields and the body of each encoding are inverse to one another, and so are the
encoder and the decoder. The statement O3.
-/
namespace Sys2Proof.Slice0
open Sys2Proof Sys2Proof.Machine

/-! ## Fields and bodies -/

@[simp] theorem mmaFields_inverse : (∀ f, mmaFields (mmaBody f) = f) ∧ ∀ b, mmaBody (mmaFields b) = b := by
  constructor <;> intro <;> simp (disch := decide) only [mmaBody, mmaFields, BitVec.extractLsb'_append_eq_of_le, Nat.reduceSub, Nat.sub_self,
    BitVec.extractLsb'_append_eq_of_add_le, BitVec.extractLsb'_append_extractLsb'_eq_extractLsb', BitVec.extractLsb'_eq_self]

@[simp] theorem zeroFields_inverse : (∀ f, zeroFields (zeroBody f) = f) ∧ ∀ b, zeroBody (zeroFields b) = b := by
  constructor <;> intro <;> simp (disch := decide) only [zeroBody, zeroFields, BitVec.extractLsb'_append_eq_of_le, Nat.reduceSub, Nat.sub_self,
    BitVec.extractLsb'_append_eq_of_add_le, BitVec.extractLsb'_append_extractLsb'_eq_extractLsb', BitVec.extractLsb'_eq_self]

@[simp] theorem tldFields_inverse : (∀ f, tldFields (tldBody f) = f) ∧ ∀ b, tldBody (tldFields b) = b := by
  constructor <;> intro <;> simp (disch := decide) only [tldBody, tldFields, BitVec.extractLsb'_append_eq_of_le, Nat.reduceSub, Nat.sub_self,
    BitVec.extractLsb'_append_eq_of_add_le, BitVec.extractLsb'_append_extractLsb'_eq_extractLsb', BitVec.extractLsb'_eq_self]

@[simp] theorem outFields_inverse : (∀ f, outFields (outBody f) = f) ∧ ∀ b, outBody (outFields b) = b := by
  constructor <;> intro <;> simp (disch := decide) only [outBody, outFields, BitVec.extractLsb'_append_eq_of_le, Nat.reduceSub, Nat.sub_self,
    BitVec.extractLsb'_append_eq_of_add_le, BitVec.extractLsb'_append_extractLsb'_eq_extractLsb', BitVec.extractLsb'_eq_self]

@[simp] theorem veFields_inverse : (∀ f, veFields (veBody f) = f) ∧ ∀ b, veBody (veFields b) = b := by
  constructor <;> intro <;> simp (disch := decide) only [veBody, veFields, BitVec.extractLsb'_append_eq_of_le, Nat.reduceSub, Nat.sub_self,
    BitVec.extractLsb'_append_eq_of_add_le, BitVec.extractLsb'_append_extractLsb'_eq_extractLsb', BitVec.extractLsb'_eq_self]

@[simp] theorem suFields_inverse : (∀ f, suFields (suBody f) = f) ∧ ∀ b, suBody (suFields b) = b := by
  constructor <;> intro <;> simp (disch := decide) only [suBody, suFields, BitVec.extractLsb'_append_eq_of_le, Nat.reduceSub, Nat.sub_self,
    BitVec.extractLsb'_append_eq_of_add_le, BitVec.extractLsb'_append_extractLsb'_eq_extractLsb', BitVec.extractLsb'_eq_self]

@[simp] theorem xbFields_inverse : (∀ f, xbFields (xbBody f) = f) ∧ ∀ b, xbBody (xbFields b) = b := by
  constructor <;> intro <;> simp (disch := decide) only [xbBody, xbFields, BitVec.extractLsb'_append_eq_of_le, Nat.reduceSub, Nat.sub_self,
    BitVec.extractLsb'_append_eq_of_add_le, BitVec.extractLsb'_append_extractLsb'_eq_extractLsb', BitVec.extractLsb'_eq_self]

@[simp] theorem waitFields_inverse : (∀ f, waitFields (waitBody f) = f) ∧ ∀ b, waitBody (waitFields b) = b := by
  constructor <;> intro <;> simp (disch := decide) only [waitBody, waitFields, BitVec.extractLsb'_append_eq_of_le, Nat.sub_self,
    BitVec.extractLsb'_append_eq_of_add_le, BitVec.extractLsb'_append_extractLsb'_eq_extractLsb', BitVec.extractLsb'_eq_self]

@[simp] theorem barFields_inverse : (∀ f, barFields (barBody f) = f) ∧ ∀ b, barBody (barFields b) = b := by
  constructor <;> intro <;> simp (disch := decide) only [barBody, barFields, BitVec.extractLsb'_append_eq_of_le, Nat.reduceSub, Nat.sub_self,
    BitVec.extractLsb'_append_eq_of_add_le, BitVec.extractLsb'_append_extractLsb'_eq_extractLsb', BitVec.extractLsb'_eq_self]

@[simp] theorem ctlFields_inverse : (∀ f, ctlFields (ctlBody f) = f) ∧ ∀ b, ctlBody (ctlFields b) = b := by
  constructor <;> intro <;> simp (disch := decide) only [ctlBody, ctlFields, BitVec.extractLsb'_append_eq_of_le, Nat.reduceSub, Nat.sub_self,
    BitVec.extractLsb'_append_eq_of_add_le, BitVec.extractLsb'_append_extractLsb'_eq_extractLsb', BitVec.extractLsb'_eq_self]

/-! ## Class, opcode and body (R121) -/

/-- The three parts of a word are those it was made of. -/
@[simp] theorem extract_isaCode (cls : BitVec 4) (op : BitVec 8) (b : BitVec 52) :
    (isaCode cls op b).extractLsb' 60 4 = cls ∧ (isaCode cls op b).extractLsb' 52 8 = op ∧
      (isaCode cls op b).extractLsb' 0 52 = b := by
  simp (disch := decide) only [isaCode, BitVec.extractLsb'_append_eq_of_le, Nat.reduceSub, Nat.sub_self,
    BitVec.extractLsb'_append_eq_of_add_le, BitVec.extractLsb'_eq_self, and_self]

/-- A word is made of its three parts. -/
theorem isaCode_extract (w : W64) : isaCode (w.extractLsb' 60 4) (w.extractLsb' 52 8) (w.extractLsb' 0 52) = w := by
  simp (disch := decide) only [isaCode, BitVec.extractLsb'_append_extractLsb'_eq_extractLsb', BitVec.extractLsb'_eq_self]

/-! ## The decoder of each class gives only instructions that have the word -/

section
variable {p n : Nat} {b : BitVec 52} {i : Instr}

theorem isaWord_of_decodeMx (h : decodeMx p n b = some i) : isaWord i = some (p, isaCode 1 (BitVec.ofNat 8 n) b) := by
  unfold decodeMx at h
  split at h <;> cases h <;> simp [isaWord]

theorem isaWord_of_decodeVe (h : decodeVe p n b = some i) : isaWord i = some (p, isaCode 2 (BitVec.ofNat 8 n) b) := by
  unfold decodeVe at h
  split at h <;> cases h <;> simp [isaWord]

theorem isaWord_of_decodeSu (h : decodeSu p n b = some i) : isaWord i = some (p, isaCode 3 (BitVec.ofNat 8 n) b) := by
  unfold decodeSu at h
  split at h <;> cases h <;> simp [isaWord]

theorem isaWord_of_decodeXb (h : decodeXb p n b = some i) : isaWord i = some (p, isaCode 4 (BitVec.ofNat 8 n) b) := by
  unfold decodeXb at h
  split at h <;> cases h <;> simp [isaWord]

theorem isaWord_of_decodeSync (h : decodeSync p n b = some i) : isaWord i = some (p, isaCode 5 (BitVec.ofNat 8 n) b) := by
  unfold decodeSync at h
  split at h <;> cases h <;> simp [isaWord]

theorem isaWord_of_decodeCtl (h : decodeCtl p n b = some i) : isaWord i = some (p, isaCode 6 (BitVec.ofNat 8 n) b) := by
  unfold decodeCtl at h
  split at h <;> cases h <;> simp [isaWord]

end

/-- What the decoder reads from a word has that word. -/
theorem isaWord_of_decodeIsa {p : Nat} {w : W64} {i : Instr} (h : decodeIsa p w = some i) : isaWord i = some (p, w) := by
  have word (cls : BitVec 4) (hcls : (w.extractLsb' 60 4).toNat = cls.toNat) :
      isaCode cls (BitVec.ofNat 8 (w.extractLsb' 52 8).toNat) (w.extractLsb' 0 52) = w := by
    rw [← BitVec.eq_of_toNat_eq hcls, BitVec.ofNat_toNat, BitVec.setWidth_eq, isaCode_extract]
  unfold decodeIsa at h
  dsimp only at h
  split at h
  · next hcls => rw [isaWord_of_decodeMx h, word 1 hcls]
  · next hcls => rw [isaWord_of_decodeVe h, word 2 hcls]
  · next hcls => rw [isaWord_of_decodeSu h, word 3 hcls]
  · next hcls => rw [isaWord_of_decodeXb h, word 4 hcls]
  · next hcls => rw [isaWord_of_decodeSync h, word 5 hcls]
  · next hcls => rw [isaWord_of_decodeCtl h, word 6 hcls]
  · cases h

/-- The decoder reads an instruction from its word. -/
theorem decodeIsa_of_isaWord {p : Nat} {w : W64} {i : Instr} (h : isaWord i = some (p, w)) : decodeIsa p w = some i := by
  unfold isaWord at h
  split at h <;> cases h <;> simp [decodeIsa, decodeMx, decodeVe, decodeSu, decodeXb, decodeSync, decodeCtl]

/-- Settles O3: the encoder and the decoder invert one another, class by class. -/
theorem wordsAndInstructionsAgree : Obligations.WordsAndInstructionsAgree :=
  fun _ _ _ => ⟨decodeIsa_of_isaWord, isaWord_of_decodeIsa⟩

end Sys2Proof.Slice0

/-!
PROOFS. The CTL class (R117, R141, R149): what each instruction's command answers. The statements O4 to O8.
-/
namespace Sys2Proof.Slice0
open Sys2Proof Sys2Proof.Machine

/-! ## Scalar registers -/

/-- Settles O4: both halves are the first branch of a read and of a write. -/
theorem registerZeroIsConstant : Obligations.RegisterZeroIsConstant := fun _ _ => ⟨rfl, rfl⟩

/-- A CTL instruction without a check and without a range issues while its queue has room. -/
theorem AtCore.answersCtl {i : Instr} {p : Nat} {s : State} {k : KImage} (effect : Nat → Core → Core) (h : AtCore i p s k)
    (hi : Issues i p s fun _ _ => opCtl 1 [] [] effect) (hd : (s.core p).depth 5 < 16) :
    Answers i s fun t => OnlyCore s t p (effect s.freeCtr (issued (s.core p) 5 1 none)) :=
  h.answers hi rfl rfl ⟨hd, rfl⟩ fun _ ht => ht

theorem ctlBinaryCompletes : CtlBinaryCompletes := by
  intro e he p f s k hat hd
  simp only [ctlBinary, List.mem_cons, List.not_mem_nil, or_false] at he
  rcases he with rfl | rfl | rfl | rfl | rfl | rfl | rfl | rfl | rfl <;>
    exact hat.answersCtl (opCtlBin _ f).effect rfl hd

/-- GETID's effect for the immediates that name one of the core's identities (R15). -/
theorem opGetid_effect {f : CtlFields} (hf : f.imm.toNat < 4) (ctr : Nat) (c : Core) :
    (opGetid f).effect ctr c = c.setSreg f.sdst.toNat (BitVec.ofNat 64 (identity c.logical f.imm.toNat)) := by
  simp only [opGetid, opCtl]
  generalize f.imm.toNat = n at hf
  match n, hf with
  | 0, _ | 1, _ | 2, _ | 3, _ => rfl

theorem ctlImmediateCompletes : CtlImmediateCompletes := by
  intro p f s k hd
  refine ⟨fun hat => hat.answersCtl (opAddi f).effect rfl hd, fun hat => hat.answersCtl (opLi f).effect rfl hd,
    fun hat => hat.answersCtl (opLih f).effect rfl hd, fun hat himm => ?getid, fun hat => hat.answersCtl (opCtlNop f).effect rfl hd,
    fun hat => hat.answersCtl (opEnd f).effect rfl hd⟩
  case getid =>
    have h := hat.answersCtl (opGetid f).effect rfl hd
    rwa [opGetid_effect himm] at h

/-- Settles O5: every one of these instructions issues without a check. -/
theorem ctlArithmeticCompletes : Obligations.CtlArithmeticCompletes := ⟨ctlBinaryCompletes, ctlImmediateCompletes⟩

/-! ## LDS and STS (R141, R142, R149) -/

section
variable {c : Core} {f : CtlFields} {a : Nat} (ha : (c.sbits f.sa.toNat 19 0 : Int) + f.imm.toInt = (a : Int))
include ha

/-- The address of LDS and STS as a number. -/
theorem ldsAddr_toNat : (ldsAddr c f).toNat = a := by
  rw [ldsAddr, ha, Int.toNat_natCast]

/-- The check of LDS and STS passes for a doubleword of local scratch at a multiple of 8. -/
theorem ldsCheck_of_inside (hin : a + 8 ≤ 0x100000) (h8 : a % 8 = 0) : (ldsCheck c f).bad = false := by
  simp only [ldsCheck, ldsAddr, ha, lsBytes, Bool.or_eq_false_iff, decide_eq_false_iff_not, bne_eq_false_iff_eq]
  omega

/-- LDS and STS, which share their check and their range, have no fault there. -/
theorem opCtl_fault_of_inside (hin : a + 8 ≤ 0x100000) (h8 : a % 8 = 0) (effect : Nat → Core → Core) :
    (opCtl 5 [ldsCheck c f] [(a, 8)] effect).fault = none := by
  rw [isaOp_fault_eq_none_iff, rangesBad_eq_false_iff]
  simp only [opCtl, List.mem_singleton, forall_eq]
  exact ⟨ldsCheck_of_inside ha hin h8, fun _ => hin⟩

theorem opLds_eq : opLds c f = opCtl 5 [ldsCheck c f] [(a, 8)] fun _ d =>
    d.setSreg f.sdst.toNat (BitVec.ofNat 64 (Memory.readLe d.ls a 8)) := by
  rw [opLds, ldsAddr_toNat ha]

theorem opSts_eq : opSts c f = opCtl 5 [ldsCheck c f] [(a, 8)] fun _ d =>
    { d with ls := Memory.writeLe d.ls a 8 (d.sreg f.sb.toNat).toNat } := by
  rw [opSts, ldsAddr_toNat ha]

end

/-- Settles O6: the address lies in local scratch, so that the instruction has no fault and issues. -/
theorem localScratchAccessCompletes : Obligations.LocalScratchAccessCompletes := by
  intro p a f s k ha hin h8 hu
  constructor <;> intro hat
  · exact hat.answers (op := fun c _ => opLds c f) rfl (opLds_eq ha) (opCtl_fault_of_inside ha hin h8 _) hu fun _ ht => ht
  · exact hat.answers (op := fun c _ => opSts c f) rfl (opSts_eq ha) (opCtl_fault_of_inside ha hin h8 _) hu fun _ ht => ht

/-- What `OnlyCore` says of the cores and of the other stores. -/
theorem OnlyCore.frame {s t : State} {p : Nat} {c : Core} (h : OnlyCore s t p c) :
    t.core p = c ∧ (∀ q, q ≠ p → t.core q = s.core q) ∧ t.slices = s.slices ∧ t.lpxMem = s.lpxMem ∧ t.host = s.host ∧
      t.jobs = s.jobs := by
  obtain ⟨ctr, rfl⟩ : ∃ ctr, t = { s.setCore p c with freeCtr := ctr } := by
    unfold OnlyCore at h
    exact ⟨t.freeCtr, by rw [← h]⟩
  exact ⟨(State.core_setCore ..).trans (if_pos rfl), fun q hq => (State.core_setCore ..).trans (if_neg hq), rfl, rfl, rfl, rfl⟩

/-- Settles O7: by O6 only the core differs, in the eight bytes that a write of a doubleword covers. -/
theorem storeTouchesOnlyItsBytes : Obligations.StoreTouchesOnlyItsBytes := by
  intro p a f s t k ha hin h8 hu hat ht
  obtain ⟨t', ht', honly⟩ := (localScratchAccessCompletes p a f s k ha hin h8 hu).2 hat
  obtain rfl : t = t' := by
    rw [ht] at ht'
    cases ht'
    rfl
  obtain ⟨hp, hothers, hslices, hlpx, hhost, hjobs⟩ := honly.frame
  rw [hp]
  refine ⟨?stored, fun b hb => ?outside, fun r => rfl, rfl, rfl, hothers, hslices, hlpx, hhost, hjobs⟩
  case stored =>
    simp only [Memory.readLe_writeLe]
    rw [Nat.mod_eq_of_lt (show _ < 256 ^ 8 from BitVec.isLt _), BitVec.ofNat_toNat, BitVec.setWidth_eq]
  case outside => exact Memory.read_writeBytes_outside _ _ _ _ (by rwa [toLe_length])

/-! ## BR (R141, R145) -/

/-- The condition of BR by its code. -/
theorem brTaken_iff {cond : BitVec 5} (hc : cond.toNat ≤ 5) (x y : W64) : brTaken cond.toNat x y = true ↔
    (cond = 0#5 ∧ x = y) ∨ (cond = 1#5 ∧ x ≠ y) ∨ (cond = 2#5 ∧ x.toInt < y.toInt) ∨ (cond = 3#5 ∧ x.toNat < y.toNat) ∨
      (cond = 4#5 ∧ y.toInt ≤ x.toInt) ∨ (cond = 5#5 ∧ y.toNat ≤ x.toNat) := by
  have code (n : Nat) (hn : n < 2 ^ 5) : cond = BitVec.ofNat 5 n ↔ cond.toNat = n := by
    rw [← BitVec.toNat_inj, BitVec.toNat_ofNat, Nat.mod_eq_of_lt hn]
  rw [code 0 (by decide), code 1 (by decide), code 2 (by decide), code 3 (by decide), code 4 (by decide), code 5 (by decide)]
  generalize cond.toNat = n at hc
  match n, hc with
  | 0, _ | 1, _ | 2, _ | 3, _ | 4, _ | 5, _ => simp [brTaken, BitVec.slt, BitVec.ult]

theorem opBr_fault {c : Core} {k : KImage} {f : CtlFields} {n : Nat} (hc : f.cond.toNat ≤ 5) (ht : brTarget c.pc f = (n : Int))
    (hn : n < k.code.length) : (opBr c k f).fault = none := by
  rw [isaOp_fault_eq_none_iff, rangesBad_eq_false_iff]
  simp only [opBr, opCtl, ht, List.forall_mem_cons, List.not_mem_nil, false_implies, implies_true, and_true, Bool.or_eq_false_iff,
    decide_eq_false_iff_not]
  omega

/-- BR's effect where its target is the index n. -/
theorem opBr_effect {c d : Core} {k : KImage} {f : CtlFields} {n : Nat} (ht : brTarget c.pc f = (n : Int)) (ctr : Nat) :
    (opBr c k f).effect ctr d =
      { d with pc := if brTaken f.cond.toNat (d.sreg f.sa.toNat) (d.sreg f.sb.toNat) then n else d.pc } := by
  simp only [opBr, opCtl, ht, Int.toNat_natCast]
  split <;> rfl

/-- Settles O8: the target lies in the code, so that BR has no fault and issues. -/
theorem branchCompletes : Obligations.BranchCompletes := by
  intro p n f s k x y hat hd hc ht hn hx hy
  subst hx hy
  refine hat.answers (op := fun c k => opBr c k f) rfl rfl (opBr_fault hc ht hn) ⟨hd, rfl⟩ fun u hu => ?_
  rw [opBr_effect ht] at hu
  simp only [← brTaken_iff hc]
  exact hu

end Sys2Proof.Slice0

/-!
PROOFS. The VE class (R133, R134) but VTACC: what each instruction's command answers. The statements O10 to O12.
-/
namespace Sys2Proof.Slice0
open Sys2Proof Sys2Proof.Machine

/-! ## Registers after the issue of an instruction, before its effect -/

@[simp] theorem issued_sreg (c : Core) (q cc : Nat) (x : Option Xfer) (r : Nat) : (issued c q cc x).sreg r = c.sreg r := rfl

@[simp] theorem issued_sbits (c : Core) (q cc : Nat) (x : Option Xfer) (r hi lo : Nat) :
    (issued c q cc x).sbits r hi lo = c.sbits r hi lo := rfl

@[simp] theorem issued_lane (c : Core) (q cc : Nat) (x : Option Xfer) (v n : Nat) : (issued c q cc x).lane v n = c.lane v n := rfl

@[simp] theorem issued_vec (c : Core) (q cc : Nat) (x : Option Xfer) (v : Nat) : (issued c q cc x).vec v = c.vec v := rfl

@[simp] theorem issued_pairs (c : Core) (q cc : Nat) (x : Option Xfer) (v w : Nat) : (issued c q cc x).pairs v w = c.pairs v w := rfl

@[simp] theorem issued_ls (c : Core) (q cc : Nat) (x : Option Xfer) : (issued c q cc x).ls = c.ls := rfl

/-! ## The issue of a VE instruction -/

/-- A VE instruction has no fault exactly when the fields that it leaves unused are zero, its own checks pass and its ranges lie in local
scratch (R123, R149). -/
theorem opVec_fault_eq_none_iff (u : VeUse) (f : VeFields) (checks : List FaultCheck) (cc : Nat) (ranges : List (Nat × Nat))
    (effect : Nat → Core → Core) : (opVec u f checks cc ranges effect).fault = none ↔
      u.reserved f = false ∧ (∀ k ∈ checks, k.bad = false) ∧ ∀ r ∈ ranges, 0 < r.2 → r.1 + r.2 ≤ 0x100000 := by
  rw [isaOp_fault_eq_none_iff, rangesBad_eq_false_iff]
  simp only [opVec, List.forall_mem_cons, and_assoc]

section
variable {i : Instr} {p : Nat} {s : State} {k : KImage} {f : VeFields} {u : VeUse} {checks : List FaultCheck} {cc : Nat}
  {ranges : List (Nat × Nat)} {effect : Nat → Core → Core}

/-- A VE instruction without a fault, which nothing hinders, issues. -/
theorem AtCore.answersVec (h : AtCore i p s k) {op : Core → KImage → IsaOp} (hi : Issues i p s op)
    (ho : op (s.core p) k = opVec u f checks cc ranges effect) (hres : u.reserved f = false) (hchecks : ∀ k ∈ checks, k.bad = false)
    (hin : ∀ r ∈ ranges, 0 < r.2 → r.1 + r.2 ≤ 0x100000) (hu : Unhindered (s.core p) 2 ranges) :
    Answers i s fun t => OnlyCore s t p (effect s.freeCtr (issued (s.core p) 2 cc none)) :=
  h.answers hi ho ((opVec_fault_eq_none_iff ..).mpr ⟨hres, hchecks, hin⟩) hu fun _ ht => ht

end

/-! ## Instructions that work element by element -/

theorem vec_getElem? (c : Core) (v : Nat) {n : Nat} (hn : n < 64) : (c.vec v)[n]? = some (c.lane v n) := by
  simp [Core.vec, hn]

/-- The state in which core p has issued a VE instruction that writes `g` to the lanes of vector register `vd` and to nothing else. -/
def WritesLanes (s : State) (p cc vd : Nat) (g : Nat → W32) (t : State) : Prop :=
  ∃ d, OnlyCore s t p d ∧ { d with vregs := (s.core p).vregs } = issued (s.core p) 2 cc none ∧
    (∀ n, n < 64 → d.lane vd n = g n) ∧ ∀ v n, v ≠ vd → n < 64 → d.lane v n = (s.core p).lane v n

/-- A VE instruction without a range that writes the list `xs` to VD. -/
theorem AtCore.writesLanes {i : Instr} {p : Nat} {s : State} {k : KImage} {f : VeFields} {u : VeUse} {checks : List FaultCheck}
    {cc : Nat} {g : Nat → W32} (h : AtCore i p s k) (xs : Core → List W32)
    (hi : Issues i p s fun _ _ => opVec u f checks cc [] fun _ c => c.setVec f.vd.toNat (xs c)) (hd : (s.core p).depth 2 < 16)
    (hres : u.reserved f = false) (hchecks : ∀ k ∈ checks, k.bad = false)
    (hg : ∀ n, n < 64 → (xs (issued (s.core p) 2 cc none))[n]? = some (g n)) : Answers i s (WritesLanes s p cc f.vd.toNat g) := by
  obtain ⟨t, ht, honly⟩ := h.answersVec hi rfl hres hchecks (by simp) ⟨hd, rfl⟩
  refine ⟨t, ht, _, honly, rfl, fun n hn => ?_, fun v n hv hn => ?_⟩
  · rw [Core.lane_setVec _ _ _ _ _ hn, if_pos rfl, List.getD_eq_getElem?_getD, hg n hn, Option.getD_some]
  · rw [Core.lane_setVec _ _ _ _ _ hn, if_neg hv, issued_lane]

/-- VADD, VSUB and VMUL by their operations. -/
theorem AtCore.answersArithmetic {i : Instr} {p : Nat} {s : State} {k : KImage} {f : VeFields} {fp int : W32 → W32 → W32}
    (h : AtCore i p s k) (hi : Issues i p s fun _ _ => opVeArith fp int f) (hd : (s.core p).depth 2 < 16) (hz : veTwoSource f)
    (hfmt : fp32OrInt32 f) : Answers i s (WritesLanes s p 5 f.vd.toNat fun n =>
      (if f.fmt = 0x0E then int else fp) ((s.core p).lane f.va.toNat n) ((s.core p).lane f.vb.toNat n)) := by
  obtain ⟨hvc, hss, hrm, hfn, himm⟩ := hz
  refine h.writesLanes _ hi hd (by simp [VeUse.reserved, hvc, hss, hrm, hfn, himm]) ?checks fun n hn => ?lanes
  case checks => rcases hfmt with h | h <;> simp [fpOrInt, h]
  case lanes => simp [List.getElem?_zipWith, vec_getElem? _ _ hn]

/-- VMAX and VMIN. -/
theorem AtCore.answersExtreme {i : Instr} {p : Nat} {s : State} {k : KImage} {f : VeFields} {isMax : Bool} (h : AtCore i p s k)
    (hi : Issues i p s fun _ _ => opVeExt isMax f) (hd : (s.core p).depth 2 < 16) (hz : veTwoSource f) (hfmt : f.fmt = 0) :
    Answers i s (WritesLanes s p 5 f.vd.toNat fun n =>
      valueWinner isMax ((s.core p).lane f.va.toNat n) ((s.core p).lane f.vb.toNat n)) := by
  obtain ⟨hvc, hss, hrm, hfn, himm⟩ := hz
  exact h.writesLanes _ hi hd (by simp [VeUse.reserved, hvc, hss, hfmt, hrm, hfn, himm]) (by simp) fun n hn => by
    simp [List.getElem?_zipWith, vec_getElem? _ _ hn]

/-- VADDS and VMULS by their operations. -/
theorem AtCore.answersScalar {i : Instr} {p : Nat} {s : State} {k : KImage} {f : VeFields} {fp : W32 → W32 → W32}
    (h : AtCore i p s k) (hi : Issues i p s fun _ _ => opVeScalar fp f) (hd : (s.core p).depth 2 < 16)
    (hres : VeUse.reserved { vd := true, va := true, ss := true } f = false) :
    Answers i s (WritesLanes s p 5 f.vd.toNat fun n =>
      fp ((s.core p).lane f.va.toNat n) (BitVec.ofNat 32 ((s.core p).sbits f.ss.toNat 31 0))) :=
  h.writesLanes _ hi hd hres (by simp) fun n hn => by simp [vec_getElem? _ _ hn]

theorem vectorArithmeticCompletes : VectorArithmeticCompletes := by
  intro e he p f s k hat hd hz hfmt
  simp only [veArithmetic, List.mem_cons, List.not_mem_nil, or_false] at he
  rcases he with rfl | rfl | rfl <;> exact hat.answersArithmetic rfl hd hz hfmt

theorem vectorMapsComplete : VectorMapsComplete := by
  intro p f s k c x hc hd hx i cc g hi hat
  subst hc hx
  rcases hi with ⟨rfl, hss, hfmt, hrm, hfn, himm, rfl, rfl⟩ | ⟨rfl, hz, hfmt, rfl, rfl⟩ | ⟨rfl, hz, hfmt, rfl, rfl⟩ |
    ⟨rfl, hvb, hvc, hfmt, hrm, hfn, himm, rfl, rfl⟩ | ⟨rfl, hvb, hvc, hfmt, hrm, hfn, himm, rfl, rfl⟩ |
    ⟨rfl, hvb, hvc, hss, hfmt, hrm, himm, hfn, rfl, hg⟩ | ⟨rfl, hvb, hvc, hss, hfmt, hrm, himm, hfn, rfl, rfl⟩
  · -- VFMA
    exact hat.writesLanes _ rfl hd (by simp [VeUse.reserved, hss, hfmt, hrm, hfn, himm]) (by simp) fun n hn => by simp [hn]
  · -- VMAX
    exact hat.answersExtreme rfl hd hz hfmt
  · -- VMIN
    exact hat.answersExtreme rfl hd hz hfmt
  · -- VADDS
    exact hat.answersScalar rfl hd (by simp [VeUse.reserved, hvb, hvc, hfmt, hrm, hfn, himm])
  · -- VMULS
    exact hat.answersScalar rfl hd (by simp [VeUse.reserved, hvb, hvc, hfmt, hrm, hfn, himm])
  · -- VACT
    exact hat.writesLanes _ rfl hd (by simp [VeUse.reserved, hvb, hvc, hss, hfmt, hrm, himm]) (by simpa using hfn) fun n hn => by
      simp [vec_getElem? _ _ hn, hg n]
  · -- VLOG
    exact hat.writesLanes _ rfl hd (by simp [VeUse.reserved, hvb, hvc, hss, hfmt, hrm, himm]) (by simpa using hfn) fun n hn => by
      by_cases h : f.fn = 0#4 <;> simp [vec_getElem? _ _ hn, h]

/-- Settles O10: each instruction writes one list of 64 elements to VD. -/
theorem vectorElementwiseComplete : Obligations.VectorElementwiseComplete := ⟨vectorArithmeticCompletes, vectorMapsComplete⟩

/-! ## VLD, VST and VCVT -/

/-- A packed register of 16-bit or of 32-bit elements. -/
theorem packedBytes_of_formatBits {code nb : Nat} (hb : formatBits code = nb) (h : nb = 16 ∨ nb = 32) : packedBytes code 64 = 8 * nb := by
  rcases h with rfl | rfl <;> rw [packedBytes, hb] <;> rfl

/-- The formats of VLD: those of 32 bits, which it takes as they are, and those of 16 bits, which it widens. -/
theorem vldFormat {fmt : BitVec 5} {nb : Nat} (h : (fmt = 0 ∨ fmt = 0x0E) ∧ nb = 32 ∨ (fmt = 1 ∨ fmt = 2) ∧ nb = 16) :
    (fmt.toNat == 0x00 || fmt.toNat == 0x01 || fmt.toNat == 0x02 || fmt.toNat == 0x0E) = true ∧ formatBits fmt.toNat = nb ∧
      ((fmt.toNat == 0x01 || fmt.toNat == 0x02) = true ↔ nb = 16) := by
  rcases h with ⟨rfl | rfl, rfl⟩ | ⟨rfl | rfl, rfl⟩ <;> decide

theorem vectorLoadStoreComplete : VectorLoadStoreComplete := by
  intro p a nb f s k c hc ha
  subst hc
  have haddr : veAddr (s.core p) f = a := by rw [ha, veAddr, Core.sbits, Nat.mul_comm 64]
  constructor
  · intro hat hva hvb hvc hrm hfn hfmt hin hu
    obtain ⟨hcode, hbits, hwiden⟩ := vldFormat hfmt
    have hpacked := packedBytes_of_formatBits hbits (hfmt.symm.imp And.right And.right)
    have hop : opVld (s.core p) f = opVec { vd := true, ss := true, fmt := true, imm := true } f [⟨false, 0x04⟩] 5 [(a, 8 * nb)]
        fun _ c => c.setVec f.vd.toNat ((List.range 64).map fun i =>
          if nb = 16 then toF32 (elemVal f.fmt.toNat (rawAt c.ls a (16 * i) 16) 0) else BitVec.ofNat 32 (rawAt c.ls a (32 * i) 32)) := by
      rw [opVld, haddr, hpacked, hcode]
      simp only [hwiden, hbits]
      rcases hfmt with ⟨-, rfl⟩ | ⟨-, rfl⟩ <;> rfl
    exact hat.answersVec (op := fun c _ => opVld c f) rfl hop (by simp [VeUse.reserved, hva, hvb, hvc, hrm, hfn]) (by simp)
      (by simpa using fun _ => hin) hu
  · intro hat hvd hvb hvc hfmt hrm hfn hin hu
    rw [← haddr] at hin hu ⊢
    exact hat.answersVec (op := fun c _ => opVst c f) rfl rfl (by simp [VeUse.reserved, hvd, hvb, hvc, hfmt, hrm, hfn]) (by simp)
      (by simpa using hin) hu

theorem conversionCompletes : ConversionCompletes := by
  intro p f s k hat hd hvb hvc himm hss hfn hfmt hrm
  have hside : f.fn.toNat % 2 = 0 ↔ f.fn = 0 := by
    rw [← BitVec.toNat_inj]
    simp
    omega
  have hhigh : bits f.fn.toNat 3 1 = 0 := by
    rw [bits, Nat.shiftRight_eq_div_pow]
    omega
  have hres : VeUse.reserved { vd := true, va := true, ss := isMx f.fmt.toNat, fmt := true, rm := true, fn := true } f = false := by
    cases hmx : isMx f.fmt.toNat
    · simp [VeUse.reserved, hvb, hvc, himm, hss hmx]
    · simp [VeUse.reserved, hvb, hvc, himm]
  have h := hat.answersVec (op := fun _ _ => opVcvt f) rfl rfl hres (by simpa [hhigh] using ⟨hfmt, hrm⟩) (by simp) ⟨hd, rfl⟩
  simpa only [hside] using h

/-- Settles O11: none of the three has a fault under the statement's conditions, so that each issues. -/
theorem vectorMemoryAndConversionComplete : Obligations.VectorMemoryAndConversionComplete :=
  ⟨vectorLoadStoreComplete, conversionCompletes⟩

/-! ## VRSUM, VRMAXI, VSORT and VMERGE -/

theorem vectorReductionsComplete : VectorReductionsComplete := by
  intro p a n f s k c hc ha hn hin hu hva hvb hvc hfmt hrm hfn
  subst hc ha hn
  constructor
  · intro hat himm
    exact hat.answersVec (op := fun c _ => opVrsum c f) rfl rfl (by simp [VeUse.reserved, hva, hvb, hvc, hfmt, hrm, hfn, himm]) (by simp)
      (by simpa [Core.sbits] using fun _ => hin) hu
  · intro hat w hw
    have h := hat.answersVec (op := fun c _ => opVrmaxi c f) rfl rfl (by simp [VeUse.reserved, hva, hvb, hvc, hfmt, hrm, hfn]) (by simp)
      (by simpa [Core.sbits] using fun _ => hin) hu
    simp only [issued_ls, Core.sbits, hw, Option.getD_some] at h
    exact h

theorem sortingCompletes : SortingCompletes := by
  intro p f s k c hc hd hz hfmt hvd
  subst hc
  obtain ⟨hvc, hss, hrm, hfn, himm⟩ := hz
  have hres : VeUse.reserved { vd := true, va := true, vb := true } f = false := by
    simp [VeUse.reserved, hvc, hss, hfmt, hrm, hfn, himm]
  constructor
  · intro hat
    have h := hat.answersVec (op := fun _ _ => opVsort f) rfl rfl hres (by simp [oddReg, hvd]) (by simp) ⟨hd, rfl⟩
    simpa only [issued_pairs] using h
  · intro hat hva hvb
    have h := hat.answersVec (op := fun _ _ => opVmerge f) rfl rfl hres (by simp [oddReg, hvd, hva, hvb]) (by simp) ⟨hd, rfl⟩
    simpa only [issued_pairs] using h

/-- Settles O12: the instructions issue, and the result of VRMAXI is the winner that the hypothesis names. -/
theorem vectorReductionsAndSortsComplete : Obligations.VectorReductionsAndSortsComplete :=
  ⟨vectorReductionsComplete, sortingCompletes⟩

end Sys2Proof.Slice0

/-!
PROOFS. The SU class (R118, R135, R136, R218 to R221): what each instruction's command answers. The statement O16.
-/
namespace Sys2Proof.Slice0
open Sys2Proof Sys2Proof.Machine

/-! ## The issue of an SU instruction -/

/-- The checks that every SU instruction shares pass for the operands of R135. -/
theorem opSu_fault {f : SuFields} {extra : List FaultCheck} (hs : suOperands f) (hextra : ∀ k ∈ extra, k.bad = false) (cc : Nat)
    (effect : Nat → Core → Core) : (opSu f extra cc effect).fault = none := by
  obtain ⟨hrsv, hn, hn64, hquad, hq4⟩ := hs
  have hn0 : f.n ≠ 0 := fun h => by simp [h] at hn
  refine IsaOp.fault_none _ (fun k hk => ?_) rfl
  simp only [opSu, suChecks, List.cons_append, List.nil_append, List.mem_cons] at hk
  rcases hk with rfl | rfl | hk
  · simpa [hrsv] using ⟨hn0, hn64⟩
  · simpa [quadOk] using ⟨hquad, hq4⟩
  · exact hextra k hk

/-- An SU instruction issues with the operands of R135 while its queue has room. -/
theorem AtCore.answersSu {i : Instr} {p : Nat} {s : State} {k : KImage} {f : SuFields} {extra : List FaultCheck} {cc : Nat}
    (effect : Nat → Core → Core) (h : AtCore i p s k) {op : Core → KImage → IsaOp} (hi : Issues i p s op)
    (ho : op (s.core p) k = opSu f extra cc effect) (hd : (s.core p).depth 3 < 16) (hs : suOperands f)
    (hextra : ∀ k ∈ extra, k.bad = false) :
    Answers i s fun t => OnlyCore s t p (effect s.freeCtr (issued (s.core p) 3 cc none)) :=
  h.answers hi ho (opSu_fault hs hextra cc effect) ⟨hd, rfl⟩ fun _ ht => ht

/-- The uniform of an element is that of the statements. -/
theorem suU_eq_uniform (c : Core) (f : SuFields) (i : Nat) : suU c f i = uniform c f i := rfl

@[simp] theorem issued_uniform (c : Core) (q cc : Nat) (x : Option Xfer) (f : SuFields) (i : Nat) :
    uniform (issued c q cc x) f i = uniform c f i := rfl

/-! ## Bernoulli draws into a scalar -/

theorem testBit_foldr_b2n (bs : List Bool) (n : Nat) :
    (bs.foldr (fun b acc => b2n b + 2 * acc) 0).testBit n = bs.getD n false := by
  induction bs generalizing n with
  | nil => simp
  | cons b bs ih =>
    rw [List.foldr_cons]
    cases n with
    | zero => cases b <;> simp [b2n, Nat.testBit_zero]
    | succ n =>
      have half : (b2n b + 2 * bs.foldr (fun b acc => b2n b + 2 * acc) 0) / 2 = bs.foldr (fun b acc => b2n b + 2 * acc) 0 := by
        have := b2n_le_one b
        omega
      rw [Nat.testBit_succ, half, ih, List.getD_cons_succ]

/-- Bit n of a scalar of bits, zero beyond the list (R136). -/
theorem getLsbD_bitScalar (bs : List Bool) {n : Nat} (hn : n < 64) : (bitScalar bs).getLsbD n = bs.getD n false := by
  rw [bitScalar, BitVec.getLsbD_ofNat, decide_eq_true hn, Bool.true_and, testBit_foldr_b2n]

/-- What a Bernoulli draw per element leaves of a core. -/
theorem suBern_fields (draw : Core → Nat → Bool × Bool) (f : SuFields) (c : Core) :
    (suBern draw f c).vregs = c.vregs ∧ (suBern draw f c).ls = c.ls ∧ (suBern draw f c).acc = c.acc ∧
      (suBern draw f c).nanLost = (c.nanLost || (List.range f.n.toNat).any fun n => (draw c n).2) ∧
      ∀ r, (suBern draw f c).sreg r =
        if r = f.dst.toNat ∧ r ≠ 0 then bitScalar ((List.range f.n.toNat).map fun n => (draw c n).1) else c.sreg r := by
  have hsreg (r : Nat) : (suBern draw f c).sreg r = (c.setSreg f.dst.toNat
      (bitScalar (((List.range f.n.toNat).map (draw c)).map (·.1)))).sreg r := rfl
  simp only [hsreg, Core.sreg_setSreg, List.map_map]
  unfold suBern Core.orConv Core.setSreg
  split <;> simp [List.any_map, Function.comp_def]

/-- SBERNF, SBERNP and SBERNQ by their draws. -/
theorem AtCore.answersBernoulli {i : Instr} {p : Nat} {s : State} {k : KImage} {f : SuFields} {draw : Core → Nat → Bool × Bool}
    (h : AtCore i p s k) (hi : Issues i p s fun _ _ => opSu f [] 25 fun _ => suBern draw f) (hd : (s.core p).depth 3 < 16)
    (hs : suOperands f) (hdraw : draw (issued (s.core p) 3 25 none) = draw (s.core p)) :
    Answers i s fun t => ∃ d, OnlyCore s t p d ∧ d.vregs = (s.core p).vregs ∧ d.ls = (s.core p).ls ∧ d.acc = (s.core p).acc ∧
      (f.dst ≠ 0 → ∀ n, n < 64 → (d.sreg f.dst.toNat).getLsbD n = (decide (n < f.n.toNat) && (draw (s.core p) n).1)) ∧
      (∀ r, r ≠ f.dst.toNat → d.sreg r = (s.core p).sreg r) ∧
      d.nanLost = ((s.core p).nanLost || (List.range f.n.toNat).any fun n => (draw (s.core p) n).2) := by
  obtain ⟨t, ht, honly⟩ := h.answersSu (fun _ => suBern draw f) hi rfl hd hs (by simp)
  obtain ⟨hvregs, hls, hacc, hnan, hsreg⟩ := suBern_fields draw f (issued (s.core p) 3 25 none)
  rw [hdraw] at hnan hsreg
  refine ⟨t, ht, _, honly, hvregs, hls, hacc, fun hdst n hn => ?bits, fun r hr => ?others, hnan⟩
  case bits =>
    have hdst : f.dst.toNat ≠ 0 := fun h => hdst (BitVec.eq_of_toNat_eq h)
    rw [hsreg, if_pos ⟨rfl, hdst⟩, getLsbD_bitScalar _ hn, List.getD_eq_getElem?_getD, List.getElem?_map]
    by_cases h : n < f.n.toNat <;> simp [h]
  case others => rw [hsreg, if_neg fun h => hr h.1, issued_sreg]

theorem stochasticDrawsComplete : StochasticDrawsComplete := by
  intro p f s k c invT hc hd hs hT
  subst hc hT
  refine ⟨fun hat => hat.answersSu (opSunif f).effect rfl rfl hd hs (by simp),
    fun hat => hat.answersSu (opSgumb f).effect rfl rfl hd hs (by simp), fun i draw hi hat => ?bernoulli⟩
  case bernoulli =>
    rcases hi with ⟨rfl, rfl⟩ | ⟨rfl, rfl⟩ | ⟨rfl, rfl⟩
    · exact hat.answersBernoulli (draw := fun c n => bernField (c.lane f.va.toNat n) (suInvT c f) (suU c f n)) rfl hd hs rfl
    · exact hat.answersBernoulli (draw := fun c n => bernProb (c.lane f.va.toNat n) (suU c f n)) rfl hd hs rfl
    · have h := hat.answersBernoulli (draw := fun c n => (sporeMask (suU c f n) ((c.lane f.va.toNat n).toNat % 2 ^ 16), false))
        rfl hd hs rfl
      simpa only [sporeMask, Nat.shiftLeft_eq, suU_eq_uniform] using h

/-! ## SCAT -/

theorem bestPair_isSome {isMax : Bool} {ps : List IdxPair} (h : ps ≠ []) : ∃ w, bestPair isMax ps = some w := by
  cases ps with
  | nil => exact absurd rfl h
  | cons p ps => exact ⟨_, rfl⟩

/-- The noisy scores of group j with their positions (R135). -/
def scatGroup (c : Core) (f : SuFields) (g j : Nat) : List IdxPair :=
  (List.range g).map fun i => IdxPair.mk (gumbelAdd (c.lane f.va.toNat (j * g + i)) (BitVec.ofNat 32 (c.sbits f.st.toNat 63 32))
    (uniform c f (j * g + i))) (BitVec.ofNat 32 i)

/-- The winning position of a group is that of the group's best pair. -/
theorem scatWinner_of_bestPair {c : Core} {f : SuFields} {g j : Nat} {w : IdxPair} (h : bestPair true (scatGroup c f g j) = some w) :
    scatWinner c f g j = w.index := by
  show ((bestPair true (scatGroup c f g j)).getD ⟨0#32, 0#32⟩).index = w.index
  rw [h, Option.getD_some]

@[simp] theorem issued_scatWinner (c : Core) (q cc : Nat) (x : Option Xfer) (f : SuFields) (g j : Nat) :
    scatWinner (issued c q cc x) f g j = scatWinner c f g j := rfl

theorem categoricalDrawCompletes : CategoricalDrawCompletes := by
  intro p g f s k c inv hat hc hd hs hg hmem hdiv hinv
  subst hc hinv
  have ⟨_, _, hn64, _⟩ := hs
  have hsize : (s.core p).sbits f.st.toNat 6 0 = g := hg.symm
  have hok : scatGroupOk g f.n.toNat = true := by simp only [scatGroupOk, hdiv, List.contains_iff_mem.mpr hmem]; rfl
  have hpos : g ≠ 0 := by rintro rfl; simp at hmem
  obtain ⟨t, ht, honly⟩ := hat.answersSu (opScat (s.core p) f).effect (op := fun c _ => opScat c f) rfl rfl hd hs (by simp [hsize, hok])
  refine ⟨t, ht, _, honly, rfl, fun j hj => ?winner, fun j hj hj64 => ?beyond⟩
  case winner =>
    obtain ⟨w, hw⟩ := bestPair_isSome (isMax := true) (ps := scatGroup (s.core p) f g j) (by simpa [scatGroup] using hpos)
    have hjn : j < f.n.toNat := Nat.lt_of_lt_of_le hj (Nat.div_le_self _ _)
    refine ⟨w, hw, ?_⟩
    simp only [opScat, opSu, hsize]
    rw [Core.lane_setVec _ _ _ _ _ (by omega), if_pos rfl]
    simpa [hjn, hj] using scatWinner_of_bestPair hw
  case beyond =>
    simp only [opScat, opSu]
    rw [Core.lane_setVec _ _ _ _ _ hj64, if_pos rfl]
    simp [hj]

/-- Settles O16: the operands of R135 pass every check, and the effect draws once per element. -/
theorem stochasticInstructionsComplete : Obligations.StochasticInstructionsComplete :=
  ⟨stochasticDrawsComplete, categoricalDrawCompletes⟩

end Sys2Proof.Slice0

/-!
PROOFS. The XB class (R137, R138, R163): the transfer of an XB instruction's slot, and its issue. The statement O17.
-/
namespace Sys2Proof.Slice0
open Sys2Proof Sys2Proof.Machine

/-- An instruction with a transfer, without a fault, which nothing hinders, issues with that transfer. -/
theorem AtCore.answersXfer {i : Instr} {p : Nat} {s : State} {k : KImage} {op : Core → KImage → IsaOp}
    {xf : Core → KImage → Option Xfer} {o : IsaOp} (h : AtCore i p s k)
    (hi : exec i s = noUnit (decide (p < 544)) (s.issueWith p (wordOf i) op xf)) (ho : op (s.core p) k = o) (hf : o.fault = none)
    (hu : Unhindered (s.core p) o.queue o.ranges) :
    Answers i s fun t => OnlyCore s t p (o.effect s.freeCtr (issued (s.core p) o.queue o.cc (xf (s.core p) k))) := by
  subst ho
  refine ⟨{ s.setCore p ((s.core p).issue s.freeCtr (op (s.core p) k) (xf (s.core p) k)) with freeCtr := s.freeCtr + 2 },
    hi.trans ?_, rfl⟩
  rw [noUnit_of (by simpa using h.core), State.issueWith_next s p _ _ _ k h.image h.runs h.word hf hu.room hu.landed]

/-- The reduction code of an XB instruction is one of its direction: 1 to 7 in the space of its operation for XRED, 0 else (R177). -/
def RopFits (dir rop space : Nat) : Prop := (dir ≠ 3 ∧ rop = 0) ∨ (dir = 3 ∧ 1 ≤ rop ∧ rop ≤ 7 ∧ space = ropSpace rop)

section
variable {dir : Nat} {f : XbFields} {c : Core} {k : KImage} {e : PhEntry} (he : k.slotEntry c.logical f.slot.toNat dir = some e)
include he

/-- An XB instruction whose slot, slice range, local-scratch range and reduction code are sound: its checks pass. -/
theorem opXb_of_sound (hrsv : f.rsv = 0) (hrop : RopFits dir f.rop.toNat e.space)
    (hfits : sliceFits e f.rop.toNat (c.sbits f.sm.toNat 23 0) = true) (hin : c.sbits f.sl.toNat 19 0 + e.len ≤ 0x100000) :
    opXb dir f c k = { queue := 4, checks := [⟨false, 0x03⟩, ⟨false, 0x0E⟩], ranges := [(c.sbits f.sl.toNat 19 0, e.len)], cc := 0,
                       tile := 0, effect := fun _ c => c } := by
  have hlen : ¬ lsBytes < c.sbits f.sl.toNat 19 0 + e.len := Nat.not_lt.mpr hin
  simp only [opXb, he, hfits, hrsv]
  rcases hrop with ⟨hdir, hrop⟩ | ⟨rfl, h1, h7, hspace⟩
  · simp [hdir, hrop, hlen]
  · simp [hspace, hlen]
    omega

/-- The transfer that the phase table gives the slot. -/
theorem xbXfer_of_entry : ∃ x, xbXfer dir f c k = some x ∧ x.slice = e.slice ∧ x.dir = dir ∧ x.slot = e.slot ∧ x.len = e.len ∧
    x.ls = c.sbits f.sl.toNat 19 0 ∧ x.sm = c.sbits f.sm.toNat 23 0 ∧ x.rop = f.rop.toNat ∧ x.executed = false ∧ x.landed = 0 ∧
    (dir ≠ 1 → x.data = Memory.readBytes c.ls (c.sbits f.sl.toNat 19 0) e.len) := by
  simp only [xbXfer, he]
  exact ⟨_, rfl, rfl, rfl, rfl, rfl, rfl, rfl, rfl, rfl, rfl, fun hdir => if_neg hdir⟩

end

/-- Settles O17: the three instructions differ in their direction and their reduction code only. -/
theorem crossbarInstructionsIssue : Obligations.CrossbarInstructionsIssue := by
  intro p f s k c e dir i hc hi hat hrsv he hfits hin hu
  subst hc
  obtain ⟨hexec, hrop⟩ : exec i s = noUnit (decide (p < 544)) (s.issueWith p (wordOf i) (opXb dir f) (xbXfer dir f)) ∧
      RopFits dir f.rop.toNat e.space := by
    rcases hi with ⟨rfl, rfl, hrop⟩ | ⟨rfl, rfl, hrop⟩ | ⟨rfl, rfl, h1, h7, hspace⟩
    · exact ⟨rfl, .inl ⟨by decide, by rw [hrop]; rfl⟩⟩
    · exact ⟨rfl, .inl ⟨by decide, by rw [hrop]; rfl⟩⟩
    · refine ⟨rfl, .inr ⟨rfl, h1, h7, hspace.trans ?_⟩⟩
      simp only [ropSpace, ← BitVec.toNat_inj]
      rfl
  obtain ⟨x, hx, hfields⟩ := xbXfer_of_entry he
  have hrange : rangesBad [((s.core p).sbits f.sl.toNat 19 0, e.len)] = false := by
    simpa [rangesBad, lsBytes, Core.sbits] using fun _ => hin
  obtain ⟨t, ht, honly⟩ := hat.answersXfer hexec (opXb_of_sound he hrsv hrop hfits hin) (IsaOp.fault_none _ (by simp) hrange) hu
  exact ⟨t, ht, x, hx ▸ honly, hfields⟩

end Sys2Proof.Slice0

/-!
PROOFS. The SYNC class, and what ends a stall, an instruction or a kernel (R139, R140, R142 to R147, R156): the statement O18.
-/
namespace Sys2Proof.Slice0
open Sys2Proof Sys2Proof.Machine

/-! ## WAIT, XFENCE and BAR -/

/-- A SYNC instruction whose checks pass moves the core past it. -/
theorem AtCore.answersSync {i : Instr} {p : Nat} {s : State} {k : KImage} {checks : Core → List FaultCheck} {stall : Core → Stall}
    (h : AtCore i p s k) (hi : exec i s = noUnit (decide (p < 544)) (s.issueSync p (wordOf i) checks stall))
    (hchecks : ∀ k ∈ checks (s.core p), k.bad = false) :
    Answers i s fun t => t = s.setCore p { s.core p with
      pc := (s.core p).pc + 1, issued := ((s.core p).issued + 1) % 2 ^ 64, stall := stall (s.core p) } := by
  refine ⟨_, hi.trans ?_, rfl⟩
  rw [noUnit_of (by simpa using h.core), State.issueSync_next s p _ _ _ k h.image h.runs h.word (IsaOp.fault_none _ hchecks rfl)]

theorem syncInstructionsComplete : SyncInstructionsComplete := by
  intro p s k c hc
  subst hc
  refine ⟨fun f hat hrest => hat.answersSync rfl (by simp [hrest]), fun hat => hat.answersSync rfl (by simp),
    fun f hat hrest hscope hclash => hat.answersSync rfl ?_⟩
  have hscope : (f.scope == 3#2) = false := by simpa using hscope
  simp [hrest, hscope, hclash]

/-! ## Releases -/

/-- Every core of a list whose stall ends. -/
theorem core_foldl_release (ps : List Nat) (s : State) (q : Nat) :
    (ps.foldl (fun (s : State) q => s.setCore q { s.core q with stall := .none }) s).core q =
      if q ∈ ps then { s.core q with stall := .none } else s.core q := by
  induction ps generalizing s with
  | nil => rfl
  | cons p ps ih =>
    rw [List.foldl_cons, ih, State.core_setCore]
    by_cases hq : q = p
    · subst hq
      simp
    · simp [hq]

/-- A barrier is released once every core of its scope has arrived (R140). -/
theorem releaseBar_of_arrived {s : State} {p id scope n : Nat} (hstall : (s.core p).stall = .bar id scope n)
    (hsize : (s.scopePhys p scope (s.core p).logical).length = s.scopeSize scope)
    (hall : ∀ q ∈ s.scopePhys p scope (s.core p).logical, s.arrived q (s.core q) id scope = true) :
    s.releaseBar p = (s.scopePhys p scope (s.core p).logical).foldl
      (fun (s : State) q => s.setCore q { s.core q with stall := .none }) s := by
  simp only [State.releaseBar, hstall]
  rw [if_pos ⟨hsize, List.all_eq_true.mpr hall⟩]

/-- The oldest instruction of a core in flight, once finished, completes at the head of its queue (R146). -/
theorem completeHead_of_oldest {c : Core} {x : InFlight} {fs : List InFlight} (hflight : c.flight = x :: fs)
    (hx : x.finished = true) : c.completeHead x.queue = { c with flight := fs } := by
  simp [Core.completeHead, hflight, dropHead, hx]

theorem sequencerEventsComplete : SequencerEventsComplete := by
  intro p s c hc hp
  subst hc
  have unit (r : State) : noUnit (decide (p < 544)) r = .next r := noUnit_of (by simpa using hp) r
  refine ⟨fun mask hstall hdrained => ?wait, fun hstall hfenced => ?xfence, fun id scope n hstall hsize hall => ?bar,
    fun q x fs hflight hq hx => ?complete, fun hst hended hflight => ?drained⟩
  case wait =>
    refine ⟨_, unit _, ?_⟩
    simp [hstall, hdrained]
  case xfence =>
    refine ⟨_, unit _, ?_⟩
    simp [hstall, hfenced]
  case bar =>
    refine ⟨s.releaseBar p, unit _, fun q => ?_⟩
    rw [releaseBar_of_arrived hstall hsize hall, core_foldl_release]
  case complete =>
    subst hq
    refine ⟨_, unit _, ?_⟩
    rw [completeHead_of_oldest hflight hx]
  case drained =>
    refine ⟨_, unit _, ?_⟩
    simp [hst, hended, hflight, coreHalf]

/-- Settles O18: the SYNC instructions issue, and each event finds its condition met. -/
theorem sequencingCompletes : Obligations.SequencingCompletes := ⟨syncInstructionsComplete, sequencerEventsComplete⟩

end Sys2Proof.Slice0

/-!
PROOFS. KERNEL_LOAD and KERNEL_UNLOAD (R153 to R158, R468, R702): the statement O31.
-/
namespace Sys2Proof.Slice0
open Sys2Proof Sys2Proof.Machine

/-! ## Host commands that the device takes (R465) -/

/-- A command that the device takes has four records reserved and then its own effect. -/
theorem Taken.hostCmd {s : State} {h : Head} {op c : Nat} (ht : Taken s h op c) (k : State → State) :
    s.hostCmd h op c k = k (taken s h op) := by
  simp [State.hostCmd, ht.takes, ht.passes, Slice0.taken]

theorem Taken.onSet {s : State} {h : Head} {op c : Nat} (ht : Taken s h op c) (r : State) : onSet h r = .next r :=
  noUnit_of (by simpa using ht.set) r

/-! ## Cores changed by their number -/

/-- Every entry below n that `sel` names changed by `f`. -/
theorem get_foldl_set {α : Type} [DecidableEq α] (d : α) (sel : Nat → Bool) (f : Nat → α → α) (m : Map α) (n p : Nat) :
    Map.get d ((List.range n).foldl (fun m q => if sel q then Map.set d m q (f q (Map.get d m q)) else m) m) p =
      if p < n ∧ sel p = true then f p (Map.get d m p) else Map.get d m p := by
  induction n with
  | zero => simp
  | succ n ih =>
    rw [List.range_succ, List.foldl_append, List.foldl_cons, List.foldl_nil]
    by_cases hp : p = n
    · subst hp
      by_cases hsel : sel p = true
      · simp [hsel, ih]
      · simp [hsel, ih]
    · have hlt : p < n + 1 ↔ p < n := by omega
      simp only [hlt, ← ih]
      split
      · rw [Map.get_set, if_neg hp]
      · rfl

theorem core_onCores (s : State) (sel : Nat → Bool) (f : Nat → Core → Core) (p : Nat) :
    (s.onCores sel f).core p = if p < 544 ∧ sel p = true then f p (s.core p) else s.core p := by
  rw [State.core, State.onCores, get_foldl_set]
  rfl

theorem core_of_cores {s t : State} (h : t.cores = s.cores) (p : Nat) : t.core p = s.core p := congrArg (Map.get Core.init · p) h

/-- The images of a core in a state whose cores of some halves have theirs changed. -/
theorem images_of_cores {s t : State} {halves : Nat} (f : List Nat → List Nat)
    (h : t.cores = (s.onCores (inHalves halves) fun _ x => { x with images := f x.images }).cores) {p : Nat} (hp : p < 544) :
    (t.core p).images = if bit halves (p / 272) then f (s.core p).images else (s.core p).images := by
  rw [core_of_cores h, core_onCores]
  by_cases h : bit halves (p / 272) = true <;> simp [inHalves, coreHalf, hp, h]

/-! ## KERNEL_LOAD -/

/-- What a write leaves in LPDDR5X depends on its bytes and on the generations of the lines and of the contexts only (R192). -/
theorem lpxMem_lpxWrite_congr {s t : State} (hmem : t.lpxMem = s.lpxMem) (hgen : t.lineGen = s.lineGen) (hsec : t.sec = s.sec)
    (dpa kind : Nat) (b : List Byte) : (t.lpxWrite dpa kind b).lpxMem = (s.lpxWrite dpa kind b).lpxMem := by
  have hgenAt (a : Nat) : t.genAt a = s.genAt a := by
    unfold State.genAt
    rw [hsec]
  simp only [State.lpxWrite, hmem, hgen, hgenAt]

@[simp] theorem lpxWrite_frame (s : State) (dpa kind : Nat) (b : List Byte) :
    (s.lpxWrite dpa kind b).kernels = s.kernels ∧ (s.lpxWrite dpa kind b).jobs = s.jobs ∧
      (s.lpxWrite dpa kind b).cores = s.cores := ⟨rfl, rfl, rfl⟩

@[simp] theorem addImage_fields (s : State) (halves : Nat) (k : KImage) :
    (s.addImage halves k).kernels = s.kernels ++ [k] ∧ (s.addImage halves k).jobs = s.jobs ∧
      (s.addImage halves k).lpxMem = s.lpxMem ∧ (s.addImage halves k).lineGen = s.lineGen ∧ (s.addImage halves k).sec = s.sec ∧
      (s.addImage halves k).cores = (s.onCores (inHalves halves) fun _ x => { x with images := x.images ++ [k.handle] }).cores := by
  unfold State.addImage
  simp only [State.onCores_kernels, State.onCores_jobs, State.onCores_lpxMem, State.onCores_lineGen, State.onCores_sec, and_self]

theorem job_of_jobs {s t : State} (h : t.jobs = s.jobs) (c : Nat) : t.job c = s.job c := congrArg (Map.find · c) h

/-- The state with a copy of an image in KERNEL_AREA and the image resident. -/
def placed (s : State) (c : Nat) (j : Job) (k : KImage) (dpa size : Nat) (b : List Byte) : State :=
  ((s.setJob c (j.addBlock dpa size k.handle)).addImage j.halves k).lpxWrite dpa 1 b

theorem placed_fields (s : State) (c : Nat) (j : Job) (k : KImage) (dpa size : Nat) (b : List Byte) :
    (placed s c j k dpa size b).kernels = s.kernels ++ [k] ∧
      (placed s c j k dpa size b).job c = some (j.addBlock dpa size k.handle) ∧
      (placed s c j k dpa size b).lpxMem = (s.lpxWrite dpa 1 b).lpxMem ∧
      ∀ p, p < 544 → ((placed s c j k dpa size b).core p).images =
        if bit j.halves (p / 272) then (s.core p).images ++ [k.handle] else (s.core p).images := by
  unfold placed
  refine ⟨by simp, ?job, lpxMem_lpxWrite_congr (by simp) (by simp) (by simp) dpa 1 b, fun p hp => ?images⟩
  case job => rw [job_of_jobs (s := s.setJob c (j.addBlock dpa size k.handle)) (by simp), State.job_setJob, if_pos rfl]
  case images => exact images_of_cores (s := s.setJob c (j.addBlock dpa size k.handle)) (· ++ [k.handle]) (by simp) hp

/-- A sound image without a table conflict, for which the stores and KERNEL_AREA have room, is placed. -/
theorem loadKernel_of_sound {s : State} {c host size dpa : Nat} {h : Head} {j : Job} {b : List Byte} {k : KImage}
    (hj : s.job c = some j) (hb : s.hostRead host size = some b) (hok : imgOk b size = true) (hheader : phaseHeaderOk b = true)
    (hk : k = imgParse b j.freeHandle c size)
    (htable : ∀ t, k.table = some t → tableConflict t.period j.split (maskHalf j.halves) [] 0 (t.entries.map phEntry) = none)
    (hhandle : k.handle ≤ 0xFFFF) (hstores : s.storesHold c j.halves k = true) (hplace : j.place size = some dpa) :
    s.loadKernel c h host size = (placed s c j k dpa size b).done h 0x80 0 k.handle := by
  subst hk
  unfold placed
  simp only [State.loadKernel, hj, hb, hok, hheader, hstores, hplace]
  cases ht : (imgParse b j.freeHandle c size).table with
  | none => simp [Nat.not_lt.mpr hhandle]
  | some t => simp [htable t ht, Nat.not_lt.mpr hhandle]

/-! ## KERNEL_UNLOAD -/

/-- The job with the copy of an image marked for release after the next cutting. -/
def releaseCopy (j : Job) (handle : Nat) : Job :=
  { j with area := j.area.map fun a => if a.handle = handle then { a with rel := some j.nextCut } else a }

/-- The state without an image: its copy is marked for release, and no core of the halves keeps it. -/
def unloaded (s : State) (c handle : Nat) (j : Job) : State :=
  { (s.setJob c (releaseCopy j handle)).onCores (inHalves j.halves) (fun _ x => { x with images := x.images.filter (· != handle) }) with
    kernels := s.kernels.filter fun k => !(k.ctx == c && k.handle == handle) }

theorem images_unloaded (s : State) (c handle : Nat) (j : Job) {p : Nat} (hp : p < 544) :
    ((unloaded s c handle j).core p).images =
      if bit j.halves (p / 272) then (s.core p).images.filter (· != handle) else (s.core p).images := by
  have hcores : (unloaded s c handle j).cores = ((s.setJob c (releaseCopy j handle)).onCores (inHalves j.halves)
      fun _ x => { x with images := x.images.filter (· != handle) }).cores := by
    rw [unloaded]
  exact images_of_cores (List.filter (· != handle)) hcores hp

/-- A resident image that no entry of the step program names is unloaded. -/
theorem unloadKernel_of_unnamed {s : State} {c handle : Nat} {h : Head} {j : Job} (hj : s.job c = some j)
    (himage : (s.image c handle).isSome = true) (hprogram : ∀ e ∈ j.program, e.handle ≠ handle) :
    s.unloadKernel c h handle = (unloaded s c handle j).done h 0x81 0 0 := by
  have hnone : (s.image c handle).isNone = false := by rwa [Option.isNone_eq_false_iff]
  have hany : (j.program.any fun e => e.handle == handle) = false := by simpa using hprogram
  simp only [State.unloadKernel, hj, hnone, hany, State.onCores_kernels, State.setJob_kernels]
  rfl

/-! ## The commands -/

/-- Settles O31: both commands are taken, find their checks passed, and complete. -/
theorem kernelCommandsComplete : Obligations.KernelCommandsComplete := by
  intro s h j hj
  refine ⟨fun host size b k dpa ht hb hok hheader hk htable hhandle hstores hplace => ?load, fun handle ht himage hprogram => ?unload⟩
  case load =>
    have hload := loadKernel_of_sound (s := taken s h 0x80) (h := h) hj hb hok hheader hk htable hhandle hstores hplace
    obtain ⟨hkernels, hjob, hmem, himages⟩ := placed_fields (taken s h 0x80) h.set j k dpa size b
    refine ⟨_, (ht.onSet _).trans (congrArg _ ((ht.hostCmd _).trans hload)), hkernels, hjob, hmem.trans ?_, himages⟩
    exact lpxMem_lpxWrite_congr rfl rfl rfl dpa 1 b
  case unload =>
    have hunload := unloadKernel_of_unnamed (s := taken s h 0x81) (h := h) hj himage hprogram
    exact ⟨_, (ht.onSet _).trans (congrArg _ ((ht.hostCmd _).trans hunload)), rfl, fun p hp => images_unloaded _ h.set handle j hp⟩

end Sys2Proof.Slice0

/-!
PROOFS. The steps of a crossbar transfer (R163, R167, R168, R172): the statement O19.
-/
namespace Sys2Proof.Slice0
open Sys2Proof Sys2Proof.Machine

/-! ## The oldest transfer in flight -/

section
variable {c : Core} {q cc : Nat} {x : Xfer} {fs : List InFlight} {sel : Xfer → Bool}

/-- The transfer at the head of the queue is the first that a condition it meets selects. -/
theorem find_xfers_of_oldest (hc : c.flight = ⟨q, cc, some x⟩ :: fs) (hx : sel x = true) : c.xfers.find? sel = some x := by
  simp [Core.xfers, hc, hx]

/-- The transfer at the head of the queue is the one that a condition it meets changes. -/
theorem updXfer_of_oldest (hc : c.flight = ⟨q, cc, some x⟩ :: fs) (hx : sel x = true) (g : Xfer → Xfer) :
    updXfer sel g c.flight = ⟨q, cc, some (g x)⟩ :: fs := by
  simp [hc, updXfer, hx]

end

/-! ## A slot at its slice (R172, R176) -/

theorem sliceSlot_of_write {s : State} {x : Xfer} (k : Nat) (hspace : x.space = 0) (hdir : x.dir = 2) :
    s.sliceSlot x k = ([], { s with
      slices := Memory.writeBytes s.slices (sliceKey x.slice (x.sm + x.rot + 256 * k))
        (bytesAt x.data (256 * k) (Nat.min 256 (x.len - 256 * k))) }) := by
  simp [State.sliceSlot, Xfer.part, hspace, hdir]

theorem sliceSlot_of_read {s : State} {x : Xfer} (k : Nat) (hspace : x.space = 0) (hdir : x.dir = 1) :
    s.sliceSlot x k = (Memory.readBytes s.slices (sliceKey x.slice (x.sm + x.rot + 256 * k)) (Nat.min 256 (x.len - 256 * k)), s) := by
  simp [State.sliceSlot, Xfer.part, hspace, hdir]

/-- Slot `accessed` of the oldest transfer reaches its slice, and what it returns joins the bytes fetched. -/
theorem accessSlot_of_oldest {s : State} {p cc : Nat} {x : Xfer} {fs : List InFlight} {bs : List Byte} {u : State}
    (hc : (s.core p).flight = ⟨4, cc, some x⟩ :: fs) (hx : x.due = true) (hslot : s.sliceSlot x x.accessed = (bs, u))
    (hu : u.core p = s.core p) :
    s.accessSlot p = u.setCore p { s.core p with
      flight := ⟨4, cc, some { x with accessed := x.accessed + 1, got := x.got ++ bs }⟩ :: fs } := by
  simp only [State.accessSlot, find_xfers_of_oldest hc hx, hslot, hu, updXfer_of_oldest hc hx]

/-- Without an error XB_SLICE_ACCESS is the access of the oldest transfer's slot. -/
theorem xbSliceAccess_of_oldest {s : State} {p cc : Nat} {x : Xfer} {fs : List InFlight} (hp : p < 544)
    (hc : (s.core p).flight = ⟨4, cc, some x⟩ :: fs) (hx : x.due = true) :
    exec (.xbSliceAccess p .clean) s = .next (s.accessSlot p) := by
  have hplace : s.slotPlace p = some (x.slice, x.sm + 256 * x.accessed) := by
    simp only [State.slotPlace, find_xfers_of_oldest hc hx]
  refine (noUnit_of (by simpa using hp) _).trans ?_
  rw [hplace]

/-! ## The five steps -/

/-- Settles O19: every step selects the oldest transfer. -/
theorem crossbarTransferSteps : Obligations.CrossbarTransferSteps := by
  intro p s c x fs cc key size hc hp hflight hkey hsize
  subst hc hkey hsize
  have unit (r : State) : noUnit (decide (p < 544)) r = .next r := noUnit_of (by simpa using hp) r
  refine ⟨fun hexec hslot => ?execute, fun hexec hleft hspace hdir => ?write, fun hexec hleft hspace hdir => ?read,
    fun hdir hleft => ?land, fun hdir hleft => ?ack⟩
  case execute =>
    have hfind := find_xfers_of_oldest (sel := fun x => !x.executed) hflight (by simp [hexec])
    have hupd := updXfer_of_oldest (sel := fun x => !x.executed) hflight (by simp [hexec])
    refine ⟨_, unit _, ?_⟩
    simp only [hfind, hupd, coreHalf, hslot, if_true]
  case write =>
    have hx : x.due = true := by simp [Xfer.due, hexec, hleft]
    refine ⟨_, xbSliceAccess_of_oldest hp hflight hx, ?_⟩
    rw [accessSlot_of_oldest hflight hx (sliceSlot_of_write _ hspace hdir) rfl, List.append_nil]
    exact ⟨rfl, by rw [State.core_setCore, if_pos rfl], rfl⟩
  case read =>
    have hx : x.due = true := by simp [Xfer.due, hexec, hleft]
    refine ⟨_, xbSliceAccess_of_oldest hp hflight hx, ?_⟩
    rw [accessSlot_of_oldest hflight hx (sliceSlot_of_read _ hspace hdir) rfl]
    exact ⟨rfl, rfl, by rw [State.core_setCore, if_pos rfl]; rfl⟩
  case land =>
    have hx : x.landable = true := by simp [Xfer.landable, hdir, hleft]
    refine ⟨_, unit _, ?_⟩
    simp only [find_xfers_of_oldest hflight hx, updXfer_of_oldest hflight hx, Xfer.part]
  case ack =>
    have hx : x.ackable = true := by simp [Xfer.ackable, hdir, hleft]
    refine ⟨_, unit _, ?_⟩
    simp only [updXfer_of_oldest hflight hx]

end Sys2Proof.Slice0

/-!
PROOFS. The events of the step engine (R193 to R198, R237, R288, R316, R644, R645): the statement O40.
-/
namespace Sys2Proof.Slice0
open Sys2Proof Sys2Proof.Machine

/-- A command that names a context of the device answers its next state. -/
theorem onCtx_next {c : Nat} (hc : c < 16) {r t : State} (h : r = t) : onCtx c r = .next t :=
  (noUnit_of (by simpa using hc) r).trans (congrArg _ h)

/-! ## Entries and beds of a job -/

theorem job_setJob_same (s : State) (c : Nat) (j : Job) : (s.setJob c j).job c = some j := by
  rw [State.job_setJob, if_pos rfl]

theorem stream_setStream (j : Job) (i k : Nat) (t : Stream) : (j.setStream i t).stream k = if k = i then t else j.stream k := by
  simp [Job.stream, Job.setStream]

/-- A job with one bed set keeps the other. -/
theorem bed_setBed {b : Nat} (hb : b < 2) (j : Job) (x : Bed) :
    (j.setBed b x).bed b = x ∧ (j.setBed b x).bed (1 - b) = j.bed (1 - b) := by
  obtain rfl | rfl : b = 0 ∨ b = 1 := by omega
  · exact ⟨rfl, rfl⟩
  · exact ⟨rfl, rfl⟩

/-! ## Writes to LPDDR5X beside the jobs -/

theorem writeSpans_setJob (s : State) (c : Nat) (j : Job) (ps : List (Nat × Nat)) (bs : List Byte) :
    (s.setJob c j).writeSpans ps bs = (s.writeSpans ps bs).setJob c j := by
  induction ps generalizing s bs with
  | nil => rfl
  | cons p ps ih => exact ih (s.lpxWrite p.1 1 (bs.take p.2)) (bs.drop p.2)

theorem putChain_setJob (s : State) (c : Nat) (j : Job) (m : GModel) (t : Stream) (sweep : Nat) (vals : List (List Nat)) :
    (s.setJob c j).putChain m t sweep vals = (s.putChain m t sweep vals).setJob c j :=
  writeSpans_setJob s c j _ _

theorem linkChunks_setJob (s : State) (c : Nat) (j k : Job) (cs : List Nat) :
    (s.setJob c j).linkChunks k cs = (s.linkChunks k cs).setJob c j := by
  induction cs generalizing s with
  | nil => rfl
  | cons d ds ih =>
    cases ds with
    | nil => rfl
    | cons e es => exact ih (s.lpxWrite (k.chunkDpa d) 1 (toLe 8 (k.chunkDpa e)))

theorem putEntries_setJob (s : State) (c : Nat) (j k : Job) (cs : List Nat) (base p : Nat) (vs : List Nat) :
    (s.setJob c j).putEntries k cs base p vs = (s.putEntries k cs base p vs).setJob c j := by
  induction vs generalizing s p with
  | nil => rfl
  | cons v vs ih =>
    exact ih (s.lpxWrite (k.chunkDpa (cs.getD ((p - base) / chunkEntries) 0) + 8 + 4 * (p % chunkEntries)) 1 (toLe 4 v)) (p + 1)

theorem writePending_setJob (s : State) (c : Nat) (j k : Job) (t : Stream) (p : Nat) (toks : List Nat) :
    (s.setJob c j).writePending k t p toks = (s.writePending k t p toks).setJob c j := by
  rw [State.writePending, linkChunks_setJob, putEntries_setJob, State.writePending]

/-! ## PROMPT_FETCH_DONE (R237, R316) -/

section
variable {s : State} {c i : Nat} {j : Job} (hj : s.job c = some j)
include hj

/-- While the job is at work an entry that waits for its fetch alone takes it: a chain its image, another stream its tokens. -/
theorem promptFetchDone_of_waiting (hc : c < 16) (hwork : j.atWork = true) (hst : (j.stream i).st = 1)
    (hfetched : (j.stream i).fetched = false) (hseed : (j.stream i).seedWait = false) :
    exec (.promptFetchDone c i) s = .next (if (j.stream i).kind = 3 then s.chainFetched c i else s.promptFetched c i) := by
  refine onCtx_next hc ?_
  simp [hj, hwork, hst, hfetched, hseed]

/-- The tokens read become the pending list of the entry. -/
theorem promptFetched_of_read {bs : List Byte} (hread : s.hostRead (j.stream i).fetch.1 (4 * (j.stream i).fetch.2) = some bs) :
    ∃ u : State, s.promptFetched c i = u.setJob c (j.setStream i { j.stream i with
      pending := (List.range (j.stream i).fetch.2).map (fun n => leAt bs (4 * n) 4 % 2 ^ 20), fetched := true }) := by
  simp only [State.promptFetched, hj, hread, writePending_setJob]
  exact ⟨_, rfl⟩

/-- The first values of a chain are written into its pages. -/
theorem chainFetched_of_read {m : GModel} {bs : List Byte} (hm : j.model (j.stream i).model = some m)
    (himage : if initNeedsImage (j.stream i).fetch.2 (j.stream i).clampLayers then
      s.hostRead (j.stream i).fetch.1 m.imageBytes = some bs else bs = []) :
    s.chainFetched c i = (s.putChain m (j.stream i) 0
      (m.initialValues (j.stream i).fetch.2 (j.stream i) (sporeKey j.seed (j.stream i).seed) i bs)).setJob c
        (j.setStream i { j.stream i with fetched := true }) := by
  have hread : (if initNeedsImage (j.stream i).fetch.2 (j.stream i).clampLayers then s.hostRead (j.stream i).fetch.1 m.imageBytes
      else some []) = some bs := by
    split at himage
    next h => rw [if_pos h, himage]
    next h => rw [if_neg h, himage]
  simp only [State.chainFetched, hj, hm, hread, putChain_setJob]

end

/-! ## LPX_TRANSFER_DONE (R194 to R198) -/

/-- A transfer of the context that is found completes and leaves the list. -/
theorem lpxTransferDone_of_found {s : State} {c : Nat} {x : Streamer} (hc : c < 16)
    (hx : (s.streamers.find? fun t => t.id == x.id && t.ctx == c) = some x) :
    exec (.lpxTransferDone c x.id .clean) s = .next (s.transferDone x) := by
  refine onCtx_next hc ?_
  rw [hx]

/-- The state whose list lacks the transfers of an id. -/
def withoutTransfer (s : State) (x : Streamer) : State := { s with streamers := s.streamers.filter fun y => y.id != x.id }

section
variable {s : State} {j : Job} {x : Streamer} (hj : s.job x.ctx = some j)
include hj

/-- A page that is neither SEALED nor SUSPECT takes what a transfer stores (R197). -/
theorem transferDone_of_store (hdir : x.toSlice = false) (hsealed : (j.page (x.dpa / 0x40000)).st ≠ 2)
    (hsuspect : (j.page (x.dpa / 0x40000)).st ≠ 3) :
    s.transferDone x = (withoutTransfer s x).lpxWrite x.dpa 2 (Memory.readBytes s.slices x.slice x.size) := by
  have hjob : (withoutTransfer s x).job x.ctx = some j := hj
  calc s.transferDone x = if x.toSlice then (withoutTransfer s x).loadDone x else (withoutTransfer s x).storeDone x := rfl
    _ = (withoutTransfer s x).storeDone x := by rw [hdir]; rfl
    _ = _ := by simp only [State.storeDone, hjob, hsealed, hsuspect, or_self, if_false]; rfl

/-- A page that needs no check and is not SUSPECT delivers what a transfer loads (R198). -/
theorem transferDone_of_load (hdir : x.toSlice = true) (hcheck : j.needsCheck (x.dpa / 0x40000) = false)
    (hsuspect : (j.page (x.dpa / 0x40000)).st ≠ 3) :
    s.transferDone x = { withoutTransfer s x with slices := Memory.writeBytes s.slices x.slice (s.lpxRead x.dpa x.size) } := by
  have hjob : (withoutTransfer s x).job x.ctx = some j := hj
  have hsuspect : ((j.page (x.dpa / 0x40000)).st == 3) = false := beq_eq_false_iff_ne.mpr hsuspect
  calc s.transferDone x = if x.toSlice then (withoutTransfer s x).loadDone x else (withoutTransfer s x).storeDone x := rfl
    _ = (withoutTransfer s x).loadDone x := if_pos hdir
    _ = _ := by simp only [State.loadDone, hjob, hcheck, hsuspect, Bool.or_self, Bool.false_eq_true, if_false]; rfl

end

/-! ## BED_VERIFY_DONE (R288) -/

theorem bedVerifyDone_of_verifying {s : State} {c b : Nat} {j : Job} (hc : c < 16) (hj : s.job c = some j) (hb : b < 2)
    (hwork : j.atWork = true) (hst : (j.bed b).st = 2) : exec (.bedVerifyDone c b) s = .next (s.endVerify c b) := by
  refine onCtx_next hc ?_
  simp [hj, hb, hwork, hst]

theorem copyShards_jobs (s : State) (j : Job) (b : Nat) (m : Manifest) : (s.copyShards j b m).jobs = s.jobs := by
  refine foldl_jobs _ _ _ fun u e => ?_
  split
  · split <;> rfl
  · rfl

theorem endCommit_of_none {bed : Bed} (h : bed.commit = none) (s : State) (c status entry : Nat) :
    s.endCommit c bed status entry = s := by
  simp [State.endCommit, h]

/-- A commit that succeeds changes its deferred completion only. -/
theorem job_endCommit_of_success {s : State} {c : Nat} {j : Job} (hj : s.job c = some j) (bed : Bed) (entry : Nat) :
    ∃ ds, (s.endCommit c bed 0 entry).job c = some { j with deferred := ds } := by
  cases hcommit : bed.commit with
  | none => exact ⟨j.deferred, by rw [endCommit_of_none hcommit, hj]⟩
  | some h =>
    simp only [State.endCommit, hcommit, hj, if_true]
    exact ⟨_, job_setJob_same ..⟩

section
variable {s : State} {c b : Nat} {j : Job} (hj : s.job c = some j)
include hj

/-- A bed that passes holds its manifest; without a mirror nothing else of the job but the deferred commit changes. -/
theorem job_endVerify_of_good {m : Manifest} (hverify : s.verifyBed j b = .good m) (hmirror : j.params.bedMirror = false) :
    ∃ ds, (s.endVerify c b).job c = some { j.setBed b { j.bed b with st := 3, commit := none, manifest := some m } with
      deferred := ds } := by
  simp only [State.endVerify, hj, hverify, hmirror, Bool.false_and]
  refine job_endCommit_of_success ?_ _ _
  exact (job_of_jobs (State.postJob_jobs ..) c).trans (job_setJob_same ..)

/-- A bed that fails without a commit is LOADING again, and the failure is posted. -/
theorem endVerify_of_bad {st entry : Nat} (hverify : s.verifyBed j b = .bad st entry) (hcommit : (j.bed b).commit = none) :
    s.endVerify c b = (s.setJob c (j.setBed b { j.bed b with st := 1, commit := none, manifest := none })).postJob c 0x0402 st
      (toLe 1 b ++ toLe 1 0 ++ toLe 2 (j.bed b).epoch ++ toLe 4 entry) := by
  simp only [State.endVerify, hj, hverify, endCommit_of_none hcommit]

end

/-- What an event posted about a job is, among those held. -/
theorem postJob_held (s : State) (c code status : Nat) (payload : List Byte) :
    ∃ e : Event, (s.postJob c code status payload).host.held = s.host.held ++ [e] ∧ e.code = code ∧ e.status = status ∧
      e.payload = payload := ⟨_, rfl, rfl, rfl, rfl⟩

/-! ## PEER_WAIT_LIMIT (R644) -/

theorem endRing_jobs (s : State) (c : Nat) : (s.endRing c).jobs = s.jobs := by
  unfold State.endRing
  dsimp only
  split <;> simp

/-- A running job that ends is retained with the status of its end. -/
theorem job_endJob_of_running {s : State} {c : Nat} {j : Job} (hj : s.job c = some j) (hst : j.st = .running) (status : Nat) :
    (s.endJob c status).job c = some (j.endWith status) := by
  have hended : ¬ j.st = .ended := by simp [hst]
  have hwaits : ¬ j.st = .waitSeed := by simp [hst]
  have hregrows : ¬ j.st = .regrow := by simp [hst]
  simp only [State.endJob, hj, if_neg hended, if_neg hwaits, if_neg hregrows]
  rw [job_of_jobs (endRing_jobs ..)]
  split <;> exact job_setJob_same ..

theorem startDump_jobs (s : State) (d : DumpCause) : (s.startDump d).jobs = s.jobs := by
  rw [State.startDump, apply_ite State.jobs]
  exact ite_self _

/-- A job-fatal error ends a running job. -/
theorem job_jobFatal_of_running {s : State} {c : Nat} {j : Job} (hj : s.job c = some j) (hst : j.st = .running)
    (source kind status addr detail : Nat) : (s.jobFatal c source kind status addr detail).job c = some (j.endWith status) :=
  (job_of_jobs (startDump_jobs ..) c).trans (job_endJob_of_running (s := s.logKind ..) hj hst status)

/-- A running job that waits for a peer ends at the limit. -/
theorem peerWaitLimit_of_waiting {s : State} {c rank : Nat} {j : Job} (hc : c < 16) (hj : s.job c = some j) (hst : j.st = .running)
    (hwaits : s.waitsOn c j rank = true) : exec (.peerWaitLimit c rank) s =
      .next ((s.postJob c 0x0A09 0x000A (toLe 2 rank)).jobFatal c (s.schedulerSource c) 0x17 0x000A 0 rank) := by
  refine onCtx_next hc ?_
  simp [hj, hst, hwaits]

/-! ## STEP_WATCHDOG_EXPIRE (R645) -/

/-- A step beyond the limit is reported once. -/
theorem stepWatchdogExpire_of_beyond {s : State} {c : Nat} {j : Job} {r : StepRun} (hc : c < 16) (hj : s.job c = some j)
    (hrun : j.run = some r) (hwdog : s.ras.wdog ≠ 0) (hfirst : j.overdue = false)
    (hbeyond : s.ras.wdog * 2 ^ 20 < j.elapsed - j.refreshStall - j.retryStall - j.stepStartNominal) :
    exec (.stepWatchdogExpire c) s = .next ((s.setJob c { j with overdue := true }).postJob c 0x0A08 0 (toLe 8 r.number)) := by
  refine onCtx_next hc ?_
  simp only [hj, hrun, hfirst, decide_eq_false hwdog, decide_eq_false (Nat.not_le.mpr hbeyond), Bool.or_self, Bool.false_eq_true,
    if_false]

/-! ## The events -/

/-- Settles O40: each event finds its condition met. -/
theorem stepEventsComplete : Obligations.StepEventsComplete := by
  intro c s j hc hj
  refine ⟨fun i bs hwork hst hfetched hseed hkind hread => ?prompt, fun i m bs hwork hst hfetched hseed hkind hm himage => ?chain,
    fun x hx hdir hsealed hsuspect => ?store, fun x hx hdir hcheck hsuspect => ?load, fun ctrl rate hctrl hst => ?refresh,
    fun b m hb hwork hst hverify hmirror => ?good, fun b st entry hb hwork hst hverify hcommit => ?bad,
    fun rank hst hwaits => ?peer, fun r hrun hwdog hfirst hbeyond => ?watchdog⟩
  case prompt =>
    obtain ⟨u, hu⟩ := promptFetched_of_read hj hread
    refine ⟨_, promptFetchDone_of_waiting hj hc hwork hst hfetched hseed, ?_⟩
    rw [if_neg hkind, hu]
    refine ⟨_, job_setJob_same .., fun k hk => ?_, ?_⟩
    · rw [stream_setStream, if_neg hk]
    · rw [stream_setStream, if_pos rfl]
  case chain =>
    refine ⟨_, promptFetchDone_of_waiting hj hc hwork hst hfetched hseed, ?_⟩
    rw [if_pos hkind, chainFetched_of_read hj hm himage]
    exact ⟨job_setJob_same .., rfl⟩
  case store =>
    obtain rfl : x.ctx = c := by simpa using List.find?_some hx
    refine ⟨_, lpxTransferDone_of_found hc hx, ?_⟩
    rw [transferDone_of_store hj hdir hsealed hsuspect]
    exact ⟨rfl, rfl, lpxMem_lpxWrite_congr rfl rfl rfl ..⟩
  case load =>
    obtain rfl : x.ctx = c := by simpa using List.find?_some hx
    refine ⟨_, lpxTransferDone_of_found hc hx, ?_⟩
    rw [transferDone_of_load hj hdir hcheck hsuspect]
    exact ⟨rfl, rfl, rfl⟩
  case refresh =>
    refine ⟨_, noUnit_of (by simpa using hctrl) _, ?_⟩
    rw [if_neg (not_not_intro hst)]
    exact ⟨fun k => State.lpxCtrl_setLpx .., rfl, rfl⟩
  case good =>
    obtain ⟨ds, hjob⟩ := job_endVerify_of_good hj hverify hmirror
    exact ⟨_, bedVerifyDone_of_verifying hc hj hb hwork hst, _, hjob, bed_setBed hb j _⟩
  case bad =>
    obtain ⟨e, hheld, hcode, hstatus, -⟩ := postJob_held (s.setJob c (j.setBed b { j.bed b with
      st := 1, commit := none, manifest := none })) c 0x0402 st (toLe 1 b ++ toLe 1 0 ++ toLe 2 (j.bed b).epoch ++ toLe 4 entry)
    obtain ⟨hbed, hother⟩ := bed_setBed hb j { j.bed b with st := 1, commit := none, manifest := none }
    refine ⟨_, bedVerifyDone_of_verifying hc hj hb hwork hst, ?_⟩
    rw [endVerify_of_bad hj hverify hcommit]
    exact ⟨_, e, (job_of_jobs (State.postJob_jobs ..) c).trans (job_setJob_same ..), by rw [hbed], hother, hheld, hcode, hstatus⟩
  case peer =>
    have hjob : (s.postJob c 0x0A09 0x000A (toLe 2 rank)).job c = some j := hj
    exact ⟨_, peerWaitLimit_of_waiting hc hj hst hwaits, _, job_jobFatal_of_running hjob hst .., rfl, rfl⟩
  case watchdog =>
    obtain ⟨e, hheld, hcode, -, hpayload⟩ := postJob_held (s.setJob c { j with overdue := true }) c 0x0A08 0 (toLe 8 r.number)
    exact ⟨_, stepWatchdogExpire_of_beyond hc hj hrun hwdog hfirst hbeyond,
      (job_of_jobs (State.postJob_jobs ..) c).trans (job_setJob_same ..), e, hheld, hcode, hpayload⟩

end Sys2Proof.Slice0

/-!
PROOFS. The Spore known-answer port, the view and the lifecycle register (R224 to R227, R542, R547, R548): the statement O46.
-/
namespace Sys2Proof.Slice0
open Sys2Proof Sys2Proof.Machine

/-! ## Register writes and events of no context (R478, R539) -/

/-- A write of a register that takes it at once is the register's own effect. -/
theorem barWrite32_of_writable {s : State} {ofs : Nat} (hw : Writable s ofs) (v : W32) (k : State → State) :
    s.barWrite32 ofs v k = k s := by
  obtain ⟨hanswers, hscrub⟩ := hw
  simp [State.barWrite32, State.barGate, hanswers, hscrub]

/-- An event of the device is posted to every state with the same held events and the same clock. -/
theorem posts_postDev {s u : State} (hhost : u.host = s.host) (hboot : u.boot = s.boot) (source code status : Nat)
    (payload : List Byte) : Posts s (u.postDev source code status payload) code status payload := by
  refine ⟨_, congrArg (fun h : HostPort => h.held ++ _) hhost, rfl, rfl, rfl, rfl, ?_⟩
  exact congrArg (fun b : Boot => b.edges / 6 % 2 ^ 64) hboot

/-! ## The known-answer port (R224 to R227) -/

/-- GO latches the key and the counter of a port that is not BUSY. -/
theorem spgKatGo_of_idle {s : State} (hw : Writable s 0x90040) (hidle : s.spg.busy = false) :
    exec .spgKatGo s = .next { s with spg := { s.spg with
      busy := true, runKey := s.spg.keyHi ++ s.spg.keyLo, runCtr := s.spg.ctrHi ++ s.spg.ctrLo } } := by
  have hgo : bit (1#32).toNat 0 = true := by decide
  refine congrArg _ ((barWrite32_of_writable hw ..).trans ?_)
  simp only [State.writeKat, hgo, hidle, Bool.not_true, Bool.or_self, Bool.false_eq_true, if_false]

/-- The 64-bit output registers together hold the block. -/
theorem high_append_low (b : W128) : (b >>> 64).setWidth 64 ++ b.setWidth 64 = b := by
  refine BitVec.eq_of_getLsbD_eq fun i hi => ?_
  rw [BitVec.getLsbD_append]
  by_cases h : i < 64
  · simp [h]
  · have hhigh : i - 64 < 64 := by omega
    have hplace : 64 + (i - 64) = i := by omega
    simp [h, hhigh, hplace]

/-- A port that is BUSY gives the block of the inputs it latched, and DONE is set in this nc. -/
theorem spgKatDone_of_busy {s : State} (hbusy : s.spg.busy = true) :
    exec .spgKatDone s = .next { s.setsBit 0x90044 with spg := { s.spg with
      busy := false, done := true, outLo := (sporeBlock s.spg.runKey s.spg.runCtr).setWidth 64
      outHi := (sporeBlock s.spg.runKey s.spg.runCtr >>> 64).setWidth 64, u24 := sporeU24 s.spg.runKey s.spg.runCtr
      gumbel := sporeGumbel (sporeU24 s.spg.runKey s.spg.runCtr) } } := by
  show execSpgKatDone s = _
  simp [execSpgKatDone, hbusy]

/-! ## The view (R542) -/

theorem exec_secViewWrite_of_writable {s : State} (hw : Writable s 0x60030) (v : W32) :
    exec (.secViewWrite v) s = .next (s.writeView v) :=
  congrArg _ (barWrite32_of_writable hw ..)

theorem writeView_zero (s : State) {v : W32} (hzero : bits v.toNat 3 0 = 0) :
    s.writeView v = { s with sec := { s.sec with view := 0, viewKey := 0 } } := by
  rw [State.writeView, if_pos hzero]

theorem writeView_of_key {s : State} {v : W32} (hc : bits v.toNat 3 0 ≠ 0) (hst : (s.ctx (bits v.toNat 3 0)).st ≠ 0)
    (hkey : (s.ctx (bits v.toNat 3 0)).viewKey = s.sec.viewKey) :
    s.writeView v = { s with sec := { s.sec with view := bits v.toNat 3 0, viewKey := 0 } } := by
  simp [State.writeView, hc, hst, hkey]

/-- A context that is FREE, or whose key was not presented, gives no view: the failure is counted and VIEW_DENIED posted. -/
theorem writeView_of_refused {s : State} {v : W32} (hc : bits v.toNat 3 0 ≠ 0)
    (hrefused : (s.ctx (bits v.toNat 3 0)).st = 0 ∨ (s.ctx (bits v.toNat 3 0)).viewKey ≠ s.sec.viewKey) :
    s.writeView v = ({ s with sec := { s.sec with
      view := 0, viewKey := 0, viewFails := satAdd 8 s.sec.viewFails 1 } } : State).postDev 0 0x0809 0
        (toLe 1 (bits v.toNat 3 0)) := by
  rw [State.writeView, if_neg hc, if_neg]
  rcases hrefused with h | h <;> simp [h]

/-! ## Lifecycle (R547, R548) -/

theorem exec_secLcGo_of_writable {s : State} (hw : Writable s 0x6000C) (v : W32) :
    exec (.secLcGo v) s = .next (s.writeLcCmd v) :=
  congrArg _ (barWrite32_of_writable hw ..)

section
variable {s : State} {v : W32} (hgo : bit v.toNat 2 = true) (hisland : s.sec.islandFail = false)
include hgo hisland

/-- A transition that the table allows, while every context but the host's is FREE, and that is authorised where it must be, becomes
pending: it is posted and measured, and the nonce is drawn again. -/
theorem writeLcCmd_of_allowed (hallowed : lcAllowed s.fuses.lc (bits v.toNat 1 0) = true)
    (hfree : ∀ e ∈ s.sec.ctxs, e.1 = 0 ∨ e.2.st = 0)
    (hauth : bits v.toNat 1 0 = 2 → s.lcAuthorised (bits v.toNat 1 0) = true) :
    s.writeLcCmd v = ((({ s with sec := { s.sec with lcTarget := bits v.toNat 1 0, lcPend := true } } : State).postDev 0 0x0808 0
      (toLe 1 s.fuses.lc ++ toLe 1 (bits v.toNat 1 0))).measure 4).askNonce := by
  have hnone : (s.sec.ctxs.any fun kv => kv.1 != 0 && kv.2.st != 0) = false := by
    rw [List.any_eq_false]
    intro e he
    rcases hfree e he with h | h <;> simp [h]
  have hsigned : (bits v.toNat 1 0 != 2 || s.lcAuthorised (bits v.toNat 1 0)) = true := by
    by_cases h : bits v.toNat 1 0 = 2
    · rw [hauth h, Bool.or_true]
    · rw [bne_iff_ne.mpr h, Bool.true_or]
  simp only [State.writeLcCmd, hgo, hisland, hallowed, hnone, hsigned, Bool.not_true, Bool.not_false, Bool.or_self, Bool.and_self,
    Bool.false_eq_true, if_false, if_true]

/-- An attempt that the table or the authorisation refuses draws the nonce again and does nothing else. -/
theorem writeLcCmd_of_refused (hrefused : lcAllowed s.fuses.lc (bits v.toNat 1 0) = false ∨
      (bits v.toNat 1 0 = 2 ∧ s.lcAuthorised (bits v.toNat 1 0) = false)) :
    s.writeLcCmd v = s.askNonce := by
  have hno : (lcAllowed s.fuses.lc (bits v.toNat 1 0) && !(s.sec.ctxs.any fun kv => kv.1 != 0 && kv.2.st != 0) &&
      (bits v.toNat 1 0 != 2 || s.lcAuthorised (bits v.toNat 1 0))) = false := by
    rcases hrefused with h | ⟨htarget, h⟩
    · simp [h]
    · rw [htarget] at h
      simp [htarget, h]
  simp only [State.writeLcCmd, hgo, hisland, hno, Bool.not_true, Bool.or_self, Bool.false_eq_true, if_false]

end

/-- Settles O46: each register answers by the equation of its case. -/
theorem securityRegistersComplete : Obligations.SecurityRegistersComplete := by
  intro s v
  refine ⟨spgKatGo_of_idle, fun hbusy => ?kat, fun hw hzero => ?noView, ?view, ?denied, ?pending, ?refused⟩
  case kat => exact ⟨_, spgKatDone_of_busy hbusy, rfl, rfl, high_append_low _, rfl, rfl, rfl⟩
  case noView => rw [exec_secViewWrite_of_writable hw, writeView_zero s hzero]
  case view =>
    rintro _ hw rfl hc hst hkey
    rw [exec_secViewWrite_of_writable hw, writeView_of_key hc hst hkey]
  case denied =>
    rintro _ hw rfl hc hrefused
    refine ⟨_, exec_secViewWrite_of_writable hw v, ?_⟩
    rw [writeView_of_refused hc hrefused]
    exact ⟨State.postDev_sec .., posts_postDev rfl rfl ..⟩
  case pending =>
    rintro _ hw hgo hisland rfl hallowed hfree hauth
    refine ⟨_, exec_secLcGo_of_writable hw v, ?_⟩
    rw [writeLcCmd_of_allowed hgo hisland hallowed hfree hauth]
    exact ⟨rfl, rfl, rfl, posts_postDev rfl rfl .., rfl⟩
  case refused =>
    rintro _ hw hgo hisland rfl hrefused
    rw [exec_secLcGo_of_writable hw, writeLcCmd_of_refused hgo hisland hrefused]
    rfl

end Sys2Proof.Slice0

/-!
PROOFS. What a command of the boundary group meets at a boundary, and what the stream, set, close, cut and step-program commands make of it
(R239, R241 to R244, R250, R252, R253, R412, R473, R705): the statement O36.
-/
namespace Sys2Proof.Slice0
open Sys2Proof Sys2Proof.Machine

/-! ## A command of the boundary group at a boundary (R290, R466, R703) -/

/-- A read of host memory depends on its bytes and on the ranges whose reads fail only. -/
theorem hostRead_congr {s t : State} (hmem : t.host.mem = s.host.mem) (hbad : t.host.bad = s.host.bad) (a n : Nat) :
    t.hostRead a n = s.hostRead a n := by
  have hfails : t.host.fails a n = s.host.fails a n := by rw [HostPort.fails, HostPort.fails, hbad]
  rw [State.hostRead, State.hostRead, hfails, hmem]

theorem onJob_of_job {s : State} {c : Nat} {j : Job} (hj : s.job c = some j) (f : Job → Job) : s.onJob c f = s.setJob c (f j) := by
  simp only [State.onJob, hj]

/-- A flip posts an event and changes the job: host memory stays. -/
theorem hostRead_flip (s : State) (c a n : Nat) : (s.flip c).hostRead a n = s.hostRead a n := by
  unfold State.flip
  split
  · rfl
  · split
    · rfl
    · split <;> rfl

/-- What a boundary does before its commands leaves host memory alone. -/
theorem hostRead_beforeCommands (s : State) (c a n : Nat) : (beforeCommands s c).hostRead a n = s.hostRead a n := by
  have hhost : (beforeCommands s c).host = (s.flip c).host := State.onJob_host ..
  rw [hostRead_congr (congrArg _ hhost) (congrArg _ hhost), hostRead_flip]

/-- With one command, the boundary's actions are its effect between what comes before and after it. -/
theorem boundaryCommand_of_standing {s : State} {c : Nat} {k : Job} (hk : s.job c = some k) (hstands : k.atBoundary = true)
    (hwaiting : k.waiting = []) (hclosing : k.closing = none) (cmd : Instr) (d : List Byte) :
    s.boundaryCommand c cmd d = afterCommands ((beforeCommands s c).applyWaiting c ⟨cmd, d⟩) c := by
  simp only [State.boundaryCommand, hk, hstands, hwaiting, hclosing, List.isEmpty_nil, Option.isNone_none, Bool.and_self, if_true]
  rfl

section
variable {s v : State} {h : Head} {op : Nat} {j : Job} (hb : AtBoundary s h op v j)
include hb

theorem AtBoundary.boundaryCommand (cmd : Instr) (d : List Byte) :
    (Slice0.taken s h op).boundaryCommand h.set cmd d = afterCommands (v.applyWaiting h.set ⟨cmd, d⟩) h.set := by
  obtain ⟨k, hk, hstands, hwaiting, hclosing⟩ := hb.stands
  rw [hb.before]
  exact boundaryCommand_of_standing (s := Slice0.taken s h op) hk hstands hwaiting hclosing cmd d

/-- A command that passes the checks of R465, and that acts on what waits for the boundary, takes its effect. -/
theorem AtBoundary.takesEffect {cmd : Instr} {d : List Byte} {k : State → State} {t : State} {P : State → Prop}
    (hexec : exec cmd s = onSet h (s.hostCmd h op h.set k))
    (hcmd : k (Slice0.taken s h op) = (Slice0.taken s h op).boundaryCommand h.set cmd d)
    (happly : v.applyWaiting h.set ⟨cmd, d⟩ = t) (hP : P t) : TakesEffect cmd h s P := by
  refine ⟨t, ?_, hP⟩
  calc exec cmd s = .next (s.hostCmd h op h.set k) := hexec.trans (hb.taken.onSet _)
    _ = .next ((Slice0.taken s h op).boundaryCommand h.set cmd d) := congrArg _ ((hb.taken.hostCmd k).trans hcmd)
    _ = .next (afterCommands t h.set) := congrArg _ (happly ▸ hb.boundaryCommand cmd d)

/-- A command without parameter data. -/
theorem AtBoundary.takesEffect_cmd {cmd : Instr} {t : State} {P : State → Prop}
    (hexec : exec cmd s = onSet h (s.boundaryCmd h op cmd)) (happly : v.applyWaiting h.set ⟨cmd, []⟩ = t) (hP : P t) :
    TakesEffect cmd h s P :=
  hb.takesEffect hexec rfl happly hP

/-- A command whose parameter data is read. -/
theorem AtBoundary.takesEffect_data {cmd : Instr} {data : State → Option (List Byte)} {d : List Byte} {t : State} {P : State → Prop}
    (hexec : exec cmd s = onSet h (s.boundaryData h op cmd data)) (hd : data (Slice0.taken s h op) = some d)
    (happly : v.applyWaiting h.set ⟨cmd, d⟩ = t) (hP : P t) : TakesEffect cmd h s P := by
  refine hb.takesEffect hexec ?_ happly hP
  rw [hd]
  rfl

theorem AtBoundary.hostRead (a n : Nat) : v.hostRead a n = s.hostRead a n := by
  rw [hb.before, hostRead_beforeCommands]
  rfl

end

/-! ## Changes of a job's pools (R231, R418) -/

/-- A job without its pools of chunks and pages. Two jobs that agree in it differ in their pools only. -/
def withoutPools (j : Job) : Job :=
  { j with chunks := [], chunkRel := [], dirtyChunkW := [], pages := [], pageRel := [], dirtyPageW := [], dirtyPages := [] }

theorem withoutPools_foldl {α : Type} (f : Job → α → Job) (hf : ∀ j a, withoutPools (f j a) = withoutPools j) (l : List α) (j : Job) :
    withoutPools (l.foldl f j) = withoutPools j := by
  induction l generalizing j with
  | nil => rfl
  | cons a l ih => exact (ih (f j a)).trans (hf j a)

theorem withoutPools_takeChunks (n : Nat) (j : Job) : withoutPools (j.takeChunks n).2 = withoutPools j := by
  induction n generalizing j with
  | zero => rfl
  | succ n ih => exact ih j.takeChunk.2

theorem withoutPools_releaseChunks (j : Job) (cs : List Nat) : withoutPools (j.releaseChunks cs) = withoutPools j := rfl

theorem withoutPools_unrefPage (j : Job) (p : Nat) : withoutPools (j.unrefPage p) = withoutPools j := by
  unfold Job.unrefPage
  dsimp only
  split <;> rfl

section
variable {j k : Job} (hk : withoutPools k = withoutPools j)
include hk

theorem stream_of_withoutPools (i : Nat) : k.stream i = j.stream i :=
  (congrArg (Job.stream · i) hk :)

theorem deferred_of_withoutPools : k.deferred = j.deferred := (congrArg Job.deferred hk :)

theorem stepNext_of_withoutPools : k.stepNext = j.stepNext := (congrArg Job.stepNext hk :)

theorem nextCut_of_withoutPools : k.nextCut = j.nextCut := (congrArg Job.nextCut hk :)

theorem epoch_of_withoutPools : k.epoch = j.epoch := (congrArg Job.epoch hk :)

/-- An entry set after a change of the pools is the one entry that differs. -/
theorem sameEntries_setStream_of_withoutPools (i : Nat) (t : Stream) : SameEntries j (k.setStream i t) (· = i) := by
  intro x hx
  rw [stream_setStream, if_neg hx, stream_of_withoutPools hk]

end

theorem stream_setStream_same (j : Job) (i : Nat) (t : Stream) : (j.setStream i t).stream i = t := by
  rw [stream_setStream, if_pos rfl]

/-! ## Lists and masks written to LPDDR5X (R231, R234) -/

theorem writePages_setJob (s : State) (c : Nat) (j k : Job) (t : Stream) (n : Nat) :
    (s.setJob c j).writePages k t n = (s.writePages k t n).setJob c j := by
  rw [State.writePages, linkChunks_setJob, putEntries_setJob, State.writePages]

theorem writeMasks_setJob (s : State) (c : Nat) (j k : Job) (i : Nat) (masks : List W32) :
    (s.setJob c j).writeMasks k i masks = (s.writeMasks k i masks).setJob c j := by
  unfold State.writeMasks
  split <;> rfl

theorem writeMasks_ens (s : State) (j : Job) (i : Nat) (masks : List W32) : (s.writeMasks j i masks).ens = s.ens := by
  unfold State.writeMasks
  split <;> rfl

/-! ## OPEN and SCORE (R239, R241, R242) -/

/-- The entry that OPEN or SCORE takes in job `k` for its parameters, with the chunks of its pending list. -/
def openedEntry (k : Job) (kind i n tok : Nat) (p : StreamParams) (chunks : List Nat) : Stream :=
  { Stream.free with
    kind := kind, st := if bit p.oflags 2 then 0 else 1, gen := ((k.stream i).gen + 1) % 4096, parent := 0xFFFFFFFF
    seed := if bit p.oflags 2 then 0#64 else BitVec.ofNat 64 p.seed, maxLen := p.maxLen
    scoreFrom := if kind = 2 then p.scoreFrom else 0, pin := bit p.oflags 0, hold := bit p.oflags 1, seedDev := bit p.oflags 2
    seedWait := bit p.oflags 2, epoch := k.epoch, stopSet := p.stopSet, parkSet := p.parkSet, temp := p.temp, topP := p.topP
    topK := p.topK, pendChunks := chunks, masks := p.masks, user := BitVec.ofNat 64 p.user, fetch := (tok, n) }

/-- The job in which OPEN or SCORE has taken its entry and waits for it to become READY. -/
def openedJob (j : Job) (kind op : Nat) (h : Head) (i n tok : Nat) (p : StreamParams) : Job :=
  ((j.takeChunks (chunksFor 0 n)).2.setStream i
    (openedEntry (j.takeChunks (chunksFor 0 n)).2 kind i n tok p (j.takeChunks (chunksFor 0 n)).1)).deferReady h op [i]

/-- The state with that job and the entry's masks. -/
def openedState (v : State) (c : Nat) (k : Job) (i : Nat) (p : StreamParams) : State := (v.setJob c k).writeMasks k i p.masks

theorem openedState_fields (v : State) (c : Nat) (k : Job) (i : Nat) (p : StreamParams) :
    (openedState v c k i p).job c = some k ∧ (openedState v c k i p).ens = v.ens := by
  rw [openedState, writeMasks_setJob]
  exact ⟨job_setJob_same .., writeMasks_ens ..⟩

/-- An OPEN or SCORE that passes its checks takes the entry, and asks for a seed of the device when it is to have one. -/
theorem applyOpen_of_status {v : State} {c kind i n : Nat} {j : Job} {d : List Byte} {p : StreamParams} (hj : v.job c = some j)
    (hp : p = parseStreamParams d) (hst : v.openStatus j kind i n p = 0) (op : Nat) (h : Head) (tok : Nat) :
    v.applyOpen c kind op h i n tok d =
      if bit p.oflags 2 then (openedState v c (openedJob j kind op h i n tok p) i p).askSeed c i
      else openedState v c (openedJob j kind op h i n tok p) i p := by
  subst hp
  simp only [State.applyOpen, hj, hst]
  rfl

theorem applyOpen_fields {v : State} {c kind i n : Nat} {j : Job} {d : List Byte} {p : StreamParams} (hj : v.job c = some j)
    (hp : p = parseStreamParams d) (hst : v.openStatus j kind i n p = 0) (op : Nat) (h : Head) (tok : Nat) :
    (v.applyOpen c kind op h i n tok d).job c = some (openedJob j kind op h i n tok p) ∧
      (v.applyOpen c kind op h i n tok d).ens.queue =
        v.ens.queue ++ if bit p.oflags 2 then [⟨.objectSeed c i, 0, 8, none, false, []⟩] else [] := by
  obtain ⟨hjob, hens⟩ := openedState_fields v c (openedJob j kind op h i n tok p) i p
  rw [applyOpen_of_status hj hp hst]
  split
  · exact ⟨hjob, congrArg (Ens.queue · ++ _) hens⟩
  · exact ⟨hjob, (congrArg Ens.queue hens).trans (List.append_nil _).symm⟩

/-- What the entry holds, and that no other changes. -/
theorem stream_openedJob (j : Job) (kind op : Nat) (h : Head) (i n tok : Nat) (p : StreamParams) :
    ∃ chunks, (openedJob j kind op h i n tok p).stream i = openedEntry j kind i n tok p chunks := by
  have hk := withoutPools_takeChunks (chunksFor 0 n) j
  refine ⟨(j.takeChunks (chunksFor 0 n)).1, (stream_setStream_same ..).trans ?_⟩
  simp only [openedEntry, stream_of_withoutPools hk, epoch_of_withoutPools hk]

theorem sameEntries_openedJob (j : Job) (kind op : Nat) (h : Head) (i n tok : Nat) (p : StreamParams) :
    SameEntries j (openedJob j kind op h i n tok p) (· = i) :=
  sameEntries_setStream_of_withoutPools (withoutPools_takeChunks (chunksFor 0 n) j) i _

theorem deferred_openedJob (j : Job) (kind op : Nat) (h : Head) (i n tok : Nat) (p : StreamParams) :
    (openedJob j kind op h i n tok p).deferred = j.deferred ++ [⟨h, op, 0, j.stepNext, [], none, [i], 0⟩] := by
  have hk := withoutPools_takeChunks (chunksFor 0 n) j
  rw [← deferred_of_withoutPools hk, ← stepNext_of_withoutPools hk]
  rfl

/-! ## FORK (R239, R252, R253) -/

theorem length_eraseDups_le {α : Type} [BEq α] (l : List α) : l.eraseDups.length ≤ l.length := by
  match l with
  | [] => exact Nat.le_refl 0
  | a :: as =>
    rw [List.eraseDups_cons]
    have hle : (as.filter fun b => !b == a).length ≤ as.length := List.length_filter_le ..
    exact Nat.succ_le_succ (Nat.le_trans (length_eraseDups_le _) hle)
termination_by l.length
decreasing_by exact Nat.lt_succ_of_le hle

/-- A list from which no duplicate is erased has none. -/
theorem nodup_of_length_eraseDups {α : Type} [BEq α] [LawfulBEq α] {l : List α} (h : l.eraseDups.length = l.length) : l.Nodup := by
  induction l with
  | nil => exact List.nodup_nil
  | cons a as ih =>
    rw [List.eraseDups_cons, List.length_cons, List.length_cons, Nat.add_right_cancel_iff] at h
    have hkept : as.filter (fun b => !b == a) = as :=
      List.filter_sublist.eq_of_length_le (h ▸ length_eraseDups_le _)
    have ha : a ∉ as := fun hmem => by simpa using (List.filter_eq_self.mp hkept) a hmem
    rw [hkept] at h
    exact List.nodup_cons.mpr ⟨ha, ih h⟩

/-- What a FORK of mode `m` makes of the entry of child `i`, for the job before it. -/
structure IsChild (j : Job) (p m i : Nat) (seed : W64) (u : Stream) : Prop where
  st : u.st = if m = 1 then 0 else 2
  seedWait : u.seedWait = (m == 1)
  gen : u.gen = ((j.stream i).gen + 1) % 4096
  parent : u.parent = p
  pos : u.pos = (j.stream p).pos
  pending : u.pending = (j.stream p).pending
  seed : u.seed = seed

theorem IsChild.congr {j k : Job} {p m i : Nat} {seed : W64} {u : Stream} (hu : IsChild k p m i seed u)
    (hp : k.stream p = j.stream p) (hi : k.stream i = j.stream i) : IsChild j p m i seed u := by
  obtain ⟨hst, hwait, hgen, hparent, hpos, hpending, hseed⟩ := hu
  rw [hp] at hpos hpending
  rw [hi] at hgen
  exact ⟨hst, hwait, hgen, hparent, hpos, hpending, hseed⟩

/-- What a child's lists take from the pools (R253): the job that is left, the chunks of its tokens and of its page list, the pages it shares
with its parent, and the page of its own. -/
structure ForkLists where
  job : Job
  pendChunks : List Nat
  pageChunks : List Nat
  shared : List Nat
  own : List Nat

/-- A page has one sharer more. -/
def sharePage (j : Job) (p : Nat) : Job := j.setPage p { j.page p with refs := (j.page p).refs + 1 }

/-- The page that a child takes for a copy of its parent's OPEN page. -/
def ownPage (j : Job) (t : Stream) : List Nat × Job := if j.openTail t then ([j.takePage.1], j.takePage.2) else ([], j)

def forkLists (j : Job) (t : Stream) : ForkLists :=
  let a := j.takeChunks (chunksFor t.pos (t.pos + t.pending.length))
  let b := a.2.takeChunks (chunksFor 0 t.pages.length)
  let shared := if b.2.openTail t then t.pages.dropLast else t.pages
  let own := ownPage (shared.foldl sharePage b.2) t
  ⟨own.2, a.1, b.1, shared, own.1⟩

theorem withoutPools_ownPage (j : Job) (t : Stream) : withoutPools (ownPage j t).2 = withoutPools j := by
  unfold ownPage
  split <;> rfl

theorem withoutPools_forkLists (j : Job) (t : Stream) : withoutPools (forkLists j t).job = withoutPools j :=
  calc withoutPools (forkLists j t).job = _ := withoutPools_ownPage ..
    _ = _ := withoutPools_foldl sharePage (fun _ _ => rfl) ..
    _ = _ := withoutPools_takeChunks ..
    _ = withoutPools j := withoutPools_takeChunks ..

/-- The entry of child `i` of a parent `t`, with its lists. -/
def childEntry (t : Stream) (x : ForkLists) (p m i : Nat) (seed : W64) : Stream :=
  { t with
    st := if m == 1 then 0 else 2, gen := ((x.job.stream i).gen + 1) % 4096, parent := p, seed := seed, seedDev := m == 1
    seedWait := m == 1, hold := false, readyStep := x.job.stepNext, pendChunks := x.pendChunks, pageChunks := x.pageChunks
    pages := x.shared ++ x.own, fetched := false }

/-- The written positions of the parent's OPEN page copied into the child's own page. -/
def copyOpenPage (s : State) (k : Job) (t : Stream) (own : List Nat) : State :=
  match k.openPage t, own.head? with
  | some (src, n), some dst => s.lpxWrite (dst * 0x40000) 2 (s.lpxRead (src * 0x40000) n)
  | _, _ => s

/-- The state with the job in which the child has its entry, and with the child's lists and masks written. -/
def childState (s : State) (c : Nat) (k : Job) (t u : Stream) (own : List Nat) (i : Nat) : State :=
  (((copyOpenPage (s.setJob c k) k t own).writePending k u u.pos u.pending).writePages k u 0).writeMasks k i u.masks

theorem copyOpenPage_setJob (s : State) (c : Nat) (j k : Job) (t : Stream) (own : List Nat) :
    copyOpenPage (s.setJob c j) k t own = (copyOpenPage s k t own).setJob c j := by
  unfold copyOpenPage
  split <;> rfl

theorem job_childState (s : State) (c : Nat) (k : Job) (t u : Stream) (own : List Nat) (i : Nat) :
    (childState s c k t u own i).job c = some k := by
  rw [childState, copyOpenPage_setJob, writePending_setJob, writePages_setJob, writeMasks_setJob, job_setJob_same]

/-- The job in which child `i` of `p` has its entry. -/
def forkedJob (j : Job) (p m i : Nat) (seed : W64) : Job :=
  (forkLists j (j.stream p)).job.setStream i (childEntry (j.stream p) (forkLists j (j.stream p)) p m i seed)

/-- A child has its entry, lists and masks, and asks for a seed of the device when it is to have one. -/
theorem forkChild_of_job {s : State} {c : Nat} {j : Job} (hj : s.job c = some j) (p m i : Nat) (seed : W64) :
    ∃ u own, s.forkChild c p m (i, seed) = if m == 1 then (childState s c (forkedJob j p m i seed) (j.stream p) u own i).askSeed c i
      else childState s c (forkedJob j p m i seed) (j.stream p) u own i := by
  refine ⟨childEntry (j.stream p) (forkLists j (j.stream p)) p m i seed, (forkLists j (j.stream p)).own, ?_⟩
  unfold State.forkChild
  rw [hj]
  rfl

theorem job_forkChild {s : State} {c : Nat} {j : Job} (hj : s.job c = some j) (p m i : Nat) (seed : W64) :
    (s.forkChild c p m (i, seed)).job c = some (forkedJob j p m i seed) := by
  obtain ⟨u, own, hfork⟩ := forkChild_of_job hj p m i seed
  rw [hfork]
  split <;> exact job_childState ..

/-- A child is made of its parent's entry; nothing else of the job changes but the pools. -/
theorem forkedJob_fields (j : Job) (p m i : Nat) (seed : W64) :
    (forkedJob j p m i seed).deferred = j.deferred ∧ SameEntries j (forkedJob j p m i seed) (· = i) ∧
      IsChild j p m i seed ((forkedJob j p m i seed).stream i) := by
  have hpools := withoutPools_forkLists j (j.stream p)
  refine ⟨(deferred_of_withoutPools hpools :), sameEntries_setStream_of_withoutPools hpools i _, ?child⟩
  rw [forkedJob, stream_setStream_same]
  refine ⟨?st, rfl, ?gen, rfl, rfl, rfl, rfl⟩
  case st => simp only [childEntry, beq_iff_eq]
  case gen => simp only [childEntry, stream_of_withoutPools hpools]

/-- Children made one after another, none of which is the parent or stands twice in the list. -/
theorem job_foldl_forkChild {c p m : Nat} (ks : List (Nat × W64)) (hnodup : (ks.map Prod.fst).Nodup) (hparent : p ∉ ks.map Prod.fst)
    {s : State} {j : Job} (hj : s.job c = some j) :
    ∃ k, (ks.foldl (fun (s : State) x => s.forkChild c p m x) s).job c = some k ∧ k.deferred = j.deferred ∧
      SameEntries j k (· ∈ ks.map Prod.fst) ∧ ∀ x ∈ ks, IsChild j p m x.1 x.2 (k.stream x.1) := by
  induction ks generalizing s j with
  | nil => exact ⟨j, hj, rfl, fun _ _ => rfl, fun x hx => absurd hx List.not_mem_nil⟩
  | cons x ks ih =>
    obtain ⟨i, seed⟩ := x
    rw [List.map_cons, List.nodup_cons] at hnodup
    rw [List.map_cons, List.mem_cons, not_or] at hparent
    obtain ⟨hfirst, hnodup⟩ := hnodup
    obtain ⟨hpi, hparent⟩ := hparent
    obtain ⟨hdeferred, hsame, hchild⟩ := forkedJob_fields j p m i seed
    obtain ⟨k, hk, hkdeferred, hksame, hkchild⟩ := ih hnodup hparent (job_forkChild hj p m i seed)
    refine ⟨k, hk, hkdeferred.trans hdeferred, fun y hy => ?same, fun y hy => ?child⟩
    case same =>
      obtain ⟨hyi, hy⟩ := not_or.mp (mt List.mem_cons.mpr hy)
      exact (hksame y hy).trans (hsame y hyi)
    case child =>
      rcases List.mem_cons.mp hy with rfl | hy
      · rwa [hksame i hfirst]
      · have hne : y.1 ≠ i := fun h => hfirst (List.mem_map.mpr ⟨y, hy, h⟩)
        exact (hkchild y hy).congr (hsame p hpi) (hsame y.1 hne)

/-- A status is 0 only when the check in front passes. -/
theorem passes_of_ite {bad : Prop} [Decidable bad] {st rest : Nat} (hst : st ≠ 0) (h : (if bad then st else rest) = 0) :
    ¬ bad ∧ rest = 0 := by
  split at h
  · exact absurd h hst
  · exact ⟨‹_›, h⟩

/-- The children of a FORK that passes its checks: there are some, all different, and none of them is the parent. -/
theorem forkChildren_of_status {v : State} {j : Job} {p g m n : Nat} {kids : List Nat} (hst : v.forkStatus j p g m n kids = 0) :
    n ≠ 0 ∧ kids.Nodup ∧ p ∉ kids := by
  obtain ⟨-, hst⟩ := passes_of_ite (by decide) hst
  obtain ⟨-, hst⟩ := passes_of_ite (by decide) hst
  obtain ⟨hkids, hst⟩ := passes_of_ite (by decide) hst
  obtain ⟨hcount, -⟩ := passes_of_ite (by decide) hst
  simp only [Bool.or_eq_true, not_or, Bool.not_eq_true, Bool.not_eq_false', List.all_eq_true, Bool.and_eq_true,
    bne_iff_ne, decide_eq_false_iff_not] at hkids hcount
  obtain ⟨⟨-, hkids⟩, hlength⟩ := hkids
  obtain ⟨⟨⟨hcount, -⟩, -⟩, -⟩ := hcount
  exact ⟨hcount, nodup_of_length_eraseDups (Decidable.not_not.mp hlength), fun hp => (hkids p hp).2 rfl⟩

/-- What a FORK waits for: a next cutting, or the seeds of its children. -/
theorem deferReady_fork (j : Job) (h : Head) {m n : Nat} (hn : n ≠ 0) (d : List Byte) :
    (j.deferReady h 0x12 (if m = 1 then forkChildren n d else [])).deferred = j.deferred ++
      [⟨h, 0x12, 0, j.stepNext, [], if m = 1 then none else some j.nextCut, if m = 1 then forkChildren n d else [], 0⟩] := by
  have hsome : (forkChildren n d).isEmpty = false := by
    rw [List.isEmpty_eq_false_iff, forkChildren, Ne, List.map_eq_nil_iff, List.range_eq_nil]
    exact hn
  by_cases hm : m = 1 <;> simp [Job.deferReady, hm, hsome]

/-- The children of a FORK with their seeds. -/
def seededChildren (m n : Nat) (seed : W64) (d : List Byte) : List (Nat × W64) :=
  (forkChildren n d).zipIdx.map fun k => (k.1, forkSeed m seed n k.2 d)

theorem map_fst_seededChildren (m n : Nat) (seed : W64) (d : List Byte) : (seededChildren m n seed d).map Prod.fst = forkChildren n d := by
  rw [seededChildren, List.map_map]
  exact List.zipIdx_map_fst 0 _

theorem mem_seededChildren {m n x i : Nat} {d : List Byte} (hx : (forkChildren n d)[x]? = some i) (seed : W64) :
    (i, forkSeed m seed n x d) ∈ seededChildren m n seed d :=
  List.mem_map.mpr ⟨(i, x), List.mk_mem_zipIdx_iff_getElem?.mpr hx, rfl⟩

/-- A FORK that passes its checks gives every child its entry. -/
theorem applyFork_of_status {v : State} {c : Nat} {j : Job} {p g m n : Nat} {d : List Byte} (hj : v.job c = some j)
    (hst : v.forkStatus j p g m n (forkChildren n d) = 0) (h : Head) :
    ∃ k, (v.applyFork c h p g m n d).job c = some k ∧ SameEntries j k (· ∈ forkChildren n d) ∧
      k.deferred = j.deferred ++
        [⟨h, 0x12, 0, j.stepNext, [], if m = 1 then none else some j.nextCut, if m = 1 then forkChildren n d else [], 0⟩] ∧
      ∀ x i, (forkChildren n d)[x]? = some i → IsChild j p m i (forkSeed m (j.stream p).seed n x d) (k.stream i) := by
  obtain ⟨hn, hnodup, hparent⟩ := forkChildren_of_status hst
  have hfork : v.applyFork c h p g m n d = (seededChildren m n (j.stream p).seed d).foldl
      (fun (s : State) x => s.forkChild c p m x) (v.setJob c (j.deferReady h 0x12 (if m = 1 then forkChildren n d else []))) := by
    simp only [State.applyFork, hj, hst, onJob_of_job hj]
    rfl
  obtain ⟨k, hk, hdeferred, hsame, hchild⟩ := job_foldl_forkChild (p := p) (m := m) (seededChildren m n (j.stream p).seed d)
    (by rwa [map_fst_seededChildren]) (by rwa [map_fst_seededChildren])
    (job_setJob_same v c (j.deferReady h 0x12 (if m = 1 then forkChildren n d else [])))
  rw [map_fst_seededChildren] at hsame
  exact ⟨k, hfork ▸ hk, hsame, hdeferred.trans (deferReady_fork j h hn d),
    fun x i hx => (hchild _ (mem_seededChildren hx _)).congr rfl rfl⟩

/-! ## APPEND, RESUME, CLOSE, SET_LOAD and JOB_CLOSE (R241, R243, R244, R250, R705) -/

/-- A command that names an entry of the tray under its generation, in a state that it allows, passes. -/
theorem nameStatus_of_allowed {j : Job} {i g : Nat} {allowed : Stream → Bool} (hi : i < j.trayEntries) (hgen : (j.stream i).gen = g)
    (hallowed : allowed (j.stream i) = true) : j.nameStatus i g allowed = 0 := by
  simp [Job.nameStatus, Nat.not_le.mpr hi, hgen, hallowed]

theorem stream_defer (j : Job) (h : Head) (op i : Nat) : (j.defer h op).stream i = j.stream i := rfl

theorem deferred_defer_of_withoutPools {j k : Job} (hk : withoutPools k = withoutPools j) (h : Head) (op : Nat) :
    (k.defer h op).deferred = j.deferred ++ [⟨h, op, 0, j.stepNext, [], some j.nextCut, [], 0⟩] := by
  rw [← deferred_of_withoutPools hk, ← stepNext_of_withoutPools hk, ← nextCut_of_withoutPools hk]
  rfl

/-- The tokens of an APPEND or a SET_LOAD. -/
def tokensOf (n : Nat) (bs : List Byte) : List Nat := (List.range n).map fun x => leAt bs (4 * x) 4 % 2 ^ 20

/-- The chunks that the list of an entry takes for `n` tokens more. -/
def appendChunks (j : Job) (i n : Nat) : List Nat × Job :=
  j.takeChunks (chunksFor (j.stream i).pos ((j.stream i).pos + (j.stream i).pending.length + n) - (j.stream i).pendChunks.length)

/-- The job in which the tokens of an APPEND have joined the pending list of their entry. -/
def appendedJob (j : Job) (h : Head) (i n : Nat) (toks : List Nat) : Job :=
  ((appendChunks j i n).2.setStream i { j.stream i with
    pending := (j.stream i).pending ++ toks, pendChunks := (j.stream i).pendChunks ++ (appendChunks j i n).1 }).defer h 0x13

/-- The job in which a RESUME has made its entry READY. -/
def resumedJob (j : Job) (h : Head) (i : Nat) : Job := (j.makeReady i).defer h 0x14

/-- The job in which a CLOSE has freed its entry. -/
def closedJob (j : Job) (h : Head) (i : Nat) : Job := (((j.leaveRun i).freeStream i).closeWaits i).defer h 0x15

section
variable {v : State} {c : Nat} {j : Job} (hj : v.job c = some j) (h : Head)
include hj

theorem job_applyAppend_of_status {i g n tok : Nat} {bs : List Byte} (hst : j.appendStatus i g n = 0)
    (hread : v.hostRead tok (4 * n) = some bs) : (v.applyAppend c h i g n tok).job c = some (appendedJob j h i n (tokensOf n bs)) := by
  simp only [State.applyAppend, hj, hst, hread, writePending_setJob]
  exact job_setJob_same ..

theorem applyResume_of_parked {i g : Nat} (hi : i < j.trayEntries) (hst : (j.stream i).st = 4) (hgen : (j.stream i).gen = g) :
    v.applyResume c h i g = v.setJob c (resumedJob j h i) := by
  have hname : j.nameStatus i g (fun t => t.st == 4) = 0 := nameStatus_of_allowed hi hgen (by simp [hst])
  simp only [State.applyResume, hj, hname]
  rfl

theorem applyClose_of_taken {i g : Nat} (hi : i < j.trayEntries) (hst : (j.stream i).st ≠ 0) (hgen : (j.stream i).gen = g)
    (hseed : (j.stream i).seedWait = false) :
    v.applyClose c h i g = v.setJob c (closedJob j h i) := by
  have hname : j.nameStatus i g (fun t => t.st != 0 || t.seedWait) = 0 := nameStatus_of_allowed hi hgen (by simp [hst])
  simp only [State.applyClose, hj, hname, hseed]
  rfl

/-- A SET_LOAD with a set number and a size that are allowed puts the set in its place. -/
theorem applySetLoad_of_bounds {n k : Nat} (hn : n ≤ 4095) (hk : k ≤ 16) (d : List Byte) :
    v.applySetLoad c h n k d = v.setJob c ({ j with
      sets := Map.set [] j.sets n (tokensOf k d), dirtySets := noteOnce j.dirtySets n }.defer h 0x16) := by
  have hbounds : ¬ (4095 < n ∨ 16 < k) := by omega
  simp only [State.applySetLoad, hj, if_neg hbounds]
  rfl

theorem applyClosing_fields : (v.applyClosing c h).job c = some { j with closing := some h, cutNow := true } ∧
    (v.applyClosing c h).moss.runs = v.moss.runs.map fun r => if r.ctx = c then { r with stopping := true } else r := by
  rw [State.applyClosing, onJob_of_job hj]
  exact ⟨job_setJob_same .., rfl⟩

end

theorem stream_noteReady (j : Job) (i x : Nat) : (j.noteReady i).stream x = j.stream x := rfl

theorem stream_resumedJob (j : Job) (h : Head) (i x : Nat) : (resumedJob j h i).stream x =
    if x = i then { j.stream i with st := 2, readyStep := j.stepNext, fetched := false } else j.stream x := by
  rw [resumedJob, stream_defer, Job.makeReady, stream_noteReady, stream_setStream]

theorem stream_appendedJob (j : Job) (h : Head) (i n : Nat) (toks : List Nat) (x : Nat) : (appendedJob j h i n toks).stream x =
    if x = i then { j.stream i with
      pending := (j.stream i).pending ++ toks, pendChunks := (j.stream i).pendChunks ++ (appendChunks j i n).1 } else j.stream x := by
  have hpools : withoutPools (appendChunks j i n).2 = withoutPools j := withoutPools_takeChunks ..
  rw [appendedJob, stream_defer, stream_setStream, stream_of_withoutPools hpools]

theorem deferred_appendedJob (j : Job) (h : Head) (i n : Nat) (toks : List Nat) :
    (appendedJob j h i n toks).deferred = j.deferred ++ [⟨h, 0x13, 0, j.stepNext, [], some j.nextCut, [], 0⟩] :=
  deferred_defer_of_withoutPools (k := (appendChunks j i n).2) (withoutPools_takeChunks ..) h 0x13

theorem stream_leaveRun (j : Job) (i x : Nat) : (j.leaveRun i).stream x = j.stream x := by
  unfold Job.leaveRun
  split
  · split <;> rfl
  · rfl

/-- A stream that is closed leaves its generation only, and gives its lists back. -/
theorem stream_freeStream (j : Job) (i x : Nat) :
    (j.freeStream i).stream x = if x = i then { Stream.free with gen := (j.stream i).gen } else j.stream x := by
  have hpools : withoutPools (((j.stream i).pages.foldl Job.unrefPage j).releaseChunks
      ((j.stream i).pendChunks ++ (j.stream i).pageChunks)) = withoutPools j :=
    (withoutPools_releaseChunks ..).trans (withoutPools_foldl _ withoutPools_unrefPage _ j)
  rw [← stream_of_withoutPools hpools x]
  exact stream_setStream ..

theorem stream_closeWaits (j : Job) (i x : Nat) : (j.closeWaits i).stream x = j.stream x := rfl

theorem stream_closedJob (j : Job) (h : Head) (i x : Nat) :
    (closedJob j h i).stream x = if x = i then { Stream.free with gen := (j.stream i).gen } else j.stream x := by
  rw [closedJob, stream_defer, stream_closeWaits, stream_freeStream, stream_leaveRun, stream_leaveRun]

/-! ## STEP_BIND (R473) -/

/-- The parameter data depends on what host memory reads as only. -/
theorem readArgs_congr {s t : State} (hread : ∀ a n, t.hostRead a n = s.hostRead a n) (es : List (Nat × Nat × Nat)) :
    t.readArgs es = s.readArgs es := by
  induction es with
  | nil => rfl
  | cons e es ih => simp only [State.readArgs, hread, ih]

theorem readBind_congr {s t : State} (hread : ∀ a n, t.hostRead a n = s.hostRead a n) (n list : Nat) :
    t.readBind n list = s.readBind n list := by
  simp only [State.readBind, hread, readArgs_congr hread]

/-- Argument copies placed change the area only, one DPA for each entry. -/
theorem placeArgs_some {es : List (Nat × Nat × Nat)} {j k : Job} {ds : List Nat} (h : j.placeArgs es = some (k, ds)) :
    (∃ area, k = { j with area := area }) ∧ ds.length = es.length := by
  induction es generalizing j k ds with
  | nil =>
    cases h
    exact ⟨⟨j.area, rfl⟩, rfl⟩
  | cons e es ih =>
    unfold Job.placeArgs at h
    split at h
    · obtain ⟨⟨k', ds'⟩, hrest, hkd⟩ := Option.map_eq_some_iff.mp h
      cases hkd
      obtain ⟨harea, hlength⟩ := ih hrest
      exact ⟨harea, congrArg (· + 1) hlength⟩
    · split at h
      · cases h
      · obtain ⟨⟨k', ds'⟩, hrest, hkd⟩ := Option.map_eq_some_iff.mp h
        cases hkd
        obtain ⟨⟨area, harea⟩, hlength⟩ := ih hrest
        exact ⟨⟨area, harea⟩, congrArg (· + 1) hlength⟩

/-- The argument copy of a program entry written, from its place in the parameter data. -/
def writeArg (data : List Byte) (acc : State × Nat) (e : ProgEntry) : State × Nat :=
  (if e.argSize = 0 then acc.1 else acc.1.lpxWrite e.argDpa 1 (bytesAt data acc.2 e.argSize), acc.2 + e.argSize)

theorem writeArgs_setJob (data : List Byte) (c : Nat) (j : Job) (prog : List ProgEntry) (s : State) (o : Nat) :
    (prog.foldl (writeArg data) (s.setJob c j, o)).1 = (prog.foldl (writeArg data) (s, o)).1.setJob c j := by
  induction prog generalizing s o with
  | nil => rfl
  | cons e prog ih =>
    have hfirst : writeArg data (s.setJob c j, o) e = ((writeArg data (s, o) e).1.setJob c j, o + e.argSize) := by
      unfold writeArg
      dsimp only
      split <;> rfl
    rw [List.foldl_cons, hfirst, ih]
    rfl

/-- The step program of a list of entries with the DPAs of their argument copies. -/
def progOf (es : List (Nat × Nat × Nat)) (ds : List Nat) : List ProgEntry := es.zipWith (fun e d => ⟨e.1, e.2.1, d⟩) ds

theorem mem_progOf {n x : Nat} {d : List Byte} {ds : List Nat} {e : ProgEntry}
    (he : (progOf ((List.range n).map (bindEntry d)) ds)[x]? = some e) :
    e.handle = leAt d (16 * x) 4 ∧ e.argSize = leAt d (16 * x + 4) 4 := by
  obtain ⟨b, a, hb, -, rfl⟩ := List.getElem?_zipWith_eq_some.mp he
  rw [List.getElem?_map, Option.map_eq_some_iff] at hb
  obtain ⟨y, hy, rfl⟩ := hb
  obtain ⟨hlt, hxy⟩ := List.getElem?_eq_some_iff.mp hy
  rw [List.getElem_range] at hxy
  subst hxy
  exact ⟨rfl, rfl⟩

/-- The job with a new step program, whose argument copies stand in the area of `k`; those of the old program are to be released. -/
def boundJob (j k : Job) (h : Head) (prog : List ProgEntry) : Job :=
  { k with
    area := k.area.map fun a =>
      if (j.area.filter fun (a : AreaBlock) => a.handle == 0 && a.rel.isNone).contains a then { a with rel := some j.nextCut } else a
    program := prog }.defer h 0x82

/-- A STEP_BIND whose images are resident and whose argument copies have room replaces the step program. -/
theorem job_applyStepBind_of_resident {v : State} {c n : Nat} {j k : Job} {d : List Byte} {ds : List Nat} (hj : v.job c = some j)
    (h : Head) (himages : ∀ x, x < n → ∃ k, v.image c (leAt d (16 * x) 4) = some k ∧ k.argSize = leAt d (16 * x + 4) 4)
    (hplace : j.placeArgs ((List.range n).map (bindEntry d)) = some (k, ds)) :
    (v.applyStepBind c h n d).job c = some (boundJob j k h (progOf ((List.range n).map (bindEntry d)) ds)) := by
  have hall : (((List.range n).map (bindEntry d)).all fun e =>
      match v.image c e.1 with | some k => k.argSize == e.2.1 | none => false) = true := by
    simp only [List.all_map, List.all_eq_true, List.mem_range, Function.comp_apply]
    intro x hx
    obtain ⟨k, hk, hsize⟩ := himages x hx
    simp only [bindEntry, hk, hsize, beq_self_eq_true]
  have hbind : v.applyStepBind c h n d = ((progOf ((List.range n).map (bindEntry d)) ds).foldl (writeArg d)
      (v.setJob c (boundJob j k h (progOf ((List.range n).map (bindEntry d)) ds)), 16 * n)).1 := by
    unfold State.applyStepBind
    rw [hj]
    refine (if_neg (ne_true_of_eq_false (congrArg Bool.not hall))).trans ?_
    rw [hplace]
    rfl
  rw [hbind, writeArgs_setJob, job_setJob_same]

/-! ## The commands -/

/-- Settles O36: each command is taken at the boundary, its data is read, and the job is the one its rule gives. -/
theorem streamCommandsTakeEffect : Obligations.StreamCommandsTakeEffect := by
  intro s v h j
  refine ⟨?open_, ?fork, ?append, ?resume, ?close, ?setLoad, fun hb => ?jobClose, fun hb => ?cutNow, ?stepBind⟩
  case open_ =>
    intro e he i n tok a d p hb hd hp hst
    obtain ⟨hjob, hqueue⟩ := applyOpen_fields hb.job hp hst e.2.1 h tok
    obtain ⟨chunks, hstream⟩ := stream_openedJob j e.1 e.2.1 h i n tok p
    have hcmd : exec (e.2.2 h i n tok a) s = onSet h (s.boundaryData h e.2.1 (e.2.2 h i n tok a) (·.readStreamBlock a)) ∧
        v.applyWaiting h.set ⟨e.2.2 h i n tok a, d⟩ = v.applyOpen h.set e.1 e.2.1 h i n tok d := by
      simp only [List.mem_cons, List.not_mem_nil, or_false] at he
      rcases he with rfl | rfl <;> exact ⟨rfl, rfl⟩
    refine hb.takesEffect_data hcmd.1 hd hcmd.2 ⟨_, hjob, sameEntries_openedJob j _ _ h i n tok p, deferred_openedJob .., ?_⟩
    rw [hstream]
    exact ⟨rfl, rfl, rfl, hqueue, rfl, rfl, rfl, rfl, rfl, rfl, rfl, rfl, rfl, rfl⟩
  case fork =>
    intro p g m n ch sd d hb hd hst
    obtain ⟨k, hk, hsame, hdeferred, hchild⟩ := applyFork_of_status hb.job hst h
    refine hb.takesEffect_data rfl hd rfl ⟨k, hk, hsame, hdeferred, fun x i hx => ?_⟩
    obtain ⟨hst, hwait, hgen, hparent, hpos, hpending, hseed⟩ := hchild x i hx
    exact ⟨hst, hwait, hgen, hparent, hpos, hpending, hseed⟩
  case append =>
    intro i g n tok bs hb hst hread
    have hjob := job_applyAppend_of_status hb.job h hst ((hb.hostRead ..).trans hread)
    have hentry := stream_appendedJob j h i n (tokensOf n bs)
    refine hb.takesEffect_cmd rfl rfl ⟨_, hjob, deferred_appendedJob .., fun x hx => (hentry x).trans (if_neg hx), ?_⟩
    rw [hentry i, if_pos rfl]
    exact ⟨rfl, rfl, rfl⟩
  case resume =>
    intro i g hb hi hst hgen
    have hentry := stream_resumedJob j h i
    exact hb.takesEffect_cmd rfl (applyResume_of_parked hb.job h hi hst hgen)
      ⟨rfl, _, job_setJob_same .., fun x hx => (hentry x).trans (if_neg hx), (hentry i).trans (if_pos rfl)⟩
  case close =>
    rintro i _ hb hi hst rfl hseed
    have hentry := stream_closedJob j h i
    exact hb.takesEffect_cmd rfl (applyClose_of_taken hb.job h hi hst rfl hseed)
      ⟨rfl, _, job_setJob_same .., fun x hx => (hentry x).trans (if_neg hx), (hentry i).trans (if_pos rfl)⟩
  case setLoad =>
    intro n k tok d hb hn hk hd
    refine hb.takesEffect_data rfl hd (applySetLoad_of_bounds hb.job h hn hk d) ⟨rfl, _, job_setJob_same .., rfl, fun m => ?_⟩
    exact Map.get_set ..
  case jobClose =>
    exact hb.takesEffect_cmd rfl rfl (applyClosing_fields hb.job h)
  case cutNow =>
    exact hb.takesEffect_cmd rfl (onJob_of_job hb.job _) ⟨rfl, _, job_setJob_same .., rfl, rfl⟩
  case stepBind =>
    rintro n list d hb hn1 hn64 hd himages ⟨⟨k, ds⟩, hplace⟩
    obtain ⟨⟨area, rfl⟩, hlength⟩ := placeArgs_some hplace
    have hcount : ¬ (n = 0 ∨ 64 < n) := by omega
    have hread : (Slice0.taken s h 0x82).readBind n list = some d :=
      (readBind_congr (s := s) (t := Slice0.taken s h 0x82) (fun _ _ => rfl) n list).trans hd
    have hlength : (progOf ((List.range n).map (bindEntry d)) ds).length = n := by simp [progOf, hlength]
    refine hb.takesEffect (d := d) rfl ?data rfl
      ⟨_, job_applyStepBind_of_resident hb.job h himages hplace, rfl, hlength, fun x e he => mem_progOf he⟩
    case data =>
      simp only [if_neg hcount, hread]
      rfl

end Sys2Proof.Slice0

/-!
PROOFS. What the bed commands make of a bed at a boundary (R283, R284, R288, R296): the statement O37.
-/
namespace Sys2Proof.Slice0
open Sys2Proof Sys2Proof.Machine

/-! ## A bed replaced in a job -/

/-- A job with one bed replaced puts its next completion off as the job before it. -/
theorem deferred_defer_setBed (j : Job) (b : Nat) (x : Bed) (h : Head) (op : Nat) :
    ((j.setBed b x).defer h op).deferred = j.deferred ++ [⟨h, op, 0, j.stepNext, [], some j.nextCut, [], 0⟩] := by
  unfold Job.setBed
  split <;> rfl

theorem deferred_setBed (j : Job) (b : Nat) (x : Bed) : (j.setBed b x).deferred = j.deferred := by
  unfold Job.setBed
  split <;> rfl

theorem stepNext_setBed (j : Job) (b : Nat) (x : Bed) : (j.setBed b x).stepNext = j.stepNext := by
  unfold Job.setBed
  split <;> rfl

/-- A state whose job has bed `b` replaced, and its command put off until the next cutting is common. -/
theorem deferring_setBed {t : State} {h : Head} {op b : Nat} {j : Job} {x : Bed} (hb : b < 2)
    (ht : t.job h.set = some ((j.setBed b x).defer h op)) :
    Deferring t h op j fun k => k.bed b = x ∧ k.bed (1 - b) = j.bed (1 - b) :=
  ⟨_, ht, deferred_defer_setBed .., bed_setBed hb j x⟩

/-- The job in which bed `b` verifies for a BED_COMMIT, whose completion waits for the outcome (R288). -/
def committedJob (j : Job) (b : Nat) (h : Head) (flip : Nat) (digest : List Byte) : Job :=
  { j.setBed b { j.bed b with st := 2, flip := flip, digest := digest, commit := some h } with
    deferred := j.deferred ++ [⟨h, 0x32, 0, j.stepNext, [], none, [], 0⟩] }

/-! ## The commands (R283, R284, R288, R296) -/

section
variable {j : Job} {b flags epoch : Nat} (hb : b < 2)
include hb

/-- A bed that is EMPTY, LOADING or SPARE may be staged under an epoch that the other bed does not have. -/
theorem bedStageStatus_of_free (hst : (j.bed b).st = 0 ∨ (j.bed b).st = 1 ∨ (j.bed b).st = 6)
    (hother : (j.bed (1 - b)).st = 0 ∨ (j.bed (1 - b)).epoch ≠ epoch) : j.bedStageStatus b flags epoch = 0 := by
  have hbed : ¬ 2 ≤ b := by omega
  have hheld : ¬ ((j.bed b).st = 5 ∧ bit flags 0 = false) := by omega
  have hfree : (!((j.bed b).st == 0 || (j.bed b).st == 1 || (j.bed b).st == 6 || (j.bed b).st == 5)) = false := by
    rcases hst with h | h | h <;> rw [h] <;> rfl
  have hepoch : ¬ ((j.bed (1 - b)).st ≠ 0 ∧ (j.bed (1 - b)).epoch = epoch) := by omega
  simp only [Job.bedStageStatus, if_neg hbed, if_neg hheld, hfree, Bool.false_eq_true, if_false, if_neg hepoch]

/-- A HELD bed is not staged without FORCE. -/
theorem bedStageStatus_of_held (hst : (j.bed b).st = 5) (hforce : bit flags 0 = false) :
    j.bedStageStatus b flags epoch = 0x0401 := by
  have hbed : ¬ 2 ≤ b := by omega
  simp only [Job.bedStageStatus, if_neg hbed, if_pos (And.intro hst hforce)]

end

section
variable {v : State} {c b : Nat} {j : Job} (hj : v.job c = some j) (hb : b < 2) (h : Head)
include hj hb

theorem applyBedStage_of_free {flags epoch : Nat} (hst : (j.bed b).st = 0 ∨ (j.bed b).st = 1 ∨ (j.bed b).st = 6)
    (hother : (j.bed (1 - b)).st = 0 ∨ (j.bed (1 - b)).epoch ≠ epoch) :
    v.applyBedStage c h b flags epoch =
      v.setJob c ((j.setBed b { Bed.empty with st := 1, epoch := epoch }).defer h 0x30) := by
  have hheld : (j.bed b).st ≠ 5 := by omega
  simp only [State.applyBedStage, hj, bedStageStatus_of_free hb hst hother, bne_self_eq_false, Bool.false_eq_true, if_false,
    if_neg hheld]

theorem applyBedStage_of_held {flags epoch : Nat} (hst : (j.bed b).st = 5) (hforce : bit flags 0 = false) :
    v.applyBedStage c h b flags epoch = v.done h 0x30 0x0401 0 := by
  simp only [State.applyBedStage, hj, bedStageStatus_of_held hb hst hforce]
  rfl

/-- The bytes of a BED_LOAD that stay within their bed are written, and counted. -/
theorem applyBedLoad_of_loading {host ofs len : Nat} {bs : List Byte} (hst : (j.bed b).st = 1)
    (hfits : ofs + len ≤ (j.bedRange b).2) (hread : v.hostRead host len = some bs) :
    v.applyBedLoad c h b host ofs len =
      (v.setJob c ((j.setBed b { j.bed b with loaded := (j.bed b).loaded + len }).defer h 0x31)).lpxWrite
        ((j.bedRange b).1 + ofs) 4 bs := by
  have hbed : ¬ 2 ≤ b := by omega
  simp only [State.applyBedLoad, hj, if_neg hbed, if_neg (not_not_intro hst), if_neg (Nat.not_lt.mpr hfits), hread]

/-- A bed without a poisoned write begins its verification when no bed serves yet or its flip is still to come. -/
theorem applyBedCommit_of_loading {flip : Nat} (d : List Byte) (hst : (j.bed b).st = 1) (hpoisoned : (j.bed b).poisoned = false)
    (hflip : j.current = none ∨ j.stepNext < flip) :
    v.applyBedCommit c h b flip d = v.setJob c (committedJob j b h flip d) := by
  have hbed : ¬ 2 ≤ b := by omega
  have hpast : ¬ (j.current.isSome = true ∧ flip ≤ j.stepNext) := by
    rintro ⟨hcurrent, hle⟩
    rcases hflip with hnone | hlt
    · simp [hnone] at hcurrent
    · omega
  simp only [State.applyBedCommit, hj, if_neg hbed, if_neg (not_not_intro hst), if_neg hpast, hpoisoned, Bool.false_eq_true, if_false,
    deferred_setBed, stepNext_setBed, committedJob]

/-- A bed that is LOADING, ARMED or SPARE is dropped, its epoch number kept. -/
theorem applyBedDrop_of_unused (hst : (j.bed b).st = 1 ∨ (j.bed b).st = 3 ∨ (j.bed b).st = 6) :
    v.applyBedDrop c h b = v.setJob c ((j.setBed b { Bed.empty with epoch := (j.bed b).epoch }).defer h 0x33) := by
  have hbed : ¬ 2 ≤ b := by omega
  have hunused : (!((j.bed b).st == 1 || (j.bed b).st == 3 || (j.bed b).st == 6)) = false := by
    rcases hst with h | h | h <;> rw [h] <;> rfl
  simp only [State.applyBedDrop, hj, if_neg hbed, hunused, Bool.false_eq_true, if_false]

end

/-- Settles O37: each command finds its bed in a state that allows it, and replaces that bed only. -/
theorem bedCommandsTakeEffect : Obligations.BedCommandsTakeEffect := by
  intro s v h j b hb
  refine ⟨fun flags epoch hat hst hother => ?stage, fun flags epoch hat hst hforce => ?held,
    fun host ofs len bs hat hst hfits hread => ?load, fun flip digest d hat hd hst hpoisoned hflip => ?commit, fun hat hst => ?drop⟩
  case stage =>
    exact hat.takesEffect_cmd rfl (applyBedStage_of_free hat.job hb h hst hother) ⟨rfl, deferring_setBed hb (job_setJob_same ..)⟩
  case held =>
    exact hat.takesEffect_cmd rfl (applyBedStage_of_held hat.job hb h hst hforce) rfl
  case load =>
    refine hat.takesEffect_cmd rfl (applyBedLoad_of_loading hat.job hb h hst hfits ((hat.hostRead ..).trans hread)) ⟨?_, ?_⟩
    · exact deferring_setBed hb ((job_of_jobs (lpxWrite_frame ..).2.1 _).trans (job_setJob_same ..))
    · exact lpxMem_lpxWrite_congr rfl rfl rfl ..
  case commit =>
    obtain ⟨hbed, hother⟩ := bed_setBed hb j { j.bed b with st := 2, flip := flip, digest := d, commit := some h }
    exact hat.takesEffect_data rfl hd (applyBedCommit_of_loading hat.job hb h d hst hpoisoned hflip)
      ⟨rfl, committedJob j b h flip d, job_setJob_same .., hbed, hother, rfl⟩
  case drop =>
    exact hat.takesEffect_cmd rfl (applyBedDrop_of_unused hat.job hb h hst) ⟨rfl, deferring_setBed hb (job_setJob_same ..)⟩

end Sys2Proof.Slice0

/-!
PROOFS. What arrives for the experts of a device, and the passes that it runs as home (R274 to R280, R512): the statement O41.
-/
namespace Sys2Proof.Slice0
open Sys2Proof Sys2Proof.Machine

/-- A job replaced is the one thing that differs. -/
theorem onlyJob_setJob (s : State) (c : Nat) (j : Job) : OnlyJob s (s.setJob c j) c j :=
  ⟨rfl, fun q => State.job_setJob s c q j⟩

/-! ## Messages that end the job (R280, R512) -/

/-- The state in which an event of the job is posted, and the end of the job after it. -/
theorem posted_then_ended (s : State) (c code status : Nat) (payload : List Byte) :
    ∃ (u : State) (e : Event), (s.postJob c code status payload).endJob c status = u.endJob c status ∧
      u.host.held = s.host.held ++ [e] ∧ e.code = code ∧ u.jobs = s.jobs := by
  obtain ⟨e, hheld, hcode, -, -⟩ := postJob_held s c code status payload
  exact ⟨_, e, rfl, hheld, hcode, State.postJob_jobs ..⟩

section
variable {s : State} {c : Nat} {j : Job} (hc : c < 16) (hj : s.job c = some j) (hwork : j.atWork = true)
include hc hj hwork

/-! ## Headers and records (R274, R275) -/

/-- A header of the serving epoch joins those of its step. -/
theorem dispatchHeader_of_epoch {h : DispHeader} (hepoch : j.current = none ∨ h.epoch = j.epoch) :
    exec (.dispatchHeader c h) s = .next (s.setJob c { j with dispHeaders := j.dispHeaders ++ [h] }) := by
  have hserves : ¬ (j.current.isSome = true ∧ h.epoch ≠ j.epoch) := by
    rintro ⟨hcurrent, hne⟩
    rcases hepoch with hnone | heq
    · simp [hnone] at hcurrent
    · exact hne heq
  refine onCtx_next hc ?_
  simp only [State.gotHeader, hj, hwork, Bool.not_true, Bool.false_eq_true, if_false, if_neg hserves]

/-- A header of another epoch ends the job. -/
theorem dispatchHeader_of_otherEpoch {h : DispHeader} (hcurrent : j.current.isSome = true) (hepoch : h.epoch ≠ j.epoch) :
    exec (.dispatchHeader c h) s = .next ((s.postJob c 0x0406 0x0409 (toLe 2 h.rank ++ toLe 2 h.epoch ++ toLe 2 j.epoch)).endJob c
      0x0409) := by
  refine onCtx_next hc ?_
  simp only [State.gotHeader, hj, hwork, Bool.not_true, Bool.false_eq_true, if_false, if_pos (And.intro hcurrent hepoch)]

/-- A record joins those that are here when its tag holds; otherwise the message is discarded and the job ends. -/
theorem dispatchRecord_of_atWork (r : DispRecord) (mseq : Nat) (auth : Bool) :
    exec (.dispatchRecord c r mseq auth) s =
      .next (if auth then s.setJob c (j.addRecords [r]) else s.msgAuthFail c r.origin 0x02 mseq) := by
  refine onCtx_next hc ?_
  simp only [hj, hwork, Bool.not_true, Bool.false_eq_true, if_false]

/-! ## Outputs (R279) -/

theorem expertOutput_of_atWork (r : DispRecord) (mseq : Nat) :
    exec (.expertOutput c r mseq true) s = .next (s.gotOutput c r) := by
  refine onCtx_next hc ?_
  simp only [hj, hwork, Bool.not_true, Bool.false_eq_true, if_false, if_true]

end

/-- The job in which an output has arrived. -/
def withOutput (j : Job) (r : DispRecord) : Job := { j with outputs := j.outputs ++ [r] }

/-- An output that arrives is one more of its row. -/
theorem length_rowOutputs_withOutput (j : Job) (r : DispRecord) :
    ((withOutput j r).rowOutputs r.layer r.row).length = (j.rowOutputs r.layer r.row).length + 1 := by
  simp [Job.rowOutputs, withOutput]

/-- The combined vector of the row of `r`: each output of the row under the gate of its route. -/
def rowVector (c : Nat) (j : Job) (m : Manifest) (r : DispRecord) : List W32 :=
  combineOutputs m.hidden ((j.rowOutputs r.layer r.row).map fun o =>
    (((j.routes c m r.layer r.row)[o.rank]?.map (·.2)).getD 0#32, recordElements o m.hidden))

/-- The job in which the outputs of the row of `r` have become its combined vector. -/
def combinedJob (c : Nat) (j : Job) (m : Manifest) (r : DispRecord) : Job :=
  { j with
    outputs := j.outputs.filter fun o => !(o.layer == r.layer && o.row == r.row)
    combined := j.combined ++ [(r.layer, r.row, rowVector c j m r)] }

theorem rowOutputs_combinedJob (c : Nat) (j : Job) (m : Manifest) (r : DispRecord) :
    (combinedJob c j m r).rowOutputs r.layer r.row = [] := by
  simp [Job.rowOutputs, combinedJob, List.filter_filter]

/-- A combined row is one more of its layer. -/
theorem length_layer_combinedJob (c : Nat) (j : Job) (m : Manifest) (r : DispRecord) :
    ((combinedJob c j m r).combined.filter fun x => x.1 == r.layer).length =
      (j.combined.filter fun x => x.1 == r.layer).length + 1 := by
  simp [combinedJob]

section
variable {s : State} {c : Nat} {j : Job} {r : DispRecord} {m : Manifest} (hj : s.job c = some j) (hwork : j.atWork = true)
  (hrun : j.run.isSome = true) (hm : j.servingManifest r.epoch = some m)
include hj hwork hrun hm

/-- What an output of a served epoch does: nothing more while its row lacks outputs; the last one of a row combines it, and the last row
of a layer begins the next layer. -/
theorem gotOutput_of_served : s.gotOutput c r =
    if ((withOutput j r).rowOutputs r.layer r.row).length < m.topk then s.setJob c (withOutput j r)
    else if ((combinedJob c (withOutput j r) m r).combined.filter fun x => x.1 == r.layer).length < j.rowEpochs.length then
      s.setJob c (combinedJob c (withOutput j r) m r)
    else State.dispatchFrom c (j.moeLayers - (r.layer + 1)) (r.layer + 1)
      (s.setJob c { combinedJob c (withOutput j r) m r with moe := r.layer + 1 }) := by
  have hidle : (!j.atWork || j.run.isNone) = false := by rw [hwork, ← Option.not_isSome, hrun]; rfl
  have hserving : ({ j with outputs := j.outputs ++ [r] } : Job).servingManifest r.epoch = some m := hm
  simp only [State.gotOutput, hj, hidle, Bool.false_eq_true, if_false, hserving]
  rfl

/-- An output that leaves its row incomplete waits for the others. -/
theorem gotOutput_of_incomplete (hfew : (j.rowOutputs r.layer r.row).length + 1 < m.topk) :
    s.gotOutput c r = s.setJob c (withOutput j r) := by
  rw [gotOutput_of_served hj hwork hrun hm, length_rowOutputs_withOutput, if_pos hfew]

/-- The last output of a row that is not the last of its layer combines the row. -/
theorem gotOutput_of_complete (hall : m.topk ≤ (j.rowOutputs r.layer r.row).length + 1)
    (hrows : (j.combined.filter fun x => x.1 == r.layer).length + 1 < j.rowEpochs.length) :
    s.gotOutput c r = s.setJob c (combinedJob c (withOutput j r) m r) := by
  have hlayer : ((combinedJob c (withOutput j r) m r).combined.filter fun x => x.1 == r.layer).length < j.rowEpochs.length := by
    rw [length_layer_combinedJob]
    exact hrows
  rw [gotOutput_of_served hj hwork hrun hm, length_rowOutputs_withOutput, if_neg (Nat.not_lt.mpr hall), if_pos hlayer]

end

/-! ## Passes (R276 to R278) -/

theorem insertRec_perm (r : DispRecord) (rs : List DispRecord) : (insertRec r rs).Perm (r :: rs) := by
  induction rs with
  | nil => exact .rfl
  | cons x xs ih =>
    unfold insertRec
    split
    · exact .rfl
    · exact (ih.cons x).trans (.swap r x xs)

theorem foldl_insertRec_perm (rs acc : List DispRecord) : (rs.foldl (fun acc r => insertRec r acc) acc).Perm (rs ++ acc) := by
  induction rs generalizing acc with
  | nil => exact .rfl
  | cons r rs ih => exact (ih _).trans (((insertRec_perm r acc).append_left rs).trans List.perm_middle)

/-- The order of R276 rearranges the records. -/
theorem sortRecs_perm (rs : List DispRecord) : (sortRecs rs).Perm rs := by
  simpa [sortRecs] using foldl_insertRec_perm rs []

/-- The message that returns the output of a record to its origin. -/
def outputMsg (c : Nat) (m : Manifest) (r : DispRecord) : OutMsg := ⟨c, 0x03, 3, r.origin, recordBytes (m.output r) m.hidden⟩

/-- The outputs of records of other devices leave in the order of the records. -/
theorem foldl_sendOutput_of_remote {c : Nat} {j : Job} {m : Manifest} (rs : List DispRecord)
    (hremote : ∀ r ∈ rs, j.servingManifest r.epoch = some m ∧ r.origin ≠ j.params.rank) (s : State) :
    rs.foldl (fun (s : State) r => s.sendOutput c j r) s = { s with outbox := s.outbox ++ rs.map (outputMsg c m) } := by
  induction rs generalizing s with
  | nil => simp
  | cons r rs ih =>
    obtain ⟨hm, horigin⟩ := hremote r List.mem_cons_self
    have hsend : s.sendOutput c j r = s.sendMsg c 0x03 3 r.origin (recordBytes (m.output r) m.hidden) := by
      simp only [State.sendOutput, hm, if_neg horigin]
    rw [List.foldl_cons, hsend, ih fun x hx => hremote x (List.mem_cons_of_mem r hx)]
    simp [State.sendMsg, outputMsg]

/-- The job in which a layer has run, with the passes beyond the first counted. -/
def ranJob (j : Job) (l xpass : Nat) : Job :=
  { j with
    dispHeaders := j.dispHeaders.filter fun h => h.layer != l, dispRecords := j.dispRecords.filter fun r => r.layer != l
    ranLayers := j.ranLayers ++ [l], xpass := xpass }

/-- A layer that is ready and has not run, with records of other devices and of one manifest, runs and returns their outputs. -/
theorem runLayer_of_ready {s : State} {c l : Nat} {j : Job} {m : Manifest} {rs : List DispRecord} (hj : s.job c = some j)
    (hwork : j.atWork = true) (hrun : j.run.isSome = true) (hready : j.layerReady l = true) (hfirst : l ∉ j.ranLayers)
    (hlayer : l < j.moeLayers) (hrs : rs = sortRecs (j.dispRecords.filter fun r => r.layer == l))
    (hremote : ∀ r ∈ rs, j.servingManifest r.epoch = some m ∧ r.origin ≠ j.params.rank) :
    ∃ xpass, s.runLayer c l = { s.setJob c (ranJob j l xpass) with outbox := s.outbox ++ rs.map (outputMsg c m) } := by
  have hruns : (!j.atWork || j.run.isNone || !j.layerReady l || j.ranLayers.contains l || decide (j.moeLayers ≤ l)) = false := by
    simp [hwork, hrun, hready, hfirst, hlayer]
  have hserved : (rs.find? fun r => (j.servingManifest r.epoch).isNone) = none := by
    rw [List.find?_eq_none]
    intro r hr
    simp [(hremote r hr).1]
  simp only [State.runLayer, hj, hruns, Bool.false_eq_true, if_false, ← hrs, hserved]
  exact ⟨_, foldl_sendOutput_of_remote _ hremote _⟩

/-- Settles O41: each message and each pass acts on the job by the equation of its case. -/
theorem expertCommandsComplete : Obligations.ExpertCommandsComplete := by
  intro c s j hc hj hwork
  refine ⟨fun h hepoch => ?header, fun h hcurrent hepoch => ?otherEpoch, fun r mseq => ?record, fun r mseq => ?discarded,
    fun l m hrun hready hfirst hlayer hremote => ?layer, fun r mseq m hrun hm hfew => ?incomplete,
    fun r mseq m hrun hm hall hrows => ?complete⟩
  case header => exact ⟨_, dispatchHeader_of_epoch hc hj hwork hepoch, onlyJob_setJob ..⟩
  case otherEpoch => exact ⟨_, dispatchHeader_of_otherEpoch hc hj hwork hcurrent hepoch, posted_then_ended ..⟩
  case record => exact ⟨_, dispatchRecord_of_atWork hc hj hwork r mseq true, onlyJob_setJob ..⟩
  case discarded => exact ⟨_, dispatchRecord_of_atWork hc hj hwork r mseq false, posted_then_ended ..⟩
  case layer =>
    have hserved : ∀ r ∈ sortRecs (j.dispRecords.filter fun r => r.layer == l),
        j.servingManifest r.epoch = some m ∧ r.origin ≠ j.params.rank := by
      intro r hr
      obtain ⟨hmem, hl⟩ := List.mem_filter.mp ((sortRecs_perm _).mem_iff.mp hr)
      exact hremote r hmem (beq_iff_eq.mp hl)
    obtain ⟨xpass, hran⟩ := runLayer_of_ready hj hwork hrun hready hfirst hlayer rfl hserved
    exact ⟨_, onCtx_next hc hran, ranJob j l xpass, job_setJob_same .., rfl, rfl, rfl⟩
  case incomplete =>
    refine ⟨_, expertOutput_of_atWork hc hj hwork r mseq, ?_⟩
    rw [gotOutput_of_incomplete hj hwork hrun hm hfew]
    exact onlyJob_setJob ..
  case complete =>
    refine ⟨_, expertOutput_of_atWork hc hj hwork r mseq, ?_⟩
    rw [gotOutput_of_complete hj hwork hrun hm hall hrows]
    exact ⟨_, _, job_setJob_same .., rowOutputs_combinedJob .., rfl⟩

end Sys2Proof.Slice0

/-!
PROOFS. What the Gibbs commands make of the models, the chains and the run of a job at a boundary (R308, R313, R315, R319 to R323): the
statement O38.
-/
namespace Sys2Proof.Slice0
open Sys2Proof Sys2Proof.Machine

/-! ## GIBBS_MODEL_LOAD and GIBBS_MODEL_DROP (R308, R320) -/

/-- The copies of a model's blocks are writes to LPDDR5X: the jobs stay. -/
theorem copyModel_jobs (s : State) (m : GModel) : (s.copyModel m).jobs = s.jobs := by
  refine foldl_jobs _ _ s fun u k => ?_
  split <;> rfl

/-- The job in which a model has its handle, which the completion returns. -/
def loadedJob (j : Job) (h : Head) (k : Nat) (m : GModel) : Job := { j with models := Map.put j.models k m }.deferWith h 0x40 0 k 0

/-- The job in which a handle names no model any more. -/
def droppedJob (j : Job) (h : Head) (n : Nat) : Job := { j with models := Map.del j.models n }.defer h 0x41

theorem model_loadedJob (j : Job) (h : Head) (k : Nat) (m : GModel) (n : Nat) :
    (loadedJob j h k m).model n = if n = k then some m else j.model n := Map.find_put ..

theorem model_droppedJob (j : Job) (h : Head) (n m : Nat) :
    (droppedJob j h n).model m = if m = n then none else j.model m := Map.find_del ..

section
variable {v : State} {c : Nat} {j : Job} (hj : v.job c = some j) (h : Head)
include hj

/-- A sound descriptor with a working area that holds its blocks is loaded under the lowest free handle. -/
theorem applyModelLoad_of_good {desc work size k : Nat} {m : GModel} (hdesc : v.inPartition c desc 32 = true)
    (hwork : v.inPartition c work size = true) (hwhole : v.inPartition c desc (v.lpxLe (desc + 16) 8) = true)
    (hgood : v.checkModel desc work = .good m) (hneed : m.need ≤ size) (hfree : j.freeModel = some k) :
    v.applyModelLoad c h desc work size = (v.setJob c (loadedJob j h k m)).copyModel m := by
  simp only [State.applyModelLoad, hj, hdesc, hwork, hwhole, Bool.not_true, Bool.and_false, Bool.false_eq_true, if_false, hgood,
    if_neg (Nat.not_lt.mpr hneed), hfree, loadedJob]

/-- A handle whose model no chain uses is dropped. -/
theorem applyModelDrop_of_unused {n : Nat} (hlow : 1 ≤ n) (hhigh : n ≤ 16) (hloaded : (j.model n).isSome = true)
    (hunused : ∀ e ∈ j.tray, e.2.kind = 3 → e.2.model = n → e.2.st = 0 ∧ e.2.seedWait = false) :
    v.applyModelDrop c h n = v.setJob c (droppedJob j h n) := by
  have hrange : ¬ (n = 0 ∨ 16 < n) := by omega
  have hsome : (j.model n).isNone = false := by rw [← Option.not_isSome, hloaded]; rfl
  have hchains : (j.tray.any fun kv => kv.2.kind == 3 && kv.2.model == n && (kv.2.st != 0 || kv.2.seedWait)) = false := by
    rw [List.any_eq_false]
    intro e he hbusy
    simp only [Bool.and_eq_true, beq_iff_eq] at hbusy
    obtain ⟨⟨hkind, hmodel⟩, hbusy⟩ := hbusy
    obtain ⟨hst, hwait⟩ := hunused e he hkind hmodel
    simp [hst, hwait] at hbusy
  simp only [State.applyModelDrop, hj, if_neg hrange, hsome, hchains, Bool.false_eq_true, if_false, droppedJob]

end

/-! ## CHAIN_OPEN (R315, R319) -/

theorem withoutPools_takePages (n : Nat) (j : Job) : withoutPools (j.takePages n).2 = withoutPools j := by
  induction n generalizing j with
  | zero => rfl
  | succ n ih => exact ih j.takePage.2

theorem length_takePages (n : Nat) (j : Job) : (j.takePages n).1.length = n := by
  induction n generalizing j with
  | zero => rfl
  | succ n ih => exact congrArg (· + 1) (ih j.takePage.2)

theorem linkChunks_ens (s : State) (k : Job) (cs : List Nat) : (s.linkChunks k cs).ens = s.ens := by
  induction cs generalizing s with
  | nil => rfl
  | cons d ds ih =>
    cases ds with
    | nil => rfl
    | cons e es => exact ih (s.lpxWrite (k.chunkDpa d) 1 (toLe 8 (k.chunkDpa e)))

theorem putEntries_ens (s : State) (k : Job) (cs : List Nat) (base p : Nat) (vs : List Nat) :
    (s.putEntries k cs base p vs).ens = s.ens := by
  induction vs generalizing s p with
  | nil => rfl
  | cons x vs ih =>
    exact ih (s.lpxWrite (k.chunkDpa (cs.getD ((p - base) / chunkEntries) 0) + 8 + 4 * (p % chunkEntries)) 1 (toLe 4 x)) (p + 1)

theorem writePages_ens (s : State) (k : Job) (t : Stream) (n : Nat) : (s.writePages k t n).ens = s.ens := by
  rw [State.writePages, putEntries_ens, linkChunks_ens]

/-- The operands of CHAIN_OPEN. -/
structure ChainOps where
  index : Nat
  handle : Nat
  init : Nat
  mode : Nat
  seed : Nat
  temp : Nat
  layers : Nat
  flags : Nat
  ptr : Nat
  host : Nat
  user : Nat

/-- The `n` pages of a chain's three copies of its state; `n` stands for `GModel.pages`, so that no proof evaluates an image's size. -/
def chainPages (j : Job) (n : Nat) : List Nat × Job := j.takePages n

/-- The chunks of the list of those pages. -/
def chainChunks (j : Job) (n : Nat) : List Nat × Job := (chainPages j n).2.takeChunks (chunksFor 0 n)

/-- The entry that CHAIN_OPEN takes for a chain with `n` pages. -/
def chainEntry (j : Job) (n : Nat) (o : ChainOps) : Stream :=
  { Stream.free with
    kind := 3, st := if o.mode == 1 then 0 else 1, gen := (((chainChunks j n).2.stream o.index).gen + 1) % 4096, parent := 0xFFFFFFFF
    seed := if o.mode == 1 then 0#64 else BitVec.ofNat 64 o.seed, seedDev := o.mode == 1, seedWait := o.mode == 1
    temp := BitVec.ofNat 32 o.temp, model := o.handle, clampLayers := o.layers, clampUnits := bit o.flags 0, mirror := bit o.flags 1
    clampPtr := if bit o.flags 0 then o.ptr else 0, pages := (chainPages j n).1, pageChunks := (chainChunks j n).1
    user := BitVec.ofNat 64 o.user, fetch := (o.host, o.init) }

/-- The job in which a chain has its entry and waits for it to become READY. -/
def chainJob (j : Job) (h : Head) (n : Nat) (o : ChainOps) : Job :=
  ((chainChunks j n).2.setStream o.index (chainEntry j n o)).deferReady h 0x42 [o.index]

/-- The state with that job and with the chain's page list written. -/
def chainState (v : State) (c : Nat) (j : Job) (h : Head) (n : Nat) (o : ChainOps) : State :=
  (v.setJob c (chainJob j h n o)).writePages (chainJob j h n o) (chainEntry j n o) 0

theorem withoutPools_chainChunks (j : Job) (n : Nat) : withoutPools (chainChunks j n).2 = withoutPools j :=
  (withoutPools_takeChunks ..).trans (withoutPools_takePages ..)

theorem deferred_chainJob (j : Job) (h : Head) (n : Nat) (o : ChainOps) :
    (chainJob j h n o).deferred = j.deferred ++ [⟨h, 0x42, 0, j.stepNext, [], none, [o.index], 0⟩] := by
  rw [← deferred_of_withoutPools (withoutPools_chainChunks j n), ← stepNext_of_withoutPools (withoutPools_chainChunks j n)]
  rfl

theorem sameEntries_chainJob (j : Job) (h : Head) (n : Nat) (o : ChainOps) : SameEntries j (chainJob j h n o) (· = o.index) :=
  sameEntries_setStream_of_withoutPools (withoutPools_chainChunks j n) o.index (chainEntry j n o)

theorem stream_chainJob (j : Job) (h : Head) (n : Nat) (o : ChainOps) : (chainJob j h n o).stream o.index = chainEntry j n o :=
  stream_setStream_same (chainChunks j n).2 o.index (chainEntry j n o)

theorem gen_chainEntry (j : Job) (n : Nat) (o : ChainOps) : (chainEntry j n o).gen = ((j.stream o.index).gen + 1) % 4096 := by
  rw [← stream_of_withoutPools (withoutPools_chainChunks j n)]
  rfl

theorem pages_chainEntry (j : Job) (n : Nat) (o : ChainOps) : (chainEntry j n o).pages.length = n := length_takePages ..

/-- A chain's seed and state follow from its seed mode: with a seed of the device it waits for the seed. -/
theorem seed_chainEntry (j : Job) (n : Nat) (o : ChainOps) :
    (chainEntry j n o).st = (if o.mode = 1 then 0 else 1) ∧
      (chainEntry j n o).seed = if o.mode = 1 then 0#64 else BitVec.ofNat 64 o.seed := by
  simp only [chainEntry, beq_iff_eq, and_self]

theorem chainState_fields (v : State) (c : Nat) (j : Job) (h : Head) (n : Nat) (o : ChainOps) :
    (chainState v c j h n o).job c = some (chainJob j h n o) ∧ (chainState v c j h n o).ens = v.ens := by
  rw [chainState, writePages_setJob]
  exact ⟨job_setJob_same .., writePages_ens ..⟩

/-- The state after CHAIN_OPEN: a seed of the device is asked for when the chain is to have one (R239). -/
def openedChain (v : State) (c : Nat) (j : Job) (h : Head) (n : Nat) (o : ChainOps) : State :=
  if o.mode = 1 then (chainState v c j h n o).askSeed c o.index else chainState v c j h n o

theorem openedChain_fields (v : State) (c : Nat) (j : Job) (h : Head) (n : Nat) (o : ChainOps) :
    (openedChain v c j h n o).job c = some (chainJob j h n o) ∧ (openedChain v c j h n o).ens.queue =
      v.ens.queue ++ if o.mode = 1 then [⟨.objectSeed c o.index, 0, 8, none, false, []⟩] else [] := by
  obtain ⟨hjob, hens⟩ := chainState_fields v c j h n o
  unfold openedChain
  split
  · exact ⟨hjob, congrArg (Ens.queue · ++ _) hens⟩
  · exact ⟨hjob, (congrArg Ens.queue hens).trans (List.append_nil _).symm⟩

/-- A unit mask that lies in the partition whenever units are clamped passes its check (R314, R531). -/
theorem unitMask_passes {units inside : Bool} (hmask : units = true → inside = true) : (units && !inside) = false :=
  Bool.and_eq_false_imp.mpr fun hunits => congrArg Bool.not (hmask hunits)

/-- A CHAIN_OPEN that passes its checks takes the entry. -/
theorem applyChainOpen_of_status {v : State} {c : Nat} {j : Job} {o : ChainOps} {m : GModel} (hj : v.job c = some j) (h : Head)
    (hst : v.chainOpenStatus j o.index o.handle o.init o.mode o.temp o.layers o.flags = 0) (hm : j.model o.handle = some m)
    (hmask : bit o.flags 0 = true → v.inPartition c o.ptr m.maskBytes = true) :
    v.applyChainOpen c h o.index o.handle o.init o.mode o.seed o.temp o.layers o.flags o.ptr o.host o.user =
      openedChain v c j h m.pages o := by
  simp only [State.applyChainOpen, hj, hst, bne_self_eq_false, Bool.false_eq_true, if_false, hm, unitMask_passes hmask, beq_iff_eq,
    openedChain, chainState, chainJob, chainEntry, chainChunks, chainPages]

/-! ## CHAIN_SET, CHAIN_WRITE and CHAIN_READ (R313, R320) -/

/-- The fields that CHAIN_SET gives a chain: SELECT names the temperature and the clamp mask that change; flags and pointer are chosen. -/
def resetChain (x : Stream) (sel temp layers fl pt : Nat) : Stream :=
  { x with
    temp := if bit sel 0 then BitVec.ofNat 32 temp else x.temp, clampLayers := if bit sel 1 then layers else x.clampLayers
    clampUnits := bit fl 0, mirror := bit fl 1, clampPtr := if bit fl 0 then pt else 0 }

/-- A command that names a chain under its generation, in a state that it allows, passes. -/
theorem chainStatus_of_allowed {j : Job} {i g : Nat} {x : Stream} {allowed : Nat → Bool} (hx : x = j.stream i) (hi : i < j.trayEntries)
    (hkind : x.kind = 3) (hgen : x.gen = g) (hst : allowed x.st = true) : j.chainStatus i g allowed = 0 := by
  subst hx
  exact nameStatus_of_allowed hi hgen (by simp [hkind, hst])

section
variable {v : State} {c i g : Nat} {j : Job} {m : GModel} {x : Stream} (hj : v.job c = some j) (hx : x = j.stream i)
  (hi : i < j.trayEntries) (hkind : x.kind = 3) (hgen : x.gen = g) (hm : j.model x.model = some m) (h : Head)
include hj hx hi hkind hgen hm

/-- A READY chain takes fields that are in range for its model. -/
theorem applyChainSet_of_ready {sel temp layers flags ptr fl pt : Nat} (hst : x.st = 2) (hsel : sel < 16)
    (hfl : fl = if bit sel 2 then flags else b2n x.clampUnits + 2 * b2n x.mirror) (hpt : pt = if bit sel 3 then ptr else x.clampPtr)
    (hok : chainFieldsOk (some m) (if bit sel 0 then temp else x.temp.toNat) (if bit sel 1 then layers else x.clampLayers) fl = true)
    (hmask : bit fl 0 = true → v.inPartition c pt m.maskBytes = true) :
    v.applyChainSet c h i g sel temp layers flags ptr = v.setJob c ((j.setStream i (resetChain x sel temp layers fl pt)).defer h 0x43) := by
  have hstatus : j.chainStatus i g (· == 2) = 0 := chainStatus_of_allowed hx hi hkind hgen (by simp [hst])
  have htemp : BitVec.ofNat 32 (if bit sel 0 then temp else x.temp.toNat) = if bit sel 0 then BitVec.ofNat 32 temp else x.temp := by
    rw [apply_ite (BitVec.ofNat 32), BitVec.ofNat_toNat, BitVec.setWidth_eq]
  have hselect : decide (15 < sel) = false := decide_eq_false (by omega)
  simp only [State.applyChainSet, hj, hstatus, ← hx, ← hfl, ← hpt, hm, hok, hselect, unitMask_passes hmask, htemp,
    bne_self_eq_false, Bool.not_true, Bool.or_self, Bool.false_eq_true, if_false, resetChain]

/-- The layers named are read from the host and written into the copy that holds the chain's state; the entry stays. -/
theorem applyChainWrite_of_ready {layers host : Nat} {bs : List Byte} (hst : x.st = 2) (hlayers : layers < 2 ^ m.layers.length)
    (hread : v.hostRead host (m.partBytes (bit layers)) = some bs) :
    v.applyChainWrite c h i g layers host =
      (v.putChain m x x.sweep (m.readLayers (bit layers) bs (v.chainValues m x))).setJob c ((j.setStream i x).defer h 0x44) := by
  have hstatus : j.chainStatus i g (· == 2) = 0 := chainStatus_of_allowed hx hi hkind hgen (by simp [hst])
  simp only [State.applyChainWrite, hj, hstatus, ← hx, hm, if_neg (Nat.not_le.mpr hlayers), hread, bne_self_eq_false,
    Bool.false_eq_true, if_false, putChain_setJob]

/-- The layers named of a chain that is READY or FAULTED are written to the host. -/
theorem applyChainRead_of_readable {layers host : Nat} (hst : x.st = 2 ∨ x.st = 6) (hlayers : layers < 2 ^ m.layers.length)
    (hcan : v.hostCanWrite = true) :
    v.applyChainRead c h i g layers host =
      (v.setJob c (j.defer h 0x45)).hostWrite host (m.writeLayers (bit layers) (v.chainValues m x)) := by
  have hstatus : j.chainStatus i g (fun st => st == 2 || st == 6) = 0 := chainStatus_of_allowed hx hi hkind hgen (by simpa using hst)
  simp only [State.applyChainRead, hj, hstatus, ← hx, hm, if_neg (Nat.not_le.mpr hlayers), hcan, bne_self_eq_false, Bool.not_true,
    Bool.false_eq_true, if_false]

end

/-- Bytes that the device can send stand in host memory. -/
theorem hostWrite_mem {s : State} (hcan : s.hostCanWrite = true) (a : Nat) (bs : List Byte) :
    (s.hostWrite a bs).host.mem = Memory.writeBytes s.host.mem (a % 2 ^ 64) bs := by
  rw [State.hostWrite, if_pos hcan]

/-- A flip posts an event and changes the job: bus mastering stays. -/
theorem hostCanWrite_flip (s : State) (c : Nat) : (s.flip c).hostCanWrite = s.hostCanWrite := by
  unfold State.flip
  split
  · rfl
  · split
    · rfl
    · split <;> rfl

/-- What a boundary does before its commands leaves bus mastering alone. -/
theorem AtBoundary.hostCanWrite {s v : State} {h : Head} {op : Nat} {j : Job} (hb : AtBoundary s h op v j) :
    v.hostCanWrite = s.hostCanWrite := by
  have hhost : (beforeCommands (Slice0.taken s h op) h.set).host = ((Slice0.taken s h op).flip h.set).host := State.onJob_host ..
  calc v.hostCanWrite = (beforeCommands (Slice0.taken s h op) h.set).hostCanWrite := congrArg _ hb.before
    _ = ((Slice0.taken s h op).flip h.set).hostCanWrite := congrArg HostPort.busMaster hhost
    _ = s.hostCanWrite := hostCanWrite_flip ..

/-! ## GIBBS_RUN (R322, R323) -/

/-- Chain `i` moves to RUNNING. -/
def startChain (j : Job) (i : Nat) : Job := j.setStream i { j.stream i with st := 3 }

/-- Chains moved to RUNNING are the entries that differ. -/
theorem stream_foldl_startChain (is : List Nat) (j : Job) (x : Nat) :
    (is.foldl startChain j).stream x = if x ∈ is then { j.stream x with st := 3 } else j.stream x := by
  induction is generalizing j with
  | nil => rfl
  | cons i is ih =>
    rw [List.foldl_cons, ih, startChain, stream_setStream]
    by_cases hx : x = i <;> simp [hx]

theorem deferred_foldl_startChain (is : List Nat) (j : Job) : (is.foldl startChain j).deferred = j.deferred := by
  induction is generalizing j with
  | nil => rfl
  | cons i is ih => exact ih (startChain j i)

/-- A run of the chains given before its first sweep. -/
def newRun (h : Head) (o : GRunOps) (chains : List Nat) : GRun :=
  { head := h, desc := o.desc h, chains := chains, total := o.chains, sweeps := o.sweeps, burn := o.burn, interval := o.interval
    layers := o.layers, output := o.output, result := o.result, progressEvery := o.progressEvery, done := 0, nextSeq := 0
    closed := 0, faulted := 0, writeFault := false, flags := 0 }

/-- The job in which a run of the chains given has begun. -/
def runJob (j : Job) (h : Head) (o : GRunOps) (chains : List Nat) : Job :=
  { chains.foldl startChain j with grun := some (newRun h o chains) }

theorem stream_runJob (j : Job) (h : Head) (o : GRunOps) (chains : List Nat) (x : Nat) :
    (runJob j h o chains).stream x = if x ∈ chains then { j.stream x with st := 3 } else j.stream x :=
  stream_foldl_startChain chains j x

/-- A GIBBS_RUN that passes its checks begins its run. -/
theorem applyGibbsRun_of_status {v : State} {c : Nat} {j : Job} {o : GRunOps} {d : List Byte} (hj : v.job c = some j)
    (hst : j.gibbsRunStatus o (gibbsList o.chains d) = 0) (h : Head) :
    v.applyGibbsRun c h o d = v.setJob c (runJob j h o (sortNat ((gibbsList o.chains d).map (·.1)))) := by
  simp only [State.applyGibbsRun, hj, hst, bne_self_eq_false, Bool.false_eq_true, if_false]
  rfl

/-! ## The commands -/

/-- Settles O38: each command passes its checks at the boundary, and the job is the one its rule gives. -/
theorem gibbsCommandsTakeEffect : Obligations.GibbsCommandsTakeEffect := by
  intro s v h j
  refine ⟨?modelLoad, ?modelDrop, ?chainOpen, ?chainSet, ?chainWrite, ?chainRead, ?gibbsRun⟩
  case modelLoad =>
    intro desc work size m k hb hdesc hwork hwhole hgood hneed hfree
    exact hb.takesEffect_cmd rfl (applyModelLoad_of_good hb.job h hdesc hwork hwhole hgood hneed hfree)
      ⟨_, (job_of_jobs (copyModel_jobs ..) _).trans (job_setJob_same ..), model_loadedJob j h k m, rfl⟩
  case modelDrop =>
    intro n hb hlow hhigh hloaded hunused
    exact hb.takesEffect_cmd rfl (applyModelDrop_of_unused hb.job h hlow hhigh hloaded hunused)
      ⟨rfl, _, job_setJob_same .., rfl, model_droppedJob j h n⟩
  case chainOpen =>
    intro i n init mode seed temp layers flags ptr host user m hb hst hm hmask
    let o : ChainOps := ⟨i, n, init, mode, seed, temp, layers, flags, ptr, host, user⟩
    obtain ⟨hjob, hqueue⟩ := openedChain_fields v h.set j h m.pages o
    obtain ⟨hstate, hseed⟩ := seed_chainEntry j m.pages o
    refine hb.takesEffect_cmd rfl (applyChainOpen_of_status (o := o) hb.job h hst hm hmask)
      ⟨_, hjob, sameEntries_chainJob j h m.pages o, deferred_chainJob j h m.pages o, ?_⟩
    rw [stream_chainJob j h m.pages o]
    exact ⟨rfl, hstate, rfl, hqueue, gen_chainEntry j m.pages o, rfl, hseed, rfl, rfl, rfl, rfl, rfl, pages_chainEntry j m.pages o, rfl⟩
  case chainSet =>
    intro i g sel temp layers flags ptr fl pt m x hb hx hi hkind hst hgen hsel hm hfl hpt hok hmask
    exact hb.takesEffect_cmd rfl (applyChainSet_of_ready hb.job hx hi hkind hgen hm h hst hsel hfl hpt hok hmask)
      ⟨rfl, _, job_setJob_same .., rfl, sameEntries_setStream_of_withoutPools rfl i _, stream_setStream_same ..⟩
  case chainWrite =>
    intro i g layers host m bs x hb hx hi hkind hst hgen hm hlayers hread
    exact hb.takesEffect_cmd rfl (applyChainWrite_of_ready hb.job hx hi hkind hgen hm h hst hlayers ((hb.hostRead ..).trans hread))
      ⟨⟨_, job_setJob_same .., rfl, sameEntries_setStream_of_withoutPools rfl i _, stream_setStream_same ..⟩, rfl⟩
  case chainRead =>
    intro i g layers host m x hb hx hi hkind hst hgen hm hlayers hcan
    have hcan : v.hostCanWrite = true := hb.hostCanWrite.trans hcan
    exact hb.takesEffect_cmd rfl (applyChainRead_of_readable hb.job hx hi hkind hgen hm h hst hlayers hcan)
      ⟨⟨_, (job_of_jobs (State.hostWrite_jobs ..) _).trans (job_setJob_same ..), rfl, rfl⟩,
        hostWrite_mem (s := v.setJob h.set (j.defer h 0x45)) hcan ..⟩
  case gibbsRun =>
    intro o d hb hd hst
    have hentry := stream_runJob j h o (sortNat ((gibbsList o.chains d).map (·.1)))
    exact hb.takesEffect_data rfl hd (applyGibbsRun_of_status hb.job hst h)
      ⟨rfl, _, _, job_setJob_same .., rfl, rfl, rfl, rfl, rfl, rfl, rfl, rfl, rfl, deferred_foldl_startChain ..,
        fun x hx => (hentry x).trans (if_neg hx), fun i hi => (hentry i).trans (if_pos hi)⟩

end Sys2Proof.Slice0

/-!
PROOFS. The regions, tiles and runs of the Moss after an update (R337, R355, R365): what the statements O34 and O45 rest on.
-/
namespace Sys2Proof.Slice0
open Sys2Proof Sys2Proof.Machine

/-! ## Tiles and regions -/

@[simp] theorem region_setRegion (s : State) (n m : Nat) (g : MRegion) :
    (s.setRegion n g).region m = if m = n then g else s.region m := by
  simp [State.region, State.setRegion]

@[simp] theorem region_setTiles (s : State) (ts : List Nat) (v m : Nat) : (s.setTiles ts v).region m = s.region m := rfl

/-- The tiles listed hold the state they are put into, every other tile its own. -/
@[simp] theorem tile_setTiles (s : State) (ts : List Nat) (v t : Nat) :
    Map.get 0 (s.setTiles ts v).moss.tiles t = if t ∈ ts then v else Map.get 0 s.moss.tiles t := by
  have hfold (m : Map Nat) : Map.get 0 (ts.foldl (fun m t => Map.set 0 m t v) m) t = if t ∈ ts then v else Map.get 0 m t := by
    induction ts generalizing m with
    | nil => rfl
    | cons x xs ih =>
      rw [List.foldl_cons, ih, Map.get_set]
      by_cases hx : t = x <;> by_cases hxs : t ∈ xs <;> simp [hx, hxs]
  exact hfold s.moss.tiles

/-- Numbered regions changed one after another, each by its own number in the list. -/
def changeRegions (s : State) (f : Nat → MRegion → MRegion) (ns : List (Nat × Nat)) : State :=
  ns.foldl (fun s nk => s.setRegion nk.1 (f nk.2 (s.region nk.1))) s

theorem changeRegions_fields (s : State) (f : Nat → MRegion → MRegion) (ns : List (Nat × Nat)) :
    (changeRegions s f ns).moss.runs = s.moss.runs ∧ (changeRegions s f ns).moss.tiles = s.moss.tiles := by
  induction ns generalizing s with
  | nil => exact ⟨rfl, rfl⟩
  | cons nk ns ih => exact ih (s.setRegion nk.1 (f nk.2 (s.region nk.1)))

theorem region_changeRegions_other (s : State) (f : Nat → MRegion → MRegion) {ns : List (Nat × Nat)} {x : Nat}
    (hx : x ∉ ns.map Prod.fst) : (changeRegions s f ns).region x = s.region x := by
  induction ns generalizing s with
  | nil => rfl
  | cons nk ns ih =>
    obtain ⟨hne, hx⟩ : x ≠ nk.1 ∧ x ∉ ns.map Prod.fst := by simpa [not_or] using hx
    exact (ih (s.setRegion nk.1 (f nk.2 (s.region nk.1))) hx).trans (by rw [region_setRegion, if_neg hne])

/-- A region that is listed once is changed once. -/
theorem region_changeRegions_listed (s : State) (f : Nat → MRegion → MRegion) {ns : List (Nat × Nat)} {x k : Nat}
    (hnodup : (ns.map Prod.fst).Nodup) (hx : (x, k) ∈ ns) : (changeRegions s f ns).region x = f k (s.region x) := by
  induction ns generalizing s with
  | nil => cases hx
  | cons nk ns ih =>
    obtain ⟨hfirst, hnodup⟩ := List.nodup_cons.mp hnodup
    rcases List.mem_cons.mp hx with rfl | hx
    · exact (region_changeRegions_other (s.setRegion x (f k (s.region x))) f hfirst).trans (by rw [region_setRegion, if_pos rfl])
    · have hne : x ≠ nk.1 := fun h => hfirst (h ▸ List.mem_map_of_mem hx)
      exact (ih (s.setRegion nk.1 (f nk.2 (s.region nk.1))) hnodup hx).trans (by rw [region_setRegion, if_neg hne])

section
variable (s : State) (f : Nat → MRegion → MRegion) {ns : List Nat}

/-- The regions of a list of distinct numbers, each changed by its place in the list. -/
theorem region_changeRegions_zipIdx (hnodup : ns.Nodup) {x k : Nat} (hx : ns[k]? = some x) :
    (changeRegions s f ns.zipIdx).region x = f k (s.region x) :=
  region_changeRegions_listed s f (by rwa [List.zipIdx_map_fst]) (List.mem_zipIdx_iff_getElem?.mpr hx)

theorem region_changeRegions_zipIdx_other {x : Nat} (hx : x ∉ ns) : (changeRegions s f ns.zipIdx).region x = s.region x :=
  region_changeRegions_other s f (by rwa [List.zipIdx_map_fst])

end

/-! ## Runs -/

theorem mossRun_some {s : State} {c n : Nat} {r : MRun} (h : s.mossRun c n = some r) :
    r ∈ s.moss.runs ∧ r.ctx = c ∧ r.run = n ∧ r.stage < 7 := by
  have hr := List.find?_some h
  simp only [Bool.and_eq_true, beq_iff_eq, decide_eq_true_eq] at hr
  exact ⟨List.mem_of_find?_eq_some h, hr.1.1, hr.1.2, hr.2⟩

theorem mossExt_ctx {s : State} {c i : Nat} {r : MRun} (h : s.mossExt c i = some r) : r.ctx = c := by
  have hr := List.find?_some h
  simp only [Bool.and_eq_true, beq_iff_eq] at hr
  exact hr.1.1

/-- A run that goes on stands among the runs once it is put there. -/
theorem mem_putRun {s : State} {c n : Nat} {r : MRun} (h : s.mossRun c n = some r) (r' : MRun) (hctx : r'.ctx = r.ctx)
    (hrun : r'.run = r.run) : r' ∈ (s.putRun r').moss.runs := by
  obtain ⟨hr, -, -, hstage⟩ := mossRun_some h
  exact List.mem_map.mpr ⟨r, hr, if_pos ⟨hctx.symm, hrun.symm, hstage⟩⟩

/-- No run of a number goes on beside the one put there. -/
theorem eq_of_mossRun_putRun {s t : State} {c n : Nat} {r x : MRun} (hruns : t.moss.runs = (s.putRun r).moss.runs) (hctx : r.ctx = c)
    (hrun : r.run = n) (hx : t.mossRun c n = some x) : x = r := by
  obtain ⟨hmem, hxc, hxn, hstage⟩ := mossRun_some hx
  rw [hruns] at hmem
  obtain ⟨y, -, rfl⟩ := List.mem_map.mp hmem
  by_cases h : y.ctx = r.ctx ∧ y.run = r.run ∧ y.stage < 7
  · exact if_pos h
  · rw [if_neg h] at hxc hxn hstage
    exact absurd ⟨hxc.trans hctx.symm, hxn.trans hrun.symm, hstage⟩ h

/-- A run that is sweeping takes no action of a sweep boundary (R355). -/
theorem mossAdvance_of_sweeping {s t : State} {c n : Nat} {r : MRun} (hruns : t.moss.runs = (s.putRun r).moss.runs)
    (hctx : r.ctx = c) (hrun : r.run = n) (hstage : r.stage = 0) (fuel : Nat) : State.mossAdvance fuel t c n = t := by
  cases fuel with
  | zero => rfl
  | succ fuel =>
    cases hx : t.mossRun c n with
    | none => simp only [State.mossAdvance, hx]
    | some x =>
      have hwaits : t.mossStage x = none := by
        rw [eq_of_mossRun_putRun hruns hctx hrun hx, State.mossStage, hstage]
        rfl
      simp only [State.mossAdvance, hx, hwaits]

theorem onlyRun_putRun (s : State) {r r' : MRun} (hctx : r'.ctx = r.ctx) (hrun : r'.run = r.run) : OnlyRun s (s.putRun r') r r' :=
  ⟨rfl, by rw [← hctx, ← hrun]; rfl⟩

end Sys2Proof.Slice0

/-!
PROOFS. The Moss commands of a ring set (R337 to R341, R360 to R369): the statement O34.
-/
namespace Sys2Proof.Slice0
open Sys2Proof Sys2Proof.Machine

/-! ## MOSS_REGION and MOSS_LOAD (R339 to R345, R366 to R368) -/

/-- A rectangle of IDLE tiles of one kind is DEFINED at once. -/
theorem cmdMossRegion_of_idle {s : State} {n x0 x1 y0 y1 : Nat} (h : Head) (hn : n < 128) (hx : x0 ≤ x1) (hx1 : x1 ≤ 15)
    (hy : y0 ≤ y1) (hy1 : y1 ≤ 7) (hfree : (s.region n).st = 0) (hawait : (s.region n).await = none)
    (hidle : ∀ t ∈ rectTiles x0 x1 y0 y1, Map.get 0 s.moss.tiles t = 2) (hkinds : mixesKinds x0 x1 = false)
    (hcolumns : s.columnsOk h.set x0 x1 = true) :
    s.cmdMossRegion h n 0 x0 x1 y0 y1 = ((s.setRegion n { MRegion.free with
      ctx := h.set, tx0 := x0, tx1 := x1, ty0 := y0, ty1 := y1, exact := exactColumn x0, st := 1 }).setTiles
        (rectTiles x0 x1 y0 y1) 3).done h 0x50 0 0 := by
  have hvalid : ¬ (127 < n ∨ 1 < 0 ∨ (0 = 0 ∧ ¬ (x0 ≤ x1 ∧ x1 ≤ 15 ∧ y0 ≤ y1 ∧ y1 ≤ 7))) := by omega
  have hall : ((rectTiles x0 x1 y0 y1).map fun t => Map.get 0 s.moss.tiles t).all (· == 2) = true := by simpa using hidle
  have hany : ((rectTiles x0 x1 y0 y1).map fun t => Map.get 0 s.moss.tiles t).any (fun x => decide (3 ≤ x)) = false := by
    simp only [List.any_map, List.any_eq_false, Function.comp_apply, decide_eq_true_eq]
    intro t ht
    rw [hidle t ht]
    decide
  rw [State.cmdMossRegion, if_neg hvalid, if_pos rfl]
  simp [State.defineRegion, -List.any_map, -List.all_map, hfree, hawait, hany, hkinds, hcolumns, hall]

theorem cmdMossRegion_of_stopped {s : State} {n : Nat} (h : Head) (x0 x1 y0 y1 : Nat) (hn : n < 128) (hst : (s.region n).st ≠ 0)
    (hstopped : (s.region n).st ≠ 3) (hctx : (s.region n).ctx = h.set) :
    s.cmdMossRegion h n 1 x0 x1 y0 y1 = ((s.setTiles (s.region n).tiles 2).setRegion n MRegion.free).done h 0x50 0 0 := by
  simp [State.cmdMossRegion, hst, hstopped, hctx, Nat.not_lt.mpr (Nat.le_of_lt_succ hn)]

/-- A load of legal values gives a region that does not run its problem. -/
theorem cmdMossLoad_of_good {s : State} {n fmt flags src : Nat} {bs : List Byte} (h : Head) (ej eh : Nat) (hn : n < 128)
    (hfmt : fmt = 0 ∨ fmt = 0x0E ∨ fmt = 0xFF) (hflags : flags ≤ 1) (hst : (s.region n).st ≠ 0) (hstopped : (s.region n).st ≠ 3)
    (hctx : (s.region n).ctx = h.set) (hread : s.hostRead src ((s.region n).sourceBytes fmt) = some bs)
    (hfp : (s.region n).fpBad fmt bs = false) (hraw : fmt = 0xFF → (s.region n).rawBad bs = false) :
    ∃ x : Cpl, x.status = 0 ∧ x.extType = 3 ∧ s.cmdMossLoad h n fmt flags ej eh src =
      (s.setRegion n ((s.region n).load fmt bs (flags == 1) (signed 8 ej) (signed 8 eh))).complete h 0x51 x := by
  have hvalid : ¬ (127 < n ∨ ¬ (fmt = 0 ∨ fmt = 0x0E ∨ fmt = 0xFF) ∨ 1 < flags) := by omega
  have hraw : (fmt == 0xFF && (s.region n).rawBad bs) = false := by simpa using hraw
  have hbit : bit flags 0 = (flags == 1) := by
    obtain rfl | rfl : flags = 0 ∨ flags = 1 := by omega
    · rfl
    · rfl
  simp only [State.cmdMossLoad, if_neg hvalid, hst, hstopped, hctx, hread, hfp, hraw, hbit, ne_eq, not_true_eq_false, or_self,
    if_false, Bool.or_self, Bool.false_eq_true]
  exact ⟨_, rfl, rfl, rfl⟩

/-! ## MOSS_RUN and MOSS_RESUME (R351 to R354, R363, R368) -/

/-- A run starts on what the Moss holds, whatever the rest of the state. -/
theorem Started.of_moss {s v t : State} {r : MRun} (h : Started v t r) (hmoss : v.moss = s.moss) : Started s t r := by
  simp only [Started, State.region, hmoss] at h ⊢
  exact h

/-- A region as a run takes it. -/
def takeRegion (r : MRun) (images : List (List Byte)) (k : Nat) (g : MRegion) : MRegion :=
  { g with st := 3, run := r.run, spins := Memory.writeBytes [] 0 (images.getD k []), view := r.firstView }

/-- A run on one device that begins with a sweep takes its regions and their tiles. -/
theorem started_startRun (s : State) {r : MRun} (images : List (List Byte)) (hext : r.ext = none) (hstage : r.stage = 0)
    (hnodup : r.regions.Nodup) : Started s (s.startRun r images) r := by
  let u := changeRegions s (takeRegion r images) r.regions.zipIdx
  have hregion {n : Nat} (hn : n ∈ r.regions) : ∃ k, u.region n = takeRegion r images k (s.region n) := by
    obtain ⟨k, hk⟩ := List.mem_iff_getElem?.mp hn
    exact ⟨k, region_changeRegions_zipIdx s _ hnodup hk⟩
  have hmoss : (s.startRun r images).moss = { (u.setTiles ((r.regions.map fun n => (u.region n).tiles).flatten) 4).moss with
      runs := u.moss.runs ++ [r] } := by
    simp only [State.startRun, State.setUpRun, hext, hstage, if_true]
    exact State.onJob_moss _ _ _
  refine ⟨?runs, fun n hn => ?region, fun n hn x hx => ?tile⟩
  case runs => rw [hmoss, (changeRegions_fields ..).1]
  case region =>
    obtain ⟨k, hk⟩ := hregion hn
    have hsame : (s.startRun r images).region n = u.region n := by rw [State.region, hmoss]; rfl
    rw [hsame, hk]
    exact ⟨rfl, rfl, rfl⟩
  case tile =>
    obtain ⟨k, hk⟩ := hregion hn
    have hx : x ∈ (u.region n).tiles := by rw [hk]; exact hx
    rw [hmoss]
    exact (tile_setTiles ..).trans (if_pos (List.mem_flatten_of_mem (List.mem_map_of_mem hn) hx))

theorem nodup_of_staticOk {d : MossData} {rank devices : Nat} (h : d.staticOk rank devices = true) :
    (d.list.map (·.toNat)).Nodup := by
  simp only [MossData.staticOk, Bool.and_eq_true, decide_eq_true_eq] at h
  exact h.1.2

section
variable {s : State} {h : Head} {op : Nat} {slot : Option Nat} {d : MossData} {g : MRegion} {r : MRun}

/-- What the device reserves for a command has no part in the checks of a run. -/
theorem MayStart.taken (hm : MayStart s h op slot d g r) : MayStart (Slice0.taken s h op) h op slot d g r :=
  ⟨hm.static, hm.first, hm.regions, hm.fresh, hm.run, hm.fits, hm.within⟩

theorem MayStart.nodup (hm : MayStart s h op slot d g r) : r.regions.Nodup := by
  obtain ⟨j, -, hstatic⟩ := hm.static
  rw [hm.run]
  exact nodup_of_staticOk hstatic

/-- What remains of a start once its checks have passed: the slot, or the initial images. -/
def beginRun (s : State) (h : Head) (op : Nat) (d : MossData) (g : MRegion) (r : MRun) : Option Nat → State
  | some a =>
    let b := s.lpxRead a (slotBytes r.replicas g.imageBytes (r.sectionBytes g))
    if s.slotHit a b.length || !s.slotMatches r g b then s.done h op 0x0607 0
    else s.startRun (r.fromSlot g b a) ((List.range r.replicas).map fun k => bytesAt b (384 + k * g.imageBytes) g.imageBytes)
  | none =>
    match s.initialImages r d with
    | none => s.done h op 0x0007 0
    | some images => (s.lpxWrite r.cutArea 5 images.flatten).startRun r images

theorem MayStart.mossStart (hm : MayStart s h op slot d g r) : s.mossStart h op slot d = beginRun s h op d g r slot := by
  obtain ⟨j, hj, hstatic⟩ := hm.static
  obtain ⟨x, xs, hlist, hg⟩ := hm.first
  have hregion {y : MRegion} (hy : y ∈ d.list.map fun n => s.region n.toNat) : y.st = 2 ∧ y.ctx = h.set ∧ y.wx = g.wx ∧ y.wy = g.wy ∧
      y.exact = g.exact ∧ y.digest = g.digest := by
    obtain ⟨n, hn, rfl⟩ := List.mem_map.mp hy
    exact hm.regions n hn
  have hhead : (d.list.map fun n => s.region n.toNat).headD MRegion.free = g := by rw [hlist, hg]; rfl
  have hloaded : (d.list.map fun n => s.region n.toNat).any (fun y => decide (y.st < 2) || y.ctx != h.set) = false :=
    List.any_eq_false.mpr fun y hy => by simp [hregion hy]
  have hfresh : s.moss.runs.any (fun r => r.ctx == h.set && r.run == leAt d.block 8 4 && r.stage != 8) = false := by
    simpa [and_imp] using hm.fresh
  have hidle : (d.list.map fun n => s.region n.toNat).any (fun y => y.st == 3) = false :=
    List.any_eq_false.mpr fun y hy => by simp [hregion hy]
  have halike : (d.list.map fun n => s.region n.toNat).any
      (fun y => y.wx != g.wx || y.wy != g.wy || y.exact != g.exact || y.digest != g.digest) = false :=
    List.any_eq_false.mpr fun y hy => by simp [hregion hy]
  have hfits : d.regionOk (d.run h op g) g = true := hm.run ▸ hm.fits
  have hwithin : s.deniedRange (d.run h op g) g slot = none := hm.run ▸ hm.within
  have hrun := hm.run
  subst hrun
  simp only [State.mossStart, hj, Option.map_some, Option.getD_some, hstatic, hhead, hloaded, hfresh, hidle, halike, hfits, hwithin,
    Bool.not_true, Bool.or_self, Bool.false_eq_true, if_false]
  cases slot <;> rfl

/-- A run of random images starts after them (R354). -/
theorem MayStart.mossStart_of_random (hm : MayStart s h op none d g r) (hinit : r.init = 0) :
    ∃ images, s.mossStart h op none d = (s.lpxWrite r.cutArea 5 images.flatten).startRun r images := by
  simp only [hm.mossStart, beginRun, State.initialImages, hinit, if_true]
  exact ⟨_, rfl⟩

/-- A run resumes from a slot that is its own (R363). -/
theorem MayStart.mossStart_of_slot {a : Nat} {b : List Byte} (hm : MayStart s h op (some a) d g r)
    (hb : b = s.lpxRead a (slotBytes r.replicas g.imageBytes (r.sectionBytes g))) (hhit : s.slotHit a b.length = false)
    (hmatches : s.slotMatches r g b = true) : ∃ images, s.mossStart h op (some a) d = s.startRun (r.fromSlot g b a) images := by
  subst hb
  simp only [hm.mossStart, beginRun, hhit, hmatches, Bool.not_true, Bool.or_self, Bool.false_eq_true, if_false]
  exact ⟨_, rfl⟩

theorem cmdMossRun_of_read {params : Nat} (h : Head) (hread : s.readMoss params = some d) :
    s.cmdMossRun h params = s.mossStart h 0x52 none d := by
  rw [State.cmdMossRun, hread]

theorem cmdMossResume_of_read {params : Nat} (h : Head) (a : Nat) (hread : s.readMoss params = some d) :
    s.cmdMossResume h params a = s.mossStart h 0x54 (some a) d := by
  rw [State.cmdMossResume, hread]

end

/-! ## MOSS_STOP and MOSS_READ (R359, R367) -/

theorem cmdMossStop_of_oneDevice {s : State} {h : Head} {n : Nat} {r : MRun} (hr : s.mossRun h.set n = some r)
    (hstop : r.stop = none) (hext : r.ext = none) : s.cmdMossStop h n = s.putRun { r with stopping := true, stop := some h } := by
  simp [State.cmdMossStop, State.chooseStop, hr, hstop, hext]

theorem cmdMossRead_of_idle {s : State} {h : Head} {n : Nat} (host : Nat) (hn : n < 128) (hst : (s.region n).st ≠ 0)
    (hctx : (s.region n).ctx = h.set) (hrun : s.runOf (s.region n) = none) (hcan : s.hostCanWrite = true) :
    s.cmdMossRead h n host = (s.hostWrite host (s.region n).stateImage).done h 0x55 0 0 := by
  simp [State.cmdMossRead, State.copyRegion, hst, hctx, hrun, hcan, Nat.not_lt.mpr (Nat.le_of_lt_succ hn)]

/-! ## The commands -/

/-- A Moss command that the device takes answers what it does once its records are reserved. -/
theorem Taken.next {s t : State} {h : Head} {op c : Nat} (ht : Taken s h op c) {k : State → State} (hk : k (taken s h op) = t) :
    Machine.onSet h (s.hostCmd h op c k) = .next t :=
  (ht.onSet _).trans (congrArg _ ((ht.hostCmd k).trans hk))

/-- Settles O34: each command is taken, passes its checks, and does what its rule gives. -/
theorem mossCommandsComplete : Obligations.MossCommandsComplete := by
  intro s h n g
  refine ⟨?define, ?free, ?load, ?run, ?resume, ?stop, ?read⟩
  case define =>
    rintro x0 x1 y0 y1 ht rfl hn hx hx1 hy hy1 hfree hawait hidle hkinds hcolumns
    refine ⟨_, ht.next (cmdMossRegion_of_idle (s := taken s h 0x50) h hn hx hx1 hy hy1 hfree hawait hidle hkinds hcolumns), ?_, ?_, ?_⟩
    · rw [region_setTiles, region_setRegion, if_pos rfl]
    · intro m hm
      rw [region_setTiles, region_setRegion, if_neg hm]
      rfl
    · exact fun t => tile_setTiles ..
  case free =>
    rintro x0 x1 y0 y1 ht rfl hn hst hstopped hctx
    refine ⟨_, ht.next (cmdMossRegion_of_stopped (s := taken s h 0x50) h x0 x1 y0 y1 hn hst hstopped hctx), ?_, ?_, ?_⟩
    · rw [region_setRegion, if_pos rfl]
    · intro m hm
      rw [region_setRegion, if_neg hm]
      rfl
    · exact fun t => tile_setTiles ..
  case load =>
    rintro fmt flags ej eh src bs ht rfl hn hfmt hflags hst hstopped hctx hread hfp hraw
    obtain ⟨x, hstatus, htype, hload⟩ :=
      cmdMossLoad_of_good (s := taken s h 0x51) h ej eh hn hfmt hflags hst hstopped hctx hread hfp hraw
    refine ⟨_, x, ht.next hload, hstatus, htype, ?_, ?_⟩
    · rw [region_setRegion, if_pos rfl]
      rfl
    · intro m hm
      rw [region_setRegion, if_neg hm]
      rfl
  case run =>
    intro params d r ht hread hm hext hinit
    obtain ⟨images, hstart⟩ := hm.taken.mossStart_of_random hinit
    have hstage : r.stage = 0 := by rw [hm.run]; rfl
    refine ⟨_, ht.next ((cmdMossRun_of_read (s := taken s h 0x52) h hread).trans hstart), ?_⟩
    exact (started_startRun _ images hext hstage hm.nodup).of_moss rfl
  case resume =>
    intro params slot d r b ht hread hm hext hb hhit hmatches hsweep
    obtain ⟨images, hstart⟩ := hm.taken.mossStart_of_slot hb hhit hmatches
    have hext : (r.fromSlot g b slot).ext = none := by rw [MRun.fromSlot, hext]; rfl
    refine ⟨_, ht.next ((cmdMossResume_of_read (s := taken s h 0x54) h slot hread).trans hstart), ?_⟩
    exact (started_startRun _ images hext (if_neg hsweep) hm.nodup).of_moss rfl
  case stop =>
    intro r ht hr hstop hext
    have hr : (taken s h 0x53).mossRun h.set n = some r := hr
    exact ⟨_, ht.next (cmdMossStop_of_oneDevice hr hstop hext), mem_putRun hr _ rfl rfl⟩
  case read =>
    rintro host ht rfl hn hst hctx hrun hcan
    exact ⟨_, ht.next (cmdMossRead_of_idle (s := taken s h 0x55) host hn hst hctx hrun hcan), rfl⟩

end Sys2Proof.Slice0

/-!
PROOFS. The Moss by itself (R347, R355, R362, R383, R388, R391 to R395): the statement O45.
-/
namespace Sys2Proof.Slice0
open Sys2Proof Sys2Proof.Machine

/-! ## MOSS_HALF_SWEEP (R347, R355) -/

/-- The update of a region's sites of the colour that is due, as replica k of a run on one device. -/
def sweepRegion (s : State) (r : MRun) (k : Nat) (g : MRegion) : MRegion :=
  g.halfSweep (s.mossKey r) r.rule (rungBeta (r.segment r.seg) r.ladder (r.rungs.getD k 0)) none k (r.half / 2) (r.half % 2)

/-- The state once every replica of a run on one device has made its half-sweep; the run itself stands as before. -/
def swept (s : State) (r : MRun) : State :=
  let u := changeRegions s (sweepRegion s r) r.regions.zipIdx
  let updates := (Map.get 0 u.moss.updates r.ctx + r.replicas * ((u.replica r 0).sites / 2)) % 2 ^ 64
  { u with moss := { u.moss with updates := Map.set 0 u.moss.updates r.ctx updates } }

section
variable {s : State} {c n : Nat} {r : MRun}

theorem mossRun_swept (hr : s.mossRun c n = some r) : (swept s r).mossRun c n = some r := by
  have hruns : (swept s r).moss.runs = s.moss.runs := (changeRegions_fields ..).1
  rw [State.mossRun, hruns]
  exact hr

theorem region_swept (hnodup : r.regions.Nodup) {k x : Nat} (hx : r.regions[k]? = some x) :
    (swept s r).region x = sweepRegion s r k (s.region x) := region_changeRegions_zipIdx s _ hnodup hx

theorem region_swept_other {x : Nat} (hx : x ∉ r.regions) : (swept s r).region x = s.region x :=
  region_changeRegions_zipIdx_other s _ hx

theorem halfSweepOf_of_even (hext : r.ext = none) (heven : r.half % 2 = 0) :
    s.halfSweepOf r = (swept s r).putRun { r with half := r.half + 1 } := by
  simp only [State.halfSweepOf, MRun.edge, hext, heven, Option.map_none, State.sendFaces, swept, sweepRegion, changeRegions,
    Nat.zero_ne_one, if_false]

theorem halfSweepOf_of_odd (hext : r.ext = none) (hodd : r.half % 2 = 1) :
    s.halfSweepOf r = State.mossAdvance mossFuel ((swept s r).putRun { r with
      half := r.half + 1, sweep := r.sweep + 1, segSweep := r.segSweep + 1, stage := 1 }) r.ctx r.run := by
  simp only [State.halfSweepOf, MRun.edge, hext, hodd, Option.map_none, State.sendFaces, swept, sweepRegion, changeRegions, if_true]

/-- Without an error that ECC cannot correct the half-sweep is made. -/
theorem mossHalfSweep_of_sound {e : Ecc} (hc : c < 16) (he : e = .clean ∨ ∃ a, e = .corrected a) (hr : s.mossRun c n = some r)
    (hsweep : s.canSweep r = true) : exec (.mossHalfSweep c n e) s = .next (s.halfSweepOf r) := by
  refine onCtx_next hc ?_
  rcases he with rfl | ⟨a, rfl⟩ <;> simp [hr, hsweep]

end

/-! ## Writes that end (R362, R383) -/

section
variable {s : State} {c n : Nat} {r : MRun}

/-- The trailer of a cutting of a run that sweeps is written last. -/
theorem annealCutWriteDone_of_sweeping {slot sweep dpa : Nat} {trailer : List Byte} (hc : c < 16)
    (hr : (s.moss.runs.find? fun r => r.ctx == c && r.run == n && r.cut.isSome) = some r) (hstage : r.stage = 0)
    (hcut : r.cut = some (slot, sweep, dpa, trailer)) : exec (.annealCutWriteDone c n) s =
      .next ((s.lpxWrite dpa 5 trailer).putRun { r with cut := none, lastCut := some (slot, sweep) }) := by
  obtain ⟨⟨hctx, hrun⟩, -⟩ : (r.ctx = c ∧ r.run = n) ∧ r.cut.isSome = true := by simpa using List.find?_some hr
  refine onCtx_next hc ?_
  have hrunning : r.stage ≤ 6 := by omega
  simp only [hr, hcut, hrunning, if_true]
  exact mossAdvance_of_sweeping (r := { r with cut := none, lastCut := some (slot, sweep) }) rfl hctx hrun hstage _

/-- The section of a run that sweeps is written to RES_AREA. -/
theorem resultVectorWriteDone_of_sweeping (hc : c < 16) (hr : s.mossRun c n = some r) (hstage : r.stage = 0)
    (hbusy : r.resBusy = true) : exec (.resultVectorWriteDone c n) s =
      .next ((s.putRun { r with resBusy := false }).putSection { r with resBusy := false }) := by
  obtain ⟨-, hctx, hrun, -⟩ := mossRun_some hr
  refine onCtx_next hc ?_
  simp only [hr, hbusy, if_true]
  refine mossAdvance_of_sweeping (s := s) (r := { r with resBusy := false }) ?_ hctx hrun hstage _
  rfl

end

/-! ## Extended runs (R388, R391 to R395) -/

section
variable {s : State} {c : Nat} {r : MRun} {x : MExt}

theorem onExt_of_some (hx : r.ext = some x) (f : MExt → MExt) : r.onExt f = { r with ext := some (f x) } := by
  rw [MRun.onExt, hx]
  rfl

theorem gotFace_of_prev {m : MossFaceMsg} (hsnap : m.snapshot = false) (hprev : x.hasPrev = true) (hpart : m.part + 1 = x.part) :
    x.gotFace m = { x with facePrev := some m } := by
  simp [MExt.gotFace, hprev, hpart, hsnap]

theorem gotFace_of_next {m : MossFaceMsg} (hsnap : m.snapshot = false) (hnext : x.hasNext = true) (hpart : m.part = x.part + 1) :
    x.gotFace m = { x with faceNext := some m } := by
  have hother : ¬ (x.hasPrev = true ∧ m.part + 1 = x.part) := by omega
  rw [MExt.gotFace, if_neg hother, if_pos ⟨hnext, hpart⟩, if_neg (by simp [hsnap])]

/-- A change of its extension does not move a run that sweeps. -/
theorem mossAdvance_putExt (hctx : r.ctx = c) (hstage : r.stage = 0) (x : MExt) :
    State.mossAdvance mossFuel (s.putRun { r with ext := some x }) c r.run = s.putRun { r with ext := some x } :=
  mossAdvance_of_sweeping (r := { r with ext := some x }) rfl hctx rfl hstage _

/-- The lead part does not start the run while a set-up is missing (R388). -/
theorem leadStart_of_missing {q : Nat} (hx : r.ext = some x) (hq : q < x.parts) (hmissing : ∀ y ∈ x.setups, y.part ≠ q) :
    s.leadStart r = s := by
  have hall : ((List.range x.parts).all fun p => x.setups.any fun m => m.part == p) = false := by
    rw [List.all_eq_false]
    exact ⟨q, List.mem_range.mpr hq, by simpa using hmissing⟩
  simp only [State.leadStart, hx, hall, Bool.and_false, Bool.false_eq_true, if_false]

/-- The lead part decides no sweep of which a part's partials are missing (R393). -/
theorem leadDecide_of_missing (hx : r.ext = some x)
    (hmissing : ∀ w, ∃ q, q < x.parts ∧ ∀ y ∈ x.partials, y.sweep = w → y.part ≠ q) : s.leadDecide r = s := by
  have hnone : (x.partials.find? fun m => (List.range x.parts).all fun p =>
      x.partials.any fun q => q.sweep == m.sweep && q.part == p) = none := by
    rw [List.find?_eq_none]
    intro m _ hall
    obtain ⟨q, hq, hq'⟩ := hmissing m.sweep
    obtain ⟨y, hy, hym⟩ := List.any_eq_true.mp (List.all_eq_true.mp hall q (List.mem_range.mpr hq))
    simp only [Bool.and_eq_true, beq_iff_eq] at hym
    exact hq' y hy hym.1 hym.2
  simp only [State.leadDecide, hx, hnone, ite_self]

section
variable {i : Nat} (hc : c < 16) (hr : s.mossExt c i = some r) (hx : r.ext = some x) (hstage : r.stage = 0)
include hc hr hx hstage

theorem mossSetup_of_missing {m : MossSetupMsg} (hid : m.extId = i) (hlead : x.isLead = true) (hready : x.ready = false)
    (hmissing : ∃ q, q < x.parts ∧ q ≠ m.part ∧ ∀ y ∈ x.setups, y.part ≠ q) :
    exec (.mossSetup c m) s = .next (s.putRun { r with ext := some (x.gotSetup m) }) := by
  obtain ⟨q, hq, hqm, hmissing⟩ := hmissing
  have hstill : ∀ y ∈ (x.gotSetup m).setups, y.part ≠ q := by
    intro y hy
    rcases List.mem_append.mp hy with hy | hy
    · exact hmissing y (List.mem_filter.mp hy).1
    · rw [List.mem_singleton.mp hy]
      exact hqm.symm
  subst hid
  refine onCtx_next hc ?_
  have hwaits : (r.ext.any fun x => x.isLead && !x.ready) = true := by simp [hx, hlead, hready]
  simp only [hr, hwaits, onExt_of_some hx, if_true]
  rw [leadStart_of_missing rfl (by exact hq) hstill]
  exact mossAdvance_putExt (mossExt_ctx hr) hstage _

theorem mossFace_of_sweeping {m : MossFaceMsg} (hid : m.extId = i) :
    exec (.mossFace c m) s = .next (s.putRun { r with ext := some (x.gotFace m) }) := by
  subst hid
  refine onCtx_next hc ?_
  simp only [hr, onExt_of_some hx]
  exact mossAdvance_putExt (mossExt_ctx hr) hstage _

theorem mossPartials_of_missing {m : MossPartialsMsg} (hid : m.extId = i) (hlead : x.isLead = true) (hpart : m.part < x.parts)
    (hnew : ∀ q ∈ x.partials, q.part ≠ m.part ∨ q.sweep ≠ m.sweep)
    (hmissing : ∀ w, ∃ q, q < x.parts ∧ (q ≠ m.part ∨ w ≠ m.sweep) ∧ ∀ y ∈ x.partials, y.sweep = w → y.part ≠ q) :
    exec (.mossPartials c m) s = .next (s.putRun { r with ext := some { x with partials := x.partials ++ [m] } }) := by
  have hkept : (x.partials.filter fun y => !(y.part == m.part && y.sweep == m.sweep)) = x.partials :=
    List.filter_eq_self.mpr fun y hy => by
      rcases hnew y hy with hne | hne
      · rw [beq_false_of_ne hne, Bool.false_and, Bool.not_false]
      · rw [beq_false_of_ne hne, Bool.and_false, Bool.not_false]
  have hstill : ∀ w, ∃ q, q < x.parts ∧ ∀ y ∈ x.partials ++ [m], y.sweep = w → y.part ≠ q := by
    intro w
    obtain ⟨q, hq, hqm, hmissing⟩ := hmissing w
    refine ⟨q, hq, fun y hy hw => ?_⟩
    rcases List.mem_append.mp hy with hy | hy
    · exact hmissing y hy hw
    · obtain rfl := List.mem_singleton.mp hy
      exact fun h => hqm.elim (fun hne => hne h.symm) (fun hne => hne hw.symm)
  subst hid
  refine onCtx_next hc ?_
  have htakes : (r.ext.any fun x => x.isLead && decide (m.part < x.parts)) = true := by simp [hx, hlead, hpart]
  simp only [hr, htakes, onExt_of_some hx, hkept, if_true]
  rw [leadDecide_of_missing rfl (by exact hstill)]
  exact mossAdvance_putExt (mossExt_ctx hr) hstage _

/-- A decision that changes the extension of a run that sweeps. -/
theorem mossDecision_of_sweeping (hlead : x.isLead = false) :
    (exec (.mossDecision c (.start i)) s = .next (s.putRun { r with ext := some { x with ready := true } })) ∧
    ∀ k, exec (.mossDecision c (.cut i k)) s = .next (s.putRun { r with ext := some { x with cutAt := some k } }) ∧
      exec (.mossDecision c (.stop i k)) s = .next (s.putRun { r with ext := some { x with stopAt := some k } }) := by
  have happlies {m : MossDecisionMsg} {x' : MExt} (hm : s.gotDecision r x m = s.putRun { r with ext := some x' }) :
      (if x.isLead then s else State.mossAdvance mossFuel (s.gotDecision r x m) c r.run) = s.putRun { r with ext := some x' } := by
    rw [hlead, hm]
    exact mossAdvance_putExt (mossExt_ctx hr) hstage _
  refine ⟨onCtx_next hc ?_, fun k => ⟨onCtx_next hc ?_, onCtx_next hc ?_⟩⟩ <;> simp only [hr, hx] <;>
    exact happlies (by simp only [State.gotDecision, onExt_of_some hx])

end

/-- The greatest staleness of a part that starts its half-sweep (R399). -/
def startStaleness (r : MRun) (x : MExt) : Nat :=
  Nat.max x.maxStale (Nat.max (if x.hasPrev then x.staleness r.half x.facePrev else 0)
    (if x.hasNext then x.staleness r.half x.faceNext else 0))

theorem mossExtHalfSweepStart_of_ready {n : Nat} (hc : c < 16) (hr : s.mossRun c n = some r) (hx : r.ext = some x)
    (hstage : r.stage = 0) (hready : x.ready = true) (hstarted : x.started = false) (hmay : x.mayStart r.half = true) :
    exec (.mossExtHalfSweepStart c n) s = .next ((s.putRun { r with
      ext := some { x with started := true, maxStale := startStaleness r x } }).onRegions r.regions
        fun g => { g with view := { g.view with maxStale := startStaleness r x } }) := by
  refine onCtx_next hc ?_
  simp only [hr, hx, hstage, hready, hstarted, onExt_of_some hx]
  simp only [hmay, and_self, if_true]
  rfl

end

/-! ## The events -/

/-- Settles O45: a half-sweep changes the regions of its run; every other event finds a run that sweeps, which takes no action of a
sweep boundary. -/
theorem mossEventsComplete : Obligations.MossEventsComplete := by
  intro c n s r hc
  refine ⟨?even, ?odd, ?cutDone, ?resultDone, ?early, ?setup, ?face, ?start, ?partials, ?decision⟩
  case even =>
    intro e he hr hsweep hext hnodup heven
    refine ⟨_, (mossHalfSweep_of_sound hc he hr hsweep).trans (congrArg _ (halfSweepOf_of_even hext heven)), ?_, ?_, ?_⟩
    · exact mem_putRun (mossRun_swept hr) _ rfl rfl
    · intro k x hx
      exact (region_swept hnodup hx).trans (by rw [sweepRegion, heven])
    · exact fun x hx => region_swept_other hx
  case odd =>
    intro hr hsweep hext hnodup hodd
    obtain ⟨-, rfl, rfl, -⟩ := mossRun_some hr
    refine ⟨_, (mossHalfSweep_of_sound hc (.inl rfl) hr hsweep).trans (congrArg _ (halfSweepOf_of_odd hext hodd)), _, rfl, ?_, ?_⟩
    · exact mem_putRun (mossRun_swept hr) _ rfl rfl
    · intro k x hx
      exact (region_swept hnodup hx).trans (by rw [sweepRegion, hodd])
  case cutDone =>
    intro slot sweep dpa trailer hr hstage hcut
    exact ⟨_, annealCutWriteDone_of_sweeping hc hr hstage hcut, onlyRun_putRun _ rfl rfl⟩
  case resultDone =>
    intro hr hstage hbusy
    exact ⟨_, resultVectorWriteDone_of_sweeping hc hr hstage hbusy, lpxMem_lpxWrite_congr rfl rfl rfl .., rfl⟩
  case early =>
    intro m j hr hj hst
    refine ⟨_, onCtx_next hc ?_, rfl⟩
    simp only [hr, hj, hst, if_true]
  case setup =>
    intro x m hr hx hstage hid hlead hready hmissing
    exact ⟨_, mossSetup_of_missing hc hr hx hstage hid hlead hready hmissing, onlyRun_putRun s rfl rfl⟩
  case face =>
    intro x m hr hx hstage hid hsnap
    have hface := mossFace_of_sweeping hc hr hx hstage hid
    refine ⟨fun hprev hpart => ⟨_, hface, ?_⟩, fun hnext hpart => ⟨_, hface, ?_⟩⟩
    · rw [gotFace_of_prev hsnap hprev hpart]
      exact onlyRun_putRun s rfl rfl
    · rw [gotFace_of_next hsnap hnext hpart]
      exact onlyRun_putRun s rfl rfl
  case start =>
    intro x hr hx hstage hready hstarted hmay
    exact ⟨_, mossExtHalfSweepStart_of_ready hc hr hx hstage hready hstarted hmay, startStaleness r x, rfl, Nat.le_max_left ..⟩
  case partials =>
    intro x m hr hx hstage hid hlead hpart hnew hmissing
    exact ⟨_, mossPartials_of_missing hc hr hx hstage hid hlead hpart hnew hmissing, onlyRun_putRun s rfl rfl⟩
  case decision =>
    intro x k hr hx hstage hlead
    obtain ⟨hstart, hothers⟩ := mossDecision_of_sweeping hc hr hx hstage hlead
    obtain ⟨hcut, hstop⟩ := hothers k
    exact ⟨⟨_, hstart, onlyRun_putRun s rfl rfl⟩, ⟨_, hcut, onlyRun_putRun s rfl rfl⟩, ⟨_, hstop, onlyRun_putRun s rfl rfl⟩⟩

end Sys2Proof.Slice0

/-!
PROOFS. What the end of a job stops and what it retains (R151, R338, R427, R462, R474, R637): the statement O30.
-/
namespace Sys2Proof.Slice0
open Sys2Proof Sys2Proof.Machine

/-! ## The work of the device -/

/-- Both states hold the same work: the same jobs, cores, transfers and Moss runs. -/
structure SameWork (s t : State) : Prop where
  jobs : t.jobs = s.jobs
  cores : t.cores = s.cores
  streamers : t.streamers = s.streamers
  runs : t.moss.runs = s.moss.runs

theorem SameWork.refl (s : State) : SameWork s s := ⟨rfl, rfl, rfl, rfl⟩

theorem SameWork.trans {s t u : State} (h : SameWork s t) (k : SameWork t u) : SameWork s u :=
  ⟨k.jobs.trans h.jobs, k.cores.trans h.cores, k.streamers.trans h.streamers, k.runs.trans h.runs⟩

/-- A state with the same jobs, cores, transfers and Moss. -/
theorem SameWork.of_moss {s t : State} (hjobs : t.jobs = s.jobs) (hcores : t.cores = s.cores) (hstreamers : t.streamers = s.streamers)
    (hmoss : t.moss = s.moss) : SameWork s t := ⟨hjobs, hcores, hstreamers, congrArg Moss.runs hmoss⟩

theorem sameWork_foldl {α : Type} (f : State → α → State) (hf : ∀ s a, SameWork s (f s a)) (l : List α) (s : State) :
    SameWork s (l.foldl f s) := by
  induction l generalizing s with
  | nil => exact .refl s
  | cons a l ih => exact (hf s a).trans (ih (f s a))

/-! ## Completions, events and ring sets leave the work alone -/

theorem sameWork_setRingState (s : State) (set st : Nat) : SameWork s (s.setRingState set st) :=
  .of_moss (by simp) (by simp) (by simp) (by simp)

theorem sameWork_setRing (s : State) (c : Nat) (r : RingSet) : SameWork s (s.setRing c r) := ⟨rfl, rfl, rfl, rfl⟩

theorem sameWork_haltRing (s : State) (set err : Nat) : SameWork s (s.haltRing set err) := by
  unfold State.haltRing
  dsimp only
  split
  · exact .refl s
  · exact (sameWork_setRing ..).trans (sameWork_setRingState ..)

theorem sameWork_completeEnd (s : State) (h : Head) (op : Nat) (c : Cpl) : SameWork s (s.completeEnd h op c) := by
  unfold State.completeEnd
  split
  · exact .of_moss (by simp) (by simp) (by simp) (by simp)
  · exact (sameWork_setRing ..).trans (sameWork_haltRing ..)

theorem sameWork_postDev (s : State) (source code status : Nat) (payload : List Byte) : SameWork s (s.postDev source code status payload) :=
  .of_moss (by simp) (by simp) (by simp) (by simp)

theorem sameWork_postJob (s : State) (c code status : Nat) (payload : List Byte) : SameWork s (s.postJob c code status payload) :=
  .of_moss (by simp) (by simp) (by simp) (by simp)

theorem sameWork_sendJob (s : State) (c kind : Nat) (body : List Byte) : SameWork s (s.sendJob c kind body) := by
  unfold State.sendJob
  split
  · split
    · exact ⟨rfl, rfl, rfl, rfl⟩
    · exact .refl s
  · exact .refl s

theorem sameWork_endRing (s : State) (c : Nat) : SameWork s (s.endRing c) := by
  unfold State.endRing
  dsimp only
  split
  · exact (sameWork_setRing ..).trans (sameWork_setRingState ..)
  · exact sameWork_setRing ..

/-! ## Moss domains, sparing marks and snapshots leave the work alone -/

theorem sameWork_postDomain (s : State) (pd on : Nat) : SameWork s (s.postDomain pd on) := by
  unfold State.postDomain
  exact sameWork_postDev ..

theorem sameWork_setTiles (s : State) (ts : List Nat) (v : Nat) : SameWork s (s.setTiles ts v) := ⟨rfl, rfl, rfl, rfl⟩

theorem sameWork_domainOff (s : State) {pd : Nat} (hpd : pd = 11 ∨ pd = 12) : SameWork s (s.domainOff pd) := by
  have hcores : ¬ (3 ≤ pd ∧ pd ≤ 10) := by omega
  simp only [State.domainOff, if_neg hcores, if_pos hpd]
  split
  · exact .refl s
  · refine SameWork.trans ?_ (sameWork_postDomain ..)
    refine SameWork.trans ?_ (sameWork_setTiles ..)
    exact ⟨rfl, rfl, rfl, rfl⟩

theorem sameWork_mossIdle (s : State) : SameWork s s.mossIdle := by
  have idle (h pd : Nat) (hpd : pd = 11 ∨ pd = 12) (u : State) : SameWork u (if u.regionIn h then u else u.domainOff pd) := by
    split
    · exact .refl u
    · exact sameWork_domainOff u hpd
  exact (idle 0 11 (.inl rfl) s).trans (idle 1 12 (.inr rfl) _)

theorem sameWork_clearRegions (s : State) (sel : MRegion → Bool) : SameWork s (s.clearRegions sel) := by
  unfold State.clearRegions
  exact ⟨rfl, rfl, rfl, rfl⟩

theorem sameWork_mark (s : State) (m : Mark) : SameWork s (s.mark m) := by
  unfold State.mark
  split <;> exact ⟨rfl, rfl, rfl, rfl⟩

theorem sameWork_endCounts (s : State) (halves : Nat) : SameWork s (s.endCounts halves) :=
  (sameWork_foldl _ (fun (u : State) (kv : Nat × Nat) => sameWork_mark u ⟨0, kv.1, 0x03⟩) _ s).trans ⟨rfl, rfl, rfl, rfl⟩

theorem sameWork_takeSnap (s : State) (h : Nat) : SameWork s (s.takeSnap h) := by
  unfold State.takeSnap
  exact ⟨rfl, rfl, rfl, rfl⟩

theorem sameWork_takeSnaps (s : State) (mask : Nat) : SameWork s (s.takeSnaps mask) := by
  have half (b : Bool) (h : Nat) (u : State) : SameWork u (if b then u.takeSnap h else u) := by
    split
    · exact sameWork_takeSnap u h
    · exact .refl u
  exact (half (bit mask 0) 0 s).trans (half (bit mask 1) 1 _)

/-! ## What a job has on the Moss, the cores and the transfers -/

/-- The Moss runs of the context are gone. -/
theorem failMoss_fields (s : State) (c status : Nat) :
    (s.failMoss c status).jobs = s.jobs ∧ (s.failMoss c status).cores = s.cores ∧ (s.failMoss c status).streamers = s.streamers ∧
      (s.failMoss c status).moss.runs = s.moss.runs.filter (fun r => r.ctx != c) := by
  have hends (l : List (Head × Nat)) :
      SameWork s (l.foldl (fun (s : State) e => s.completeEnd e.1 e.2 (Cpl.plain status 0)) s) :=
    sameWork_foldl _ (fun u e => sameWork_completeEnd u e.1 e.2 _) l s
  exact ⟨(hends _).jobs, (hends _).cores, (hends _).streamers, congrArg (List.filter fun r : MRun => r.ctx != c) (hends _).runs⟩

theorem dropStreams_fields (s : State) (c : Nat) :
    (s.dropStreams c).jobs = s.jobs ∧ (s.dropStreams c).cores = s.cores ∧
      (s.dropStreams c).streamers = s.streamers.filter (fun t => t.ctx != c) ∧ (s.dropStreams c).moss.runs = s.moss.runs :=
  ⟨rfl, rfl, rfl, rfl⟩

/-- The halves whose cores stop at the end of a job: none for one that is suspended. -/
def stoppingHalves (j : Job) : Nat := if j.st = JobSt.suspended then 0 else j.halves

/-- Between the end of its Moss and the events of its end, a job's cores stop and its transfers are dropped. -/
theorem windJob_work (s : State) (c status : Nat) (j : Job) :
    ∃ u, SameWork (s.failMoss c status) u ∧
      SameWork ((u.onCores (inHalves (stoppingHalves j)) fun _ x => x.stopped).dropStreams c) (s.windJob c status j) :=
  ⟨_, (sameWork_clearRegions ..).trans (sameWork_mossIdle ((s.failMoss c status).clearRegions fun g => g.ctx == c)),
    (sameWork_endCounts ..).trans ((sameWork_takeSnaps ..).trans (sameWork_postJob ..))⟩

theorem windJob_fields (s : State) (c status : Nat) (j : Job) :
    (s.windJob c status j).jobs = s.jobs ∧ (s.windJob c status j).streamers = s.streamers.filter (fun t => t.ctx != c) ∧
      (s.windJob c status j).moss.runs = s.moss.runs.filter (fun r => r.ctx != c) ∧
      ∀ p, (s.windJob c status j).core p = if p < 544 ∧ inHalves (stoppingHalves j) p = true then (s.core p).stopped else s.core p := by
  obtain ⟨u, hu, hwind⟩ := windJob_work s c status j
  obtain ⟨hjobs, hcores, hstreamers, hruns⟩ := failMoss_fields s c status
  have hdropped := dropStreams_fields (u.onCores (inHalves (stoppingHalves j)) fun _ x => x.stopped) c
  obtain ⟨hdropJobs, hdropCores, hdropStreamers, hdropRuns⟩ := hdropped
  refine ⟨?jobs, ?streamers, ?runs, fun p => ?core⟩
  case jobs => rw [hwind.jobs, hdropJobs, State.onCores_jobs, hu.jobs, hjobs]
  case streamers => rw [hwind.streamers, hdropStreamers, State.onCores_streamers, hu.streamers, hstreamers]
  case runs => rw [hwind.runs, hdropRuns, State.onCores_moss, hu.runs, hruns]
  case core => rw [core_of_cores (hwind.cores.trans hdropCores), core_onCores, core_of_cores (hu.cores.trans hcores)]

/-! ## The end of a job -/

/-- A job that runs or is suspended is wound up and then stands as ended. -/
theorem endJob_of_live {s : State} {c : Nat} {j : Job} (hj : s.job c = some j) (hlive : j.st = .running ∨ j.st = .suspended)
    (status : Nat) :
    SameWork (((s.sendJob c 0x31 (toLe 2 j.params.rank)).windJob c status j).setJob c (j.endWith status)) (s.endJob c status) := by
  have hended : ¬ j.st = .ended := by rcases hlive with h | h <;> simp [h]
  have hwaits : ¬ j.st = .waitSeed := by rcases hlive with h | h <;> simp [h]
  have hregrows : ¬ j.st = .regrow := by rcases hlive with h | h <;> simp [h]
  simp only [State.endJob, hj, if_neg hended, if_neg hwaits, if_neg hregrows]
  refine SameWork.trans ?_ (sameWork_endRing ..)
  split <;> exact .of_moss rfl rfl rfl rfl

theorem stopped_running {x : Core} (h : x.st = .running) : x.stopped.st = .idle := by
  simp only [Core.stopped, h, if_true]

/-- Settles O30: the job is wound up, and nothing after that touches the work. -/
theorem jobEndRetainsJob : Obligations.JobEndRetainsJob := by
  intro s c status j hj hlive
  have hend := endJob_of_live hj hlive status
  have hsend := sameWork_sendJob s c 0x31 (toLe 2 j.params.rank)
  obtain ⟨hjobs, hstreamers, hruns, hcore⟩ := windJob_fields (s.sendJob c 0x31 (toLe 2 j.params.rank)) c status j
  have hcores (p : Nat) : (s.endJob c status).core p =
      if p < 544 ∧ inHalves (stoppingHalves j) p = true then (s.core p).stopped else s.core p := by
    rw [core_of_cores hend.cores, ← core_of_cores hsend.cores p]
    exact hcore p
  refine ⟨?job, rfl, rfl, fun q hq => ?others, ?streamers, ?runs, fun hrunning p hp hhalf hst => ?stops, fun p hp hhalf => ?stays⟩
  case job => rw [job_of_jobs hend.jobs, job_setJob_same]
  case others =>
    rw [job_of_jobs hend.jobs, State.job_setJob, if_neg hq, job_of_jobs (hjobs.trans hsend.jobs)]
  case streamers => exact hend.streamers.trans (hstreamers.trans (congrArg _ hsend.streamers))
  case runs => exact hend.runs.trans (hruns.trans (congrArg _ hsend.runs))
  case stops =>
    have hin : inHalves (stoppingHalves j) p = true := by simpa [stoppingHalves, hrunning, inHalves, coreHalf] using hhalf
    rw [hcores, if_pos ⟨hp, hin⟩, stopped_running hst]
  case stays =>
    have hout : inHalves (stoppingHalves j) p = false := by
      unfold stoppingHalves
      split
      · exact Nat.zero_testBit _
      · exact hhalf
    rw [hcores, if_neg (by simp [hout])]

end Sys2Proof.Slice0

/-!
PROOFS. NOP and the commands that open, end and release a job (R427, R468, R469, R474, R504, R515, R636): the statement O29.
-/
namespace Sys2Proof.Slice0
open Sys2Proof Sys2Proof.Machine

/-! ## A sparing point (R636) leaves jobs, random requests and ports alone -/

@[simp] theorem checkDegraded_fields (s : State) (h : Nat) :
    (s.checkDegraded h).jobs = s.jobs ∧ (s.checkDegraded h).ens = s.ens ∧ (s.checkDegraded h).rz = s.rz := by
  unfold State.checkDegraded
  dsimp only
  split
  · simp
  · simp

@[simp] theorem retireUnit_fields (s : State) (m : Mark) :
    (s.retireUnit m).jobs = s.jobs ∧ (s.retireUnit m).ens = s.ens ∧ (s.retireUnit m).rz = s.rz := by
  by_cases hcore : m.kind = 0
  · simp only [State.retireUnit, if_pos hcore]
    split <;> exact ⟨rfl, rfl, rfl⟩
  · simp only [State.retireUnit, if_neg hcore]
    split <;> exact ⟨rfl, rfl, rfl⟩

@[simp] theorem enterRound_fields (s : State) (units : List (Nat × Nat)) :
    (s.enterRound units).jobs = s.jobs ∧ (s.enterRound units).ens = s.ens ∧ (s.enterRound units).rz = s.rz := by
  unfold State.enterRound
  split <;> exact ⟨rfl, rfl, rfl⟩

@[simp] theorem restoreUnit_fields (s : State) (m : Mark) :
    (s.restoreUnit m).jobs = s.jobs ∧ (s.restoreUnit m).ens = s.ens ∧ (s.restoreUnit m).rz = s.rz := by
  unfold State.restoreUnit
  dsimp only
  split
  · exact ⟨rfl, rfl, rfl⟩
  · split
    · exact enterRound_fields (State.setCore _ m.unit _) _
    · exact enterRound_fields (State.setTiles _ [m.unit] 1) _

@[simp] theorem remap_fields (s : State) : s.remap.jobs = s.jobs ∧ s.remap.ens = s.ens ∧ s.remap.rz = s.rz := by
  simp [State.remap]

@[simp] theorem sparingPoint_fields (s : State) (mask : Nat) :
    (s.sparingPoint mask).jobs = s.jobs ∧ (s.sparingPoint mask).ens = s.ens ∧ (s.sparingPoint mask).rz = s.rz := by
  have half (b : Bool) (h : Nat) (u : State) : (if b then u.checkDegraded h else u).jobs = u.jobs ∧
      (if b then u.checkDegraded h else u).ens = u.ens ∧ (if b then u.checkDegraded h else u).rz = u.rz := by
    cases b <;> simp
  have remapped (b : Bool) (u : State) : (if b then u else u.remap).jobs = u.jobs ∧ (if b then u else u.remap).ens = u.ens ∧
      (if b then u else u.remap).rz = u.rz := by
    cases b <;> simp
  simp only [State.sparingPoint, half, remapped]
  simp [foldl_jobs, foldl_ens, foldl_rz]

/-! ## The links of a job that opens or is released (R504, R515, R523) -/

theorem port_of_rz {s t : State} (h : t.rz = s.rz) (p : Nat) : t.port p = s.port p := congrArg (fun z : Rz => Map.get Port.init z.ports p) h

/-- A port whose counters restart. -/
def freshPort (s : State) (p : Nat) : State := s.setPort p (s.port p).fresh

theorem st_port_freshPort (s : State) (p q : Nat) : ((freshPort s p).port q).st = (s.port q).st := by
  rw [freshPort, State.port_setPort]
  split
  · next h => rw [h, Port.fresh]
  · rfl

/-- A job that opens restarts the counters of its ports; with none of them UP no port sends TRAIN or joins. -/
theorem jobs_foldl_freshPort (ps : List Nat) (s : State) (hdown : ∀ p ∈ ps, (s.port p).st ≠ 2) :
    (ps.foldl (fun (s : State) p => if ((freshPort s p).port p).st = 2 then ((freshPort s p).sendTrain p).tryJoin p
      else freshPort s p) s).jobs = s.jobs := by
  induction ps generalizing s with
  | nil => rfl
  | cons p ps ih =>
    have hp : ((freshPort s p).port p).st ≠ 2 := by
      rw [st_port_freshPort]
      exact hdown p List.mem_cons_self
    rw [List.foldl_cons, if_neg hp]
    refine ih (freshPort s p) fun q hq => ?_
    rw [st_port_freshPort]
    exact hdown q (List.mem_cons_of_mem p hq)

theorem openLinks_jobs {s : State} {c : Nat} {j : Job} (hj : s.job c = some j) (hdown : ∀ p ∈ portsOf j.halves, (s.port p).st ≠ 2) :
    (s.openLinks c).jobs = s.jobs := by
  have hfold (l : JobLink) := jobs_foldl_freshPort (portsOf j.halves) { s with links := Map.put s.links c l } hdown
  simp only [State.openLinks, hj]
  split <;> exact hfold _

theorem closeLinks_fields (s : State) (c halves : Nat) :
    (s.closeLinks c halves).jobs = s.jobs ∧ (s.closeLinks c halves).kernels = s.kernels := by
  refine ⟨(foldl_jobs _ _ _ fun u p => ?_).trans rfl, (foldl_kernels _ _ _ fun u p => ?_).trans rfl⟩
  · dsimp only
    split <;> rfl
  · dsimp only
    split <;> rfl

/-! ## JOB_OPEN (R469) -/

theorem clearRefStall_fields (s : State) (halves : Nat) :
    (s.clearRefStall halves).jobs = s.jobs ∧ (s.clearRefStall halves).rz = s.rz := by
  refine ⟨foldl_jobs _ _ _ fun u i => ?_, foldl_rz _ _ _ fun u i => ?_⟩
  · split <;> rfl
  · split <;> rfl

/-- What a job is once it has its seed. -/
def startedJob (j : Job) (seed : W128) : Job := { j with st := .running, seed := seed, openHead := none }

/-- A job that has its seed runs, and its JOB_OPEN completes with the seed. -/
theorem startJob_of_down {s : State} {c : Nat} {j : Job} {h : Head} (hj : s.job c = some j) (hhead : j.openHead = some h)
    (hdown : ∀ p ∈ portsOf j.halves, (s.port p).st ≠ 2) (seed : W128) :
    ∃ u : State, s.startJob c seed = u.complete h 0x01 ⟨0, 0, 0, 1, [toLe 16 seed.toNat ++ toLe 8 0]⟩ ∧
      u.jobs = (s.setJob c (startedJob j seed)).jobs := by
  have hlinks (u : State) (hjobs : u.jobs = (s.setJob c (startedJob j seed)).jobs) (hrz : u.rz = s.rz) :
      ((u.clearRefStall j.halves).openLinks c).jobs = (s.setJob c (startedJob j seed)).jobs := by
    obtain ⟨hcleared, hclearedRz⟩ := clearRefStall_fields u j.halves
    have hjob : (u.clearRefStall j.halves).job c = some (startedJob j seed) := by
      rw [job_of_jobs (hcleared.trans hjobs), job_setJob_same]
    refine (openLinks_jobs hjob fun p hp => ?_).trans (hcleared.trans hjobs)
    rw [port_of_rz (hclearedRz.trans hrz)]
    exact hdown p hp
  simp only [State.startJob, hj, hhead]
  refine ⟨_, rfl, ?_⟩
  split
  · exact hlinks _ rfl rfl
  · exact hlinks _ rfl rfl

/-- The job of a JOB_OPEN, made after the sparing point. -/
def openingJob (s : State) (h : Head) (p : JobParams) (seed : W128) : Job :=
  Job.fresh p (s.halvesOf h.set) (s.sparingPoint (s.halvesOf h.set)).split h seed

/-- The state in which JOB_OPEN has powered its domains and made its job. -/
def opened (s : State) (h : Head) (p : JobParams) (seed : W128) : State :=
  ((s.sparingPoint (s.halvesOf h.set)).powerOn (jobDomains (s.halvesOf h.set))).setJob h.set (openingJob s h p seed)

theorem opened_fields (s : State) (h : Head) (p : JobParams) (seed : W128) :
    (opened s h p seed).jobs = (s.setJob h.set (openingJob s h p seed)).jobs ∧ (opened s h p seed).ens = s.ens ∧
      (opened s h p seed).rz = s.rz := by
  obtain ⟨hjobs, hens, hrz⟩ := sparingPoint_fields s (s.halvesOf h.set)
  exact ⟨congrArg (Map.put · h.set (openingJob s h p seed)) hjobs, hens, hrz⟩

/-- With a seed of its own the job that JOB_OPEN makes runs at once. -/
theorem startJob_opened {s : State} {h : Head} (p : JobParams) (seed : W128)
    (hdown : ∀ n, n < 16 → bit (s.halvesOf h.set) (n / 8) = true → (s.port n).st ≠ 2) :
    ∃ u : State, (opened s h p seed).startJob h.set seed = u.complete h 0x01 ⟨0, 0, 0, 1, [toLe 16 seed.toNat ++ toLe 8 0]⟩ ∧
      u.job h.set = some (startedJob (openingJob s h p seed) seed) ∧ ∀ q, q ≠ h.set → u.job q = s.job q := by
  obtain ⟨hjobs, -, hrz⟩ := opened_fields s h p seed
  have hports : ∀ n ∈ portsOf (openingJob s h p seed).halves, ((opened s h p seed).port n).st ≠ 2 := by
    intro n hn
    obtain ⟨hlt, hbit⟩ := List.mem_filter.mp hn
    rw [port_of_rz hrz]
    exact hdown n (List.mem_range.mp hlt) hbit
  have hjob : (opened s h p seed).job h.set = some (openingJob s h p seed) := by rw [job_of_jobs hjobs, job_setJob_same]
  obtain ⟨u, hstart, hstarted⟩ := startJob_of_down (h := h) hjob rfl hports seed
  refine ⟨u, hstart, (job_of_jobs hstarted h.set).trans (job_setJob_same ..), fun q hq => ?_⟩
  rw [job_of_jobs hstarted, State.job_setJob, if_neg hq, job_of_jobs hjobs, State.job_setJob, if_neg hq]

/-- The seed that a job parameter block gives (R469). -/
def blockSeed (b : List Byte) : W128 := BitVec.ofNat 128 (leAt b 16 16)

/-- A JOB_OPEN whose block is read, passes its checks, fits the token ring and can have its seed opens the job. -/
theorem cmdJobOpen_of_sound {s : State} {h : Head} {params size : Nat} {b : List Byte} {p : JobParams}
    (hread : s.readJobBlock params = some b) (hstatus : s.jobOpenStatus h.set b size = 0) (hp : p = parseJobParams b)
    (hroom : p.batchMax + p.ingestBudget ≤ 2 ^ (s.ring h.set).szTok) (hseed : p.seedDev = true → s.seedRefused 1 = none) :
    s.cmdJobOpen h params size = if p.seedDev then (opened s h p (blockSeed b)).askRandom ⟨.jobSeed h.set, 0, 16, none, false, []⟩
      else (opened s h p (blockSeed b)).startJob h.set (blockSeed b) := by
  subst hp
  have hnone : (if (parseJobParams b).seedDev then s.seedRefused 1 else none) = none := by
    split
    · exact hseed ‹_›
    · rfl
  simp only [State.cmdJobOpen, State.withData, hread, hstatus, hnone, bne_self_eq_false, Bool.false_eq_true, if_false,
    if_neg (Nat.not_lt.mpr hroom)]
  rfl

/-- The state in which JOB_OPEN is taken passes the checks that the state before passes. -/
theorem Taken.jobOpen {s : State} {h : Head} {params size : Nat} {b : List Byte} {p : JobParams} (ht : Taken s h 0x01 h.set)
    (hread : s.readJobBlock params = some b) (hstatus : s.jobOpenStatus h.set b size = 0) (hp : p = parseJobParams b)
    (hroom : p.batchMax + p.ingestBudget ≤ 2 ^ (s.ring h.set).szTok) (hseed : p.seedDev = true → s.seedRefused 1 = none) :
    exec (.jobOpen h params size) s = .next (if p.seedDev then
        (opened (Slice0.taken s h 0x01) h p (blockSeed b)).askRandom ⟨.jobSeed h.set, 0, 16, none, false, []⟩
      else (opened (Slice0.taken s h 0x01) h p (blockSeed b)).startJob h.set (blockSeed b)) := by
  have hroom : p.batchMax + p.ingestBudget ≤ 2 ^ ((Slice0.taken s h 0x01).ring h.set).szTok := by
    rw [Slice0.taken, State.ring_setRing, if_pos rfl]
    exact hroom
  have hopen := cmdJobOpen_of_sound (s := Slice0.taken s h 0x01) hread hstatus hp hroom hseed
  exact (ht.onSet _).trans (congrArg _ ((ht.hostCmd _).trans hopen))

/-! ## JOB_END and JOB_DISCARD (R427, R474) -/

theorem cmdJobEnd_of_job {s : State} {c : Nat} {j : Job} (h : Head) (hj : s.job c = some j) :
    s.cmdJobEnd h c = (s.endJob c 0x0009).done h 0x03 0 j.lastStep := by
  simp only [State.cmdJobEnd, hj]

theorem releaseJob_fields {s : State} {c : Nat} {j : Job} (hj : s.job c = some j) :
    (∀ q, (s.releaseJob c).job q = if q = c then none else s.job q) ∧
      (s.releaseJob c).kernels = s.kernels.filter (fun k => k.ctx != c) := by
  obtain ⟨hjobs, hkernels⟩ := closeLinks_fields s c j.halves
  simp only [State.releaseJob, hj]
  refine ⟨fun q => ?_, congrArg _ hkernels⟩
  rw [← job_of_jobs hjobs q]
  exact State.job_dropJob ..

theorem cmdJobDiscard_of_ended {s : State} {c : Nat} {j : Job} (h : Head) (hj : s.job c = some j) (hst : j.st = .ended) :
    s.cmdJobDiscard h c = ((s.releaseJob c).discardRing c).done h 0x04 0 0 := by
  simp [State.cmdJobDiscard, hj, hst]

/-! ## The commands -/

/-- Settles O29: each command is taken, passes its checks, and does what its rule gives. -/
theorem jobCommandsComplete : Obligations.JobCommandsComplete := by
  intro s h
  refine ⟨fun ht => ?nop, fun params size b p ht hread hstatus hp hroom hseed hdown => ?open_,
    fun params size b p ht hread hstatus hp hroom hseed hrefused => ?waits, fun c j ht hj => ?end_, fun c j ht hj hst => ?discard⟩
  case nop => exact ⟨_, (ht.onSet _).trans (congrArg _ (ht.hostCmd _)), rfl⟩
  case open_ =>
    have hexec := ht.jobOpen hread hstatus hp hroom fun hdev => absurd (hseed.symm.trans hdev) (by decide)
    obtain ⟨u, hstart, hjob, hothers⟩ := startJob_opened (s := taken s h 0x01) (h := h) p (blockSeed b) hdown
    rw [hseed, if_neg Bool.false_ne_true, hstart] at hexec
    exact ⟨u, startedJob (openingJob (taken s h 0x01) h p (blockSeed b)) (blockSeed b), hexec, hjob, rfl, rfl,
      rfl, rfl, rfl, rfl, rfl, rfl, hothers⟩
  case waits =>
    obtain ⟨hjobs, hens, -⟩ := opened_fields (taken s h 0x01) h p (blockSeed b)
    refine ⟨_, ht.jobOpen hread hstatus hp hroom fun _ => hrefused, ?_⟩
    rw [if_pos hseed]
    exact ⟨_, (job_of_jobs hjobs h.set).trans (job_setJob_same ..), if_pos hseed, rfl, rfl, congrArg (Ens.queue · ++ _) hens⟩
  case end_ =>
    have hend := cmdJobEnd_of_job (s := taken s h 0x03) h hj
    exact ⟨_, (ht.onSet _).trans (congrArg _ ((ht.hostCmd _).trans hend)), rfl⟩
  case discard =>
    obtain ⟨hjob, hkernels⟩ := releaseJob_fields (s := taken s h 0x04) hj
    have hdone := cmdJobDiscard_of_ended (s := taken s h 0x04) h hj hst
    refine ⟨_, (ht.onSet _).trans (congrArg _ ((ht.hostCmd _).trans hdone)), _, rfl, (hjob c).trans (if_pos rfl), fun q hq => ?_, hkernels⟩
    rw [hjob, if_neg hq]
    rfl

end Sys2Proof.Slice0

/-!
PROOFS. The writing, the commit and the flush of cuttings, and the acknowledgements of their mirrors (R412 to R419, R425): the first part of
the statement O42.
-/
namespace Sys2Proof.Slice0
open Sys2Proof Sys2Proof.Machine

/-! ## Completions leave bus mastering alone (R461, R699) -/

@[simp] theorem hostCanWrite_setRing (s : State) (c : Nat) (r : RingSet) : (s.setRing c r).hostCanWrite = s.hostCanWrite := rfl

@[simp] theorem hostCanWrite_hostWrite (s : State) (a : Nat) (bs : List Byte) : (s.hostWrite a bs).hostCanWrite = s.hostCanWrite := by
  unfold State.hostWrite
  split <;> rfl

@[simp] theorem hostCanWrite_putRecord (s : State) (set which : Nat) (rec : List Byte) :
    (s.putRecord set which rec).hostCanWrite = s.hostCanWrite := hostCanWrite_hostWrite ..

@[simp] theorem hostCanWrite_putWriteback (s : State) (set : Nat) : (s.putWriteback set).hostCanWrite = s.hostCanWrite :=
  hostCanWrite_hostWrite ..

@[simp] theorem hostCanWrite_recordIrq (s : State) (set which : Nat) : (s.recordIrq set which).hostCanWrite = s.hostCanWrite := by
  unfold State.recordIrq
  dsimp only
  split
  · split <;> rfl
  · rfl

theorem foldl_hostCanWrite {α : Type} (f : State → α → State) (l : List α) (s : State)
    (h : ∀ s a, (f s a).hostCanWrite = s.hostCanWrite) : (l.foldl f s).hostCanWrite = s.hostCanWrite := by
  induction l generalizing s with
  | nil => rfl
  | cons a l ih => exact (ih (f s a)).trans (h s a)

@[simp] theorem hostCanWrite_writeCpl (s : State) (h : Head) (op : Nat) (c : Cpl) : (s.writeCpl h op c).hostCanWrite = s.hostCanWrite := by
  unfold State.writeCpl
  dsimp only
  split
  · simp
  · simp [foldl_hostCanWrite]

theorem jobs_foldl_lpxWrite {α : Type} (dpa : α → Nat) (kind : Nat) (data : α → List Byte) (l : List α) (s : State) :
    (l.foldl (fun (s : State) a => s.lpxWrite (dpa a) kind (data a)) s).jobs = s.jobs := foldl_jobs _ l s fun _ _ => rfl

/-- Completions that can be written leave the jobs alone. -/
theorem jobs_foldl_complete (cpl : Deferred → Cpl) (ds : List Deferred) {s : State} (hcan : s.hostCanWrite = true) :
    (ds.foldl (fun (s : State) d => s.complete d.head d.opcode (cpl d)) s).jobs = s.jobs := by
  induction ds generalizing s with
  | nil => rfl
  | cons d ds ih =>
    have hwrite : s.complete d.head d.opcode (cpl d) = s.writeCpl d.head d.opcode (cpl d) := by rw [State.complete, if_pos hcan]
    rw [List.foldl_cons, hwrite, ih (by rw [hostCanWrite_writeCpl, hcan]), State.writeCpl_jobs]

/-! ## Commit and common (R414, R415, R419) -/

/-- What a common cutting releases changes nothing of the job but its deferred completions; with none the host's memory stays. -/
theorem releaseDeferred_of_common {s : State} {c : Nat} {j : Job} {x : Nat × Nat} (hj : s.job c = some j) (hcommon : j.common = some x)
    (hcan : s.hostCanWrite = true) :
    (∃ ds, (s.releaseDeferred c).job c = some { j with deferred := ds }) ∧ (j.deferred = [] → (s.releaseDeferred c).host = s.host) := by
  simp only [State.releaseDeferred, hj, hcommon]
  have hjobs (ds : List Deferred) {u : State} (hu : u.hostCanWrite = true) :=
    jobs_foldl_complete (fun d => ⟨d.status, d.result, d.flags, 0, d.ext⟩) ds hu
  refine ⟨⟨_, (job_of_jobs (hjobs _ (u := s.setJob c _) hcan) c).trans (job_setJob_same ..)⟩, fun hnone => ?_⟩
  rw [hnone]
  rfl

section
variable {s : State} {c : Nat} {j : Job} (hj : s.job c = some j)
include hj

/-- A device that has committed no cutting, or whose cutting is common, waits for no notice. -/
theorem checkCommon_of_settled (hsettled : ∀ q n, j.committed = some (q, n) → j.common = some (q, n)) : s.checkCommon c = s := by
  cases hcommitted : j.committed with
  | none => simp only [State.checkCommon, hj, hcommitted]
  | some x => simp only [State.checkCommon, hj, hcommitted, hsettled _ _ hcommitted, decide_true, Bool.true_or, if_true]

/-- Does every device's notice for the cutting of step n stand in the job? -/
def noticed (j : Job) (n : Nat) : Bool := (List.range j.params.devices).all fun r => r == j.params.rank || j.notices.contains (r, n)

/-- The job in which cutting q, after step n, is common. -/
def commonJob (j : Job) (q n : Nat) : Job := { j with common := some (q, n), notices := j.notices.filter fun x => decide (n < x.2) }

/-- A committed cutting becomes common, and what it releases completes, exactly when every notice is here. -/
theorem checkCommon_of_committed {q n : Nat} (hcommitted : j.committed = some (q, n)) (hnew : j.common ≠ some (q, n)) :
    s.checkCommon c = if noticed j n then (s.setJob c (commonJob j q n)).releaseDeferred c else s := by
  simp only [State.checkCommon, commonJob, hj, hcommitted, decide_eq_false hnew, Bool.false_or]
  cases hall : noticed j n with
  | false =>
    rw [noticed] at hall
    simp only [hall, Bool.not_false, if_true, Bool.false_eq_true, if_false]
  | true =>
    rw [noticed] at hall
    simp only [hall, Bool.not_true, Bool.false_eq_true, if_false, if_true]

/-- What a step of the commit leaves of the job: everything but its common cutting, its notices and its deferred completions. -/
theorem checkCommon_fields (hcan : s.hostCanWrite = true) :
    (∃ x ns ds, (s.checkCommon c).job c = some { j with common := x, notices := ns, deferred := ds }) ∧
      (j.deferred = [] → (s.checkCommon c).host = s.host) ∧ (s.checkCommon c).checkCommon c = s.checkCommon c := by
  by_cases hsettled : ∀ q n, j.committed = some (q, n) → j.common = some (q, n)
  · have hstays := checkCommon_of_settled hj hsettled
    rw [hstays]
    exact ⟨⟨_, _, _, hj⟩, fun _ => rfl, hstays⟩
  · simp only [not_forall] at hsettled
    obtain ⟨q, n, hcommitted, hnew⟩ := hsettled
    have hcheck := checkCommon_of_committed hj hcommitted hnew
    cases hall : noticed j n with
    | false =>
      have hstays : s.checkCommon c = s := by rw [hcheck, hall, if_neg Bool.false_ne_true]
      rw [hstays]
      exact ⟨⟨_, _, _, hj⟩, fun _ => rfl, hstays⟩
    | true =>
      rw [hall, if_pos rfl] at hcheck
      obtain ⟨⟨ds, hjob⟩, hhost⟩ := releaseDeferred_of_common (job_setJob_same s c (commonJob j q n)) rfl hcan
      rw [hcheck]
      refine ⟨⟨_, _, ds, hjob⟩, hhost, checkCommon_of_settled hjob fun q' n' h => ?_⟩
      exact hcommitted.symm.trans h

theorem checkCommit_of_unwritten (hwritten : j.written = none) : s.checkCommit c = s := by
  simp only [State.checkCommit, hj, hwritten]

theorem tryClose_of_open (hclosing : j.closing = none) : s.tryClose c = s := by
  simp only [State.tryClose, hj, hclosing]

/-- Without an image that is written, the progress of a job that does not close is that of its common cutting. -/
theorem cutProgress_of_unwritten (hwritten : j.written = none) (hclosing : j.closing = none) (hcan : s.hostCanWrite = true) :
    s.cutProgress c = s.checkCommon c := by
  obtain ⟨⟨x, ns, ds, hjob⟩, -, -⟩ := checkCommon_fields hj hcan
  rw [State.cutProgress, checkCommit_of_unwritten hj hwritten, tryClose_of_open hjob hclosing]

/-- Nothing goes on in a job that waits for neither an image nor a notice. -/
theorem cutProgress_of_settled (hwritten : j.written = none) (hclosing : j.closing = none)
    (hsettled : ∀ q n, j.committed = some (q, n) → j.common = some (q, n)) : s.cutProgress c = s := by
  rw [State.cutProgress, checkCommit_of_unwritten hj hwritten, checkCommon_of_settled hj hsettled, tryClose_of_open hj hclosing]

/-- The state in which the cutting of an image is committed, before it can be common: it is posted and the other devices are told. -/
def committedState (s : State) (c : Nat) (j : Job) (img : CutImage) : State :=
  ((s.setJob c { j with written := none, committed := some (img.seq, img.step) }).postJob c 0x0701 0
    (toLe 8 img.step ++ toLe 1 (img.seq % 2))).sendJob c 0x30 (toLe 2 j.params.rank ++ toLe 8 img.step)

/-- Without a buddy a written image is committed at once. -/
theorem cutProgress_of_written {img : CutImage} (hwritten : j.written = some img.seq) (hlast : j.unflushed.getLast? = some img)
    (hbuddy : j.params.buddy = 0xFFFF) (hclosing : j.closing = none) (hcan : s.hostCanWrite = true) :
    (∃ x ns ds, (s.cutProgress c).job c =
        some { j with written := none, committed := some (img.seq, img.step), common := x, notices := ns, deferred := ds }) ∧
      (j.deferred = [] → (s.cutProgress c).host.mem = s.host.mem) := by
  have hcommit : s.checkCommit c = (committedState s c j img).checkCommon c := by
    simp only [State.checkCommit, hj, hwritten, hlast, hbuddy, bne_self_eq_false, Bool.false_and, Bool.or_self, Bool.false_eq_true, if_false]
    rfl
  have hjob : (committedState s c j img).job c = some { j with written := none, committed := some (img.seq, img.step) } :=
    (job_of_jobs (sameWork_sendJob ..).jobs c).trans ((job_of_jobs (State.postJob_jobs ..) c).trans (job_setJob_same ..))
  have hhost : (committedState s c j img).host.mem = s.host.mem ∧ (committedState s c j img).hostCanWrite = s.hostCanWrite := by
    unfold committedState State.sendJob
    split
    · split <;> exact ⟨rfl, rfl⟩
    · exact ⟨rfl, rfl⟩
  obtain ⟨⟨x, ns, ds, hcommon⟩, hkept, hagain⟩ := checkCommon_fields hjob (hhost.2.trans hcan)
  rw [State.cutProgress, hcommit, hagain, tryClose_of_open hcommon hclosing]
  exact ⟨⟨x, ns, ds, hcommon⟩, fun hnone => (congrArg HostPort.mem (hkept hnone)).trans hhost.1⟩

/-! ## CUTTING_WRITE_START and CUTTING_WRITE_DONE (R414, R416) -/

/-- The write of the oldest captured image begins while a step runs. -/
theorem cuttingWriteStart_of_due {img : CutImage} {rest : List CutImage} (hc : c < 16) (hcuts : j.cuts = true)
    (hcaptured : j.captured = img :: rest) (hwriting : j.writing = false) (hrun : j.run.isSome = true)
    (hcommon : img.seq = 0 ∨ ∃ x, j.common = some x ∧ img.seq ≤ x.1 + 1)
    (hflushed : img.seq < 2 ∨ ∃ x, j.flushed = some x ∧ img.seq ≤ x.1 + 2) :
    exec (.cuttingWriteStart c) s = .next ((s.hostWrite (j.cutSlot img.seq)
      ((s.cutBytes c j img).take ((s.cutBytes c j img).length - 16) ++ List.replicate 16 0#8)).setJob c { j with writing := true }) := by
  have hruns : j.run.isNone = false := by rwa [Option.isNone_eq_false_iff]
  refine onCtx_next hc ?_
  simp only [hj, hcaptured, hruns, Bool.false_and, Bool.false_eq_true, if_false]
  rw [if_neg]
  -- Neither the cutting before nor the one before that holds the write up.
  rcases hcommon with h | ⟨x, hx, h⟩ <;> rcases hflushed with h' | ⟨x', hx', h'⟩ <;> simp [*]

/-- The job whose oldest image is written. -/
def writtenJob (j : Job) (img : CutImage) (rest : List CutImage) : Job :=
  { j with captured := rest, writing := false, written := some img.seq, unflushed := j.unflushed ++ [img] }

/-- Without a buddy an image that is written is complete in its slot. -/
theorem cuttingWriteDone_of_writing {img : CutImage} {rest : List CutImage} (hc : c < 16) (hcuts : j.cuts = true)
    (hcaptured : j.captured = img :: rest) (hwriting : j.writing = true) (hcan : s.hostCanWrite = true) (hbuddy : j.params.buddy = 0xFFFF) :
    exec (.cuttingWriteDone c) s = .next
      (((s.hostWrite (j.cutSlot img.seq) (s.cutBytes c j img)).setJob c (writtenJob j img rest)).cutProgress c) := by
  refine onCtx_next hc ?_
  simp only [hj, hcaptured, hcuts, hwriting, hcan, hbuddy, bne_self_eq_false, Bool.not_true, Bool.or_self, Bool.false_eq_true, if_false]
  rfl

/-! ## COMMIT_NOTICE (R415) -/

/-- The job with one notice more. -/
def noticedJob (j : Job) (rank step : Nat) : Job := { j with notices := j.notices ++ [(rank, step)] }

/-- The notice of another device that is not here yet joins the job's. -/
theorem commitNotice_of_new {rank step : Nat} (hc : c < 16) (hcuts : j.cuts = true) (hrank : rank ≠ j.params.rank)
    (hdevice : rank < j.params.devices) (hnew : (rank, step) ∉ j.notices) :
    exec (.commitNotice c rank step) s = .next ((s.setJob c (noticedJob j rank step)).cutProgress c) := by
  refine onCtx_next hc ?_
  simp [hj, hcuts, hrank, hdevice, hnew, noticedJob]

/-! ## CUTTING_FLUSH (R417, R418) -/

theorem job_onJob (f : Job → Job) : (s.onJob c f).job c = some (f j) := by
  rw [onJob_of_job hj, job_setJob_same]

/-- Of the job a flush changes the durable tables only. -/
theorem flushTables_job (i : CutImage) : ∃ d, (s.flushTables c i).job c = some { j with durable := d } := by
  simp only [State.flushTables, hj]
  refine ⟨_, job_onJob ?_ _⟩
  exact (job_of_jobs (by simp only [jobs_foldl_lpxWrite]) c).trans hj

/-- The oldest cutting that is not flushed goes into the tables once it is common. -/
theorem cuttingFlush_of_common {img : CutImage} {rest : List CutImage} {q n : Nat} (hc : c < 16) (hcuts : j.cuts = true)
    (hunflushed : j.unflushed = img :: rest) (hcommon : j.common = some (q, n)) (hseq : img.seq ≤ q) :
    exec (.cuttingFlush c) s = .next ((s.flushTables c img).onJob c fun k =>
      { k.freeFlushed img.seq with unflushed := rest, flushed := some (img.seq, img.step) }) := by
  refine onCtx_next hc ?_
  simp only [hj, hunflushed, hcommon, hcuts, decide_eq_false (Nat.not_lt.mpr hseq), Bool.not_true, Bool.or_self, Bool.false_eq_true,
    if_false]

/-! ## MIRROR_ACK (R414, R425) -/

theorem mirrorAck_of_pending {kind id : Nat} (hc : c < 16) (hcuts : j.cuts = true) (hpending : ∃ m ∈ j.mirror, m.kind = kind ∧ m.id = id) :
    exec (.mirrorAck c kind id) s = .next ((s.setJob c (j.acked kind id)).cutProgress c) := by
  have hany : (j.mirror.any fun m => m.kind == kind && m.id == id) = true := by simpa using hpending
  refine onCtx_next hc ?_
  simp only [hj, hcuts, hany, Bool.not_true, Bool.or_self, Bool.false_eq_true, if_false]

end

/-- One item of the mirror leaves the list. -/
theorem length_mirror_acked {j : Job} {kind id : Nat} (hpending : ∃ m ∈ j.mirror, m.kind = kind ∧ m.id = id) :
    (j.acked kind id).mirror.length + 1 = j.mirror.length := by
  have hsome : (j.mirror.findIdx? fun m => m.kind == kind && m.id == id).isSome = true := by
    rw [List.findIdx?_isSome]
    simpa using hpending
  obtain ⟨n, hn⟩ := Option.isSome_iff_exists.mp hsome
  obtain ⟨hlt, -⟩ := List.findIdx?_eq_some_iff_findIdx_eq.mp hn
  have hmirror : (j.acked kind id).mirror = j.mirror.eraseIdx n := by
    simp only [Job.acked, hn, Option.getD_some]
    split
    · rfl
    · split
      · unfold Job.setBed
        split <;> rfl
      · rfl
  rw [hmirror, List.length_eraseIdx_of_lt hlt]
  omega

/-- An acknowledgement leaves the commit of cuttings and the close of the job where they stand. -/
theorem acked_fields (j : Job) (kind id : Nat) :
    (j.acked kind id).written = j.written ∧ (j.acked kind id).committed = j.committed ∧ (j.acked kind id).closing = j.closing := by
  unfold Job.acked
  dsimp only
  split
  · exact ⟨rfl, rfl, rfl⟩
  · split
    · unfold Job.setBed
      split <;> exact ⟨rfl, rfl, rfl⟩
    · exact ⟨rfl, rfl, rfl⟩

theorem page_setPage_same (j : Job) (p : Nat) (r : PageRec) : (j.setPage p r).page p = r := by
  rw [Job.page, Job.setPage, Map.get_set, if_pos rfl]

theorem mirrored_page_acked {j : Job} {id : Nat} (hsealed : (j.page (j.params.pageFirst + id)).st = 2) :
    ((j.acked 1 id).page (j.params.pageFirst + id)).mirrored = true := by
  unfold Job.acked
  rw [if_pos ⟨rfl, hsealed⟩, page_setPage_same]

theorem mirrored_bed_acked {j : Job} {id : Nat} (hid : id < 2) : ((j.acked 5 id).bed id).mirrored = true := by
  unfold Job.acked
  rw [if_neg (fun h => absurd h.1 (by decide)), if_pos ⟨rfl, hid⟩, (bed_setBed hid _ _).1]

/-! ## The commands -/

/-- The first part of O42: each command finds its condition met, and the commit goes on as far as the notices allow. -/
theorem cuttingCommandsComplete : CuttingCommandsComplete := by
  intro c s j hc hj hcuts hclosing
  refine ⟨fun img rest bs hcaptured hwriting hrun hcommon hflushed hbs => ?start, fun img rest hcaptured hwriting hcan hbuddy => ?done,
    fun rank step hrank hdevice hnew hwritten hsettled => ?noted,
    fun rank q n hrank hdevice hwritten hcommitted hcommon hnotices hnew hcan => ?common,
    fun img rest q n hunflushed hcommon hseq => ?flush, fun kind id hpending hwritten hcommitted => ?acked⟩
  case start =>
    subst hbs
    exact ⟨_, cuttingWriteStart_of_due hj hc hcuts hcaptured hwriting hrun hcommon hflushed, rfl⟩
  case done =>
    have hwrote : ((s.hostWrite (j.cutSlot img.seq) (s.cutBytes c j img)).setJob c (writtenJob j img rest)).hostCanWrite = true :=
      (hostCanWrite_hostWrite ..).trans hcan
    obtain ⟨⟨x, ns, ds, hjob⟩, hmem⟩ :=
      cutProgress_of_written (job_setJob_same _ c (writtenJob j img rest)) rfl List.getLast?_concat hbuddy hclosing hwrote
    exact ⟨_, cuttingWriteDone_of_writing hj hc hcuts hcaptured hwriting hcan hbuddy, _, hjob, rfl, rfl, rfl, rfl, rfl,
      fun hnone => (hmem hnone).trans (hostWrite_mem hcan ..)⟩
  case noted =>
    refine ⟨_, commitNotice_of_new hj hc hcuts hrank hdevice hnew, ?_⟩
    rw [cutProgress_of_settled (job_setJob_same s c (noticedJob j rank step)) hwritten hclosing hsettled]
    exact onlyJob_setJob ..
  case common =>
    have hall : noticed (noticedJob j rank n) n = true := by
      simp only [noticed, noticedJob, List.all_eq_true, List.mem_range, Bool.or_eq_true, beq_iff_eq, List.contains_iff_mem, List.mem_append,
        List.mem_singleton, Prod.mk.injEq, and_true]
      intro r hr
      by_cases hown : r = j.params.rank
      · exact .inl hown
      · by_cases hnow : r = rank
        · exact .inr (.inr hnow)
        · exact .inr (.inl (hnotices r hr hown hnow))
    have hjob := job_setJob_same s c (noticedJob j rank n)
    refine ⟨_, commitNotice_of_new hj hc hcuts hrank hdevice hnew, ?_⟩
    rw [cutProgress_of_unwritten hjob hwritten hclosing hcan, checkCommon_of_committed hjob hcommitted hcommon, hall, if_pos rfl]
    obtain ⟨⟨ds, hreleased⟩, -⟩ := releaseDeferred_of_common
      (job_setJob_same (s.setJob c (noticedJob j rank n)) c (commonJob (noticedJob j rank n) q n)) rfl hcan
    exact ⟨_, hreleased, rfl⟩
  case flush =>
    obtain ⟨d, hjob⟩ := flushTables_job hj img
    refine ⟨_, cuttingFlush_of_common hj hc hcuts hunflushed hcommon hseq, _, job_onJob hjob _, rfl, rfl, rfl, rfl, ?_⟩
    rw [State.onJob_lpxMem]
  case acked =>
    obtain ⟨hackedWritten, hackedCommitted, hackedClosing⟩ := acked_fields j kind id
    have hsettled : ∀ q n, (j.acked kind id).committed = some (q, n) → (j.acked kind id).common = some (q, n) := by
      intro q n h
      simp [hackedCommitted, hcommitted] at h
    refine ⟨_, mirrorAck_of_pending hj hc hcuts hpending, ?_⟩
    rw [cutProgress_of_settled (job_setJob_same s c (j.acked kind id)) (hackedWritten.trans hwritten) (hackedClosing.trans hclosing) hsettled]
    refine ⟨_, job_setJob_same .., length_mirror_acked hpending, ?_, ?_⟩
    · rintro rfl hsealed
      exact mirrored_page_acked hsealed
    · rintro rfl hid
      exact mirrored_bed_acked hid

end Sys2Proof.Slice0

/-!
PROOFS. The mirror that a device holds for its partner, the pages that its buddy returns, and the messages that end a job or let a regrow
replay (R424, R425, R427, R430, R432 to R435): the second part of the statement O42.
-/
namespace Sys2Proof.Slice0
open Sys2Proof Sys2Proof.Machine

/-! ## The partner's mirror (R324, R416, R424, R425, R432) -/

theorem holder_of_partner {s : State} {c : Nat} {j : Job} {m : PartnerMirror} (hj : s.job c = some j) (hpartner : j.params.partner ≠ 0xFFFF)
    (hst : j.st ≠ .ended) (hm : j.partner = some m) : s.holder c = some (j, m) := by
  simp [State.holder, hj, hpartner, hst, hm]

section
variable {s : State} {c : Nat} {j : Job} {m : PartnerMirror} (hc : c < 16) (hholder : s.holder c = some (j, m)) (data : List Byte)
include hc hholder

theorem sealedPageMirror_of_holder {page : Nat} (hpage : page < m.pageCount) :
    exec (.sealedPageMirror c page data) s = .next (s.mirrorWrite c j 1 page (j.mirrorPage m page) 2 data) := by
  refine onCtx_next hc ?_
  simp only [hholder, if_pos hpage]

theorem openPageLines_of_holder {page line : Nat} (hpage : page < m.pageCount) (hfits : 64 * line + data.length ≤ 0x40000) :
    exec (.openPageLines c page line data) s = .next (s.mirrorWrite c j 2 page (j.mirrorPage m page + 64 * line) 2 data) := by
  refine onCtx_next hc ?_
  simp only [hholder, if_pos (And.intro hpage hfits)]

theorem cuttingImageMirror_of_holder {slot ofs : Nat} (hslot : slot < 2) (hfits : ofs + data.length ≤ m.slotSize) :
    exec (.cuttingImageMirror c slot ofs data) s =
      .next (s.mirrorWrite c j 3 slot (j.params.mirrorBase + slot * m.slotSize + ofs) 5 data) := by
  refine onCtx_next hc ?_
  simp only [hholder, if_pos (And.intro hslot hfits)]

theorem chainStateCopy_of_holder : exec (.chainStateCopy c data) s = .next (s.mirrorChain c j m data) := by
  refine onCtx_next hc ?_
  simp only [hholder]

theorem bedCopy_of_holder {b ofs : Nat} (hmirror : m.bedMirror = true) (hb : b < 2)
    (hfits : ofs + data.length ≤ if b = 0 then m.bedA else m.bedB) :
    exec (.bedCopy c b ofs data) s = .next (s.mirrorWrite c j 5 b (j.mirrorBed m b + ofs) 4 data) := by
  refine onCtx_next hc ?_
  simp only [hholder, if_pos (And.intro hmirror (And.intro hb hfits))]

theorem pageFetchRequest_of_holder {page : Nat} (hpage : page < m.pageCount) :
    exec (.pageFetchRequest c page) s =
      .next (s.sendMsg c 0x17 3 j.params.partner (toLe 4 page ++ s.lpxRead (j.mirrorPage m page) 0x40000)) := by
  refine onCtx_next hc ?_
  simp only [hholder, if_pos hpage]

end

/-- A chain of one page is one copy. -/
theorem mirrorChain_one (s : State) (c : Nat) (j : Job) {m : PartnerMirror} {page : Nat} {data : List Byte} (hcount : leAt data 4 4 = 1)
    (hfirst : leAt data 8 4 = page) (hpage : page < m.pageCount) :
    s.mirrorChain c j m data = s.mirrorWrite c j 4 (leAt data 0 4) (j.mirrorPage m page) 1 (bytesAt data 12 0x40000) := by
  subst hfirst
  simp only [State.mirrorChain, hcount, List.range_one, List.foldl_cons, List.foldl_nil, Nat.mul_zero, Nat.mul_one, Nat.zero_mul,
    Nat.add_zero, if_pos hpage]
  rfl

/-! ## MIRROR_SET_UP and JOB_END_NOTICE (R424, R427) -/

section
variable {s : State} {c : Nat} {j : Job} (hc : c < 16) (hj : s.job c = some j)
include hc hj

theorem mirrorSetUp_of_partner (hpartner : j.params.partner ≠ 0xFFFF) (hended : j.st ≠ .ended) (hwaits : j.st ≠ .waitSeed)
    (data : List Byte) :
    exec (.mirrorSetUp c data) s = .next (if j.params.mirrorSize < (parseMirrorSetUp data).need then s.endJob c 0x0701
      else s.setJob c { j with partner := some (parseMirrorSetUp data) }) := by
  refine onCtx_next hc ?_
  simp [hj, hpartner, hended, hwaits]

theorem jobEndNotice_of_peer {rank : Nat} (hrank : rank ≠ j.params.rank) (hdevice : rank < j.params.devices) :
    exec (.jobEndNotice c rank) s = .next (s.endJob c 0x000A) := by
  refine onCtx_next hc ?_
  simp [hj, hrank, hdevice]

/-! ## PAGE_FETCH_RESPONSE (R432, R433) -/

theorem pageFetchResponse_of_job (page : Nat) (data : List Byte) :
    exec (.pageFetchResponse c page data) s = .next (s.gotPage c (j.params.pageFirst + page) data) := by
  refine onCtx_next hc ?_
  simp only [hj]

omit hc in
/-- A page whose tag matches is sealed and validated, and its bytes stand at its place. -/
theorem gotPage_of_tag {p : Nat} {data : List Byte} (hfetching : p ∈ j.fetching)
    (htag : s.pageTag c j p (j.page p).sealSeq data = (j.page p).tag) :
    ∃ k : Job, (s.gotPage c p data).job c = some k ∧ p ∉ k.fetching ∧ k.page p = { j.page p with st := 2, validated := true } ∧
      (s.gotPage c p data).lpxMem = (s.lpxWrite (p * 0x40000) 2 data).lpxMem := by
  have hwaits : (!j.fetching.contains p) = false := by simpa using hfetching
  have htag : s.pageTag c { j with fetching := j.fetching.filter (· != p) } p (j.page p).sealSeq data = (j.page p).tag := htag
  have hmem (k : Job) : ((s.setJob c k).lpxWrite (p * 0x40000) 2 data).lpxMem = (s.lpxWrite (p * 0x40000) 2 data).lpxMem :=
    lpxMem_lpxWrite_congr rfl rfl rfl ..
  simp only [State.gotPage, hj, hwaits, htag, Bool.false_eq_true, if_false, if_true]
  split <;> exact ⟨_, job_setJob_same .., by simp [Job.setPage], page_setPage_same .., hmem _⟩

/-! ## REGROW_READY and REGROW_RELEASE (R430) -/

/-- A regrow with a device more that is ready. -/
def readied (r : Regrow) (rank : Nat) : Regrow :=
  { r with
    ready := (r.ready ++ [rank]).eraseDups, done := if r.stage = 7 then (r.ready ++ [rank]).eraseDups.length else r.done }

/-- The job of rank 0 with that regrow. -/
def readiedJob (j : Job) (r : Regrow) (rank : Nat) : Job := { j with regrow := some (readied r rank) }

theorem regrowReady_of_rankZero {r : Regrow} {rank : Nat} (hregrow : j.regrow = some r) (hst : j.st = .regrow) (hzero : j.params.rank = 0)
    (hdevice : rank < j.params.devices) :
    exec (.regrowReady c rank r.number) s = .next ((s.setJob c (readiedJob j r rank)).tryRelease c) := by
  refine onCtx_next hc ?_
  simp only [hj, hregrow, hst, hzero, hdevice, and_self, if_true, readiedJob, readied]

theorem regrowRelease_of_peer {r : Regrow} (hregrow : j.regrow = some r) (hst : j.st = .regrow) (hpeer : j.params.rank ≠ 0)
    (hstage : r.stage = 7) : exec (.regrowRelease c r.number) s = .next (s.startReplay c) := by
  refine onCtx_next hc ?_
  simp [hj, hregrow, hst, hpeer, hstage]

end

section
variable {s : State} {c : Nat} {j : Job} {r : Regrow} (hj : s.job c = some j) (hregrow : j.regrow = some r)
include hj hregrow

theorem tryRelease_of_early (hstage : r.stage < 7) : s.tryRelease c = s := by
  have hnot : ¬ (j.st = JobSt.regrow ∧ r.stage = 7 ∧ j.params.rank = 0 ∧ (List.range j.params.devices).all r.ready.contains = true) := by
    rintro ⟨-, h, -⟩
    omega
  simp only [State.tryRelease, hj, hregrow, if_neg hnot]

/-- In stage ALIGN rank 0 releases the job once every device is ready. -/
theorem tryRelease_of_ready (hst : j.st = .regrow) (hstage : r.stage = 7) (hzero : j.params.rank = 0)
    (hready : ∀ q, q < j.params.devices → q ∈ r.ready) :
    s.tryRelease c = (s.sendJob c 0x33 (toLe 3 r.number ++ toLe 1 0)).startReplay c := by
  have hall : (List.range j.params.devices).all r.ready.contains = true := by simpa using hready
  simp only [State.tryRelease, hj, hregrow]
  rw [if_pos ⟨hst, hstage, hzero, hall⟩]

end

/-! ## The start of REPLAY (R430, R434, R435, R461 to R463) -/

theorem ringError_jobs (s : State) (set which err v : Nat) : (s.ringError set which err v).jobs = s.jobs := by
  simp only [State.ringError, apply_ite State.jobs, State.postWith_jobs, State.setRing_jobs, ite_self]

theorem observeCmd_jobs (s : State) (set v : Nat) : (s.observeCmd set v).jobs = s.jobs := by
  simp only [State.observeCmd, apply_ite State.jobs, ringError_jobs, State.setRing_jobs, ite_self]

theorem observeCi_jobs (s : State) (set which v : Nat) : (s.observeCi set which v).jobs = s.jobs := by
  simp only [State.observeCi, apply_ite State.jobs, ringError_jobs, State.setRing_jobs, ite_self]

theorem postLost_jobs (s : State) (set : Nat) : (s.postLost set).jobs = s.jobs := by
  simp only [State.postLost, apply_ite State.jobs, State.postWith_jobs, State.setRing_jobs, ite_self]

theorem observeAll_jobs (s : State) (set : Nat) (vs : List Nat) : (s.observeAll set vs).jobs = s.jobs := by
  simp only [State.observeAll, postLost_jobs, observeCi_jobs, observeCmd_jobs]

/-- A ring set other than 0 that enters ACTIVE reads its doorbell; no job changes. -/
theorem activate_jobs (s : State) {set : Nat} (hset : set ≠ 0) : (s.activate set).jobs = s.jobs := by
  simp only [State.activate, if_neg hset]
  split
  · exact State.setRingState_jobs ..
  · exact (observeAll_jobs ..).trans (State.setRingState_jobs ..)

theorem refetch_jobs (s : State) {c : Nat} (hc : c ≠ 0) (index : Nat) : (s.refetch c index).jobs = s.jobs := by
  unfold State.refetch
  dsimp only
  split
  · split
    · exact State.setRingState_jobs ..
    · exact activate_jobs _ hc
  · rfl

/-- The REGROW of a context other than the host's completes with its cut step, and the job runs in stage REPLAY. -/
theorem startReplay_of_regrow {s : State} {c : Nat} {j : Job} {r : Regrow} (hc : c ≠ 0) (hj : s.job c = some j) (hregrow : j.regrow = some r) :
    ∃ u : State, s.startReplay c = u.done r.head 0x61 0 r.cut ∧ ∃ k : Job, u.job c = some k ∧
      k.st = .running ∧ (k.regrow.map fun x => x.stage) = some 8 := by
  have hseeds (ws : List Nat) (u : State) : (ws.foldl (fun (s : State) i => s.askSeed c i) u).jobs = u.jobs :=
    foldl_jobs (fun (s : State) i => s.askSeed c i) ws u fun _ _ => rfl
  simp only [State.startReplay, hj, hregrow]
  exact ⟨_, rfl, _, (job_of_jobs ((refetch_jobs _ hc _).trans (hseeds _ _)) c).trans (job_setJob_same ..), rfl, rfl⟩

/-! ## The messages -/

/-- Once the last device is ready, or rank 0 lets the device go, the regrow replays. -/
theorem regrow_replays {s : State} {c rank : Nat} {j : Job} {r : Regrow} {i : Instr} (hc : c < 16) (hj : s.job c = some j) (hzero : c ≠ 0)
    (hregrow : j.regrow = some r) (hst : j.st = .regrow) (hstage : r.stage = 7) (hdevice : rank < j.params.devices)
    (hi : (j.params.rank = 0 ∧ i = .regrowReady c rank r.number ∧ ∀ q, q < j.params.devices → q ≠ rank → q ∈ r.ready) ∨
      (j.params.rank ≠ 0 ∧ i = .regrowRelease c r.number)) :
    Answers i s fun t => ∃ u : State, t = u.done r.head 0x61 0 r.cut ∧ ∃ k : Job, u.job c = some k ∧
      k.st = .running ∧ (k.regrow.map fun x => x.stage) = some 8 := by
  rcases hi with ⟨hrank, rfl, hready⟩ | ⟨hrank, rfl⟩
  case inl =>
    have hall : ∀ q, q < j.params.devices → q ∈ (r.ready ++ [rank]).eraseDups := by
      intro q hq
      rw [List.mem_eraseDups, List.mem_append, List.mem_singleton]
      by_cases h : q = rank
      · exact .inr h
      · exact .inl (hready q hq h)
    have hjob := job_setJob_same s c (readiedJob j r rank)
    refine ⟨_, regrowReady_of_rankZero hc hj hregrow hst hrank hdevice, ?_⟩
    rw [tryRelease_of_ready (r := readied r rank) hjob rfl hst hstage hrank hall]
    exact startReplay_of_regrow (r := readied r rank) hzero ((job_of_jobs (sameWork_sendJob ..).jobs c).trans hjob) rfl
  case inr => exact ⟨_, regrowRelease_of_peer hc hj hregrow hst hrank hstage, startReplay_of_regrow hzero hj hregrow⟩

/-- The second part of O42: each message finds the mirror, the page or the regrow that it is about. -/
theorem mirrorCommandsComplete : MirrorCommandsComplete := by
  intro c s j hc hj hwaits
  refine ⟨fun m hpartner hended hm page line ofs data => ?mirror, fun data hpartner hended hneed => ?setUp,
    fun data hpartner hended hneed => ?tooSmall, fun page data r hr hfetching htag => ?fetched, fun rank hrank hdevice => ?ended,
    fun rank r hregrow hst hzero hdevice hstage => ?early, fun i rank r hne hregrow hst hstage hdevice hi => ?replays⟩
  case mirror =>
    have hholder := holder_of_partner hj hpartner hended hm
    exact ⟨fun hpage => ⟨_, sealedPageMirror_of_holder hc hholder data hpage, rfl⟩,
      fun hpage hfits => ⟨_, openPageLines_of_holder hc hholder data hpage hfits, rfl⟩,
      fun slot hslot hfits => ⟨_, cuttingImageMirror_of_holder hc hholder data hslot hfits, rfl⟩,
      fun hcount hfirst hpage => ⟨_, chainStateCopy_of_holder hc hholder data, mirrorChain_one s c j hcount hfirst hpage⟩,
      fun hmirror hfits => ⟨_, bedCopy_of_holder hc hholder data hmirror (by decide) hfits, rfl⟩,
      fun hmirror hfits => ⟨_, bedCopy_of_holder hc hholder data hmirror (by decide) hfits, rfl⟩,
      fun hpage => ⟨_, pageFetchRequest_of_holder hc hholder hpage, rfl⟩⟩
  case setUp =>
    refine ⟨_, mirrorSetUp_of_partner hc hj hpartner hended hwaits data, ?_⟩
    rw [if_neg (Nat.not_lt.mpr hneed)]
    exact onlyJob_setJob ..
  case tooSmall =>
    refine ⟨_, mirrorSetUp_of_partner hc hj hpartner hended hwaits data, ?_⟩
    rw [if_pos hneed]
  case fetched =>
    subst hr
    exact ⟨_, pageFetchResponse_of_job hc hj page data, gotPage_of_tag hj hfetching htag⟩
  case ended => exact ⟨_, jobEndNotice_of_peer hc hj hrank hdevice, rfl⟩
  case early =>
    have hreadied : readiedJob j r rank = { j with regrow := some { r with ready := (r.ready ++ [rank]).eraseDups } } := by
      rw [readiedJob, readied, if_neg (by omega)]
    refine ⟨_, regrowReady_of_rankZero hc hj hregrow hst hzero hdevice, ?_⟩
    rw [tryRelease_of_early (job_setJob_same s c (readiedJob j r rank)) rfl hstage, hreadied]
    exact onlyJob_setJob ..
  case replays => exact regrow_replays hc hj hne hregrow hst hstage hdevice hi

/-- Settles O42: the cuttings of the device, and what it does for its partner and its peers. -/
theorem cuttingsAndMirrorsComplete : Obligations.CuttingsAndMirrorsComplete := ⟨cuttingCommandsComplete, mirrorCommandsComplete⟩

end Sys2Proof.Slice0

/-!
PROOFS. What every command keeps (R544, R547, R550, R553) and what reset leaves: the statements O1, O2, O59 and O60.
-/
namespace Sys2Proof.Slice0
open Sys2Proof Sys2Proof.Machine

/-- The commands that may burn a fuse are named; every other command keeps the fuses and the queue. -/
theorem exec_burns (i : Instr) (s : State) : Fusing (exec i s) s := by
  cases i with
  | pwrgoodFall => exact execPwrgoodFall_burns s
  | powerUp selWest selEast bootSrc kat => exact execPowerUp_burns selWest selEast bootSrc kat s
  | perstNAssert ts => exact execPerstNAssert_burns ts s
  | secFwStage => exact execSecFwStage_burns s
  | secFwActivate => exact execSecFwActivate_burns s
  | secFwAbort => exact execSecFwAbort_burns s
  | secFwCommitSvn => exact execSecFwCommitSvn_burns s
  | regWrite offset size v => exact execRegWrite_burns offset size v s
  | rw1cWrite offset size v => exact execRw1cWrite_burns offset size v s
  | rstCmdCore v => exact execRstCmdCore_burns v s
  | rstCmdHalf v => exact execRstCmdHalf_burns v s
  | rstCmdDevice v => exact execRstCmdDevice_burns v s
  | scrubComplete => exact execScrubComplete_burns s
  | _ => exact Keeps.fusing (by simp [exec])

/-- Settles O59: the clock burns nothing, and no command takes a fuse back. -/
theorem fusesNeverGoBack : Obligations.FusesNeverGoBack := by
  intro s t h
  unfold step at h
  split at h
  · obtain rfl := Host.Outcome.next.inj h
    rw [s.clock_kept.1]
    exact ⟨Nat.le_refl _, rfl⟩
  · next i rest _ =>
    obtain ⟨_, hsvn, hrest⟩ := exec_burns i { s with pending := rest } t h
    refine ⟨hsvn, ?_⟩
    rw [← hrest]

/-- Settles O2: what a command burns is no part of the queue. -/
theorem commandsLeaveTheQueue : Obligations.CommandsLeaveTheQueue := fun i s t h => (exec_burns i s t h).1

/-- Settles O1: a step on a queue that is not empty is its second branch. -/
theorem stepRunsFrontCommand : Obligations.StepRunsFrontCommand := by
  intro c rest s h
  unfold step
  rw [h]

/-- Settles O60: context 0 alone is listed at reset, and every other map is empty. -/
theorem resetValues : Obligations.ResetValues := by
  refine ⟨fun _ => rfl, fun _ => rfl, fun _ => rfl, fun c hc => ?_, rfl, rfl, rfl, rfl, rfl, rfl, rfl, rfl, rfl, rfl, rfl, rfl, rfl, rfl, rfl, rfl, rfl⟩
  have hne : c ≠ 0 := by omega
  simp [State.ctx, State.reset, Sec.init, Map.get_cons, hne, Ctx.free]

end Sys2Proof.Slice0

/-!
PROOFS. The extension of ring indices and the doorbells of a ring set, through BAR2 and through the doorbell line (R455 to R458, R461,
R463): the statements O22 and O23.
-/
namespace Sys2Proof.Slice0
open Sys2Proof Sys2Proof.Machine

/-- Settles O22: the extended value is the reference plus the difference modulo 2^32, unless that is 2^31 or more. -/
theorem indexExtendsToNearest : Obligations.IndexExtendsToNearest := by
  intro ref v hv
  simp only [belowIndex, extendIndex, decide_eq_false_iff_not, decide_eq_true_eq]
  refine ⟨fun hnear => ?_, fun hfar x hx => ?_⟩
  · rw [if_pos (by omega)]
    omega
  · omega

/-! ## One ring set replaced -/

/-- Ring set c replaced by `r` differs from the state before in nothing else. -/
theorem onlyRing_setRing (s : State) (c : Nat) (r : RingSet) : OnlyRing s (s.setRing c r) c r :=
  ⟨rfl, fun q => State.ring_setRing s c q r⟩

/-- What `t` is when it is `s` with one ring set replaced. -/
theorem onlyRing_of_eq {s t : State} {c : Nat} {r : RingSet} (h : t = s.setRing c r) : OnlyRing s t c r :=
  h ▸ onlyRing_setRing s c r

/-! ## One event posted (R478) -/

@[simp] theorem ring_postWith (s : State) (c source code status : Nat) (payload : List Byte) (replay : Bool) (q : Nat) :
    (s.postWith c source code status payload replay).ring q = s.ring q := rfl

/-- The held events grow by the event posted. -/
theorem postWith_held (s : State) (c source code status : Nat) (payload : List Byte) (replay : Bool) :
    ∃ e : Event, (s.postWith c source code status payload replay).host.held = s.host.held ++ [e] ∧ e.code = code ∧ e.status = status ∧
      e.payload = payload ∧ e.ctx = c ∧ e.source = source ∧ e.tsc = s.tsc :=
  ⟨_, rfl, rfl, rfl, rfl, rfl, rfl, rfl⟩

/-- One ring set replaced and one event posted. -/
theorem ringAndEvent_postWith (s : State) (c : Nat) (r : RingSet) (d source code status : Nat) (payload : List Byte) (replay : Bool) :
    ∃ e, RingAndEvent s ((s.setRing c r).postWith d source code status payload replay) c r e ∧ e.code = code ∧ e.ctx = d ∧
      e.payload = payload := by
  obtain ⟨e, hheld, hcode, _, hpayload, hctx, _⟩ := postWith_held (s.setRing c r) d source code status payload replay
  exact ⟨e, ⟨by simp [State.postWith, State.setRing], fun q => by simp, hheld⟩, hcode, hctx, hpayload⟩

/-! ## Observed indices (R455, R461) -/

section
variable {s : State} {set v : Nat}

theorem observeCmd_of_valid (hv : validIndex (s.ring set).cmdCi ((s.ring set).cmdCi + 2 ^ (s.ring set).szCmd) v) :
    s.observeCmd set v = s.setRing set { s.ring set with
      cmdPi := extendIndex (s.ring set).cmdCi v, errWait := clearWait (s.ring set) 0
      obs := if (s.ring set).cmdPi < extendIndex (s.ring set).cmdCi v then
          (s.ring set).obs ++ [⟨extendIndex (s.ring set).cmdCi v, s.xcOf set, (s.stalls set).1, (s.stalls set).2⟩]
        else (s.ring set).obs } := by
  obtain ⟨hbelow, htop⟩ := hv
  simp [State.observeCmd, hbelow, Nat.not_lt.2 htop]

theorem observeCmd_of_invalid (hv : ¬ validIndex (s.ring set).cmdCi ((s.ring set).cmdCi + 2 ^ (s.ring set).szCmd) v) :
    s.observeCmd set v = s.ringError set 0 3 v := by
  refine if_pos ?_
  by_contra hgood
  simp only [Bool.or_eq_true, decide_eq_true_eq, not_or, Bool.not_eq_true, Nat.not_lt] at hgood
  exact hv hgood

/-- An invalid index is reported once, and not again while its wait lasts. -/
theorem ringError_of_noWait {which : Nat} (hwait : bit (s.ring set).errWait which = false) (err : Nat) :
    s.ringError set which err v = (s.setRing set { s.ring set with err := err, errWait := (s.ring set).errWait ||| (1 <<< which) }).postWith
      set (s.ringSource set) 0x0102 0 (toLe 1 set ++ toLe 1 err ++ toLe 2 0 ++ toLe 4 v) false := by
  simp [State.ringError, hwait]

theorem observeCi_tok (hv : validIndex (s.ring set).tokCi (s.ring set).tokPi v) : s.observeCi set 1 v = s.setRing set { s.ring set with
    tokCi := extendIndex (s.ring set).tokCi v, errWait := clearWait (s.ring set) 1 } := by
  obtain ⟨hbelow, htop⟩ := hv
  simp [State.observeCi, hbelow, Nat.not_lt.2 htop]

theorem observeCi_cpl (hv : validIndex (s.ring set).cplCi (s.ring set).cplPi v) : s.observeCi set 2 v = s.setRing set { s.ring set with
    cplCi := extendIndex (s.ring set).cplCi v, errWait := clearWait (s.ring set) 2 } := by
  obtain ⟨hbelow, htop⟩ := hv
  simp [State.observeCi, hbelow, Nat.not_lt.2 htop]

theorem observeCi_evt (hv : validIndex (s.ring set).evtCi (s.ring set).evtPi v) : s.observeCi set 3 v = s.setRing set { s.ring set with
    evtCi := extendIndex (s.ring set).evtCi v, errWait := clearWait (s.ring set) 3 } := by
  obtain ⟨hbelow, htop⟩ := hv
  simp [State.observeCi, hbelow, Nat.not_lt.2 htop]

theorem postLost_of_none (h : (s.ring set).evtWait = 0) : s.postLost set = s := by simp [State.postLost, h]

/-- Events that were lost are reported once their ring has room. -/
theorem postLost_of_room (hlost : (s.ring set).evtWait ≠ 0) (hroom : (s.ring set).evtPi - (s.ring set).evtCi < 2 ^ (s.ring set).szEvt) :
    s.postLost set = (s.setRing set { s.ring set with evtWait := 0 }).postWith set (s.ringSource set) 0x0101 0
      (toLe 4 (Nat.min (s.ring set).evtWait (2 ^ 32 - 1))) false := by
  have hroom : (s.ring set).room 2 ≠ 0 := by
    simp only [RingSet.room, RingSet.out]
    omega
  simp only [State.postLost, hlost, hroom, or_self, if_false]

/-! ## BAR2 writes (R458, R676) -/

/-- A ring set that takes BAR2 writes stores the value and observes it. -/
theorem bar2Write_of_takes {w : W32} {i : Nat} (h : takesBar2 s set) (k : State → State) :
    s.bar2Write set i w k = k (s.setRing set { s.ring set with bar2 := (s.ring set).bar2.set i w }) := by
  obtain ⟨_, hst, hline⟩ := h
  simp [State.bar2Write, hst, hline]

theorem bar2Write_of_disabled {w : W32} {i : Nat} (hst : (s.ring set).st = 0) (k : State → State) :
    s.bar2Write set i w k = s.setRing set { s.ring set with bar2 := (s.ring set).bar2.set i w } := by
  simp [State.bar2Write, hst]

/-- A doorbell of a ring set that takes BAR2 writes. -/
theorem doorbell_of_takes {w : W32} {i : Nat} (h : takesBar2 s set) {k : State → State} {t : State}
    (hk : k (s.setRing set { s.ring set with bar2 := (s.ring set).bar2.set i w }) = t) :
    noUnit (decide (set < 16)) (s.bar2Write set i w k) = .next t := by
  rw [noUnit_of (by simpa using h.1), bar2Write_of_takes h, hk]

end

/-- The first part of O23: a valid index is observed, an invalid one reported, and a DISABLED ring set stores what is written. -/
theorem doorbellWritesComplete : DoorbellWritesComplete := by
  rintro set v s r rfl
  refine ⟨fun h hv => ?_, fun h hv hwait => ?_, fun h hv => ?_, fun h hv => ?_, fun h hv hnone => ?_, fun h hv hlost hroom => ?_,
    fun hset hst => ?_⟩
  · refine ⟨_, doorbell_of_takes h (observeCmd_of_valid (by simpa using hv)), onlyRing_of_eq ?_⟩
    simp
    rfl
  · have hwait : bit (s.ring set).errWait 0 = false := by simp [bit, hwait]
    refine ⟨_, doorbell_of_takes h ((observeCmd_of_invalid (by simpa using hv)).trans (ringError_of_noWait (by simpa using hwait) 3)), ?_⟩
    simpa using ringAndEvent_postWith s set _ set _ 0x0102 0 _ false
  · refine ⟨_, doorbell_of_takes h (observeCi_tok (by simpa using hv)), onlyRing_of_eq ?_⟩
    simp [clearWait]
  · refine ⟨_, doorbell_of_takes h (observeCi_cpl (by simpa using hv)), onlyRing_of_eq ?_⟩
    simp [clearWait]
  · refine ⟨_, doorbell_of_takes h ((congrArg (State.postLost · set) (observeCi_evt (by simpa using hv))).trans
      (postLost_of_none (by simpa using hnone))), onlyRing_of_eq ?_⟩
    simp [clearWait]
  · refine ⟨_, doorbell_of_takes h ((congrArg (State.postLost · set) (observeCi_evt (by simpa using hv))).trans
      (postLost_of_room (by simpa using hlost) (by simpa using hroom))), ?_⟩
    simpa [clearWait] using ringAndEvent_postWith s set _ set _ 0x0101 0 _ false
  · have stored (i : Nat) (k : State → State) : ∃ t, noUnit (decide (set < 16)) (s.bar2Write set i v k) = .next t ∧
        OnlyRing s t set { s.ring set with bar2 := (s.ring set).bar2.set i v } :=
      ⟨_, noUnit_of (by simpa using hset) _, onlyRing_of_eq (bar2Write_of_disabled hst k)⟩
    simp only [List.forall_mem_cons]
    exact ⟨stored 0 _, stored 1 _, stored 2 _, stored 3 _, by simp⟩

/-! ## The doorbell line (R457) -/

/-- The host has written the doorbell line of the ring set. -/
def lineWritten (s : State) (set : Nat) (bs : List Byte) : State :=
  { s with host := { s.host with mem := Memory.writeBytes s.host.mem ((s.ring set).dbAddr % 2 ^ 64) bs } }

section
variable {s : State} {set : Nat} (hset : set < 16)
include hset

/-- A write of the line invalidates the copy of an ACTIVE ring set. -/
theorem doorbellSnoop_eq (a b c d : W32) : exec (.doorbellSnoop set a b c d) s = .next (
    if (s.ring set).line = true ∧ (s.ring set).st = 1 then
      (lineWritten s set (toLe 4 a.toNat ++ toLe 4 b.toNat ++ toLe 4 c.toNat ++ toLe 4 d.toNat)).setRing set
        { s.ring set with line := false, await := true }
    else lineWritten s set (toLe 4 a.toNat ++ toLe 4 b.toNat ++ toLe 4 c.toNat ++ toLe 4 d.toNat)) := by
  refine (noUnit_of (by simpa using hset) _).trans (congrArg _ ?_)
  simp [lineWritten]

theorem doorbellObserve_of_failed (hawait : (s.ring set).await = true) (hread : s.hostRead (s.ring set).dbAddr 64 = none) :
    exec (.doorbellObserve set) s = .next (s.setRing set { s.ring set with await := false }) := by
  refine (noUnit_of (by simpa using hset) _).trans (congrArg _ ?_)
  simp [hawait, hread]

/-- The line's data arrives; only an ACTIVE ring set observes it. -/
theorem doorbellObserve_of_read (hawait : (s.ring set).await = true) (hread : (s.hostRead (s.ring set).dbAddr 64).isSome = true) :
    exec (.doorbellObserve set) s = .next (if (s.ring set).st = 1 then
        (s.setRing set { s.ring set with await := false, line := true }).observeAll set (s.lineValues set)
      else s.setRing set { s.ring set with await := false, line := true }) := by
  obtain ⟨bs, hbs⟩ := Option.isSome_iff_exists.1 hread
  have hline : (s.setRing set { s.ring set with await := false, line := true }).lineValues set = s.lineValues set := by
    simp only [State.lineValues, State.ring_setRing, if_true]
    rfl
  refine (noUnit_of (by simpa using hset) _).trans (congrArg _ ?_)
  simp [hawait, hbs, hline]

end

theorem clearWait_of_none {r : RingSet} (h : r.errWait = 0) (which : Nat) : clearWait r which = 0 := by
  simp [clearWait, bit, h]

/-- Four valid fields, the command index unchanged, no event lost: the consumer indices are taken. -/
theorem observeAll_of_valid {s : State} {set : Nat} {v : Nat → Nat} (r : RingSet) (hr : s.ring set = r)
    (hcmd : validIndex r.cmdCi (r.cmdCi + 2 ^ r.szCmd) (v 0)) (hsame : extendIndex r.cmdCi (v 0) = r.cmdPi)
    (htok : validIndex r.tokCi r.tokPi (v 1)) (hcpl : validIndex r.cplCi r.cplPi (v 2)) (hevt : validIndex r.evtCi r.evtPi (v 3))
    (hwait : r.errWait = 0) (hlost : r.evtWait = 0) :
    s.observeAll set [v 0, v 1, v 2, v 3] = s.setRing set { r with
      tokCi := extendIndex r.tokCi (v 1), cplCi := extendIndex r.cplCi (v 2), evtCi := extendIndex r.evtCi (v 3) } := by
  subst hr
  have h0 : s.observeCmd set (v 0) = s.setRing set (s.ring set) := by
    rw [observeCmd_of_valid hcmd, hsame, clearWait_of_none hwait, if_neg (Nat.lt_irrefl _), ← hwait]
  simp only [State.observeAll, List.getD_cons_zero, List.getD_cons_succ]
  rw [h0, observeCi_tok (by simpa using htok), observeCi_cpl (by simpa using hcpl), observeCi_evt (by simpa using hevt),
    postLost_of_none (by simpa using hlost)]
  simp [clearWait, bit, hwait]

/-- The second part of O23: a snoop invalidates a copy that the device holds; the read of the line ends with what it observes. -/
theorem doorbellLineCompletes : DoorbellLineCompletes := by
  rintro set s r rfl hset
  refine ⟨fun a b c d => ⟨_, doorbellSnoop_eq hset a b c d, ?_⟩, fun hawait hst hread => ?_, fun hawait hread => ?_,
    fun v hawait hst hread hv hcmd hsame htok hcpl hevt hwait hlost => ?_⟩
  · by_cases hheld : (s.ring set).line = true ∧ (s.ring set).st = 1
    · simp only [hheld, and_true]
      exact ⟨rfl, fun q => State.ring_setRing (lineWritten s set _) set q _, rfl⟩
    · simp only [hheld, and_false, if_false]
      exact ⟨rfl, fun q => rfl, rfl⟩
  · exact ⟨_, doorbellObserve_of_read hset hawait hread, onlyRing_of_eq (if_neg hst)⟩
  · exact ⟨_, doorbellObserve_of_failed hset hawait hread, onlyRing_setRing ..⟩
  · refine ⟨_, doorbellObserve_of_read hset hawait hread, onlyRing_of_eq ?_⟩
    rw [if_pos hst, hv, observeAll_of_valid { s.ring set with await := false, line := true } (by simp) hcmd hsame htok hcpl hevt hwait hlost,
      State.setRing_setRing]

/-- Settles O23: the doorbells of BAR2 and the doorbell line. -/
theorem doorbellsComplete : Obligations.DoorbellsComplete := ⟨doorbellWritesComplete, doorbellLineCompletes⟩

end Sys2Proof.Slice0

/-!
PROOFS. What a host command meets before its effect, how it is fetched, and its completion (R455, R459 to R468, R475, R699): the statements
O27, O28 and O35.
-/
namespace Sys2Proof.Slice0
open Sys2Proof Sys2Proof.Machine

/-! ## The commands of the rings (R465, R466, R468) -/

/-- Check 6 of R465 reads no context for REGROW. -/
theorem hostCmd_regrow (s : State) (h : Head) (c d : Nat) (k : State → State) : s.hostCmd h 0x61 c k = s.hostCmd h 0x61 d k := by
  simp [State.hostCmd, State.gateStatus, jobBound]

/-- Every host command is checked on its ring set and then has its own effect. -/
theorem exec_of_hostOp {i : Instr} {h : Head} {op c : Nat} (hi : hostOp i = some (h, op, c)) :
    ∃ k, ∀ s : State, exec i s = onSet h (s.hostCmd h op c k) := by
  cases i with
  | nop | jobOpen | jobClose | jobEnd | jobDiscard | open_ | score | fork | append | resume | close | setLoad | bedStage | bedLoad
  | bedCommit | bedDrop | gibbsModelLoad | gibbsModelDrop | chainOpen | chainSet | chainWrite | chainRead | gibbsRun | mossRegion | mossLoad
  | mossRun | mossStop | mossResume | mossRead | cutNow | ctxRegister | ctxDestroy | ctxRun | kernelLoad | kernelUnload | stepBind
  | randStoch | randDrbg | randRaw =>
    obtain ⟨rfl, rfl, rfl⟩ : _ = h ∧ _ = op ∧ _ = c := by simpa only [hostOp, Option.some.injEq, Prod.mk.injEq] using hi
    exact ⟨_, fun _ => rfl⟩
  | regrow =>
    obtain ⟨rfl, rfl, rfl⟩ : _ = h ∧ _ = op ∧ _ = c := by simpa only [hostOp, Option.some.injEq, Prod.mk.injEq] using hi
    exact ⟨_, fun s => congrArg (onSet _) (hostCmd_regrow s _ _ _ _)⟩
  | _ => simp [hostOp] at hi

/-- A command of the boundary group without parameter data is handed to the engine's boundary. -/
theorem exec_of_plainBoundary {i : Instr} {h : Head} {op c : Nat} (hi : hostOp i = some (h, op, c)) (hop : op ∈ plainBoundary) (s : State) :
    exec i s = onSet h (s.boundaryCmd h op i) := by
  cases i with
  | jobClose | append | resume | close | bedStage | bedLoad | bedDrop | gibbsModelLoad | gibbsModelDrop | chainOpen | chainSet | chainWrite
  | chainRead | cutNow =>
    obtain ⟨rfl, rfl, rfl⟩ : _ = h ∧ _ = op ∧ _ = c := by simpa only [hostOp, Option.some.injEq, Prod.mk.injEq] using hi
    rfl
  | nop | jobOpen | jobEnd | jobDiscard | open_ | score | fork | setLoad | bedCommit | gibbsRun | mossRegion | mossLoad | mossRun | mossStop
  | mossResume | mossRead | regrow | ctxRegister | ctxDestroy | ctxRun | kernelLoad | kernelUnload | stepBind | randStoch | randDrbg
  | randRaw =>
    obtain ⟨rfl, rfl, rfl⟩ : _ = h ∧ _ = op ∧ _ = c := by simpa only [hostOp, Option.some.injEq, Prod.mk.injEq] using hi
    exact absurd hop (by decide)
  | _ => simp [hostOp] at hi

theorem onSet_next {h : Head} (hset : h.set < 16) (r : State) : onSet h r = .next r := noUnit_of (by simpa using hset) r

/-! ## Checks (R465) -/

section
variable {s : State} {h : Head} {op c : Nat} (k : State → State)

theorem hostCmd_of_notTaken (htakes : (s.ring h.set).takes = false) : s.hostCmd h op c k = s := by
  simp [State.hostCmd, htakes]

theorem hostCmd_of_failed (htakes : (s.ring h.set).takes = true) (hfails : s.gateStatus h.set op c ≠ 0) :
    s.hostCmd h op c k = (taken s h op).done h op (s.gateStatus h.set op c) 0 := by
  simp [State.hostCmd, htakes, hfails, Slice0.taken]

end

/-- The first part of O35: the command is checked before its own effect, whatever that is. -/
theorem hostCommandsAreChecked : HostCommandsAreChecked := by
  intro i s h op c hi hset
  obtain ⟨k, hk⟩ := exec_of_hostOp hi
  rw [hk, onSet_next hset]
  exact ⟨fun htakes => congrArg _ (hostCmd_of_notTaken k htakes), fun htakes hfails => congrArg _ (hostCmd_of_failed k htakes hfails)⟩

/-- A command waits behind its job's others while the engine is in a step. -/
theorem boundaryCommand_of_running {s : State} {c : Nat} {j : Job} (hj : s.job c = some j) (hrun : j.run.isSome = true) (cmd : Instr)
    (data : List Byte) : s.boundaryCommand c cmd data = s.setJob c { j with waiting := j.waiting ++ [⟨cmd, data⟩] } := by
  have hnone : j.run.isNone = false := by simpa using hrun
  simp [State.boundaryCommand, hj, Job.atBoundary, hnone]

/-- The second part of O35. -/
theorem boundaryCommandsWait : BoundaryCommandsWait := by
  intro i s h op j hi hop ht hj hrun
  rw [exec_of_plainBoundary hi hop, onSet_next ht.set]
  exact congrArg _ ((ht.hostCmd _).trans (boundaryCommand_of_running (s := taken s h op) hj hrun i []))

/-- Settles O35: the checks of R465, and the wait of the boundary group. -/
theorem hostCommandsAreCheckedAndWait : Obligations.HostCommandsAreCheckedAndWait := ⟨hostCommandsAreChecked, boundaryCommandsWait⟩

/-! ## Descriptors (R464, R465, R468) -/

/-- An opcode that has operands in the table of R468 spells a host command. -/
theorem descInstr_of_listed {op : Nat} (hop : (descFields op).isSome = true) (h : Head) (v : Nat → Nat) :
    ∃ i c, descInstr h op v = some i ∧ hostOp i = some (h, op, c) := by
  unfold descFields at hop
  split at hop
  rotate_right
  · simp at hop
  all_goals exact ⟨_, _, rfl, rfl⟩

theorem listed_of_descStatus {b : List Byte} (hb : descStatus b = 0) : (descFields (leAt b 0 1)).isSome = true := by
  unfold descStatus at hb
  split at hb
  · simp at hb
  · next fs hfs => simp [hfs]

/-- A fetched command runs as its own row. -/
theorem runHost_of_hostOp {i : Instr} {x : Head × Nat × Nat} (hi : hostOp i = some x) (s : State) : s.runHost i = exec i s := by
  cases i with
  | nop | jobOpen | jobClose | jobEnd | jobDiscard | open_ | score | fork | append | resume | close | setLoad | bedStage | bedLoad
  | bedCommit | bedDrop | gibbsModelLoad | gibbsModelDrop | chainOpen | chainSet | chainWrite | chainRead | gibbsRun | mossRegion | mossLoad
  | mossRun | mossStop | mossResume | mossRead | cutNow | regrow | ctxRegister | ctxDestroy | ctxRun | kernelLoad | kernelUnload | stepBind
  | randStoch | randDrbg | randRaw => rfl
  | _ => simp [hostOp] at hi

section
variable {s : State} {set : Nat} {b : List Byte}

/-- A fetch from a ring set that takes a command reads the entry at CMD_CI. -/
theorem cmdFetch_of_takes (hset : set < 16) (htakes : (s.ring set).takes = true) (hmore : (s.ring set).cmdCi < (s.ring set).cmdPi) :
    exec (.cmdFetch set) s =
      match s.hostRead (entryAddr (s.ring set).cmdBase (s.ring set).szCmd (s.ring set).cmdCi 64) 64 with
      | none => .next (s.ringFault set 5)
      | some b => s.runDesc set b := by
  have hset : ¬ 16 ≤ set := by omega
  have hmore : ¬ (s.ring set).cmdPi ≤ (s.ring set).cmdCi := by omega
  simp only [exec, execCmdFetch, hset, htakes, hmore, Bool.not_true, decide_false, Bool.or_self, Bool.false_eq_true, if_false] <;> rfl

end

/-- Settles O27: the entry at CMD_CI is read, checked, and runs as its row. -/
theorem commandFetchCompletes : Obligations.CommandFetchCompletes := by
  rintro set s u r b h rfl hset htakes hmore rfl rfl
  have hfetch := cmdFetch_of_takes hset htakes hmore
  refine ⟨fun hread hpass => ?_, fun hread hfail => ?_, fun hread => ?_⟩
  · obtain ⟨i, c, hdesc, hop⟩ := descInstr_of_listed (listed_of_descStatus hpass) ⟨set, (s.ring set).cmdCi, BitVec.ofNat 32 (leAt b 4 4)⟩
      (descValues b)
    obtain ⟨k, hk⟩ := exec_of_hostOp hop
    have hexec := (hk ((s.setRing set { s.ring set with cmdCi := ((s.ring set).cmdCi + 1) % 2 ^ 64 }).putWriteback set)).trans
      (onSet_next hset _)
    refine ⟨i, _, hdesc, hexec, ?_⟩
    rw [hfetch, entryAddr, hread, ← hexec, ← runHost_of_hostOp hop]
    simp [State.runDesc, hpass, hdesc]
  · refine ⟨_, ?_, rfl⟩
    rw [hfetch, entryAddr, hread]
    simp [State.runDesc, hfail, Slice0.taken]
  · exact ⟨_, by rw [hfetch, entryAddr, hread], rfl⟩

/-! ## Records and the writeback area (R455, R459, R460) -/

@[simp] theorem ring_hostWrite (s : State) (a : Nat) (bs : List Byte) (q : Nat) : (s.hostWrite a bs).ring q = s.ring q := by
  unfold State.hostWrite
  split <;> rfl

@[simp] theorem ring_putRecord (s : State) (set which : Nat) (rec : List Byte) (q : Nat) :
    (s.putRecord set which rec).ring q = if q = set then (s.ring set).advance which else s.ring q := by
  simp [State.putRecord]

@[simp] theorem ring_putWriteback (s : State) (set q : Nat) : (s.putWriteback set).ring q = s.ring q := ring_hostWrite ..

@[simp] theorem mem_setRing (s : State) (c : Nat) (r : RingSet) : (s.setRing c r).host.mem = s.host.mem := rfl

theorem mem_putRecord {s : State} (hcan : s.hostCanWrite = true) (set which : Nat) (rec : List Byte) :
    (s.putRecord set which rec).host.mem = Memory.writeBytes s.host.mem
      (entryAddr ((s.ring set).out which).1 ((s.ring set).out which).2.1 ((s.ring set).out which).2.2.1 32 % 2 ^ 64) rec :=
  hostWrite_mem hcan ..

theorem mem_putWriteback {s : State} (hcan : s.hostCanWrite = true) (set : Nat) :
    (s.putWriteback set).host.mem = Memory.writeBytes s.host.mem ((s.ring set).wbAddr % 2 ^ 64) (s.ring set).writeback :=
  hostWrite_mem hcan ..

theorem recordIrq_of_disabled {s : State} {set : Nat} (hirq : (s.ring set).irqEn = false) (which : Nat) : s.recordIrq set which = s := by
  simp [State.recordIrq, hirq]

/-! ## Completions (R475) -/

/-- A completion on a ring set that runs, without extension records and without an interrupt, is one record. -/
theorem done_eq {s : State} {h : Head} (op status result : Nat) (hcan : s.hostCanWrite = true) (hst : (s.ring h.set).st ≠ 0)
    (hst4 : (s.ring h.set).st ≠ 4) (hirq : (s.ring h.set).irqEn = false) :
    s.done h op status result = ((s.putRecord h.set 0 ((Cpl.plain status result).headRecord h op 0 (s.spanOf h))).setRing h.set
      (((s.ring h.set).advance 0).completed h)).putWriteback h.set := by
  have hruns : ¬ ((s.ring h.set).st = 0 ∨ (s.ring h.set).st = 4) := by omega
  have hirq : (((s.ring h.set).advance 0).completed h).irqEn = false := hirq
  rw [State.done, State.complete, if_pos hcan, State.writeCpl]
  simp only [if_neg hruns, Cpl.plain, List.take_nil, ite_self, List.zipIdx_nil, List.foldl_nil, List.length_nil]
  rw [recordIrq_of_disabled (by simpa using hirq)]
  simp

/-- A completion touches the host port alone. -/
theorem done_frame {s : State} {h : Head} {op status result : Nat} (hcan : s.hostCanWrite = true) :
    { s.done h op status result with host := s.host } = s := by
  rw [State.done, State.complete, if_pos hcan]
  simp

/-- Settles O28: the record stands at the producer index, and the writeback area holds the ring set after it. -/
theorem completionIsWritten : Obligations.CompletionIsWritten := by
  rintro s h op status result r r' rfl hcan hst hst4 hirq rfl
  have hdone := done_eq op status result hcan hst hst4 hirq
  refine ⟨?_, ?_, fun q hq => ?_, done_frame hcan⟩
  · rw [hdone]
    simp [RingSet.advance]
  · rw [hdone, mem_putWriteback (by simpa using hcan)]
    simp [mem_putRecord hcan, RingSet.out, RingSet.advance, RingSet.completed, entryAddr, Cpl.headRecord, Cpl.plain]
  · rw [hdone]
    simp [hq]

end Sys2Proof.Slice0

/-!
PROOFS. The order and the release of held events, and the record of one (R459, R460, R478 to R480, R539, R541): the statement O25.
-/
namespace Sys2Proof.Slice0
open Sys2Proof Sys2Proof.Machine

/-! ## The order of events (R480) -/

/-- No event orders before `a` and after `b`. -/
def NotAfter (a b : Event) : Prop := evBefore b a = false

theorem evBefore_iff (a b : Event) :
    evBefore a b = true ↔ a.carried < b.carried ∨ (a.carried = b.carried ∧ a.source < b.source) := by
  simp [evBefore]

theorem notAfter_iff (a b : Event) :
    NotAfter a b ↔ a.carried < b.carried ∨ (a.carried = b.carried ∧ a.source ≤ b.source) := by
  rw [NotAfter, ← Bool.not_eq_true, evBefore_iff]
  omega

theorem NotAfter.trans {a b c : Event} (hab : NotAfter a b) (hbc : NotAfter b c) : NotAfter a c := by
  rw [notAfter_iff] at *
  omega

theorem notAfter_of_evBefore {a b : Event} (h : evBefore a b = true) : NotAfter a b := by
  rw [evBefore_iff] at h
  rw [notAfter_iff]
  omega

theorem insertEv_perm (e : Event) (es : List Event) : (insertEv e es).Perm (e :: es) := by
  induction es with
  | nil => exact List.Perm.refl _
  | cons x xs ih =>
    unfold insertEv
    split
    · exact List.Perm.refl _
    · exact (ih.cons x).trans (List.Perm.swap e x xs)

theorem insertEv_sorted (e : Event) {es : List Event} (h : es.Pairwise NotAfter) : (insertEv e es).Pairwise NotAfter := by
  induction es with
  | nil => exact List.pairwise_singleton _ _
  | cons x xs ih =>
    obtain ⟨hx, hxs⟩ := List.pairwise_cons.1 h
    unfold insertEv
    split
    · next hbefore =>
      have hex := notAfter_of_evBefore hbefore
      exact List.pairwise_cons.2 ⟨List.forall_mem_cons.2 ⟨hex, fun y hy => hex.trans (hx y hy)⟩, h⟩
    · next hafter =>
      refine List.pairwise_cons.2 ⟨fun y hy => ?_, ih hxs⟩
      rcases List.mem_cons.1 ((insertEv_perm e xs).mem_iff.1 hy) with rfl | hy
      · exact (Bool.not_eq_true _).mp hafter
      · exact hx y hy

theorem foldl_insertEv (es : List Event) {acc : List Event} (h : acc.Pairwise NotAfter) :
    (es.foldl (fun acc e => insertEv e acc) acc).Perm (es ++ acc) ∧ (es.foldl (fun acc e => insertEv e acc) acc).Pairwise NotAfter := by
  induction es generalizing acc with
  | nil => exact ⟨List.Perm.refl _, h⟩
  | cons e es ih =>
    obtain ⟨hperm, hsorted⟩ := ih (insertEv_sorted e h)
    exact ⟨hperm.trans (((insertEv_perm e acc).append_left es).trans List.perm_middle), hsorted⟩

/-- The first part of O25. -/
theorem eventsAreOrdered : EventsAreOrdered := fun es =>
  (foldl_insertEv es List.Pairwise.nil).imp (fun h => by simpa [sortEvs] using h) id

/-! ## The release (R479, R480, R539) -/

theorem eventRelease_of_scrub {s : State} (h : s.sec.scrub.isSome = true) (n : Nat) : exec (.eventRelease n) s = .next s := by
  refine congrArg Host.Outcome.next ?_
  simp [State.releaseEvents, h]

/-- The state that holds no event that every source has passed. -/
def withHeld (s : State) (es : List Event) : State := { s with host := { s.host with held := es } }

theorem eventRelease_of_noScrub {s : State} (h : s.sec.scrub = none) (n : Nat) : exec (.eventRelease n) s = .next
    ((sortEvs ((s.host.held.map s.routed).filter fun e => decide (e.carried + 1024 ≤ n))).foldl State.deliver
      (withHeld s ((s.host.held.map s.routed).filter fun e => decide (n < e.carried + 1024)))) := by
  refine congrArg Host.Outcome.next ?_
  simp [State.releaseEvents, h, withHeld]

/-! ## One event written (R459, R460, R478) -/

theorem records_of_short {e : Event} (h : e.payload.length ≤ 16) (minor : Nat) :
    e.records minor = [toLe 8 e.carried ++ toLe 2 e.source ++ toLe 2 e.code ++ toLe 2 e.status ++ toLe 1 e.ctx ++
      toLe 1 (1 + 4 * b2n e.coarse + 8 * b2n e.replay) ++ bytesAt e.payload 0 16] := by
  have hshort : ¬ (16 < e.payload.length ∧ 3 ≤ minor) := by omega
  simp [Event.records, hshort]

/-- The ring set once one record of an event with TSC `carried` is posted. -/
def posted (r : RingSet) (carried : Nat) : RingSet :=
  { r with evtPi := (r.evtPi + 1) % 2 ^ 64, evtPosted := (r.evtPosted + 1) % 2 ^ 64, evtLast := carried }

/-- Records entered among the last ones, which a dump holds (R643). -/
def tailed (s : State) (rs : List (List Byte)) : State := { s with host := { s.host with tail := pushTail s.host.tail rs } }

@[simp] theorem ring_tailed (s : State) (rs : List (List Byte)) (q : Nat) : (tailed s rs).ring q = s.ring q := by
  simp [State.ring, tailed]

theorem tailed_fields (s : State) (rs : List (List Byte)) :
    (tailed s rs).hostCanWrite = s.hostCanWrite ∧ (tailed s rs).host.mem = s.host.mem := by
  simp [State.hostCanWrite, tailed]

/-- The record of an event in its ring and among the last records. -/
def recorded (s : State) (set : Nat) (e : Event) (rec : List Byte) : State :=
  tailed ((s.putRecord set 2 rec).setRing set (posted (s.ring set) e.carried)) [rec]

@[simp] theorem ring_recorded (s : State) (set : Nat) (e : Event) (rec : List Byte) :
    (recorded s set e rec).ring set = posted (s.ring set) e.carried := by
  simp [recorded]

theorem recorded_fields (s : State) (set : Nat) (e : Event) (rec : List Byte) :
    (recorded s set e rec).hostCanWrite = s.hostCanWrite ∧ (recorded s set e rec).host.mem = (s.putRecord set 2 rec).host.mem :=
  by simp [recorded, tailed_fields]

/-- An event of one record that fits a ring without interrupts is written with its writeback area. -/
theorem writeEvent_of_room {s : State} {set : Nat} {e : Event} {rec : List Byte} (hcan : s.hostCanWrite = true)
    (hirq : (s.ring set).irqEn = false) (hrec : e.records (s.ring set).negMinor = [rec])
    (hroom : (s.ring set).evtPi - (s.ring set).evtCi < 2 ^ (s.ring set).szEvt) :
    s.writeEvent set e = (recorded s set e rec).putWriteback set := by
  have hroom : ¬ (s.ring set).room 2 < [rec].length := by
    simp only [RingSet.room, RingSet.out, List.length_singleton]
    omega
  have hirq : (((recorded s set e rec).putWriteback set).ring set).irqEn = false := by simpa [posted] using hirq
  refine Eq.trans ?_ (recordIrq_of_disabled hirq 2)
  simp only [State.writeEvent, hrec, if_neg hroom, hcan, Bool.not_true, Bool.false_eq_true, if_false, List.foldl_cons, List.foldl_nil,
    ring_putRecord, if_true, recorded, tailed, posted, RingSet.advance]

/-- The second part of O25. -/
theorem eventReleaseCompletes : EventReleaseCompletes := by
  intro n s
  refine ⟨fun hscrub => ?_, fun hscrub => ⟨s, eventRelease_of_scrub hscrub n, rfl⟩, ?_⟩
  · exact ⟨_, eventRelease_of_noScrub hscrub n, _, rfl, rfl, rfl⟩
  · rintro set e r rfl hcan hirq hshort hroom
    have hwrite := writeEvent_of_room hcan hirq (records_of_short hshort _) hroom
    have hfields := recorded_fields s set e
    refine ⟨_, rfl, ?_, ?_⟩
    · rw [hwrite, ring_putWriteback, ring_recorded]
      rfl
    · rw [hwrite, ring_putWriteback, mem_putWriteback ((hfields _).1.trans hcan), (hfields _).2, mem_putRecord hcan, ring_recorded]
      rfl

/-- Settles O25: held events are sorted, and those that every source has passed are delivered in that order. -/
theorem eventsAreReleasedInOrder : Obligations.EventsAreReleasedInOrder := ⟨eventsAreOrdered, eventReleaseCompletes⟩

end Sys2Proof.Slice0

/-!
PROOFS. The staging window (R443, R444, R449 to R452): the statement O26.
-/
namespace Sys2Proof.Slice0
open Sys2Proof Sys2Proof.Machine

/-! ## Accesses held and made (R452) -/

theorem hdmWrite_of_held {s : State} (h : s.holdsMem = true) (w : Nat) (bs : List Byte) (poison : Bool) :
    exec (.hdmWrite w bs poison) s =
      .next { s with host := { s.host with accesses := s.host.accesses ++ [.hdmWrite w bs poison] } } :=
  congrArg Host.Outcome.next (if_pos h)

theorem hdmWrite_of_free {s : State} (h : s.holdsMem = false) (w : Nat) (bs : List Byte) (poison : Bool) :
    exec (.hdmWrite w bs poison) s = .next (s.hdmWriteNow w bs poison) :=
  congrArg Host.Outcome.next (if_neg (by simp [h]))

theorem hdmRead_of_free {s : State} (h : s.holdsMem = false) (w n : Nat) (e : Ecc) :
    exec (.hdmRead w n e) s = .next (s.hdmReadNow w n e) :=
  congrArg Host.Outcome.next (if_neg (by simp [h]))

/-! ## Where an access goes (R289, R444, R450) -/

section
variable {s : State} {w o : Nat} {a : Aperture} (hap : s.apertureAt w = (a, o)) (hin : s.inWindow w = true)
include hap hin

theorem hdmWriteNow_of_partition {bs : List Byte} (htarget : a.target = 3) (hinside : s.inPartition a.ctx (a.base + o) bs.length = true)
    (hst : (s.ctx a.ctx).st ≠ 3) : s.hdmWriteNow w bs false = s.lpxWrite (a.base + o) 1 bs := by
  simp [State.hdmWriteNow, hin, hap, htarget, hinside, hst]

theorem hdmWriteNow_of_none (bs : List Byte) (htarget : a.target = 0) : s.hdmWriteNow w bs false = s.hdmDeny := by
  simp [State.hdmWriteNow, hin, hap, htarget]

theorem hdmWriteNow_of_bed {bs : List Byte} {b : Nat} (htarget : a.target = b + 1) (hb : b < 2) :
    s.hdmWriteNow w bs false = s.hdmBedWrite a.ctx b o bs := by
  have hbed : a.target = 1 ∨ a.target = 2 := by omega
  have hindex : a.target - 1 = b := by omega
  simp only [State.hdmWriteNow, hin, hap, if_pos hbed, hindex, Bool.not_true, Bool.false_eq_true, if_false]

/-- A poisoned write that names no bed and no partition is reported to no context. -/
theorem hdmWriteNow_of_poison (bs : List Byte) (htarget : a.target = 0) :
    s.hdmWriteNow w bs true = (s.postWith 0 (s.schedulerSource 0) 0x0103 0 (toLe 8 w) (s.replaying 0)).hdmDeny := by
  simp [State.hdmWriteNow, hin, State.hdmPoison, hap, htarget]

theorem hdmReadNow_of_partition {n : Nat} (htarget : a.target = 3) (hinside : s.inPartition a.ctx (a.base + o) n = true) :
    s.hdmReadNow w n .clean = { s with reply := s.lpxRead (a.base + o) n } := by
  simp [State.hdmReadNow, State.hdmPlace, hin, hap, htarget, hinside, State.answer]

theorem hdmReadNow_of_none (n : Nat) (e : Ecc) (htarget : a.target = 0) :
    s.hdmReadNow w n e = { s with reply := List.replicate n 0#8 } := by
  simp [State.hdmReadNow, State.hdmPlace, hin, hap, htarget, State.answer]

end

/-- A write within a bed in LOADING lands and is counted. -/
theorem hdmBedWrite_of_loading {s : State} {c b o : Nat} {j : Job} {bs : List Byte} (hj : s.job c = some j) (hrun : j.st = .running)
    (hst : (j.bed b).st = 1) (hfits : o + bs.length ≤ (j.bedRange b).2) : s.hdmBedWrite c b o bs =
      (s.lpxWrite ((j.bedRange b).1 + o) 4 bs).setJob c (j.setBed b { (j.bed b) with loaded := (j.bed b).loaded + bs.length }) := by
  simp [State.hdmBedWrite, hj, hrun, hst, Nat.not_lt.2 hfits]

/-- Settles O26: the aperture of the offset decides where an access goes. -/
theorem stagingWindowCompletes : Obligations.StagingWindowCompletes := by
  intro w bs s a o hap hin
  refine ⟨fun hheld => ⟨_, hdmWrite_of_held hheld .., rfl⟩, fun hfree htarget hinside hst => ?_, fun hfree htarget => ?_,
    fun j b hfree htarget hb hj hrun hst hfits => ?_, fun hfree htarget => ?_, fun n e hfree htarget hinside he => ?_,
    fun n e hfree htarget => ?_⟩
  · exact ⟨_, hdmWrite_of_free hfree .., hdmWriteNow_of_partition hap hin htarget hinside hst⟩
  · exact ⟨_, hdmWrite_of_free hfree .., hdmWriteNow_of_none hap hin bs htarget⟩
  · refine ⟨_, hdmWrite_of_free hfree .., ?_⟩
    rw [hdmWriteNow_of_bed hap hin htarget hb, hdmBedWrite_of_loading hj hrun hst hfits]
    exact ⟨rfl, job_setJob_same .., rfl⟩
  · refine ⟨_, hdmWrite_of_free hfree .., ?_⟩
    rw [hdmWriteNow_of_poison hap hin bs htarget]
    obtain ⟨e, hheld, hcode, _, hpayload, _⟩ := postWith_held s 0 (s.schedulerSource 0) 0x0103 0 (toLe 8 w) (s.replaying 0)
    exact ⟨rfl, rfl, rfl, e, hheld, hcode, hpayload⟩
  · subst he
    exact ⟨_, hdmRead_of_free hfree .., hdmReadNow_of_partition hap hin htarget hinside⟩
  · exact ⟨_, hdmRead_of_free hfree .., hdmReadNow_of_none hap hin n e htarget⟩

end Sys2Proof.Slice0

/-!
PROOFS. The reception of flits, credits, retry and forwarding (R492 to R497, R500, R505, R506): the statement O43.
-/
namespace Sys2Proof.Slice0
open Sys2Proof Sys2Proof.Machine

/-! ## One port replaced -/

theorem onlyPort_setPort (s : State) (p : Nat) (x : Port) : OnlyPort s (s.setPort p x) p x := ⟨rfl, fun q => State.port_setPort s p q x⟩

theorem onlyPort_of_eq {s t : State} {p : Nat} {x : Port} (h : t = s.setPort p x) : OnlyPort s t p x := h ▸ onlyPort_setPort s p x

/-! ## What may leave a port (R494, R500, R501) -/

/-- Port `x` with what sending changes taken from `y`: the queue, the line, the replay buffers with their numbers, the credits, the count of
flits sent and the round robin. -/
def withSent (x y : Port) : Port :=
  { x with queue := y.queue, line := y.line, nextN := y.nextN, nextU := y.nextU, heldN := y.heldN, heldU := y.heldU, credits := y.credits
           txFlits := y.txFlits, wrr := y.wrr }

/-- Sending changes nothing else of a port. -/
def SentOnly (x y : Port) : Prop := withSent x y = y

theorem SentOnly.refl (x : Port) : SentOnly x x := rfl

theorem SentOnly.trans {x y z : Port} (h : SentOnly x y) (k : SentOnly y z) : SentOnly x z := by
  rw [SentOnly, ← k, ← h]
  rfl

theorem sentOnly_sendClass (x : Port) (c : Nat) : SentOnly x (x.sendClass c) := by
  unfold Port.sendClass
  split <;> rfl

theorem sentOnly_drainFuel (w1 w2 n : Nat) (x : Port) : SentOnly x (Port.drainFuel w1 w2 n x) := by
  induction n generalizing x with
  | zero => exact SentOnly.refl x
  | succ n ih =>
    rw [Port.drainFuel]
    split
    · exact SentOnly.refl x
    · next c _ =>
      refine (sentOnly_sendClass x c).trans ?_
      dsimp only
      split
      · have hwrr : SentOnly (x.sendClass c) { x.sendClass c with wrr := ((x.sendClass c).wrr + 1) % (w1 + w2) } := rfl
        exact hwrr.trans (ih _)
      · exact ih _

/-- Nothing differs but port p, and there only what sending changes. -/
structure Drained (s t : State) (p : Nat) : Prop where
  rest : { t with rz := { t.rz with ports := s.rz.ports } } = s
  others : ∀ q, q ≠ p → t.port q = s.port q
  here : SentOnly (s.port p) (t.port p)

theorem drained_drainPort (s : State) (p : Nat) : Drained s (s.drainPort p) p := by
  unfold State.drainPort
  split
  · exact ⟨rfl, fun _ _ => rfl, SentOnly.refl _⟩
  · refine ⟨rfl, fun q hq => ?_, ?_⟩
    · rw [State.port_setPort, if_neg hq]
    · rw [State.port_setPort, if_pos rfl]
      exact sentOnly_drainFuel ..

/-- A port without queued flits sends nothing. -/
theorem drainPort_of_empty {s : State} {p : Nat} (hscrub : s.sec.scrub = none) (hqueue : (s.port p).queue = []) :
    s.drainPort p = s.setPort p (s.port p) := by
  simp only [State.drainPort, hscrub, Option.isSome_none, Bool.false_eq_true, if_false, hqueue, List.length_nil, Port.drainFuel]

theorem drainPort_setPort_of_empty {s : State} {p : Nat} {x : Port} (hscrub : s.sec.scrub = none) (hqueue : x.queue = []) :
    (s.setPort p x).drainPort p = s.setPort p x := by
  rw [drainPort_of_empty (by simpa using hscrub) (by simpa using hqueue)]
  simp

/-! ## Reception (R492 to R495) -/

section
variable {s : State} {p : Nat} {m : List Byte} {ts : List Nat} {k : State → FlitHead → State}

theorem receive_of_bad (hscrub : s.sec.scrub = none) (hlow : 1 ≤ (s.port p).st) (hhigh : (s.port p).st ≤ 4) (hbad : flitOk m = false) :
    s.receive p m ts k = s.setPort p ({ s.port p with crcErr := (s.port p).crcErr + 1 } : Port).nak := by
  simp [State.receive, Port.listens, hscrub, hlow, hhigh, hbad]

/-- A NAK or TRAIN flit has its effect on the port that has taken its acknowledgements. -/
theorem Arrives.receive_unsequenced {ty : Nat} {y : Port} (ha : Arrives s p m ty y) (hty : ty = 3 ∨ ty = 4) (hts : ts.contains ty = true) :
    s.receive p m ts k = k (s.setPort p y) (flitHead m) := by
  have hafter : y = (s.port p).acked (flitHead m) := by rw [ha.after, if_pos hty]
  simp [State.receive, Port.listens, ha.scrub, ha.listens, ha.sound, ha.type, hty, hafter]
  intro hno
  simp [hno] at hts

/-- Any other flit has its effect on the port that has accepted it, and then the port sends. -/
theorem Arrives.receive_sequenced {ty : Nat} {y : Port} (ha : Arrives s p m ty y) (hty : ty ≠ 3 ∧ ty ≠ 4) (hts : ts.contains ty = true) :
    s.receive p m ts k = (k (s.setPort p y) (flitHead m)).drainPort p := by
  have hafter := ha.after
  rw [if_neg (by omega)] at hafter
  have horder := ha.order hty.1 hty.2
  have hnot : ¬ (ty = 3 ∨ ty = 4) := by omega
  have hlow := ha.listens.1
  have hhigh := ha.listens.2
  subst hafter
  unfold State.receive
  simp only [Port.listens, ha.scrub, hlow, hhigh, ha.sound, ha.type, hts, hnot, horder, Port.acked, decide_true, Bool.and_true, Bool.not_true,
    Option.isSome_none, Bool.or_false, Bool.false_eq_true, if_false, bne_self_eq_false]

end

/-! ## Sending keeps the job and the routes of every port -/

section
variable {s t u : State} {p : Nat}

theorem Drained.trans (h : Drained s t p) (k : Drained t u p) : Drained s u p where
  rest := (congrArg (fun v : State => { v with rz := { v.rz with ports := s.rz.ports } }) k.rest).trans h.rest
  others q hq := (k.others q hq).trans (h.others q hq)
  here := h.here.trans k.here

theorem drained_queueFlit (s : State) (p c fl dest : Nat) (b : List Byte) : Drained s (s.queueFlit p c fl dest b) p := by
  refine Drained.trans ?_ (drained_drainPort _ p)
  refine ⟨rfl, fun q hq => ?_, ?_⟩
  · rw [State.port_setPort, if_neg hq]
  · rw [State.port_setPort, if_pos rfl]
    rfl

theorem SentOnly.st_eq {x y : Port} (h : SentOnly x y) : y.st = x.st := by
  rw [← h]
  rfl

theorem SentOnly.received_eq {x y : Port} (h : SentOnly x y) :
    y.rxFlits = x.rxFlits ∧ y.expectN = x.expectN ∧ y.expectU = x.expectU := by
  rw [← h]
  exact ⟨rfl, rfl, rfl⟩

/-- A route depends on the tables and on the states of the ports. -/
theorem route_of_ports (hrest : { t with rz := { t.rz with ports := s.rz.ports } } = s) (hst : ∀ q, (t.port q).st = (s.port q).st)
    (c dest : Nat) : t.route c dest = s.route c dest := by
  have hlink : t.link c = s.link c := by
    rw [← hrest]
    rfl
  have hsplit : t.split = s.split := by
    rw [← hrest]
    rfl
  have hhalves : t.halvesOf c = s.halvesOf c := by
    rw [← hrest]
    rfl
  unfold State.route State.routeHalf
  rw [hlink, hsplit, hhalves]
  simp only [hst]

theorem Drained.route_eq (h : Drained s t p) (c dest : Nat) : t.route c dest = s.route c dest := by
  refine route_of_ports h.rest (fun q => ?_) c dest
  by_cases hq : q = p
  · rw [hq, h.here.st_eq]
  · rw [h.others q hq]

end

/-! ## The rows -/

section
variable {s : State} {p : Nat} {m : List Byte} {y : Port}

theorem flitRow_of_bad (hp : p < 16) (hscrub : s.sec.scrub = none) (hlow : 1 ≤ (s.port p).st) (hhigh : (s.port p).st ≤ 4)
    (hbad : flitOk m = false) (ts : List Nat) (k : State → FlitHead → State) :
    ∃ t, noUnit (decide (p < 16)) (s.receive p m ts k) = .next t ∧
      OnlyPort s t p ({ s.port p with crcErr := (s.port p).crcErr + 1 } : Port).nak :=
  ⟨_, noUnit_of (by simpa using hp) _, onlyPort_of_eq (receive_of_bad hscrub hlow hhigh hbad)⟩

/-- Port p in state s once it has accepted a DATA flit as port y: the flit is counted and its credit goes back. -/
def creditBack (s : State) (p : Nat) (m : List Byte) (y : Port) : State :=
  (s.setPort p { y with rxFlits := (y.rxFlits + 1) % 2 ^ 64 }).returnCredit p (flitHead m).vc

theorem Arrives.rxFlits_eq {ty : Nat} (ha : Arrives s p m ty y) : y.rxFlits = (s.port p).rxFlits := by
  rw [ha.after]
  split <;> rfl

theorem drained_creditBack (s : State) (p : Nat) (m : List Byte) (y : Port) :
    Drained (s.setPort p { y with rxFlits := (y.rxFlits + 1) % 2 ^ 64 }) (creditBack s p m y) p := drained_queueFlit ..

theorem Drained.others_setPort {t : State} {x : Port} (h : Drained (s.setPort p x) t p) {q : Nat} (hq : q ≠ p) : t.port q = s.port q :=
  (h.others q hq).trans (by rw [State.port_setPort, if_neg hq])

theorem Drained.received_setPort {t : State} {x : Port} (h : Drained (s.setPort p x) t p) :
    (t.port p).rxFlits = x.rxFlits ∧ (t.port p).expectN = x.expectN ∧ (t.port p).expectU = x.expectU := by
  have hrecv := h.here.received_eq
  rwa [State.port_setPort, if_pos rfl] at hrecv

theorem exec_messageForward {j : Job} (ha : Arrives s p m 1 y) (hj : s.job (s.portCtx p) = some j) :
    exec (.messageForward p m) s = .next (
      (if (flitHead m).dest = j.params.rank then creditBack s p m y
       else match (creditBack s p m y).route (s.portCtx p) (flitHead m).dest with
         | some q => (creditBack s p m y).queueFlit q (flitHead m).vc (flitHead m).fl (flitHead m).dest (flitPayload m)
         | none => (creditBack s p m y).missRoute (s.portCtx p) (flitHead m).dest p (flitHead m).vc).drainPort p) := by
  refine (noUnit_of (by simpa using ha.port) _).trans (congrArg Host.Outcome.next ?_)
  rw [ha.receive_sequenced (by decide) (by decide)]
  congr 1
  have hjob : (s.setPort p { y with rxFlits := (y.rxFlits + 1) % 2 ^ 64 }).job (s.portCtx p) = some j := hj
  simp only [State.port_setPort, if_true, State.setPort_setPort]
  rw [show State.portCtx (s.setPort p _) p = s.portCtx p from rfl]
  simp only [hjob]
  rfl

theorem messageForward_delivers {j : Job} (ha : Arrives s p m 1 y) (hj : s.job (s.portCtx p) = some j)
    (hdest : (flitHead m).dest = j.params.rank) :
    Answers (.messageForward p m) s fun t => (t.port p).rxFlits = ((s.port p).rxFlits + 1) % 2 ^ 64 ∧ (t.port p).expectN = y.expectN ∧
      (t.port p).expectU = y.expectU ∧ (∀ q, q ≠ p → t.port q = s.port q) := by
  refine ⟨_, exec_messageForward ha hj, ?_⟩
  rw [if_pos hdest]
  have hdrain := (drained_creditBack s p m y).trans (drained_drainPort _ p)
  obtain ⟨hrx, hn, hu⟩ := hdrain.received_setPort
  exact ⟨by rw [hrx, ha.rxFlits_eq], hn, hu, fun q hq => hdrain.others_setPort hq⟩

/-- The flit being accepted leaves the state of every port, so its route is the route before it. -/
theorem route_creditBack {ty : Nat} (ha : Arrives s p m ty y) (c dest : Nat) : (creditBack s p m y).route c dest = s.route c dest := by
  have hy : y.st = (s.port p).st := by
    rw [ha.after]
    split <;> rfl
  refine ((drained_creditBack s p m y).route_eq c dest).trans (route_of_ports rfl (fun q => ?_) c dest)
  rw [State.port_setPort]
  split
  · next hq => rw [hq, hy]
  · rfl

theorem messageForward_forwards {j : Job} {q : Nat} (ha : Arrives s p m 1 y) (hj : s.job (s.portCtx p) = some j)
    (hdest : (flitHead m).dest ≠ j.params.rank) (hroute : s.route (s.portCtx p) (flitHead m).dest = some q) :
    Answers (.messageForward p m) s fun t => ∃ u : State, t = (u.queueFlit q (flitHead m).vc (flitHead m).fl (flitHead m).dest
        (flitPayload m)).drainPort p ∧ (u.port p).rxFlits = ((s.port p).rxFlits + 1) % 2 ^ 64 ∧ (∀ n, n ≠ p → u.port n = s.port n) := by
  refine ⟨_, exec_messageForward ha hj, creditBack s p m y, ?_, ?_, fun n hn => (drained_creditBack s p m y).others_setPort hn⟩
  · rw [if_neg hdest, route_creditBack ha, hroute]
  · rw [(drained_creditBack s p m y).received_setPort.1, ha.rxFlits_eq]

theorem creditReceive_adds (ha : Arrives s p m 2 y) (hqueue : y.queue = []) :
    Answers (.creditReceive p m) s fun t =>
      OnlyPort s t p { y with credits := (List.range 4).map fun i => y.credits.getD i 0 + leAt (flitPayload m) (2 * i) 2 } := by
  refine ⟨_, noUnit_of (by simpa using ha.port) _, onlyPort_of_eq ?_⟩
  rw [ha.receive_sequenced (by decide) (by decide)]
  simp only [State.port_setPort, if_true, State.setPort_setPort]
  exact drainPort_setPort_of_empty ha.scrub hqueue

/-! ## Retry (R496, R497) -/

/-- Port x once a NAK that names n and u has had its flits resent. -/
def nakked (x : Port) (n u : Nat) : Port := { x.replay n u with nakN := nakRun x.nakN n, nakU := nakRun x.nakU u }

theorem exec_nakReceive (ha : Arrives s p m 3 y) {n u : Nat} (hn : n = leAt (flitPayload m) 0 2 % 4096) (hu : u = leAt (flitPayload m) 2 1) :
    exec (.nakReceive p m) s = .next (
      if 8 ≤ (nakRun y.nakN n).2 ∨ 8 ≤ (nakRun y.nakU u).2 then (s.setPort p (nakked y n u)).enterRecovery p
      else (s.setPort p (nakked y n u)).drainPort p) := by
  subst hn hu
  refine (noUnit_of (by simpa using ha.port) _).trans (congrArg Host.Outcome.next ?_)
  rw [ha.receive_unsequenced (by decide) (by decide)]
  simp only [State.port_setPort, if_true, State.setPort_setPort]
  rfl

theorem nakReceive_resends (ha : Arrives s p m 3 y) {n u : Nat} (hn : n = leAt (flitPayload m) 0 2 % 4096) (hu : u = leAt (flitPayload m) 2 1)
    (hfewN : (nakRun y.nakN n).2 < 8) (hfewU : (nakRun y.nakU u).2 < 8) (hqueue : y.queue = []) :
    Answers (.nakReceive p m) s fun t => OnlyPort s t p { y.replay n u with nakN := nakRun y.nakN n, nakU := nakRun y.nakU u } := by
  refine ⟨_, exec_nakReceive ha hn hu, onlyPort_of_eq ?_⟩
  rw [if_neg (by omega)]
  exact drainPort_setPort_of_empty ha.scrub hqueue

theorem nakReceive_recovers (ha : Arrives s p m 3 y) {n : Nat} (hn : n = leAt (flitPayload m) 0 2 % 4096) (hmany : 8 ≤ (nakRun y.nakN n).2)
    (hactive : y.st = 4) :
    Answers (.nakReceive p m) s fun t => (t.port p).st = 5 ∧ (t.port p).recoveries = y.recoveries + 1 ∧ (∀ q, q ≠ p → t.port q = s.port q) := by
  refine ⟨_, exec_nakReceive ha hn rfl, ?_⟩
  have hst : (nakked y n (leAt (flitPayload m) 2 1)).st = 4 := hactive
  rw [if_pos (.inl hmany), State.enterRecovery, State.port_setPort, if_pos rfl, if_pos hst, State.setPort_setPort]
  refine ⟨by rw [State.port_setPort, if_pos rfl], by rw [State.port_setPort, if_pos rfl]; rfl, fun q hq => ?_⟩
  rw [State.port_setPort, if_neg hq]

end

/-- Settles O43: a flit that fails its CRC by `receive_of_bad`, whatever its row; the others by what reception does with a flit that arrives
in order, and sending afterwards keeps all that the statement names. -/
theorem flitCommandsComplete : Obligations.FlitCommandsComplete := by
  unfold Obligations.FlitCommandsComplete
  rintro p s m _ y rfl
  refine ⟨?bad, fun j => messageForward_delivers, fun j q ha hj hdest _ => messageForward_forwards ha hj hdest, creditReceive_adds,
    fun n u ha hn hu hfewN hfewU hq => nakReceive_resends ha hn hu hfewN hfewU hq, fun n ha hn hmany hst => nakReceive_recovers ha hn hmany hst,
    fun hp => ⟨_, noUnit_of (by simpa using hp) _, onlyPort_setPort s p _⟩⟩
  intro row hrow hp hscrub hlow hhigh hbad
  simp only [List.mem_cons, List.not_mem_nil, or_false] at hrow
  rcases hrow with rfl | rfl | rfl | rfl | rfl | rfl <;> exact flitRow_of_bad hp hscrub hlow hhigh hbad _ _

end Sys2Proof.Slice0

/-!
PROOFS. What the end of a job leaves alone, and device-fatal errors (R427, R627, R697, R700): the statement O56.
-/
namespace Sys2Proof.Slice0
open Sys2Proof Sys2Proof.Machine

/-! ## What the end of a job leaves alone -/

/-- State `t` with the work of `s` and its port to the host: the jobs, cores, transfers, messages that wait, Moss and snapshots, the queue of
the random service, the marks and counts of errors, the domains that are ON, the LPDDR5X contents, and the host's side. -/
def wound (s t : State) : State :=
  { t with
    jobs := s.jobs, cores := s.cores, outbox := s.outbox, streamers := s.streamers, snap := s.snap, moss := s.moss
    ens := { t.ens with queue := s.ens.queue }
    ras := { t.ras with marks := s.ras.marks, ceUnits := s.ras.ceUnits }
    pwr := { t.pwr with on := s.pwr.on }
    lpxMem := s.lpxMem, lineGen := s.lineGen, lineKind := s.lineKind, host := s.host, reply := s.reply }

/-- From s to t nothing changes but the work and the port to the host, held events are only added to, and requests of the random service only
leave. The end of a job is such a change. -/
structure Steady (s t : State) : Prop where
  rest : wound s t = s
  held : s.host.held <+: t.host.held
  queue : t.ens.queue ⊆ s.ens.queue

theorem Steady.refl (s : State) : Steady s s := ⟨rfl, List.prefix_rfl, List.Subset.refl _⟩

theorem Steady.trans {s t u : State} (h : Steady s t) (k : Steady t u) : Steady s u :=
  ⟨(congrArg (wound s) k.rest).trans h.rest, h.held.trans k.held, List.Subset.trans k.queue h.queue⟩

theorem steady_foldl {α : Type} (f : State → α → State) (hf : ∀ s a, Steady s (f s a)) (l : List α) (s : State) : Steady s (l.foldl f s) := by
  induction l generalizing s with
  | nil => exact .refl s
  | cons a l ih => exact (hf s a).trans (ih (f s a))

section
variable {s t : State} (h : Steady s t)
include h

theorem Steady.boot_eq : t.boot = s.boot := (congrArg State.boot h.rest :)
theorem Steady.pins_eq : t.pins = s.pins := (congrArg State.pins h.rest :)
theorem Steady.mgt_eq : t.mgt = s.mgt := (congrArg State.mgt h.rest :)
theorem Steady.rst_eq : t.rst = s.rst := (congrArg State.rst h.rest :)
theorem Steady.sec_eq : t.sec = s.sec := (congrArg State.sec h.rest :)
theorem Steady.rz_eq : t.rz = s.rz := (congrArg State.rz h.rest :)
theorem Steady.fuses_eq : t.fuses = s.fuses := (congrArg State.fuses h.rest :)
theorem Steady.flash_eq : t.flash = s.flash := (congrArg State.flash h.rest :)
theorem Steady.west_eq : t.west = s.west := (congrArg State.west h.rest :)
theorem Steady.east_eq : t.east = s.east := (congrArg State.east h.rest :)
theorem Steady.stoch_eq : t.ens.stoch = s.ens.stoch := (congrArg (fun u : State => u.ens.stoch) h.rest :)
theorem Steady.consec_eq : t.ens.consec = s.ens.consec := (congrArg (fun u : State => u.ens.consec) h.rest :)
theorem Steady.log_eq : t.ras.log = s.ras.log := (congrArg (fun u : State => u.ras.log) h.rest :)

end

/-! ## One field replaced -/

theorem steady_withMoss (s : State) (m : Moss) : Steady s { s with moss := m } := ⟨rfl, List.prefix_rfl, List.Subset.refl _⟩

theorem steady_withCounts (s : State) (marks : List Mark) (counts : Map Nat) :
    Steady s { s with ras := { s.ras with marks := marks, ceUnits := counts } } := ⟨rfl, List.prefix_rfl, List.Subset.refl _⟩

theorem steady_withCores (s : State) (cs : Map Core) : Steady s { s with cores := cs } := ⟨rfl, List.prefix_rfl, List.Subset.refl _⟩

theorem steady_withStreamers (s : State) (ts : List Streamer) : Steady s { s with streamers := ts } := ⟨rfl, List.prefix_rfl, List.Subset.refl _⟩

theorem steady_filterQueue (s : State) (f : RandReq → Bool) : Steady s { s with ens := { s.ens with queue := s.ens.queue.filter f } } :=
  ⟨rfl, List.prefix_rfl, List.filter_subset_self _⟩

theorem steady_setJob (s : State) (c : Nat) (j : Job) : Steady s (s.setJob c j) := ⟨rfl, List.prefix_rfl, List.Subset.refl _⟩

theorem steady_dropJob (s : State) (c : Nat) : Steady s (s.dropJob c) := ⟨rfl, List.prefix_rfl, List.Subset.refl _⟩

/-! ## Ring sets, events and messages -/

/-- Nothing but the port to the host changes, and there only memory, ring sets and vectors. -/
theorem steady_setRing (s : State) (c : Nat) (r : RingSet) : Steady s (s.setRing c r) := ⟨rfl, List.prefix_rfl, List.Subset.refl _⟩

theorem steady_hostWrite (s : State) (a : Nat) (bs : List Byte) : Steady s (s.hostWrite a bs) := by
  unfold State.hostWrite
  split
  · exact ⟨rfl, List.prefix_rfl, List.Subset.refl _⟩
  · exact .refl s

theorem steady_signal (s : State) (vec : Nat) : Steady s (s.signal vec) := ⟨rfl, List.prefix_rfl, List.Subset.refl _⟩

theorem steady_putRecord (s : State) (set which : Nat) (rec : List Byte) : Steady s (s.putRecord set which rec) :=
  (steady_hostWrite ..).trans (steady_setRing ..)

theorem steady_putWriteback (s : State) (set : Nat) : Steady s (s.putWriteback set) := steady_hostWrite ..

theorem steady_recordIrq (s : State) (set which : Nat) : Steady s (s.recordIrq set which) := by
  unfold State.recordIrq
  dsimp only
  split
  · split
    · exact (steady_setRing ..).trans (steady_signal ..)
    · exact steady_setRing ..
  · exact .refl s

theorem steady_setRingState (s : State) (set st : Nat) : Steady s (s.setRingState set st) := by
  unfold State.setRingState
  dsimp only
  split
  · exact .refl s
  · have hwrite (u : State) : Steady u (if st = 0 then u else u.putWriteback set) := by
      split
      · exact .refl u
      · exact steady_putWriteback ..
    split
    · exact (steady_setRing ..).trans ((hwrite _).trans (steady_signal ..))
    · exact (steady_setRing ..).trans (hwrite _)

theorem steady_haltRing (s : State) (set err : Nat) : Steady s (s.haltRing set err) := by
  unfold State.haltRing
  dsimp only
  split
  · exact .refl s
  · exact (steady_setRing ..).trans (steady_setRingState ..)

theorem steady_writeCpl (s : State) (h : Head) (op : Nat) (c : Cpl) : Steady s (s.writeCpl h op c) := by
  unfold State.writeCpl
  dsimp only
  split
  · exact steady_setRing ..
  · refine Steady.trans ?_ (steady_recordIrq ..)
    refine Steady.trans ?_ (steady_putWriteback ..)
    refine Steady.trans ?_ (steady_setRing ..)
    exact (steady_putRecord ..).trans (steady_foldl _ (fun u e => steady_putRecord ..) _ _)

theorem steady_completeEnd (s : State) (h : Head) (op : Nat) (c : Cpl) : Steady s (s.completeEnd h op c) := by
  unfold State.completeEnd
  split
  · exact steady_writeCpl ..
  · exact (steady_setRing ..).trans (steady_haltRing ..)

theorem steady_postWith (s : State) (c source code status : Nat) (payload : List Byte) (replay : Bool) :
    Steady s (s.postWith c source code status payload replay) := ⟨rfl, List.prefix_append .., List.Subset.refl _⟩

theorem steady_sendJob (s : State) (c kind : Nat) (body : List Byte) : Steady s (s.sendJob c kind body) := by
  unfold State.sendJob
  split
  · split
    · exact ⟨rfl, List.prefix_rfl, List.Subset.refl _⟩
    · exact .refl s
  · exact .refl s

/-! ## The Moss, marks and snapshots -/

theorem steady_domainOff (s : State) {pd : Nat} (hpd : pd = 11 ∨ pd = 12) : Steady s (s.domainOff pd) := by
  have hcores : ¬ (3 ≤ pd ∧ pd ≤ 10) := by omega
  simp only [State.domainOff, if_neg hcores, if_pos hpd]
  split
  · exact .refl s
  · refine Steady.trans ?_ (steady_postWith ..)
    exact ⟨rfl, List.prefix_rfl, List.Subset.refl _⟩

theorem steady_mossIdle (s : State) : Steady s s.mossIdle := by
  have idle (h pd : Nat) (hpd : pd = 11 ∨ pd = 12) (u : State) : Steady u (if u.regionIn h then u else u.domainOff pd) := by
    split
    · exact .refl u
    · exact steady_domainOff u hpd
  exact (idle 0 11 (.inl rfl) s).trans (idle 1 12 (.inr rfl) _)

theorem steady_clearRegions (s : State) (sel : MRegion → Bool) : Steady s (s.clearRegions sel) := by
  unfold State.clearRegions
  exact ⟨rfl, List.prefix_rfl, List.Subset.refl _⟩

theorem steady_failMoss (s : State) (c status : Nat) : Steady s (s.failMoss c status) := by
  unfold State.failMoss
  exact (steady_foldl _ (fun u (e : Head × Nat) => steady_completeEnd u e.1 e.2 _) _ s).trans (steady_withMoss _ _)

theorem steady_mark (s : State) (m : Mark) : Steady s (s.mark m) := by
  unfold State.mark
  split
  · exact .refl s
  · exact ⟨rfl, List.prefix_rfl, List.Subset.refl _⟩

theorem steady_endCounts (s : State) (halves : Nat) : Steady s (s.endCounts halves) :=
  (steady_foldl _ (fun (u : State) (kv : Nat × Nat) => steady_mark u ⟨0, kv.1, 0x03⟩) _ s).trans (steady_withCounts _ _ _)

theorem steady_takeSnaps (s : State) (mask : Nat) : Steady s (s.takeSnaps mask) := by
  have half (b : Bool) (h : Nat) (u : State) : Steady u (if b then u.takeSnap h else u) := by
    split
    · exact ⟨rfl, List.prefix_rfl, List.Subset.refl _⟩
    · exact .refl u
  exact (half (bit mask 0) 0 s).trans (half (bit mask 1) 1 _)

/-! ## The end of a job -/

theorem steady_onCores (s : State) (sel : Nat → Bool) (f : Nat → Core → Core) : Steady s (s.onCores sel f) := steady_withCores s _

/-- The clearing of the Moss at the end of a job. -/
theorem steady_clearMoss (s : State) (c status : Nat) : Steady s (((s.failMoss c status).clearRegions fun g => g.ctx == c).mossIdle) :=
  (steady_failMoss ..).trans ((steady_clearRegions ..).trans (steady_mossIdle _))

theorem steady_windJob (s : State) (c status : Nat) (j : Job) : Steady s (s.windJob c status j) := by
  unfold State.windJob
  dsimp only
  refine Steady.trans ?_ (steady_postWith ..)
  refine Steady.trans ?_ (steady_takeSnaps ..)
  refine Steady.trans ?_ (steady_endCounts ..)
  refine Steady.trans ?_ (steady_withStreamers _ _)
  exact (steady_clearMoss s c status).trans (steady_onCores ..)

theorem steady_endRing (s : State) (c : Nat) : Steady s (s.endRing c) := by
  unfold State.endRing
  dsimp only
  split
  · exact (steady_setRing ..).trans (steady_setRingState ..)
  · exact steady_setRing ..

theorem steady_endJob (s : State) (c status : Nat) : Steady s (s.endJob c status) := by
  unfold State.endJob
  split
  · exact .refl s
  · next j _ =>
    dsimp only
    split
    · exact .refl s
    · split
      · have hdrop (f : RandReq → Bool) := ((steady_dropJob s c).trans (steady_mossIdle _)).trans (steady_filterQueue _ f)
        split
        · exact (hdrop _).trans (steady_completeEnd ..)
        · exact hdrop _
      · refine Steady.trans ?_ (steady_endRing ..)
        have hwind := (steady_sendJob s c 0x31 (toLe 2 j.params.rank)).trans (steady_windJob _ c status j)
        have hjob (f : RandReq → Bool) := (hwind.trans (steady_filterQueue _ f)).trans (steady_setJob _ c (j.endWith status))
        split
        · split
          · exact (hjob _).trans (steady_completeEnd ..)
          · exact hjob _
        · exact hjob _

theorem steady_endAll (s : State) (status : Nat) : Steady s (s.endAll status) :=
  steady_foldl _ (fun u c => steady_endJob u c status) _ s

theorem steady_endHalves (s : State) (mask status : Nat) : Steady s (s.endHalves mask status) := by
  refine steady_foldl _ (fun u c => ?_) _ s
  split
  · split
    · exact steady_endJob ..
    · exact .refl u
  · exact .refl u

/-! ## Completions whose write may fail -/

theorem steady_ringFault (s : State) (set err : Nat) : Steady s (s.ringFault set err) := by
  unfold State.ringFault
  dsimp only
  split
  · exact .refl s
  · exact (steady_haltRing ..).trans (steady_endJob ..)

theorem steady_complete (s : State) (h : Head) (op : Nat) (c : Cpl) : Steady s (s.complete h op c) := by
  unfold State.complete
  split
  · exact steady_writeCpl ..
  · exact (steady_setRing ..).trans (steady_ringFault ..)

theorem steady_done (s : State) (h : Head) (op status res : Nat) : Steady s (s.done h op status res) := steady_complete ..

/-! ## Every job ends -/

theorem job_endJob_of_live {s : State} {c : Nat} {j : Job} (hj : s.job c = some j) (hlive : j.st = .running ∨ j.st = .suspended)
    (status : Nat) : (s.endJob c status).job c = some (j.endWith status) :=
  (job_of_jobs (endJob_of_live hj hlive status).jobs c).trans (job_setJob_same ..)

theorem endJob_of_ended {s : State} {c : Nat} {j : Job} (hj : s.job c = some j) (hst : j.st = .ended) (status : Nat) :
    s.endJob c status = s := by
  simp only [State.endJob, hj, if_pos hst]

/-- The end of one job leaves the job of every other context. -/
theorem job_endJob_other (s : State) {c q : Nat} (hq : q ≠ c) (status : Nat) : (s.endJob c status).job q = s.job q := by
  unfold State.endJob
  split
  · rfl
  · next j _ =>
    dsimp only
    split
    · rfl
    · split
      · have hdrop (ens : Ens) : State.job { (s.dropJob c).mossIdle with ens := ens } q = s.job q :=
          (job_of_jobs (sameWork_mossIdle (s.dropJob c)).jobs q).trans (by simp [State.job, State.dropJob, hq])
        split
        · exact (job_of_jobs (sameWork_completeEnd ..).jobs q).trans (hdrop _)
        · exact hdrop _
      · rw [job_of_jobs (sameWork_endRing ..).jobs]
        have hwind : ((s.sendJob c 0x31 (toLe 2 j.params.rank)).windJob c status j).job q = s.job q :=
          job_of_jobs ((windJob_fields _ c status j).1.trans (sameWork_sendJob ..).jobs) q
        have hset (ens : Ens) :
            (State.setJob { (s.sendJob c 0x31 (toLe 2 j.params.rank)).windJob c status j with ens := ens } c (j.endWith status)).job q =
              s.job q := by rw [State.job_setJob, if_neg hq]; exact hwind
        split
        · split
          · exact (job_of_jobs (sameWork_completeEnd ..).jobs q).trans (hset _)
          · exact hset _
        · exact hset _

/-- One of a run of steps over contexts ends the job of context c; none of the others touches it, before or after. -/
theorem job_foldl_of_ends {f : State → Nat → State} {s : State} {c status : Nat} {k : Job} (hf : ∀ u d, f u d = u ∨ f u d = u.endJob d status)
    (hk : k.st = .ended) (hends : ∀ u, Steady s u → u.job c = s.job c → (f u c).job c = some k) {l : List Nat} (hc : c ∈ l) :
    (l.foldl f s).job c = some k := by
  have hsteady (u : State) (d : Nat) : Steady u (f u d) := by
    rcases hf u d with h | h <;> rw [h]
    · exact .refl u
    · exact steady_endJob ..
  have hothers (u : State) {d : Nat} (hd : c ≠ d) : (f u d).job c = u.job c := by
    rcases hf u d with h | h <;> rw [h]
    exact job_endJob_other u hd status
  have hbefore (l : List Nat) (hl : c ∉ l) (u : State) : (l.foldl f u).job c = u.job c := by
    induction l generalizing u with
    | nil => rfl
    | cons d l ih =>
      rw [List.mem_cons, not_or] at hl
      exact (ih hl.2 _).trans (hothers u hl.1)
  have hafter (l : List Nat) (u : State) (hu : u.job c = some k) : (l.foldl f u).job c = some k := by
    induction l generalizing u with
    | nil => exact hu
    | cons d l ih =>
      refine ih _ ?_
      by_cases hd : c = d
      · subst hd
        rcases hf u c with h | h <;> rw [h]
        · exact hu
        · rw [endJob_of_ended hu hk, hu]
      · rw [hothers u hd, hu]
  obtain ⟨xs, ys, rfl, hxs⟩ := List.eq_append_cons_of_mem hc
  rw [List.foldl_append, List.foldl_cons]
  exact hafter ys _ (hends _ (steady_foldl f hsteady xs s) (hbefore xs hxs s))

theorem job_endAll_of_live {s : State} {c : Nat} {j : Job} (hc : c < 16) (hj : s.job c = some j) (hlive : j.st = .running ∨ j.st = .suspended)
    (status : Nat) : (s.endAll status).job c = some (j.endWith status) :=
  job_foldl_of_ends (fun _ _ => .inr rfl) rfl (fun _ _ hu => job_endJob_of_live (hu.trans hj) hlive status) (List.mem_range.2 hc)

/-- The job of a context that holds one of the halves of a mask ends with the others. -/
theorem job_endHalves_of_live {s : State} {c mask : Nat} {j : Job} (hc : c < 16) (hj : s.job c = some j)
    (hlive : j.st = .running ∨ j.st = .suspended) (hmask : (j.halves &&& mask) ≠ 0) (hholds : s.halvesOf c ≠ 0) (status : Nat) :
    (s.endHalves mask status).job c = some (j.endWith status) := by
  refine job_foldl_of_ends (status := status) (fun u d => ?_) rfl (fun u hu hjob => ?_) (List.mem_range.2 hc)
  · split
    · split
      · exact .inr rfl
      · exact .inl rfl
    · exact .inl rfl
  · have hhalves : u.halvesOf c = s.halvesOf c := by rw [State.halvesOf, hu.west_eq, hu.east_eq, State.halvesOf]
    have hgo : ((j.halves &&& mask) != 0 && u.halvesOf c != 0) = true := by simp [hhalves, hmask, hholds]
    rw [hjob, hj]
    dsimp only
    rw [if_pos hgo]
    exact job_endJob_of_live (hjob.trans hj) hlive status

/-! ## Device-fatal errors (R627) -/

/-- The device once a device-fatal error is logged, FATAL_N is asserted, every job has ended and DEVICE_FATAL is posted. -/
def fatalPosted (s : State) (source kind status : Nat) : State :=
  let u := ((s.logKind source kind 2 status 0 0 0).assertFatal).endAll status
  u.postWith 0 u.primarySource 0x0A07 status (toLe 1 kind) false

theorem steady_fatalPosted (s : State) (source kind status : Nat) :
    Steady ((s.logKind source kind 2 status 0 0 0).assertFatal) (fatalPosted s source kind status) :=
  (steady_endAll ..).trans (steady_postWith ..)

theorem withDump_ite (b : Prop) [Decidable b] (s : State) (d : Dmp) :
    (if b then s else { s with dmp := d }) = { s with dmp := if b then s.dmp else d } := by
  split <;> rfl

theorem job_fatalPosted_of_live {s : State} {source kind status c : Nat} {j : Job} (hc : c < 16) (hj : s.job c = some j)
    (hlive : j.st = .running ∨ j.st = .suspended) : (fatalPosted s source kind status).job c = some (j.endWith status) :=
  (job_of_jobs (State.postWith_jobs ..) c).trans
    (job_endAll_of_live (s := (s.logKind source kind 2 status 0 0 0).assertFatal) hc hj hlive status)

theorem fatalPosted_posts (s : State) (source kind status : Nat) :
    ∃ e ∈ (fatalPosted s source kind status).host.held, e.code = 0x0A07 ∧ e.status = status ∧ e.payload = toLe 1 kind := by
  obtain ⟨e, hheld, hcode, hstatus, hpayload, -⟩ := postWith_held
    (((s.logKind source kind 2 status 0 0 0).assertFatal).endAll status) 0
    (((s.logKind source kind 2 status 0 0 0).assertFatal).endAll status).primarySource 0x0A07 status (toLe 1 kind) false
  refine ⟨e, ?_, hcode, hstatus, hpayload⟩
  rw [fatalPosted, hheld]
  exact List.mem_append_right _ (List.mem_singleton_self e)

/-- A dump takes its image and leaves all else. -/
theorem startDump_eq (s : State) (d : DumpCause) : ∃ x, s.startDump d = { s with dmp := x } := ⟨_, withDump_ite ..⟩

/-- What follows DEVICE_FATAL: a dump, unless the die is too hot for it, and the halt. -/
def fatalHalted (u : State) (source kind status flags : Nat) : State :=
  let t := if kind = 0x21 then u else u.startDump ⟨flags, status, source, kind, 0, 2 ^ 64 - 1⟩
  { t with boot := { t.boot with halt := if t.boot.halt = .none then .fatal kind else t.boot.halt } }

theorem deviceFatal_eq_halted (s : State) (source kind status flags : Nat) :
    s.deviceFatal source kind status flags = fatalHalted (fatalPosted s source kind status) source kind status flags := rfl

theorem fatalHalted_eq (u : State) (source kind status flags : Nat) : ∃ x, fatalHalted u source kind status flags =
    { u with dmp := x, boot := { u.boot with halt := if u.boot.halt = .none then .fatal kind else u.boot.halt } } := by
  unfold fatalHalted
  split
  · exact ⟨_, rfl⟩
  · obtain ⟨x, hx⟩ := startDump_eq u ⟨flags, status, source, kind, 0, 2 ^ 64 - 1⟩
    exact ⟨x, by rw [hx]⟩

/-- A device-fatal error in terms of the state in which DEVICE_FATAL is posted. -/
theorem deviceFatal_eq (s : State) (source kind status flags : Nat) : ∃ x, s.deviceFatal source kind status flags =
    { fatalPosted s source kind status with
      dmp := x, boot := { s.boot with halt := if s.boot.halt = .none then .fatal kind else s.boot.halt } } := by
  have hboot : (fatalPosted s source kind status).boot = s.boot := (steady_fatalPosted s source kind status).boot_eq
  rw [deviceFatal_eq_halted, ← hboot]
  exact fatalHalted_eq ..

/-- The newest record is in the log, whether or not the oldest had to go (R648). -/
theorem mem_log_logError (s : State) (r : ErrRec) : r ∈ (s.logError r).ras.log := by
  simp only [State.logError]
  split
  · simp
  · next hfull =>
    have hlen : 1 ≤ s.ras.log.length := by
      simp only [List.length_append, List.length_singleton] at hfull
      omega
    simp [List.drop_append_of_le_length hlen]

/-- Settles O56: the end of the jobs leaves the log, the pins and the boot alone, and DEVICE_FATAL is posted after it. -/
theorem deviceFatalHalts : Obligations.DeviceFatalHalts := by
  intro s source kind status flags hhalt
  obtain ⟨x, heq⟩ := deviceFatal_eq s source kind status flags
  have hsteady := steady_fatalPosted s source kind status
  have hevent := fatalPosted_posts s source kind status
  have hjobs (c : Nat) (j : Job) (hc : c < 16) (hj : s.job c = some j) (hlive : j.st = .running ∨ j.st = .suspended) :
      (fatalPosted s source kind status).job c = some (j.endWith status) := job_fatalPosted_of_live hc hj hlive
  rw [heq]
  generalize fatalPosted s source kind status = u at hsteady hevent hjobs
  refine ⟨by simp [hhalt], ?pins, fun c j hc hj hlive => ⟨j.endWith status, hjobs c j hc hj hlive, rfl, rfl⟩, hevent, ?record⟩
  case pins => exact congrArg Pins.fatal hsteady.pins_eq
  case record =>
    refine ⟨{ tsc := s.tsc, source := source, kind := kind, cls := 2, status := status, ctx := 0, addr := 0, detail := 0 }, ?_, rfl, rfl, rfl, rfl⟩
    rw [hsteady.log_eq]
    exact mem_log_logError s _

end Sys2Proof.Slice0

/-!
PROOFS. The commands of the random service (R571, R575, R582, R583, R585, R586): the statement O32.
-/
namespace Sys2Proof.Slice0
open Sys2Proof Sys2Proof.Machine

section
variable {s : State} {h : Head} {op : Nat} {r : RandReq}

/-- A request whose class works and has room joins its queue. -/
theorem askCommand_of_room (hstoch : r.kind ≠ 1 → s.ens.stoch ≠ 3) (hsec : r.kind = 1 → s.ens.secHalt = false)
    (hroom : s.randFull r.kind = false) : s.askCommand h op r = s.askRandom r := by
  have hclass : ¬ (r.kind ≠ 1 ∧ s.ens.stoch = 3) := fun hk => hstoch hk.1 hk.2
  have hhalt : ¬ (r.kind = 1 ∧ s.ens.secHalt = true) := fun hk => by simp [hsec hk.1] at hk
  rw [State.askCommand, if_neg hclass, if_neg hhalt, hroom, if_neg (by decide)]

end

/-- Bit 5 of flags below 64 (R586). -/
theorem bit_five {flags : Nat} (hflags : flags < 64) : bit flags 5 = decide (32 ≤ flags) := by
  revert flags
  decide

/-- Bit 0 of flags of at most 1 (R582). -/
theorem bit_zero {flags : Nat} (hflags : flags ≤ 1) : bit flags 0 = (flags == 1) := by
  interval_cases flags <;> rfl

/-- Settles O32: each command is taken; its parameters decide between status RAND_PARAM and a place in the queue. -/
theorem randomCommandsComplete : Obligations.RandomCommandsComplete := by
  intro s h len flags host
  refine ⟨fun ht hflags hlow hhigh hstoch hroom => ht.next ?stoch, fun ht hflags hlow hhigh hsec hroom => ht.next ?drbg,
    fun ht hflags hlow hhigh hwhole hstoch hroom => ht.next ?raw, fun ht hbad => ht.next ?_, fun ht hbad => ht.next ?_,
    fun ht hbad => ht.next ?_⟩
  case stoch =>
    rw [if_neg (by omega)]
    exact askCommand_of_room (s := taken s h 0x90) (fun _ => hstoch) (by simp) hroom
  case drbg =>
    rw [if_neg (by omega), bit_zero hflags]
    exact askCommand_of_room (s := taken s h 0x91) (by simp) (fun _ => hsec) hroom
  case raw =>
    rw [if_neg (by omega), bit_five hflags]
    simp only [decide_eq_true_eq]
    exact askCommand_of_room (s := taken s h 0x92) (fun _ => hstoch) (by simp) hroom
  all_goals rw [if_pos hbad]

end Sys2Proof.Slice0

/-!
PROOFS. SMBus, JTAG and SPDM (R543, R552, R554 to R556, R687 to R689): the statement O58.
-/
namespace Sys2Proof.Slice0
open Sys2Proof Sys2Proof.Machine

variable {s : State}

/-! ## SMBus (R687, R688) -/

/-- While power is good a target answers with its bytes. -/
theorem smb_of_good (hgood : s.pins.pwrgood = true) (bs : List Byte) : s.smb bs = { s with reply := bs } := by
  rw [State.smb, hgood, if_pos rfl]

/-- Without power no target answers. -/
theorem smb_of_bad (hbad : s.pins.pwrgood = false) (bs : List Byte) : s.smb bs = { s with reply := [] } := by
  rw [State.smb, hbad, if_neg (by decide)]

theorem exec_smbTemp (s : State) :
    exec .smbTemp s = .next (s.smb (toLe 1 (if s.coarseTel then hottest s.tel.temps / 5 * 5 else hottest s.tel.temps))) := rfl

theorem exec_smbPower (s : State) :
    exec .smbPower s = .next (s.smb (toLe 2 (if s.coarseTel then (s.tel.device + 2) / 5 * 5 else s.tel.device))) := rfl

theorem smbAlert_of_good (hgood : s.pins.pwrgood = true) :
    exec .smbAlert s = .next { s with reply := toLe 1 s.tel.alert, tel := { s.tel with alert := 0 } } := by
  show execSmbAlert s = _
  rw [execSmbAlert, hgood, if_pos rfl, smb_of_good hgood]

theorem smb_answers_nothing (hbad : s.pins.pwrgood = false) (i : Instr)
    (hi : i ∈ [Instr.smbStatus, .smbTemp, .smbPower, .smbThrottle, .smbAlert, .smbSerial, .smbAlertResponse]) :
    exec i s = .next { s with reply := [] } := by
  have hnone (bs : List Byte) : (.next (s.smb bs) : Out) = .next { s with reply := [] } := congrArg _ (smb_of_bad hbad bs)
  simp only [List.mem_cons, List.not_mem_nil, or_false] at hi
  rcases hi with rfl | rfl | rfl | rfl | rfl | rfl | rfl
  case inr.inr.inr.inr.inl =>
    show execSmbAlert s = _
    rw [execSmbAlert, hbad, if_neg (by decide), smb_of_bad hbad]
  all_goals exact hnone _

/-! ## JTAG (R689) -/

/-- IDCODE acts in every state of the lock. -/
theorem jtagInstruction_of_acting {ir : JtagIr} (hacts : s.jtagOpen = true ∨ ir = .idcode) :
    exec (.jtagInstruction ir) s = .next { s with
      tel := { s.tel with jtagIr := ir }, reply := if ir = .idcode then toLe 4 0xE9601F3D else [] } := by
  show execJtagInstruction ir s = _
  rcases hacts with hopen | rfl
  · simp only [execJtagInstruction, hopen, if_true]
  · simp only [execJtagInstruction, ite_self]

/-- Every other instruction acts as BYPASS where JTAG is locked. -/
theorem jtagInstruction_of_locked {ir : JtagIr} (hlocked : s.jtagOpen = false) (hir : ir ≠ .idcode) :
    exec (.jtagInstruction ir) s = .next { s with tel := { s.tel with jtagIr := .bypass }, reply := [] } := by
  show execJtagInstruction ir s = _
  cases ir
  case idcode => exact absurd rfl hir
  all_goals simp [execJtagInstruction, hlocked]

/-! ## SPDM (R554 to R556) -/

theorem exec_spdmRequest_of_ready (hanswers : s.islandAnswers = true) (hidle : s.boot.activating = false) (r : SpdmReq) :
    exec (.spdmRequest r) s = .next (s.spdmAnswer r) := by
  show execSpdmRequest r s = _
  simp [execSpdmRequest, hanswers, hidle]

theorem exec_spdmRequest_of_silent (hsilent : s.islandAnswers = false) (r : SpdmReq) :
    exec (.spdmRequest r) s = .next { s with reply := [] } := by
  show execSpdmRequest r s = _
  simp [execSpdmRequest, hsilent]

theorem exec_spdmRequest_of_busy (hanswers : s.islandAnswers = true) (hbusy : s.boot.activating = true) (r : SpdmReq) :
    exec (.spdmRequest r) s = .next { s with reply := spdmError 3 } := by
  show execSpdmRequest r s = _
  simp [execSpdmRequest, hanswers, hbusy]

/-- A request that opens or closes no session changes the reply alone. -/
theorem spdmAnswer_frame {r : SpdmReq} (hkey : r ≠ .keyExchange) (hfinish : r ≠ .finish) (hend : r ≠ .endSession) :
    { s.spdmAnswer r with reply := s.reply, freeCtr := s.freeCtr } = s := by
  cases r with
  | keyExchange => exact absurd rfl hkey
  | finish => exact absurd rfl hfinish
  | endSession => exact absurd rfl hend
  | getCertificate slot ofs len =>
    unfold State.spdmAnswer
    dsimp only
    split <;> rfl
  | challenge =>
    unfold State.spdmAnswer
    dsimp only
    split <;> rfl
  | _ => rfl

theorem spdmRequest_frame {r : SpdmReq} (hkey : r ≠ .keyExchange) (hfinish : r ≠ .finish) (hend : r ≠ .endSession) :
    Answers (.spdmRequest r) s fun t => { t with reply := s.reply, freeCtr := s.freeCtr } = s := by
  cases hanswers : s.islandAnswers with
  | false => exact ⟨_, exec_spdmRequest_of_silent hanswers r, rfl⟩
  | true =>
    cases hbusy : s.boot.activating with
    | true => exact ⟨_, exec_spdmRequest_of_busy hanswers hbusy r, rfl⟩
    | false => exact ⟨_, exec_spdmRequest_of_ready hanswers hbusy r, spdmAnswer_frame hkey hfinish hend⟩

theorem spdmAnswer_keyExchange (hlc : s.fuses.lc ≠ 2) (hroom : s.sec.sessions + s.sec.handshakes < 15) :
    s.spdmAnswer .keyExchange = { s.tick1 with
      reply := spdmHeader 0x64 0 ++ s.spdmFree 282, sec := { s.sec with handshakes := s.sec.handshakes + 1 } } := by
  have hfull : ¬ 15 ≤ s.sec.sessions + s.sec.handshakes := by omega
  simp [State.spdmAnswer, hlc, hfull]

theorem spdmAnswer_finish (hopen : s.sec.handshakes ≠ 0) : s.spdmAnswer .finish = { s with
    reply := spdmHeader 0x65 0, sec := { s.sec with handshakes := s.sec.handshakes - 1, sessions := s.sec.sessions + 1 } } := if_neg hopen

theorem spdmAnswer_endSession (hopen : s.sec.sessions ≠ 0) : s.spdmAnswer .endSession = { s with
    reply := spdmHeader 0x6C 0, sec := { s.sec with sessions := s.sec.sessions - 1 } } := if_neg hopen

theorem exec_spdmGetMeasurements_of_ready (hanswers : s.islandAnswers = true) (hidle : s.boot.activating = false) {n : Nat} (hlow : 1 ≤ n)
    (hhigh : n ≤ 8) : exec (.spdmGetMeasurements n) s = .next { s with reply := s.measurementBlock n } := by
  have hzero : n ≠ 0 := by omega
  have hall : n ≠ 255 := by omega
  show execSpdmGetMeasurements n s = _
  simp [execSpdmGetMeasurements, hanswers, hidle, hzero, hall, hhigh]

/-- Settles O58: each access by what it answers where it may, and by what it says where it may not. -/
theorem managementPortsComplete : Obligations.ManagementPortsComplete := by
  intro s
  refine ⟨fun hgood => ⟨congrArg _ (smb_of_good hgood _), fun hcoarse => ?temp, fun hfine => ?tempFine, fun hcoarse => ?power,
      fun hfine => ?powerFine, congrArg _ (smb_of_good hgood _), smbAlert_of_good hgood, congrArg _ (smb_of_good hgood _),
      congrArg _ (smb_of_good hgood _)⟩,
    smb_answers_nothing, fun ir => jtagInstruction_of_acting, fun ir => jtagInstruction_of_locked,
    fun n hanswers hidle hlow hhigh => exec_spdmGetMeasurements_of_ready hanswers hidle hlow hhigh, fun hanswers hidle => ?count,
    fun n r hsilent => ⟨?silent, exec_spdmRequest_of_silent hsilent r⟩,
    fun n r hanswers hbusy => ⟨?busy, exec_spdmRequest_of_busy hanswers hbusy r⟩, fun hanswers hidle hlc hroom => ?key,
    fun hanswers hidle hopen => ?finish, fun hanswers hidle hopen => ?close, fun r => spdmRequest_frame⟩
  case temp => rw [exec_smbTemp, hcoarse, if_pos rfl, smb_of_good hgood]
  case tempFine => rw [exec_smbTemp, hfine, if_neg (by decide), smb_of_good hgood]
  case power => rw [exec_smbPower, hcoarse, if_pos rfl, smb_of_good hgood]
  case powerFine => rw [exec_smbPower, hfine, if_neg (by decide), smb_of_good hgood]
  case count => simp [exec, execSpdmGetMeasurements, hanswers, hidle]
  case silent => simp [exec, execSpdmGetMeasurements, hsilent]
  case busy => simp [exec, execSpdmGetMeasurements, hanswers, hbusy]
  case key => exact ⟨_, (exec_spdmRequest_of_ready hanswers hidle _).trans (congrArg _ (spdmAnswer_keyExchange hlc hroom)), rfl, rfl⟩
  case finish => exact ⟨_, (exec_spdmRequest_of_ready hanswers hidle _).trans (congrArg _ (spdmAnswer_finish hopen)), rfl, rfl⟩
  case close => exact ⟨_, (exec_spdmRequest_of_ready hanswers hidle _).trans (congrArg _ (spdmAnswer_endSession hopen)), rfl, rfl⟩

end Sys2Proof.Slice0

/-!
PROOFS. Windows of the entropy source, and the DRBG's seeding (R559, R564 to R575, R579 to R582, R589): the statement O57.
-/
namespace Sys2Proof.Slice0
open Sys2Proof Sys2Proof.Machine

/-! ## Failed blocks (R589, R591) -/

/-- A count that saturates at each step saturates once. -/
theorem min_add_min (a n : Nat) : Nat.min (Nat.min (a + 1) (2 ^ 32 - 1) + n) (2 ^ 32 - 1) = Nat.min (a + (n + 1)) (2 ^ 32 - 1) := by
  simp only [Nat.min_def]
  split <;> split <;> split <;> omega

theorem healthFail_held_length (s : State) (w consec : Nat) (f : Nat × Nat × Nat) :
    (s.healthFail w consec f).host.held.length = s.host.held.length + 1 := by
  simp [State.healthFail, State.postDev, State.postWith]

/-- Reporting failed blocks touches the source's count and note of failures and the held events, one for each block. -/
theorem foldl_healthFail (w consec : Nat) (fs : List (Nat × Nat × Nat)) (s : State) (hfits : s.ens.fails ≤ 2 ^ 32 - 1) :
    ∃ last held, fs.foldl (fun (s : State) f => s.healthFail w consec f) s = { s with
      ens := { s.ens with fails := Nat.min (s.ens.fails + fs.length) (2 ^ 32 - 1), lastFail := last }
      host := { s.host with held := held } } ∧ held.length = s.host.held.length + fs.length := by
  induction fs generalizing s with
  | nil =>
    have hcount : Nat.min (s.ens.fails + ([] : List (Nat × Nat × Nat)).length) (2 ^ 32 - 1) = s.ens.fails := Nat.min_eq_left hfits
    exact ⟨s.ens.lastFail, s.host.held, by rw [hcount]; rfl, rfl⟩
  | cons f fs ih =>
    obtain ⟨last, held, heq, hlen⟩ := ih (s.healthFail w consec f) (Nat.min_le_right ..)
    refine ⟨last, held, heq.trans ?_, hlen.trans ?_⟩
    · rw [List.length_cons, ← min_add_min]
      rfl
    · rw [healthFail_held_length, List.length_cons]
      omega

/-! ## The end of a start-up window (R569, R571, R574) -/

section
variable {s : State} {blocks : List (List Byte)}

/-- The failed blocks of the window that ends. -/
def failedBlocks (s : State) (blocks : List (List Byte)) : List (Nat × Nat × Nat) := s.ens.failures (s.ens.window32 blocks)

/-- The count of consecutive failures after that window. -/
def failureCount (s : State) (blocks : List (List Byte)) : Nat := s.ens.consecAfter !(failedBlocks s blocks).isEmpty

/-- The state in which a start-up window has ended: its failed blocks are reported, and no block is delivered. -/
def windowJudged (s : State) (blocks : List (List Byte)) : State :=
  (failedBlocks s blocks).foldl (fun (u : State) f => u.healthFail s.ens.window (failureCount s blocks) f)
    { s with ens := s.ens.endWindow (s.ens.window32 blocks) (failureCount s blocks) }

/-- What follows the judgement of a start-up window that does not find the stochastic class FAILED. -/
theorem windowEnd_of_startup (hstart : s.ens.startup = true) (hstoch : s.ens.stoch ≠ 3) :
    s.windowEnd blocks =
      if (!(failedBlocks s blocks).isEmpty) = true then
        if failureCount s blocks = 3 then
          { (windowJudged s blocks).failStochastic s.ens.window with
            ens := ((windowJudged s blocks).failStochastic s.ens.window).ens.decideSec }
        else { windowJudged s blocks with ens := { (windowJudged s blocks).ens.restart with stoch := 2 } }
      else
        { (windowJudged s blocks).startupPassed s.ens.window with
          ens := ((windowJudged s blocks).startupPassed s.ens.window).ens.decideSec } := by
  unfold State.windowEnd
  simp only [hstart, hstoch, if_true, Bool.true_or, if_false]
  rfl

theorem exec_ensWindowEnd (hsettled : s.ens.settling = false) (hgood : s.pins.pwrgood = true) :
    exec (.ensWindowEnd blocks) s = .next (s.windowEnd blocks) := by
  show execEnsWindowEnd blocks s = _
  simp [execEnsWindowEnd, hsettled, hgood]

/-- A start-up window without a failed block. -/
theorem startupWindow_passes (hsettled : s.ens.settling = false) (hgood : s.pins.pwrgood = true) (hstart : s.ens.startup = true)
    (hstoch : s.ens.stoch ≠ 3) (hnone : failedBlocks s blocks = []) :
    Answers (.ensWindowEnd blocks) s fun t => t.ens.ready = true ∧ t.ens.stoch = 1 ∧ t.ens.startup = false ∧
      t.ens.window = (s.ens.window + 1) % 2 ^ 64 ∧ t.ens.consec = s.ens.consec ∧
      Posts s t (if s.ens.ready then 0x0905 else 0x0901) 0 (toLe 8 s.ens.window) := by
  have hcount : failureCount s blocks = s.ens.consec := by simp [failureCount, hnone, Ens.consecAfter, hstart, hstoch]
  have hjudged : windowJudged s blocks = { s with ens := s.ens.endWindow (s.ens.window32 blocks) s.ens.consec } := by
    rw [windowJudged, hnone, hcount]
    rfl
  refine ⟨_, exec_ensWindowEnd hsettled hgood, ?_⟩
  rw [windowEnd_of_startup hstart hstoch, hnone, if_neg (c := (!([] : List (Nat × Nat × Nat)).isEmpty) = true) (by decide), hjudged]
  refine ⟨rfl, rfl, rfl, rfl, rfl, ?_⟩
  obtain ⟨e, hheld, hcode, hstatus, hpayload, hctx, -, htsc⟩ := postWith_held
    { s with ens := { s.ens.endWindow (s.ens.window32 blocks) s.ens.consec with ready := true, stoch := 1 } } 0 0x0700
    (if !s.ens.ready then 0x0901 else 0x0905) 0 (toLe 8 s.ens.window) false
  have hwhich : (if !s.ens.ready then 0x0901 else 0x0905) = if s.ens.ready then 0x0905 else 0x0901 := by cases s.ens.ready <;> rfl
  exact ⟨e, hheld, hcode.trans hwhich, hstatus, hpayload, hctx, htsc⟩

/-- A judged start-up window that failed: the source counts and notes the failed blocks, and each of them posts. -/
theorem windowJudged_of_failed (hsome : failedBlocks s blocks ≠ []) : ∃ last held, windowJudged s blocks = { s with
    ens := { s.ens.endWindow (s.ens.window32 blocks) (failureCount s blocks) with
      fails := Nat.min (s.ens.fails + (failedBlocks s blocks).length) (2 ^ 32 - 1), lastFail := last }
    host := { s.host with held := held } } ∧ held.length = s.host.held.length + (failedBlocks s blocks).length := by
  rw [windowJudged]
  cases hblocks : failedBlocks s blocks with
  | nil => exact absurd hblocks hsome
  | cons f fs =>
    obtain ⟨last, held, heq, hlen⟩ := foldl_healthFail s.ens.window (failureCount s blocks) fs
      (State.healthFail { s with ens := s.ens.endWindow (s.ens.window32 blocks) (failureCount s blocks) } s.ens.window
        (failureCount s blocks) f) (Nat.min_le_right ..)
    refine ⟨last, held, heq.trans ?_, ?_⟩
    · rw [List.length_cons, ← min_add_min]
      rfl
    · rw [hlen, List.length_cons, healthFail_held_length]
      exact Nat.add_right_comm ..

/-- A start-up window with a failed block and fewer than two before it: the source restarts. -/
theorem startupWindow_restarts (hsettled : s.ens.settling = false) (hgood : s.pins.pwrgood = true) (hstart : s.ens.startup = true)
    (hstoch : s.ens.stoch ≠ 3) (hsome : failedBlocks s blocks ≠ []) (hfew : s.ens.consec < 2) :
    Answers (.ensWindowEnd blocks) s fun t => t.ens.stoch = 2 ∧ t.ens.startup = true ∧ t.ens.settling = true ∧
      t.ens.consec = s.ens.consec + 1 ∧ t.ens.fails = Nat.min (s.ens.fails + (failedBlocks s blocks).length) (2 ^ 32 - 1) ∧
      t.host.held.length = s.host.held.length + (failedBlocks s blocks).length := by
  obtain ⟨last, held, hjudged, hlen⟩ := windowJudged_of_failed hsome
  have hcount : failureCount s blocks = s.ens.consec + 1 := by
    simp only [failureCount, Ens.consecAfter, hstoch, List.isEmpty_eq_false_iff.2 hsome, Bool.not_false, if_true, if_false]
    exact Nat.min_eq_left (by omega)
  have hnotThree : ¬ failureCount s blocks = 3 := by omega
  refine ⟨_, exec_ensWindowEnd hsettled hgood, ?_⟩
  rw [windowEnd_of_startup hstart hstoch, if_pos (by simpa using hsome), if_neg hnotThree, hjudged]
  exact ⟨rfl, rfl, rfl, hcount, rfl, hlen⟩

end

/-! ## A class that fails (R571, R575) -/

theorem steady_seedFailed (s : State) (c i status : Nat) : Steady s (s.seedFailed c i status) := by
  unfold State.seedFailed
  split
  · exact .refl s
  · dsimp only
    split
    · exact .refl s
    · exact (steady_setJob ..).trans (steady_foldl _ (fun u (d : Deferred) => steady_done ..) _ _)

theorem steady_failed (s : State) (r : RandReq) (status : Nat) : Steady s (s.failed r status) := by
  unfold State.failed
  split
  · exact steady_done ..
  · exact steady_endJob ..
  · exact steady_seedFailed ..
  · exact .refl s

/-- The requests of a class that fails leave the queue, and what they meant ends. -/
theorem steady_failClass (s : State) (security : Bool) (status : Nat) :
    Steady { s with ens := { s.ens with queue := s.ens.queue.filter fun r => (r.kind == 1) != security } } (s.failClass security status) :=
  steady_foldl _ (fun u (r : RandReq) => steady_failed u r status) _ _

/-- Once the stochastic class has failed, only security requests wait. -/
theorem failStochastic_fields (s : State) (w : Nat) : (s.failStochastic w).ens.stoch = 3 ∧ (s.failStochastic w).ens.consec = s.ens.consec ∧
    ∀ r ∈ (s.failStochastic w).ens.queue, r.kind = 1 := by
  have hsteady := steady_failClass (State.postDev { s with ens := { s.ens with stoch := 3 } } 0x0700 0x0904 0x0902 (toLe 8 w)) false 0x0902
  refine ⟨hsteady.stoch_eq, hsteady.consec_eq, fun r hr => ?_⟩
  simpa using (List.mem_filter.1 (hsteady.queue hr)).2

section
variable {s : State} {blocks : List (List Byte)}

/-- The third start-up window in a row with a failed block: the stochastic class fails and its requests leave. -/
theorem startupWindow_fails (hsettled : s.ens.settling = false) (hgood : s.pins.pwrgood = true) (hstart : s.ens.startup = true)
    (hstoch : s.ens.stoch ≠ 3) (hsome : failedBlocks s blocks ≠ []) (hmany : 2 ≤ s.ens.consec) :
    Answers (.ensWindowEnd blocks) s fun t => t.ens.stoch = 3 ∧ t.ens.consec = 3 ∧ ∀ r ∈ t.ens.queue, r.kind = 1 := by
  obtain ⟨last, held, hjudged, -⟩ := windowJudged_of_failed hsome
  have hcount : failureCount s blocks = 3 := by
    simp only [failureCount, Ens.consecAfter, hstoch, List.isEmpty_eq_false_iff.2 hsome, Bool.not_false, if_true, if_false]
    exact Nat.min_eq_right (by omega)
  refine ⟨_, exec_ensWindowEnd hsettled hgood, ?_⟩
  rw [windowEnd_of_startup hstart hstoch, if_pos (by simpa using hsome), if_pos hcount]
  have hconsec : (windowJudged s blocks).ens.consec = 3 := by
    rw [hjudged]
    exact hcount
  obtain ⟨hstochAfter, hconsecAfter, hqueue⟩ := failStochastic_fields (windowJudged s blocks) s.ens.window
  generalize (windowJudged s blocks).failStochastic s.ens.window = u at hstochAfter hconsecAfter hqueue
  exact ⟨hstochAfter, hconsecAfter.trans hconsec, hqueue⟩

end

/-- The state once a security block has instantiated the DRBG. -/
def instantiated (s : State) (b : List Byte) : State :=
  { s with
    drb := { s.drb with key := (drbgInit (b.take 96) s.personalization).1, v := (drbgInit (b.take 96) s.personalization).2, count := 0, st := 1 }
    ens := { s.ens with secBlock := none } }

/-- Settles O57: a start-up window by whether a block failed and how many windows before it did; the DRBG by the block it is given. -/
theorem entropyEventsComplete : Obligations.EntropyEventsComplete := by
  rintro s blocks _ _ b rfl rfl
  refine ⟨startupWindow_passes, startupWindow_restarts, startupWindow_fails, fun hgood => ?settle, fun hblock hst hisland => ?instantiate,
    fun hblock hst hisland => ?stop, fun hblock hst hisland hmay => ?reseed⟩
  case settle =>
    show execEnsRestartSettle s = _
    rw [execEnsRestartSettle, if_pos hgood]
  case instantiate =>
    refine ⟨_, ?_, instantiated s b, rfl, rfl, rfl, rfl⟩
    show execDrbgInstantiate true s = _
    simp [execDrbgInstantiate, hblock, hst, hisland, instantiated]
  case stop =>
    refine ⟨_, ?_, { s with sec := { s.sec with islandFail := true } }, rfl, rfl, rfl⟩
    show execDrbgInstantiate false s = _
    simp [execDrbgInstantiate, hblock, hst, hisland, State.islandStop]
  case reseed =>
    refine ⟨_, ?_, s.reseed b, rfl, rfl⟩
    show execDrbgReseed s = _
    simp [execDrbgReseed, hblock, hst, hisland, hmay]

end Sys2Proof.Slice0

/-!
PROOFS. Ring sets that pause and resume, and window accesses that were held, leave the rest of the device alone (R450 to R452, R462, R479).
-/
namespace Sys2Proof.Slice0
open Sys2Proof Sys2Proof.Machine

/-! ## Ring sets (R461 to R463, R479) -/

theorem steady_withHost {s : State} {x : HostPort} (h : s.host.held <+: x.held) : Steady s { s with host := x } := ⟨rfl, h, List.Subset.refl _⟩

theorem steady_writeEvent (s : State) (set : Nat) (e : Event) : Steady s (s.writeEvent set e) := by
  unfold State.writeEvent
  dsimp only
  split
  · exact (steady_setRing ..).trans (steady_putWriteback ..)
  · split
    · exact steady_ringFault ..
    · refine Steady.trans ?_ (steady_foldl _ (fun u _ => steady_recordIrq ..) _ _)
      refine Steady.trans ?_ (steady_putWriteback ..)
      refine Steady.trans ?_ (steady_withHost List.prefix_rfl)
      exact (steady_foldl _ (fun u rec => steady_putRecord ..) _ _).trans (steady_setRing ..)

theorem steady_flushHeld0 (s : State) : Steady s s.flushHeld0 := by
  have hevents : Steady s ((sortEvs s.host.held0).foldl (fun (u : State) e => u.writeEvent 0 e)
      { s with host := { s.host with held0 := [], lost0 := 0 } }) :=
    (steady_withHost (x := { s.host with held0 := [], lost0 := 0 }) List.prefix_rfl).trans
      (steady_foldl _ (fun u e => steady_writeEvent ..) _ _)
  unfold State.flushHeld0
  dsimp only
  split
  · exact hevents
  · exact hevents.trans (((steady_setRing ..).trans (steady_putWriteback ..)).trans (steady_postWith ..))

theorem steady_ringError (s : State) (set which err v : Nat) : Steady s (s.ringError set which err v) := by
  unfold State.ringError
  dsimp only
  split
  · exact steady_setRing ..
  · exact (steady_setRing ..).trans (steady_postWith ..)

theorem steady_observeCmd (s : State) (set v : Nat) : Steady s (s.observeCmd set v) := by
  unfold State.observeCmd
  dsimp only
  split
  · exact steady_ringError ..
  · exact steady_setRing ..

theorem steady_observeCi (s : State) (set which v : Nat) : Steady s (s.observeCi set which v) := by
  unfold State.observeCi
  dsimp only
  generalize (if which = 1 then ((s.ring set).tokPi, (s.ring set).tokCi)
    else if which = 2 then ((s.ring set).cplPi, (s.ring set).cplCi) else ((s.ring set).evtPi, (s.ring set).evtCi)) = pc
  split
  · exact steady_ringError ..
  · exact steady_setRing ..

theorem steady_postLost (s : State) (set : Nat) : Steady s (s.postLost set) := by
  unfold State.postLost
  dsimp only
  split
  · exact .refl s
  · exact (steady_setRing ..).trans (steady_postWith ..)

theorem steady_observeAll (s : State) (set : Nat) (vs : List Nat) : Steady s (s.observeAll set vs) := by
  unfold State.observeAll
  dsimp only
  refine Steady.trans ?_ (steady_postLost ..)
  refine Steady.trans ?_ (steady_observeCi ..)
  refine Steady.trans ?_ (steady_observeCi ..)
  exact (steady_observeCmd ..).trans (steady_observeCi ..)

theorem steady_activate (s : State) (set : Nat) : Steady s (s.activate set) := by
  have hflush (u : State) : Steady u (if set = 0 then u.flushHeld0 else u) := by
    split
    · exact steady_flushHeld0 u
    · exact .refl u
  have hdoorbell (u : State) : Steady u (if u.usesLine set then u.setRing set { u.ring set with await := true, line := true }
      else u.observeAll set ((u.ring set).bar2.map (·.toNat))) := by
    split
    · exact steady_setRing ..
    · exact steady_observeAll ..
  exact (steady_setRingState s set 1).trans ((hflush _).trans (hdoorbell _))

theorem steady_resumeRing (s : State) (c : Nat) : Steady s (s.resumeRing c) := by
  unfold State.resumeRing
  split
  · exact steady_activate ..
  · exact .refl s

theorem steady_resumeRings (s : State) : Steady s s.resumeRings := steady_foldl _ (fun u c => steady_resumeRing u c) _ s

theorem steady_pauseRing (s : State) (c : Nat) : Steady s (s.pauseRing c) := by
  unfold State.pauseRing
  split
  · exact steady_setRingState ..
  · exact .refl s

theorem steady_pauseRings (s : State) : Steady s s.pauseRings := steady_foldl _ (fun u c => steady_pauseRing u c) _ s

/-! ## The window (R450, R452) -/

theorem steady_lpxWrite (s : State) (dpa kind : Nat) (bs : List Byte) : Steady s (s.lpxWrite dpa kind bs) := ⟨rfl, List.prefix_rfl, List.Subset.refl _⟩

theorem steady_answer (s : State) (bs : List Byte) : Steady s (s.answer bs) := ⟨rfl, List.prefix_rfl, List.Subset.refl _⟩

theorem steady_hdmDeny (s : State) : Steady s s.hdmDeny := steady_withHost List.prefix_rfl

theorem steady_onJob (s : State) (c : Nat) (f : Job → Job) : Steady s (s.onJob c f) := by
  unfold State.onJob
  split
  · exact .refl s
  · exact steady_setJob ..

theorem steady_hdmPoison (s : State) (w : Nat) : Steady s (s.hdmPoison w) := by
  unfold State.hdmPoison
  dsimp only
  split
  · exact (steady_onJob ..).trans ((steady_postWith ..).trans (steady_hdmDeny _))
  · exact (steady_postWith ..).trans (steady_hdmDeny _)

theorem steady_hdmBedWrite (s : State) (c b o : Nat) (bs : List Byte) : Steady s (s.hdmBedWrite c b o bs) := by
  unfold State.hdmBedWrite
  split
  · exact steady_hdmDeny s
  · split
    · exact steady_hdmDeny s
    · split
      · exact steady_hdmDeny s
      · split
        · exact (steady_lpxWrite ..).trans (steady_setJob ..)
        · exact steady_setJob ..

theorem steady_hdmWriteNow (s : State) (w : Nat) (bs : List Byte) (poison : Bool) : Steady s (s.hdmWriteNow w bs poison) := by
  unfold State.hdmWriteNow
  split
  · exact .refl s
  · split
    · exact steady_hdmPoison ..
    · dsimp only
      split
      · exact steady_hdmBedWrite ..
      · split
        · split
          · exact steady_lpxWrite ..
          · exact (steady_postWith ..).trans (steady_hdmDeny _)
        · exact steady_hdmDeny s

theorem steady_hdmReadNow (s : State) (w n : Nat) : Steady s (s.hdmReadNow w n .clean) := by
  unfold State.hdmReadNow
  split <;> exact steady_answer ..

theorem steady_releaseHdm (s : State) : Steady s s.releaseHdm := by
  unfold State.releaseHdm
  dsimp only
  refine Steady.trans ?queue (steady_foldl _ (fun u a => ?each) _ _)
  case queue => exact steady_withHost List.prefix_rfl
  case each =>
    split
    · exact steady_hdmWriteNow ..
    · exact steady_hdmReadNow ..
    · exact .refl u

end Sys2Proof.Slice0

/-!
PROOFS. The device reset, PERST_N, the reference and the host link (R445, R606 to R610, R614, R683, R685): the statement O52.
-/
namespace Sys2Proof.Slice0
open Sys2Proof Sys2Proof.Machine

/-! ## Domains (R602) -/

theorem testBit_sub_two_pow {n i : Nat} (h : n.testBit i = true) : (n - 2 ^ i).testBit i = false := by
  have hle : 2 ^ i ≤ n := Nat.ge_two_pow_of_testBit h
  obtain ⟨k, rfl⟩ := Nat.exists_eq_add_of_le hle
  rw [Nat.add_sub_cancel_left]
  rw [Nat.testBit_two_pow_add_eq] at h
  simpa using h

theorem domainOff_pwr (s : State) (pd : Nat) :
    (s.domainOff pd).pwr = if s.isOn pd then { s.pwr with on := s.pwr.on - 2 ^ pd } else s.pwr := by
  unfold State.domainOff
  cases hon : s.isOn pd with
  | false => rfl
  | true =>
    simp only [Bool.not_true, Bool.false_eq_true, if_false, State.postDomain, State.postDev_pwr, if_true]
    split
    · exact State.onCores_pwr ..
    · split
      · rfl
      · split
        · exact foldl_pwr _ _ _ fun _ _ => State.setLpx_pwr ..
        · rfl

/-- A domain that is told to switch off is OFF. -/
theorem isOn_domainOff (s : State) (pd : Nat) : (s.domainOff pd).isOn pd = false := by
  rw [State.isOn, domainOff_pwr]
  cases hon : s.isOn pd with
  | false => exact hon
  | true => exact testBit_sub_two_pow hon

/-- A domain without units of its own switches off with an event and no more. -/
theorem domainOff_of_bare {s : State} {pd : Nat} (hcores : ¬ (3 ≤ pd ∧ pd ≤ 10)) (htiles : ¬ (pd = 11 ∨ pd = 12))
    (hlpx : ¬ (pd = 15 ∨ pd = 16)) :
    s.domainOff pd = if s.isOn pd then State.postDomain { s with pwr := { s.pwr with on := s.pwr.on - 2 ^ pd } } pd 0 else s := by
  simp only [State.domainOff, if_neg hcores, if_neg htiles, if_neg hlpx]
  cases s.isOn pd <;> rfl

/-! ## The device reset (R606 to R610) -/

/-- A dump abandoned touches the dump, its RW1C bit and the held events. -/
theorem abandonDump_eq (s : State) : ∃ held setAt dmp, s.abandonDump = { s with
    dmp := dmp, glb := { s.glb with setAt := setAt }, host := { s.host with held := held } } := by
  unfold State.abandonDump
  split
  · exact ⟨_, _, _, rfl⟩
  · exact ⟨_, _, _, rfl⟩

/-- Fuses without a pending transition, on a device that is not SCRAPPED, leave the boot to go on. -/
theorem startBoot_of_plain {s : State} (hpend : s.sec.lcPend = false) (hlc : s.fuses.lc ≠ 3) : s.startBoot = s := by
  simp [State.startBoot, State.loadFuses, hpend, hlc]

/-- Does the trip temperature still hold at a device reset (R695)? -/
def stillHot (s : State) : Bool := s.pins.thermtrip && s.tripHot

/-- The pins after a device reset: the straps are latched again, and the outputs follow the sensors. -/
def relatched (hot : Bool) (x : Pins) : Pins :=
  { x with fatal := hot, thermtrip := hot, latWest := x.selWest, latEast := x.selEast, latBoot := x.bootSrc }

/-- What a device reset leaves. -/
structure DeviceReset (s t : State) (cause : Nat) : Prop where
  busy : t.rst.busy = some ⟨5, 3, 0, cause⟩
  boot : t.boot.ready = false ∧ t.boot.firmware = false ∧ t.boot.halt = if stillHot s then .fatal 0x21 else .none
  rings : ∀ c, t.ring c = RingSet.init
  cores : ∀ p, t.core p = Core.init
  setup : t.glb = Glb.init ∧ t.slices = []
  kept : t.flash = s.flash ∧ t.fuses = s.fuses
  pins : t.pins = relatched (stillHot s) s.pins

theorem deviceReset_of_allowed {s : State} {cause : Nat} (hhalt : s.boot.halt = .none ∨ ∃ k, s.boot.halt = .fatal k) (hlc : s.fuses.lc ≠ 3)
    (hpend : s.sec.lcPend = false) : DeviceReset s (s.deviceReset cause) cause := by
  have hallowed : ¬ (s.boot.halt = .primacy ∨ s.boot.halt = .refclk ∨ s.boot.halt = .scrapped ∨ s.boot.halt = .noFirmware) := by
    rcases hhalt with h | ⟨k, h⟩ <;> simp [h]
  have hsteady := steady_endAll s 0x0009
  obtain ⟨held, setAt, dmp, habandon⟩ := abandonDump_eq (s.endAll 0x0009)
  have hfuses : (s.endAll 0x0009).fuses = s.fuses := hsteady.fuses_eq
  have hflash : (s.endAll 0x0009).flash = s.flash := hsteady.flash_eq
  have hsec : (s.endAll 0x0009).sec = s.sec := hsteady.sec_eq
  have hpins : (s.endAll 0x0009).pins = s.pins := hsteady.pins_eq
  unfold State.deviceReset
  rw [if_neg hallowed]
  dsimp only
  rw [habandon]
  generalize s.endAll 0x0009 = u at hfuses hflash hsec hpins
  rw [startBoot_of_plain (by exact hsec ▸ hpend) (by exact hfuses ▸ hlc)]
  exact ⟨rfl, ⟨rfl, rfl, rfl⟩, fun _ => rfl, fun _ => rfl, ⟨rfl, rfl⟩, ⟨hflash, hfuses⟩, congrArg (relatched (stillHot s)) hpins⟩

/-! ## PERST_N (R614, R683) -/

/-- What the assertion of PERST_N does after the device reset that it may be: the host link falls and PD19 switches off. -/
def linkFallen (s : State) : State :=
  State.domainOff { s with pins := { s.pins with perst := true }, host := s.host.linkDown } 19

theorem linkFallen_fields (s : State) : (linkFallen s).pins = { s.pins with perst := true } ∧ (linkFallen s).isOn 19 = false ∧
    (linkFallen s).host.trained = false ∧ (linkFallen s).boot = s.boot ∧ (linkFallen s).jobs = s.jobs ∧ (linkFallen s).rst = s.rst ∧
    ∀ c, (linkFallen s).ring c = s.ring c := by
  have hon := isOn_domainOff { s with pins := { s.pins with perst := true }, host := s.host.linkDown } 19
  have heq := domainOff_of_bare (s := { s with pins := { s.pins with perst := true }, host := s.host.linkDown }) (pd := 19)
    (by decide) (by decide) (by decide)
  rw [← linkFallen] at hon heq
  refine ⟨?_, hon, ?_⟩ <;> rw [heq] <;> split
  · rfl
  · rfl
  · exact ⟨rfl, rfl, rfl, rfl, fun _ => rfl⟩
  · exact ⟨rfl, rfl, rfl, rfl, fun _ => rfl⟩

section
variable {s : State} {ts : Nat} (hlong : 100000 ≤ ts) (hhigh : s.pins.perst = false) (hgood : s.pins.pwrgood = true)
  (hhalt : s.boot.halt = .none)
include hlong hhigh hgood hhalt

/-- An assertion of PERST_N that counts, on a device that is not halted. -/
theorem exec_perstNAssert :
    exec (.perstNAssert ts) s = .next (linkFallen (if s.boot.ready || s.boot.wasReady then s.deviceReset 2 else s)) := by
  have hshort : ¬ ts < 100000 := by omega
  show execPerstNAssert ts s = _
  simp [execPerstNAssert, linkFallen, hshort, hhigh, hgood, hhalt]

/-- Before READY it holds the host link in reset. -/
theorem perstNAssert_of_booting (hready : s.boot.ready = false) (hwas : s.boot.wasReady = false) :
    Answers (.perstNAssert ts) s fun t => t.pins = { s.pins with perst := true } ∧ t.isOn 19 = false ∧ t.host.trained = false ∧
      t.boot = s.boot ∧ t.jobs = s.jobs := by
  refine ⟨_, exec_perstNAssert hlong hhigh hgood hhalt, ?_⟩
  rw [hready, hwas, if_neg (by decide)]
  obtain ⟨hpins, hon, htrained, hboot, hjobs, -, -⟩ := linkFallen_fields s
  exact ⟨hpins, hon, htrained, hboot, hjobs⟩

/-- After READY it is a device reset. -/
theorem perstNAssert_of_ready (hready : s.boot.ready = true) (hlc : s.fuses.lc ≠ 3) (hpend : s.sec.lcPend = false) :
    Answers (.perstNAssert ts) s fun t => t.pins.perst = true ∧ t.isOn 19 = false ∧ t.host.trained = false ∧ t.boot.ready = false ∧
      t.rst.busy = some ⟨5, 3, 0, 2⟩ ∧ ∀ c, t.ring c = RingSet.init := by
  refine ⟨_, exec_perstNAssert hlong hhigh hgood hhalt, ?_⟩
  rw [hready, Bool.true_or, if_pos rfl]
  have hreset := deviceReset_of_allowed (cause := 2) (.inl hhalt) hlc hpend
  obtain ⟨hpins, hon, htrained, hboot, -, hrst, hring⟩ := linkFallen_fields (s.deviceReset 2)
  refine ⟨congrArg Pins.perst hpins, hon, htrained, ?_, ?_, fun c => (hring c).trans (hreset.rings c)⟩
  · rw [hboot]
    exact hreset.boot.1
  · rw [hrst, hreset.busy]

end

/-- A domain told to power is ON or powers. -/
theorem powerOn_single (s : State) (pd : Nat) : (s.powerOn [pd]).isOn pd = true ∨ pd ∈ (s.powerOn [pd]).pwr.rising := by
  cases hon : s.isOn pd with
  | true => exact .inl hon
  | false =>
    refine .inr ?_
    by_cases hrising : pd ∈ s.pwr.rising
    · exact List.mem_append_left _ hrising
    · exact List.mem_append_right _ (by simp [hon, hrising])

/-- Settles O52: an assertion by its length and the state of the boot; the others are one step of the model each. -/
theorem hostPinsComplete : Obligations.HostPinsComplete := by
  intro s
  refine ⟨fun ts hshort => ?short, fun ts hlong hhigh hgood hhalt => perstNAssert_of_booting hlong hhigh hgood hhalt,
    fun ts hlong hhigh hgood hhalt => perstNAssert_of_ready hlong hhigh hgood hhalt, fun hlow hhalt => ?release,
    ⟨_, rfl, rfl, rfl, rfl, rfl, rfl, rfl, rfl⟩, fun cxl w r ca me io cm bm hhigh hgood hon hhalt => ?train⟩
  case short =>
    show execPerstNAssert ts s = _
    simp [execPerstNAssert, hshort]
  case release =>
    refine ⟨State.powerOn { s with pins := { s.pins with perst := false } } [19], ?_, rfl, powerOn_single _ 19⟩
    show execPerstNDeassert s = _
    simp [execPerstNDeassert, hlow, hhalt]
  case train =>
    show execHostLinkTrained cxl w r ca me io cm bm s = _
    simp [execHostLinkTrained, hhigh, hgood, hon, hhalt]

end Sys2Proof.Slice0

/-!
PROOFS. The boot (R38, R530, R547 to R550, R559, R584, R592, R595 to R597, R612, R615, R616, R682): the statement O51.
-/
namespace Sys2Proof.Slice0
open Sys2Proof Sys2Proof.Machine

variable {s : State}

/-! ## Power and references (R547, R559, R592, R612, R682) -/

/-- The straps latched as power becomes good. -/
def strapped (s : State) (w e b : Bool) : State :=
  { s with
    pins := { s.pins with pwrgood := true, selWest := w, selEast := e, bootSrc := b, latWest := w, latEast := e, latBoot := b }
    mgt := { s.mgt with primary := b2n w } }

theorem exec_powerUp (hgood : s.pins.pwrgood = false) (w e b kat : Bool) : exec (.powerUp w e b kat) s = .next (
    if kat then (strapped s w e b).startBoot
    else State.deviceFatal { (strapped s w e b).startBoot with sec := { (strapped s w e b).startBoot.sec with islandFail := true } }
      0 0x23 0x0A04 8) := by
  show execPowerUp w e b kat s = _
  rw [execPowerUp, hgood, if_neg (by decide)]
  rfl

/-- A pending transition takes effect as the fuses load; a device that becomes SCRAPPED halts. -/
theorem startBoot_of_pending (hpend : s.sec.lcPend = true) : s.startBoot =
    let t := { s with fuses := { s.fuses with lc := s.sec.lcTarget }, sec := { s.sec with lcPend := false, lcTarget := 0 } }
    if s.sec.lcTarget = 3 then { t with boot := { t.boot with fuses := true, halt := .scrapped } } else t := by
  simp only [State.startBoot, State.loadFuses, hpend, if_true]

theorem startBoot_host (s : State) : s.startBoot.host = s.host := by
  unfold State.startBoot State.loadFuses
  dsimp only
  split <;> split <;> rfl

theorem powerUp_loads (hgood : s.pins.pwrgood = false) (hpend : s.sec.lcPend = true) (w e b : Bool) :
    Answers (.powerUp w e b true) s fun t => t.fuses = { s.fuses with lc := s.sec.lcTarget } ∧ t.sec.lcPend = false ∧
      (s.sec.lcTarget = 3 → t.boot.halt = .scrapped) ∧ (s.sec.lcTarget ≠ 3 → t.boot = s.boot) := by
  refine ⟨_, exec_powerUp hgood w e b true, ?_⟩
  rw [if_pos rfl, startBoot_of_pending (s := strapped s w e b) hpend]
  dsimp only
  split
  · next htarget => exact ⟨rfl, rfl, fun _ => rfl, fun h => absurd htarget h⟩
  · next htarget => exact ⟨rfl, rfl, fun h => absurd h htarget, fun _ => rfl⟩

theorem powerUp_stops (hgood : s.pins.pwrgood = false) (w e b : Bool) :
    Answers (.powerUp w e b false) s fun t => ∃ u : State, t = u.deviceFatal 0 0x23 0x0A04 8 ∧ u.sec.islandFail = true ∧ u.host = s.host :=
  ⟨_, exec_powerUp hgood w e b false, _, rfl, rfl, startBoot_host (strapped s w e b)⟩

/-! ## The alignment sequence (R38, R595 to R597) -/

/-- The state in which a mode change has ended, before what was held goes on. -/
def modeChanged (s : State) : State :=
  let t := { s with mgt := { s.mgt with changing := false, pend := false, modeCur := s.mgt.modeReq } }
  if s.mgt.modeReq = s.mgt.modeCur then t else t.postDev t.primarySource 0x0105 0 (toLe 1 s.mgt.modeReq)

theorem endModeChange_fields (s : State) : s.endModeChange.boot = s.boot ∧
    s.endModeChange.mgt = { s.mgt with changing := false, pend := false, modeCur := s.mgt.modeReq } := by
  have hsteady : Steady (modeChanged s) s.endModeChange := (steady_releaseHdm (modeChanged s)).trans (steady_resumeRings _)
  have hfields : (modeChanged s).boot = s.boot ∧
      (modeChanged s).mgt = { s.mgt with changing := false, pend := false, modeCur := s.mgt.modeReq } := by
    unfold modeChanged
    dsimp only
    split <;> exact ⟨rfl, rfl⟩
  exact ⟨hsteady.boot_eq.trans hfields.1, hsteady.mgt_eq.trans hfields.2⟩

section
variable (hopen : s.boot.aligned = false) (hlock : s.boot.pllLock = true) (href : s.pins.refclk = true) (hbusy : s.rst.busy = none)
include hopen hlock href hbusy

/-- The dividers of both halves released on root edge e. -/
def released (s : State) (e : Nat) : State :=
  { s with west := s.west.release e, east := s.east.release e, boot := { s.boot with aligned := true, running := true, edges := e } }

theorem exec_alignmentRelease {e : Nat} (he : e = if s.boot.running then s.boot.edges else 0) :
    exec .alignmentRelease s = .next (
      if s.mgt.changing && s.sec.scrub.isNone then (released s e).endModeChange else released s e) := by
  subst he
  have haligning (h : Nat) : s.aligning h = true := by rw [State.aligning, hbusy]
  show execAlignmentRelease s = _
  simp only [execAlignmentRelease, hopen, hlock, href, haligning, Bool.not_true, Bool.or_self, Bool.false_eq_true, if_false]
  simp only [State.onHalves_mgt, State.onHalves_sec, State.onHalves_rst, hbusy, Option.isNone_none, Bool.true_or, Bool.and_true]
  rfl

theorem alignmentRelease_of_steadyMode (hmode : s.mgt.changing = false) {e : Nat} (he : e = if s.boot.running then s.boot.edges else 0) :
    Answers .alignmentRelease s fun t =>
      t.boot = { s.boot with aligned := true, running := true, edges := e } ∧ t.west.rel = e ∧ t.east.rel = e ∧
      t.west.level = s.west.level ∧ t.east.level = s.east.level ∧ { t with boot := s.boot, west := s.west, east := s.east } = s := by
  refine ⟨_, exec_alignmentRelease hopen hlock href hbusy he, ?_⟩
  rw [hmode, Bool.false_and, if_neg (by decide)]
  exact ⟨rfl, rfl, rfl, rfl, rfl, rfl⟩

theorem alignmentRelease_of_modeChange (hmode : s.mgt.changing = true) (hscrub : s.sec.scrub = none) :
    Answers .alignmentRelease s fun t => t.boot.aligned = true ∧ t.mgt.modeCur = s.mgt.modeReq ∧ t.mgt.changing = false ∧
      t.mgt.pend = false := by
  refine ⟨_, exec_alignmentRelease hopen hlock href hbusy rfl, ?_⟩
  rw [hmode, hscrub, Option.isNone_none, Bool.true_and, if_pos rfl]
  obtain ⟨hboot, hmgt⟩ := endModeChange_fields (released s (if s.boot.running then s.boot.edges else 0))
  exact ⟨congrArg Boot.aligned hboot, congrArg Mgt.modeCur hmgt, congrArg Mgt.changing hmgt, congrArg Mgt.pend hmgt⟩

end

/-! ## Firmware (R549, R550, R612) -/

/-- The ROM has read the fuses. -/
def fused (s : State) : State := { s with boot := { s.boot with fuses := true } }

/-- The image of a slot runs and both management controllers start. -/
def imageRuns (s : State) (slot : Nat) (img : List Byte) : State :=
  let t := ((fused s).runImage slot img).recheckPending
  State.askNonce { t with boot := { t.boot with firmware := true, controllers := true } }

theorem slotImage_withBoot (s : State) (x : Boot) (slot : Nat) : State.slotImage { s with boot := x } slot = s.slotImage slot := by
  simp only [State.slotImage]

theorem fwCheck_withBoot (s : State) (x : Boot) (slot : Nat) : State.fwCheck { s with boot := x } slot = s.fwCheck slot := by
  simp only [State.fwCheck, slotImage_withBoot]

theorem recheckPending_eq (s : State) : ∃ st status, s.recheckPending = { s with sec := { s.sec with fwState := st, fwStatus := status } } := by
  unfold State.recheckPending
  split
  · exact ⟨_, _, rfl⟩
  · exact ⟨_, _, rfl⟩

section
variable {slot : Nat} (haligned : s.boot.aligned = true) (hfirmware : s.boot.firmware = false) (hhalt : s.boot.halt = .none)
include haligned hfirmware hhalt

/-- The slot whose turn it is: the active one, or the other one after the active one has failed. -/
def slotsTurn (s : State) (slot : Nat) : Prop := slot ≤ 1 ∧ (slot = s.activeSlot ∨ s.sec.fallback = true)

omit haligned hfirmware hhalt in
theorem slotsTurn_active (hslot : slot = s.activeSlot) : slotsTurn s slot :=
  ⟨by rw [hslot]; exact Nat.le_of_lt_succ (Nat.mod_lt _ (by decide)), .inl hslot⟩

theorem goesOn_of_turn (hturn : slotsTurn s slot) :
    ¬ (!s.boot.aligned || s.boot.firmware || s.boot.halt != .none || decide (1 < slot)) = true ∧
      ¬ (!(slot == s.activeSlot) && !s.sec.fallback) = true := by
  obtain ⟨hslot, hread⟩ := hturn
  refine ⟨by simp [haligned, hfirmware, hhalt, hslot], ?_⟩
  rcases hread with h | h <;> simp [h]

/-- A sound image runs. -/
theorem exec_firmwareVerify_of_sound (hturn : slotsTurn s slot) {img : List Byte} (himg : s.slotImage slot = some img)
    (hcheck : s.fwCheck slot = 0) :
    exec (.firmwareVerify slot) s = .next (
      if (imageRuns s slot img).fuses.lc = 2 then (imageRuns s slot img).askRandom ⟨.memKey, 1, 64, none, false, []⟩
      else { imageRuns s slot img with sec := { (imageRuns s slot img).sec with memKey := (imageRuns s slot img).fuses.memKey } }) := by
  obtain ⟨hgoes, hread⟩ := goesOn_of_turn haligned hfirmware hhalt hturn
  show execFirmwareVerify slot s = _
  rw [execFirmwareVerify, if_neg hgoes]
  dsimp only
  rw [if_neg hread, fwCheck_withBoot, slotImage_withBoot, hcheck, himg]
  rfl

/-- Another image does not. -/
theorem exec_firmwareVerify_of_unsound (hturn : slotsTurn s slot) (hcheck : s.fwCheck slot ≠ 0) :
    exec (.firmwareVerify slot) s = .next (if slot == s.activeSlot then { fused s with sec := { s.sec with fallback := true } }
      else { s with boot := { s.boot with fuses := true, halt := .noFirmware } }) := by
  obtain ⟨hgoes, hread⟩ := goesOn_of_turn haligned hfirmware hhalt hturn
  show execFirmwareVerify slot s = _
  rw [execFirmwareVerify, if_neg hgoes]
  dsimp only
  rw [if_neg hread, fwCheck_withBoot, slotImage_withBoot]
  split
  · next hzero _ => exact absurd hzero hcheck
  · rfl

theorem firmwareVerify_passes {img : List Byte} (hslot : slot = s.activeSlot) (himg : s.slotImage slot = some img) (hcheck : s.fwCheck slot = 0)
    (hlc : s.fuses.lc ≠ 2) :
    Answers (.firmwareVerify slot) s fun t => t.boot.firmware = true ∧ t.boot.controllers = true ∧
      t.sec.slot = slot ∧ t.sec.svn = leAt img 12 4 ∧ t.sec.keyIndex = leAt img 24 1 ∧ t.sec.fwNumeric = leAt img 8 4 ∧ t.sec.fwBytes = img ∧
      t.sec.memKey = s.fuses.memKey := by
  refine ⟨_, exec_firmwareVerify_of_sound haligned hfirmware hhalt (slotsTurn_active hslot) himg hcheck, ?_⟩
  obtain ⟨st, status, hpending⟩ := recheckPending_eq ((fused s).runImage slot img)
  have hruns : imageRuns s slot img = State.askNonce { fused s with
      boot := { (fused s).boot with firmware := true, controllers := true }
      sec := { ((fused s).runImage slot img).sec with fwState := st, fwStatus := status } } := by
    rw [imageRuns, hpending]
    rfl
  have hfuses : (imageRuns s slot img).fuses = s.fuses := by
    rw [hruns]
    rfl
  rw [hfuses, if_neg hlc, hruns]
  exact ⟨rfl, rfl, rfl, rfl, rfl, rfl, rfl, rfl⟩

theorem firmwareVerify_fails_first (hslot : slot = s.activeSlot) (hcheck : s.fwCheck slot ≠ 0) :
    exec (.firmwareVerify slot) s = .next { s with boot := { s.boot with fuses := true }, sec := { s.sec with fallback := true } } := by
  rw [exec_firmwareVerify_of_unsound haligned hfirmware hhalt (slotsTurn_active hslot) hcheck, if_pos (by simp [hslot])]
  rfl

theorem firmwareVerify_fails_second (hslot : slot = 1 - s.activeSlot) (hfallback : s.sec.fallback = true) (hcheck : s.fwCheck slot ≠ 0) :
    exec (.firmwareVerify slot) s = .next { s with boot := { s.boot with fuses := true, halt := .noFirmware } } := by
  have hother : ¬ (slot == s.activeSlot) = true := by
    rw [beq_iff_eq]
    omega
  rw [exec_firmwareVerify_of_unsound haligned hfirmware hhalt ⟨by omega, .inr hfallback⟩ hcheck, if_neg hother]

end

/-! ## Throttle decisions touch the halves alone (R599) -/

theorem setHalf_eq (s : State) (h : Nat) (x : Half) : ∃ w e, s.setHalf h x = { s with west := w, east := e } := by
  unfold State.setHalf
  split
  · exact ⟨_, _, rfl⟩
  · exact ⟨_, _, rfl⟩

theorem decideHalf_eq (s : State) (h : Nat) : ∃ w e, s.decideHalf h = { s with west := w, east := e } := by
  unfold State.decideHalf
  dsimp only
  generalize s.wantLevel h = want
  split
  all_goals
    split
    · exact ⟨_, _, rfl⟩
    · split <;> exact setHalf_eq ..

theorem redecide_eq (s : State) : ∃ w e, s.redecide = { s with west := w, east := e } := by
  obtain ⟨w, e, h0⟩ := decideHalf_eq s 0
  obtain ⟨w', e', h1⟩ := decideHalf_eq (s.decideHalf 0) 1
  refine ⟨w', e', ?_⟩
  rw [State.redecide, h1, h0]

/-! ## Primacy and the plan (R615 to R620) -/

/-- The plan that the primary half reads. -/
def planRead (s : State) : List Byte := Memory.readBytes s.flash 0 4096

/-- The plan taken into the registers. -/
def planTaken (s : State) (b : List Byte) : State :=
  let t := (if s.mgt.pending then s.measure 3 else s).applyPlan (planValues b)
  { t with
    boot := { t.boot with plan := true }
    mgt := { t.mgt with
      loaded := true, defaulted := planBad b || (planFirst b).isSome, pending := false, planBytes := b
      numeric := if planBad b then numericDefault else bytesAt b 256 256 } }

/-- A plan that falls back is reported, and the domains of the boot begin to power. -/
def planReported (t : State) (b : List Byte) : State :=
  let t := if planBad b || (planFirst b).isSome then
      t.postDev t.primarySource 0x0C07 0 (toLe 1 (b2n (!planBad b)) ++ toLe 3 0 ++ toLe 4 (if planBad b then 0 else (planFirst b).getD 0))
    else t
  t.powerOn (jobDomains 3 ++ ((if t.rz.portEn % 256 != 0 then [17] else []) ++ (if t.rz.portEn / 256 != 0 then [18] else [])))

theorem loadPlan_eq (s : State) : s.loadPlan = (planReported (planTaken s (planRead s)) (planRead s)).redecide := by
  unfold State.loadPlan planRead
  generalize Memory.readBytes s.flash 0 4096 = b
  rfl

theorem planTaken_fields (s : State) (b : List Byte) : (planTaken s b).boot.plan = true ∧ (planTaken s b).mgt.agreed = s.mgt.agreed ∧
    (planTaken s b).mgt.primary = s.mgt.primary ∧ (planTaken s b).mgt.modeReq = (planValues b).getD 0 0 := by
  unfold planTaken
  dsimp only
  split <;> exact ⟨rfl, rfl, rfl, rfl⟩

theorem planReported_fields (t : State) (b : List Byte) : (planReported t b).boot = t.boot ∧ (planReported t b).mgt = t.mgt := by
  unfold planReported
  dsimp only
  split <;> exact ⟨rfl, rfl⟩

theorem redecide_fields (s : State) : s.redecide.boot = s.boot ∧ s.redecide.mgt = s.mgt := by
  obtain ⟨w, e, h⟩ := redecide_eq s
  rw [h]
  exact ⟨rfl, rfl⟩

theorem loadPlan_fields (s : State) : s.loadPlan.boot.plan = true ∧ s.loadPlan.mgt.agreed = s.mgt.agreed ∧
    s.loadPlan.mgt.primary = s.mgt.primary ∧ s.loadPlan.mgt.modeReq = (planValues (planRead s)).getD 0 0 := by
  have hloaded : s.loadPlan.boot = (planTaken s (planRead s)).boot ∧ s.loadPlan.mgt = (planTaken s (planRead s)).mgt := by
    rw [loadPlan_eq, (redecide_fields _).1, (redecide_fields _).2]
    exact planReported_fields _ _
  rw [hloaded.1, hloaded.2]
  exact planTaken_fields s (planRead s)

/-- A half's claim has arrived. -/
def claimed (s : State) (half : Nat) : State :=
  { s with mgt := if half = 0 then { s.mgt with claimW := s.claimOf half } else { s.mgt with claimE := s.claimOf half } }

theorem claimOf_ne_zero (s : State) (half : Nat) : s.claimOf half ≠ 0 := by
  unfold State.claimOf
  split <;> split <;> decide

section
variable (hcontrollers : s.boot.controllers = true) (hagreed : s.mgt.agreed = false) (hhalt : s.boot.halt = .none)
include hcontrollers hagreed hhalt

theorem exec_primacyTimeout : exec .primacyTimeout s = .next s.primacyHalt := by
  show execPrimacyTimeout s = _
  simp [execPrimacyTimeout, hcontrollers, hagreed, hhalt]

section
variable {half other : Nat} (hhalf : half < 2) (hother : other = if half = 0 then s.mgt.claimE else s.mgt.claimW)
include hhalf hother

/-- A claim waits for that of the other half, agrees with it, or contradicts it. -/
theorem exec_primacyClaim : exec (.primacyClaim half) s = .next (
    if other = 0 then claimed s half
    else if other = s.claimOf half then (claimed s half).primacyHalt
    else State.loadPlan { claimed s half with mgt := { (claimed s half).mgt with
      agreed := true, primary := if (claimed s half).mgt.claimW = 1 then 0 else 1 } }) := by
  have hmine := claimOf_ne_zero s half
  refine (noUnit_of (by simpa using hhalf) _).trans (congrArg Host.Outcome.next ?_)
  rw [if_neg (by simp [hcontrollers, hagreed, hhalt])]
  show (if (claimed s half).mgt.claimW = 0 ∨ (claimed s half).mgt.claimE = 0 then claimed s half
    else if (claimed s half).mgt.claimW = (claimed s half).mgt.claimE then (claimed s half).primacyHalt
    else State.loadPlan { claimed s half with mgt := { (claimed s half).mgt with
      agreed := true, primary := if (claimed s half).mgt.claimW = 1 then 0 else 1 } }) = _
  have hwait : ((claimed s half).mgt.claimW = 0 ∨ (claimed s half).mgt.claimE = 0) ↔ other = 0 := by
    unfold claimed
    subst hother
    by_cases hw : half = 0
    · subst hw
      simp [hmine]
    · simp [hw, hmine]
  have hsame : (claimed s half).mgt.claimW = (claimed s half).mgt.claimE ↔ other = s.claimOf half := by
    unfold claimed
    subst hother
    by_cases hw : half = 0 <;> simp [hw, eq_comm]
  simp only [hwait, hsame]

theorem primacyClaim_first (hnone : other = 0) : exec (.primacyClaim half) s = .next { s with mgt :=
    if half = 0 then { s.mgt with claimW := s.claimOf 0 } else { s.mgt with claimE := s.claimOf 1 } } := by
  rw [exec_primacyClaim hcontrollers hagreed hhalt hhalf hother, if_pos hnone]
  interval_cases half <;> rfl

theorem primacyClaim_same (hsame : other = s.claimOf half) : Answers (.primacyClaim half) s fun t =>
    t.boot.halt = .primacy ∧ t.pins.fatal = true ∧ t.host = s.host ∧ t.boot.plan = s.boot.plan := by
  have hsome : ¬ other = 0 := by
    rw [hsame]
    exact claimOf_ne_zero s half
  refine ⟨_, exec_primacyClaim hcontrollers hagreed hhalt hhalf hother, ?_⟩
  rw [if_neg hsome, if_pos hsame]
  exact ⟨rfl, rfl, rfl, rfl⟩

theorem primacyClaim_agrees (hsome : other ≠ 0) (hdiffer : other ≠ s.claimOf half) : Answers (.primacyClaim half) s fun t =>
    t.mgt.agreed = true ∧ t.boot.plan = true ∧
      t.mgt.primary = (if half = 0 then (if s.claimOf 0 = 1 then 0 else 1) else (if s.mgt.claimW = 1 then 0 else 1)) ∧
      t.mgt.modeReq = (planValues (Memory.readBytes s.flash 0 4096)).getD 0 0 := by
  refine ⟨_, exec_primacyClaim hcontrollers hagreed hhalt hhalf hother, ?_⟩
  rw [if_neg hsome, if_neg hdiffer]
  obtain ⟨hplan, hagrees, hprimary, hmode⟩ := loadPlan_fields { claimed s half with mgt := { (claimed s half).mgt with
    agreed := true, primary := if (claimed s half).mgt.claimW = 1 then 0 else 1 } }
  refine ⟨hagrees, hplan, hprimary.trans ?_, hmode⟩
  interval_cases half <;> rfl

end

end

/-! ## LPDDR5X (R530, R584) -/

theorem lpxTrainingDone_of_training {k : Nat} {passed : Bool} (hk : k < 32) (hst : (s.lpxCtrl k).st = 1)
    (hkey : s.fuses.lc ≠ 2 ∨ s.sec.memKey ≠ []) : Answers (.lpxTrainingDone k passed) s fun t =>
      (∀ n, t.lpxCtrl n = if n = k then { s.lpxCtrl k with st := if passed then 2 else 3 } else s.lpxCtrl n) ∧ { t with lpx := s.lpx } = s := by
  have hready : ¬ ((s.lpxCtrl k).st != 1 || (s.fuses.lc == 2 && s.sec.memKey.isEmpty)) = true := by
    rcases hkey with h | h <;> simp [hst, h]
  refine ⟨_, noUnit_of (by simpa using hk) _, ?_⟩
  dsimp only
  rw [if_neg hready]
  exact ⟨fun n => State.lpxCtrl_setLpx .., rfl⟩

theorem lpxZeroDone_of_trained (hzeroed : s.boot.zeroed = false) (hgen : ∀ a, s.genAt a = 0)
    (hready : ∀ k, k < 32 → (s.lpxCtrl k).st = 2) :
    Answers .lpxZeroDone s fun t => t.boot.zeroed = true ∧ (∀ a n, t.lpxRead a n = List.replicate n 0#8) := by
  have hall : ((List.range 32).all fun i => (s.lpxCtrl i).st == 2) = true := by simpa [List.all_eq_true] using hready
  refine ⟨{ s with lpxMem := [], lineGen := [], lineKind := [], boot := { s.boot with zeroed := true } }, ?_, rfl, fun a n => ?_⟩
  · show execLpxZeroDone s = _
    rw [execLpxZeroDone, hzeroed, hall, if_neg (by decide)]
  · refine List.eq_replicate_iff.2 ⟨by simp [State.lpxRead], fun b hb => ?_⟩
    obtain ⟨i, -, rfl⟩ := List.mem_map.1 hb
    have hzero : State.genAt { s with lpxMem := [], lineGen := [], lineKind := [], boot := { s.boot with zeroed := true } } (a + i) = 0 :=
      hgen (a + i)
    rw [State.lpxByte, hzero]
    rfl

/-- Settles O51: each event of the boot by what its conditions let it do. -/
theorem bootEventsComplete : Obligations.BootEventsComplete := by
  intro s
  refine ⟨fun w e b hgood hpend hlc => ?power, fun w e b hgood hpend => powerUp_loads hgood hpend w e b, fun w e b hgood => powerUp_stops hgood w e b,
    fun hgood href => ?lock, fun e hopen hlock href hbusy hmode he => alignmentRelease_of_steadyMode hopen hlock href hbusy hmode he,
    fun hopen hlock href hbusy hmode hscrub => alignmentRelease_of_modeChange hopen hlock href hbusy hmode hscrub,
    fun slot img haligned hfirmware hhalt hslot himg hcheck hlc => firmwareVerify_passes haligned hfirmware hhalt hslot himg hcheck hlc,
    fun slot haligned hfirmware hhalt hslot hcheck => firmwareVerify_fails_first haligned hfirmware hhalt hslot hcheck,
    fun slot haligned hfirmware hhalt hslot hfallback hcheck => firmwareVerify_fails_second haligned hfirmware hhalt hslot hfallback hcheck,
    fun half other hhalf hcontrollers hagreed hhalt hother => ⟨primacyClaim_first hcontrollers hagreed hhalt hhalf hother,
      primacyClaim_same hcontrollers hagreed hhalt hhalf hother, primacyClaim_agrees hcontrollers hagreed hhalt hhalf hother⟩,
    fun hcontrollers hagreed hhalt => ⟨_, exec_primacyTimeout hcontrollers hagreed hhalt, rfl, rfl, rfl⟩,
    fun k passed hk hst hkey => lpxTrainingDone_of_training hk hst hkey, fun hzeroed hgen hready => lpxZeroDone_of_trained hzeroed hgen hready⟩
  case power =>
    rw [exec_powerUp hgood, if_pos rfl, startBoot_of_plain (s := strapped s w e b) hpend hlc]
    rfl
  case lock =>
    show execRootPllLock s = _
    rw [execRootPllLock, hgood, href, Bool.true_and, if_pos rfl]

end Sys2Proof.Slice0

/-!
PROOFS. Resets of every scope and their end (R606 to R611, R624, R626, R692): the statement O50.
-/
namespace Sys2Proof.Slice0
open Sys2Proof Sys2Proof.Machine

/-! ## RST_CMD (R606, R609) -/

section
variable {s : State} {v : W32}

theorem rstCmd_of_kind {kind : Nat} (hw : Writable s 0x30000) (hkind : bits v.toNat 2 0 = kind) : s.rstCmd kind v = s.writeRstCmd v := by
  rw [State.rstCmd, if_pos hkind, barWrite32_of_writable hw]

theorem resetBegins_of_idle (hready : s.boot.ready = true) (hbusy : s.rst.busy = none) (kind : Nat) : s.resetBegins kind = true := by
  simp [State.resetBegins, hready, hbusy]

section
variable {p : Nat} (hkind : bits v.toNat 2 0 = 3) (hcore : p = bits v.toNat 13 4) (hp : p < 544) (hhalt : s.boot.halt = .none)
  (hready : s.boot.ready = true) (hbusy : s.rst.busy = none)
include hkind hcore hp hhalt hready hbusy

/-- A core reset restales its core, enters it into a rejoin round and begins. -/
theorem writeRstCmd_core (hrunning : (s.core p).st ≠ .running) (hoff : (s.core p).st ≠ .off) (hretired : (s.core p).st ≠ .retired) :
    s.writeRstCmd v = ((s.setCore p (s.core p).restale).enterRound [(0, p)]).setReset 1 0 p 3 := by
  subst hcore
  simp [State.writeRstCmd, hkind, hp, hhalt, resetBegins_of_idle hready hbusy, hrunning, hoff, hretired]

/-- A RUNNING core refuses its reset. -/
theorem writeRstCmd_refused (hrunning : (s.core p).st = .running) :
    s.writeRstCmd v = { s.setsBit 0x30004 with rst := { s.rst with refused := true } } := by
  subst hcore
  simp [State.writeRstCmd, hkind, hp, hhalt, resetBegins_of_idle hready hbusy, hrunning]

end

theorem mem_round_of_mem (s : State) {us : List (Nat × Nat)} {u : Nat × Nat} (hu : u ∈ us) : u ∈ (s.enterRound us).pwr.round := by
  have hsome : ¬ us.isEmpty = true := by
    rw [List.isEmpty_iff]
    exact List.ne_nil_of_mem hu
  rw [State.enterRound, if_neg hsome]
  by_cases h : u ∈ s.pwr.round
  · exact List.mem_append_left _ h
  · exact List.mem_append_right _ (List.mem_filter.2 ⟨hu, by simp [h]⟩)

theorem restale_of_live {c : Core} (hoff : c.st ≠ .off) (hretired : c.st ≠ .retired) :
    c.restale = { Core.init with st := .stale, logical := c.logical } := by
  simp [Core.restale, hoff, hretired]

end

/-! ## Ports that train again (R519, R606) -/

/-- State `t` with the ports of `s` and its queue of the random service. -/
def withPorts (s t : State) : State := { t with rz := { t.rz with ports := s.rz.ports }, ens := { t.ens with queue := s.ens.queue } }

/-- From s to t nothing changes but the ports and the queue of the random service. -/
structure PortWork (s t : State) : Prop where
  rest : withPorts s t = s

theorem PortWork.refl (s : State) : PortWork s s := ⟨rfl⟩

theorem PortWork.trans {s t u : State} (h : PortWork s t) (k : PortWork t u) : PortWork s u :=
  ⟨(congrArg (withPorts s) k.rest).trans h.rest⟩

theorem portWork_foldl {α : Type} (f : State → α → State) (hf : ∀ s a, PortWork s (f s a)) (l : List α) (s : State) : PortWork s (l.foldl f s) := by
  induction l generalizing s with
  | nil => exact .refl s
  | cons a l ih => exact (hf s a).trans (ih (f s a))

theorem portWork_setPort (s : State) (p : Nat) (x : Port) : PortWork s (s.setPort p x) := ⟨rfl⟩

theorem portWork_startTraining (s : State) (p : Nat) : PortWork s (s.startTraining p) := ⟨rfl⟩

section
variable {s t : State} (h : PortWork s t)
include h

theorem PortWork.cores_eq : t.cores = s.cores := (congrArg State.cores h.rest :)
theorem PortWork.jobs_eq : t.jobs = s.jobs := (congrArg State.jobs h.rest :)
theorem PortWork.pwr_eq : t.pwr = s.pwr := (congrArg State.pwr h.rest :)
theorem PortWork.mgt_eq : t.mgt = s.mgt := (congrArg State.mgt h.rest :)
theorem PortWork.boot_eq : t.boot = s.boot := (congrArg State.boot h.rest :)

end

/-! ## A half reset (R606) -/

theorem enterRound_eq (s : State) (us : List (Nat × Nat)) : ∃ x, s.enterRound us = { s with pwr := x } := by
  unfold State.enterRound
  split
  · exact ⟨_, rfl⟩
  · exact ⟨_, rfl⟩

theorem enterRound_kept (s : State) (us : List (Nat × Nat)) : (s.enterRound us).cores = s.cores ∧ (s.enterRound us).jobs = s.jobs ∧
    (s.enterRound us).mgt = s.mgt ∧ (s.enterRound us).boot = s.boot := by
  obtain ⟨x, h⟩ := enterRound_eq s us
  rw [h]
  exact ⟨rfl, rfl, rfl, rfl⟩

/-- The units of half h reset, before its ports train again. -/
def unitsReset (s : State) (h : Nat) : State :=
  let own := s.ownerOf h
  let ts := (List.range 64).map (64 * h + ·) |>.filter fun t => Map.get 0 s.moss.tiles t != 0 && Map.get 0 s.moss.tiles t != 5
  let s := s.onCores (fun p => coreHalf p == h) fun _ c => c.restale
  let s := s.clearRegions fun g => g.tiles.any fun t => t / 64 == h
  let s := { s with moss := { s.moss with runs := s.moss.runs.filter fun r => r.ctx != own } }
  let s := s.setTiles ts 1
  { s with
    slices := Map.erase s.slices fun k => k / 2 ^ 24 / 256 == h
    exact := Map.erase s.exact fun k => k / 4096 / 256 == h
    streamers := s.streamers.filter fun t => t.ctx != own
    kernels := s.kernels.filter fun k => k.ctx != own
    espHandleW := if h = 0 then 0 else s.espHandleW
    espHandleE := if h = 1 then 0 else s.espHandleE
    links := Map.del s.links own }

/-- The ports of half h in training again where they may be. -/
def portsReset (s : State) (h : Nat) : State :=
  (List.range 8).foldl (fun (s : State) i =>
    let p := 8 * h + i
    let s := s.setPort p Port.init
    if bit s.rz.portEn p && s.isOn (17 + h) then s.startTraining p else s) s

theorem resetHalf_eq (s : State) (h : Nat) : ∃ us x, s.resetHalf h = ((portsReset (unitsReset s h) h).setHalf h x).enterRound us := ⟨_, _, rfl⟩

theorem portWork_portsReset (s : State) (h : Nat) : PortWork s (portsReset s h) := by
  refine portWork_foldl _ (fun u i => ?_) _ s
  dsimp only
  split
  · exact (portWork_setPort ..).trans (portWork_startTraining ..)
  · exact portWork_setPort ..

theorem unitsReset_fields (s : State) (h : Nat) :
    (unitsReset s h).cores = (s.onCores (fun p => coreHalf p == h) fun _ c => c.restale).cores ∧ (unitsReset s h).jobs = s.jobs ∧
      (unitsReset s h).mgt = s.mgt ∧ (unitsReset s h).boot = s.boot := by
  simp [unitsReset, State.clearRegions, State.setTiles]

theorem resetHalf_fields (s : State) (h : Nat) :
    (s.resetHalf h).cores = (s.onCores (fun p => coreHalf p == h) fun _ c => c.restale).cores ∧ (s.resetHalf h).jobs = s.jobs ∧
      (s.resetHalf h).mgt = s.mgt ∧ (s.resetHalf h).boot = s.boot := by
  obtain ⟨us, x, heq⟩ := resetHalf_eq s h
  obtain ⟨hcores, hjobs, hmgt, hboot⟩ := enterRound_kept ((portsReset (unitsReset s h) h).setHalf h x) us
  obtain ⟨ucores, ujobs, umgt, uboot⟩ := unitsReset_fields s h
  have hports := portWork_portsReset (unitsReset s h) h
  rw [heq, hcores, hjobs, hmgt, hboot, State.setHalf_cores, State.setHalf_jobs, State.setHalf_mgt, State.setHalf_boot, hports.cores_eq,
    hports.jobs_eq, hports.mgt_eq, hports.boot_eq]
  exact ⟨ucores, ujobs, umgt, uboot⟩

/-- The halves of a mask reset one after the other. -/
def halvesReset (s : State) (mask : Nat) : State :=
  let t := if bit mask 0 then s.resetHalf 0 else s
  if bit mask 1 then t.resetHalf 1 else t

theorem halvesReset_fields (s : State) (mask : Nat) : (halvesReset s mask).jobs = s.jobs ∧ (halvesReset s mask).mgt = s.mgt ∧
    (halvesReset s mask).boot = s.boot := by
  have hone (u : State) (h : Nat) (b : Bool) : (if b then u.resetHalf h else u).jobs = u.jobs ∧
      (if b then u.resetHalf h else u).mgt = u.mgt ∧ (if b then u.resetHalf h else u).boot = u.boot := by
    split
    · exact (resetHalf_fields u h).2
    · exact ⟨rfl, rfl, rfl⟩
  obtain ⟨hjobs, hmgt, hboot⟩ := hone s 0 (bit mask 0)
  obtain ⟨kjobs, kmgt, kboot⟩ := hone (if bit mask 0 then s.resetHalf 0 else s) 1 (bit mask 1)
  exact ⟨kjobs.trans hjobs, kmgt.trans hmgt, kboot.trans hboot⟩

theorem core_resetHalf (s : State) (h p : Nat) :
    (s.resetHalf h).core p = if p < 544 ∧ (coreHalf p == h) = true then (s.core p).restale else s.core p := by
  rw [core_of_cores (resetHalf_fields s h).1, core_onCores]

/-- A core of a half that resets is restaled. -/
theorem core_halvesReset {s : State} {mask p : Nat} (hp : p < 544) (hmask : bit mask (coreHalf p) = true) :
    (halvesReset s mask).core p = (s.core p).restale := by
  have hhalf : coreHalf p = 0 ∨ coreHalf p = 1 := by
    unfold coreHalf
    omega
  unfold halvesReset
  dsimp only
  rcases hhalf with h | h <;> rw [h] at hmask
  · split
    · rw [core_resetHalf, if_neg (by simp [h]), core_resetHalf, if_pos ⟨hp, by simp [h]⟩]
    · rw [core_resetHalf, if_pos ⟨hp, by simp [h]⟩]
  · rw [if_pos hmask, core_resetHalf, if_pos ⟨hp, by simp [h]⟩]
    split
    · rw [core_resetHalf, if_neg (by simp [h])]
    · rfl

/-! ## Cores at the end of jobs (R151, R156) -/

/-- From s to t some cores may have stopped. -/
def CoresStop (s t : State) : Prop := ∀ p, t.core p = s.core p ∨ t.core p = (s.core p).stopped

theorem CoresStop.of_cores {s t : State} (h : t.cores = s.cores) : CoresStop s t := fun p => .inl (core_of_cores h p)

theorem stopped_stopped (c : Core) : c.stopped.stopped = c.stopped := by
  by_cases h : c.st = .running <;> simp [Core.stopped, h]

theorem CoresStop.trans {s t u : State} (h : CoresStop s t) (k : CoresStop t u) : CoresStop s u := by
  intro p
  rcases h p with h | h <;> rcases k p with k | k <;> rw [k, h]
  · exact .inl rfl
  · exact .inr rfl
  · exact .inr rfl
  · exact .inr (stopped_stopped _)

theorem coresStop_foldl {α : Type} (f : State → α → State) (hf : ∀ s a, CoresStop s (f s a)) (l : List α) (s : State) :
    CoresStop s (l.foldl f s) := by
  induction l generalizing s with
  | nil => exact .of_cores rfl
  | cons a l ih => exact (hf s a).trans (ih (f s a))

theorem coresStop_windJob (s : State) (c status : Nat) (j : Job) : CoresStop s (s.windJob c status j) := by
  intro p
  rw [(windJob_fields s c status j).2.2.2 p]
  split
  · exact .inr rfl
  · exact .inl rfl

theorem coresStop_endJob (s : State) (c status : Nat) : CoresStop s (s.endJob c status) := by
  unfold State.endJob
  split
  · exact .of_cores rfl
  · next j _ =>
    dsimp only
    split
    · exact .of_cores rfl
    · split
      · have hdrop (x : Ens) : State.cores { (s.dropJob c).mossIdle with ens := x } = s.cores := (sameWork_mossIdle (s.dropJob c)).cores
        split
        · exact .of_cores ((sameWork_completeEnd ..).cores.trans (hdrop _))
        · exact .of_cores (hdrop _)
      · have hwind : CoresStop s ((s.sendJob c 0x31 (toLe 2 j.params.rank)).windJob c status j) :=
          (CoresStop.of_cores (sameWork_sendJob ..).cores).trans (coresStop_windJob _ c status j)
        refine CoresStop.trans ?_ (.of_cores (sameWork_endRing ..).cores)
        split
        · split
          · exact hwind.trans (.of_cores (sameWork_completeEnd ..).cores)
          · exact hwind
        · exact hwind

theorem coresStop_endHalves (s : State) (mask status : Nat) : CoresStop s (s.endHalves mask status) := by
  refine coresStop_foldl _ (fun u c => ?_) _ s
  split
  · split
    · exact coresStop_endJob u c status
    · exact .of_cores rfl
  · exact .of_cores rfl

/-- Stopping makes no core OFF or RETIRED. -/
theorem CoresStop.stays_live {s t : State} (h : CoresStop s t) {p : Nat} (hoff : (s.core p).st ≠ .off) (hretired : (s.core p).st ≠ .retired) :
    (t.core p).st ≠ .off ∧ (t.core p).st ≠ .retired := by
  rcases h p with h | h <;> rw [h]
  · exact ⟨hoff, hretired⟩
  · unfold Core.stopped
    split
    · exact ⟨by simp, by simp⟩
    · exact ⟨hoff, hretired⟩

/-! ## What each reset leaves -/

section
variable {s : State} {v : W32}

theorem resetHalves_eq (s : State) (mask : Nat) : ∃ x, s.resetHalves mask =
    { halvesReset s mask with boot := { (halvesReset s mask).boot with aligned := false }, ras := x } := ⟨_, rfl⟩

theorem rstCmdCore_resets {p : Nat} (hw : Writable s 0x30000) (hkind : bits v.toNat 2 0 = 3) (hcore : p = bits v.toNat 13 4) (hp : p < 544)
    (hhalt : s.boot.halt = .none) (hready : s.boot.ready = true) (hbusy : s.rst.busy = none) (hrunning : (s.core p).st ≠ .running)
    (hoff : (s.core p).st ≠ .off) (hretired : (s.core p).st ≠ .retired) :
    Answers (.rstCmdCore v) s fun t => t.rst.busy = some ⟨1, 0, p, 3⟩ ∧ (0, p) ∈ t.pwr.round ∧
      ∀ q, t.core q = if q = p then { Core.init with st := .stale, logical := (s.core p).logical } else s.core q := by
  refine ⟨_, congrArg Host.Outcome.next ((rstCmd_of_kind hw hkind).trans
    (writeRstCmd_core hkind hcore hp hhalt hready hbusy hrunning hoff hretired)), rfl, mem_round_of_mem _ (List.mem_singleton_self _), fun q => ?_⟩
  rw [← restale_of_live hoff hretired, ← State.core_setCore]
  exact core_of_cores (enterRound_kept _ _).1 q

theorem rstCmdCore_refused {p : Nat} (hw : Writable s 0x30000) (hkind : bits v.toNat 2 0 = 3) (hcore : p = bits v.toNat 13 4) (hp : p < 544)
    (hhalt : s.boot.halt = .none) (hready : s.boot.ready = true) (hbusy : s.rst.busy = none) (hrunning : (s.core p).st = .running) :
    Answers (.rstCmdCore v) s fun t => t.rst = { s.rst with refused := true } ∧ t.cores = s.cores :=
  ⟨_, congrArg Host.Outcome.next ((rstCmd_of_kind hw hkind).trans (writeRstCmd_refused hkind hcore hp hhalt hready hbusy hrunning)), rfl, rfl⟩

theorem writeRstCmd_half {mask : Nat} (hkind : bits v.toNat 2 0 = 2) (hhalt : s.boot.halt = .none) (hready : s.boot.ready = true)
    (hbusy : s.rst.busy = none) (hmask : mask = if s.split then 2 ^ bits v.toNat 3 3 else 3) :
    s.writeRstCmd v = ((s.endHalves mask 0x0009).resetHalves mask).setReset (if s.split then 2 else 3) mask 0 3 := by
  subst hmask
  simp [State.writeRstCmd, hkind, hhalt, State.halfReset, resetBegins_of_idle hready hbusy, Nat.one_shiftLeft]

theorem rstCmdHalf_resets {mask : Nat} (hw : Writable s 0x30000) (hkind : bits v.toNat 2 0 = 2) (hhalt : s.boot.halt = .none)
    (hready : s.boot.ready = true) (hbusy : s.rst.busy = none) (hmask : mask = if s.split then 2 ^ bits v.toNat 3 3 else 3) :
    Answers (.rstCmdHalf v) s fun t => t.rst.busy = some ⟨if s.split then 2 else 3, mask, 0, 3⟩ ∧ t.boot.aligned = false ∧
      (∀ p, p < 544 → bit mask (coreHalf p) = true → (s.core p).st ≠ .off → (s.core p).st ≠ .retired → (t.core p).st = .stale) ∧
      (∀ c j, c < 16 → s.job c = some j → j.st = .running → j.halves = mask → s.halvesOf c ≠ 0 →
        ∃ k : Job, t.job c = some k ∧ k.st = .ended ∧ k.reason = 0x0009) := by
  have hsome : mask ≠ 0 := by
    rw [hmask]
    split <;> simp
  refine ⟨_, congrArg Host.Outcome.next ((rstCmd_of_kind hw hkind).trans (writeRstCmd_half hkind hhalt hready hbusy hmask)), rfl, rfl,
    fun p hp hhalf hoff hretired => ?core, fun c j hc hj hrunning hhalves hholds => ⟨j.endWith 0x0009, ?job, rfl, rfl⟩⟩
  case core =>
    have hlive := (coresStop_endHalves s mask 0x0009).stays_live hoff hretired
    show ((halvesReset (s.endHalves mask 0x0009) mask).core p).st = .stale
    rw [core_halvesReset hp hhalf, restale_of_live hlive.1 hlive.2]
  case job =>
    show (halvesReset (s.endHalves mask 0x0009) mask).job c = _
    rw [job_of_jobs (halvesReset_fields _ mask).1]
    exact job_endHalves_of_live hc hj (.inl hrunning) (by rw [hhalves, Nat.and_self]; exact hsome) hholds 0x0009

theorem rstCmdDevice_resets (hw : Writable s 0x30000) (hkind : bits v.toNat 2 0 = 4)
    (hhalt : s.boot.halt = .none ∨ ∃ k, s.boot.halt = .fatal k) (hlc : s.fuses.lc ≠ 3) (hpend : s.sec.lcPend = false) :
    Answers (.rstCmdDevice v) s fun t => t.rst.busy = some ⟨5, 3, 0, 3⟩ ∧ t.boot.ready = false ∧ t.boot.firmware = false ∧
      t.boot.halt = (if s.pins.thermtrip = true ∧ s.tripHot = true then .fatal 0x21 else .none) ∧
      (∀ c, t.ring c = RingSet.init) ∧ (∀ p, t.core p = Core.init) ∧ t.glb = Glb.init ∧ t.slices = [] ∧ t.flash = s.flash ∧
      t.fuses = s.fuses ∧ t.pins.latWest = s.pins.selWest ∧ t.pins.latEast = s.pins.selEast := by
  have hwrite : s.writeRstCmd v = s.deviceReset 3 := by simp [State.writeRstCmd, hkind]
  have hreset := deviceReset_of_allowed (cause := 3) hhalt hlc hpend
  obtain ⟨hready, hfirmware, hhot⟩ := hreset.boot
  obtain ⟨hglb, hslices⟩ := hreset.setup
  obtain ⟨hflash, hfuses⟩ := hreset.kept
  refine ⟨_, congrArg Host.Outcome.next ((rstCmd_of_kind hw hkind).trans hwrite), hreset.busy, hready, hfirmware, ?_, hreset.rings, hreset.cores, hglb, hslices,
    hflash, hfuses, congrArg Pins.latWest hreset.pins, congrArg Pins.latEast hreset.pins⟩
  rw [hhot]
  simp only [stillHot, Bool.and_eq_true]

/-! ## A function-level reset (R608, R610) -/

/-- The jobs ended and the halves with a job reset, before the host's side is set up anew. -/
def flrHalves (s : State) : State :=
  let t := { s.endHalves 3 0x0009 with sec := { (s.endHalves 3 0x0009).sec with switch := none } }
  if s.jobHalves = 0 then t else t.resetHalves s.jobHalves

theorem flrHalves_mgt (s : State) : (flrHalves s).mgt = s.mgt := by
  have hends := (steady_endHalves s 3 0x0009).mgt_eq
  unfold flrHalves
  dsimp only
  generalize s.endHalves 3 0x0009 = u at hends
  split
  · exact hends
  · exact (halvesReset_fields _ _).2.1.trans hends

theorem flr_resets (hready : s.boot.ready = true) (hbusy : s.rst.busy = none) :
    Answers .flr s fun t => t.rst.busy = some ⟨4, s.jobHalves, 0, 4⟩ ∧ (∀ c, t.ring c = RingSet.init) ∧ t.glb = Glb.init ∧
      t.mgt.modeCur = s.mgt.modeCur ∧ t.rz.routes = [] ∧ t.sec.view = 0 := by
  have hrun : s.flrReset = (flrHalves s).resetHostSetup.redecide.setReset 4 s.jobHalves 0 4 := by
    rw [State.flrReset, resetBegins_of_idle hready hbusy]
    rfl
  obtain ⟨w, e, hdecided⟩ := redecide_eq (flrHalves s).resetHostSetup
  refine ⟨_, congrArg Host.Outcome.next hrun, ?_⟩
  have hmgt := flrHalves_mgt s
  rw [hdecided]
  generalize flrHalves s = u at hmgt
  have hmode : u.mgt.modeCur = s.mgt.modeCur := congrArg Mgt.modeCur hmgt
  exact ⟨rfl, fun _ => rfl, rfl, hmode, rfl, rfl⟩

end

/-! ## The end of a reset (R611, R624, R626, R633) -/

/-- From s to t the boot and RST_STATUS stay. -/
def SameReset (s t : State) : Prop := t.boot = s.boot ∧ t.rst = s.rst

theorem SameReset.refl (s : State) : SameReset s s := ⟨rfl, rfl⟩

theorem SameReset.trans {s t u : State} (h : SameReset s t) (k : SameReset t u) : SameReset s u := ⟨k.1.trans h.1, k.2.trans h.2⟩

theorem sameReset_setHalf (s : State) (h : Nat) (x : Half) : SameReset s (s.setHalf h x) := ⟨State.setHalf_boot .., State.setHalf_rst ..⟩

theorem sameReset_checkDegraded (s : State) (h : Nat) : SameReset s (s.checkDegraded h) := by
  unfold State.checkDegraded
  dsimp only
  split
  · exact (sameReset_setHalf ..).trans ⟨State.postDev_boot .., State.postDev_rst ..⟩
  · exact sameReset_setHalf ..

theorem sameReset_testWords (s : State) (mask : Nat) (failed : List Nat) : SameReset s (s.testWords mask failed) := by
  unfold State.testWords
  dsimp only
  refine SameReset.trans ?_ (sameReset_checkDegraded ..)
  refine SameReset.trans ?_ (sameReset_setHalf ..)
  refine SameReset.trans ?_ (sameReset_checkDegraded ..)
  refine SameReset.trans ?_ (sameReset_setHalf ..)
  exact ⟨rfl, rfl⟩

theorem sameReset_beginScrub (s : State) (mask reason : Nat) : SameReset s (s.beginScrub mask reason) := by
  unfold State.beginScrub
  exact ⟨(steady_pauseRings _).boot_eq, (steady_pauseRings _).rst_eq⟩

theorem sameReset_restartScrub (s : State) : SameReset s s.restartScrub := by
  unfold State.restartScrub
  split
  · exact ⟨rfl, rfl⟩
  · split
    · exact sameReset_beginScrub ..
    · exact .refl s

/-- A reset that ends posts RESET_DONE and is counted. -/
theorem endReset_fields (s : State) (r : ResetRun) :
    (∃ e ∈ (s.endReset r).host.held, e.code = 0x0C05 ∧ e.payload = toLe 1 r.kind ++ toLe 1 r.halves ++ toLe 2 r.core) ∧
      (s.endReset r).rst = { s.rst.counted r.kind with busy := none, lastKind := r.kind, lastCause := r.cause, lastTsc := s.tsc } ∧
      (s.endReset r).boot = s.boot := by
  unfold State.endReset
  dsimp only
  split
  · exact ⟨⟨_, List.mem_append_right _ (List.mem_singleton_self _), rfl, rfl⟩, rfl, rfl⟩
  · exact ⟨⟨_, List.mem_append_right _ (List.mem_singleton_self _), rfl, rfl⟩, rfl, rfl⟩

section
variable {s : State} {failed : List Nat}

/-- What precedes the end of a reset narrower than a device reset. -/
def wordsTested (s : State) (failed : List Nat) (r : ResetRun) : State :=
  if r.kind = 1 then s else (s.testWords r.halves failed).restartScrub

theorem sameReset_wordsTested (s : State) (failed : List Nat) (r : ResetRun) : SameReset s (wordsTested s failed r) := by
  unfold wordsTested
  split
  · exact .refl s
  · exact (sameReset_testWords ..).trans (sameReset_restartScrub _)

/-- The reset has ended; after one of a half or a job the select registers are zero. -/
def partialEnded (s : State) (failed : List Nat) (r : ResetRun) : State :=
  if 2 ≤ r.kind ∧ r.halves ≠ 0 then ((wordsTested s failed r).endReset r).resetHalfSelects else (wordsTested s failed r).endReset r

theorem partialEnded_fields (s : State) (failed : List Nat) (r : ResetRun) :
    (∃ e ∈ (partialEnded s failed r).host.held, e.code = 0x0C05 ∧ e.payload = toLe 1 r.kind ++ toLe 1 r.halves ++ toLe 2 r.core) ∧
      (partialEnded s failed r).rst =
        { s.rst.counted r.kind with busy := none, lastKind := r.kind, lastCause := r.cause, lastTsc := s.tsc } := by
  obtain ⟨hboot, hrst⟩ := sameReset_wordsTested s failed r
  have htsc : (wordsTested s failed r).tsc = s.tsc := congrArg (fun b : Boot => b.edges / 6 % 2 ^ 64) hboot
  obtain ⟨hevent, hended, -⟩ := endReset_fields (wordsTested s failed r) r
  rw [hrst, htsc] at hended
  unfold partialEnded
  split <;> exact ⟨hevent, hended⟩

theorem resetComplete_ends {r : ResetRun} (hready : s.boot.ready = true) (hbusy : s.rst.busy = some r) (haligned : s.boot.aligned = true)
    (hround : s.pwr.round = []) (hcause : r.cause ≠ 5) :
    Answers (.resetComplete failed) s fun t => ∃ (u : State) (e : Event), t = u.regrowPoll.switchStep ∧ e ∈ u.host.held ∧ e.code = 0x0C05 ∧
      e.payload = toLe 1 r.kind ++ toLe 1 r.halves ++ toLe 2 r.core ∧
      u.rst = { s.rst.counted r.kind with busy := none, lastKind := r.kind, lastCause := r.cause, lastTsc := s.tsc } := by
  obtain ⟨⟨e, hheld, hcode, hpayload⟩, hended⟩ := partialEnded_fields s failed r
  refine ⟨(partialEnded s failed r).regrowPoll.switchStep, ?_, partialEnded s failed r, e, rfl, hheld, hcode, hpayload, hended⟩
  have hend : s.endPartial failed r = (partialEnded s failed r).regrowPoll.switchStep := by
    unfold State.endPartial
    dsimp only
    rw [if_neg hcause]
    rfl
  show execResetComplete failed s = _
  simp [execResetComplete, hready, hbusy, haligned, hround, hend]

/-- The device is READY, before the reset that the boot was ends. -/
def booted (s : State) (failed : List Nat) : State :=
  { s.testWords 3 failed with boot := { (s.testWords 3 failed).boot with ready := true, wasReady := true, rejoined := true } }

theorem resetComplete_boots (hready : s.boot.ready = false) (hdone : s.bootDone = true) :
    Answers (.resetComplete failed) s fun t => ∃ (u : State) (e : Event),
      (t = u ∨ t = u.regrowPoll) ∧ u.boot.ready = true ∧ u.rst.busy = none ∧ e ∈ u.host.held ∧ e.code = 0x0C05 := by
  have hexec : exec (.resetComplete failed) s = .next (s.endBoot failed) := by
    show execResetComplete failed s = _
    simp [execResetComplete, hready, hdone]
  have hend (r : ResetRun) : ∃ e : Event, ((booted s failed).endReset r).boot.ready = true ∧ ((booted s failed).endReset r).rst.busy = none ∧
      e ∈ ((booted s failed).endReset r).host.held ∧ e.code = 0x0C05 := by
    obtain ⟨⟨e, hheld, hcode, -⟩, hrst, hboot⟩ := endReset_fields (booted s failed) r
    exact ⟨e, congrArg Boot.ready hboot, congrArg Rst.busy hrst, hheld, hcode⟩
  refine ⟨_, hexec, ?_⟩
  unfold State.endBoot
  dsimp only
  split
  · next r _ =>
    obtain ⟨e, he⟩ := hend r
    exact ⟨_, e, .inr rfl, he⟩
  · obtain ⟨e, he⟩ := hend ⟨6, 3, 0, 1⟩
    exact ⟨_, e, .inl rfl, he⟩

end

/-- Settles O50: each scope by what its reset leaves, and the end of a reset by what `endReset` writes and posts. -/
theorem resetCommandsComplete : Obligations.ResetCommandsComplete := by
  intro s v
  refine ⟨fun p => rstCmdCore_resets, fun p => rstCmdCore_refused, fun mask => rstCmdHalf_resets, rstCmdDevice_resets, flr_resets,
    fun hgood => ⟨s.coldReset, ?cold, rfl, rfl, rfl, rfl, rfl, rfl, rfl, rfl, rfl, rfl, rfl⟩, fun r failed => resetComplete_ends,
    fun failed => resetComplete_boots⟩
  case cold =>
    show execPwrgoodFall s = _
    rw [execPwrgoodFall, if_pos hgood]

end Sys2Proof.Slice0

/-!
PROOFS. Heat, power and throttling (R539, R599, R600, R630, R661, R695, R696, R700): the statement O54.
-/
namespace Sys2Proof.Slice0
open Sys2Proof Sys2Proof.Machine

variable {s : State} {h : Nat}

/-! ## One half replaced -/

theorem half_setHalf_same (s : State) (h : Nat) (x : Half) : (s.setHalf h x).half h = x := by
  unfold State.setHalf State.half
  split <;> rfl

theorem half_setHalf_other (s : State) (hh : h < 2) (x : Half) : (s.setHalf h x).half (1 - h) = s.half (1 - h) := by
  interval_cases h <;> rfl

/-! ## THERMTRIP_SENSE (R630, R695, R698) -/

theorem abandonDump_dmp_st (s : State) : s.abandonDump.dmp.st ≠ 1 := by
  unfold State.abandonDump
  split
  · exact (by decide : (3 : Nat) ≠ 1)
  · assumption

/-- A trip temperature noted, with THERMTRIP_N and the alert. -/
def tripNoted (s : State) (n temp : Nat) : State :=
  State.raiseAlert { s with tel := { s.tel with now := s.tel.now.set n temp }, pins := { s.pins with thermtrip := true } } 1

/-- The state in which a trip temperature makes the device fatal: the dump is abandoned and the event posted. -/
def tripped (s : State) (n temp : Nat) : State :=
  (tripNoted s n temp).abandonDump.postDev (halfSource (n / 8)) 0x0A06 0x0A03 (toLe 1 (n / 8) ++ toLe 1 temp)

theorem exec_thermtripSense_of_hot {n temp : Nat} (hn : n < 16) (hhot : 115 ≤ temp) (hfirst : s.pins.thermtrip = false)
    (hgood : s.pins.pwrgood = true) (hhalt : s.boot.halt ≠ .refclk) :
    exec (.thermtripSense n temp) s = .next ((tripped s n temp).deviceFatal (halfSource (n / 8)) 0x21 0x0A03 0) := by
  refine (noUnit_of (by simpa using hn) _).trans (congrArg Host.Outcome.next ?_)
  rw [if_neg (by simp [hhot, hfirst, hgood, hhalt])]
  rfl

theorem tripped_fields (s : State) (n temp : Nat) : ∃ e : Event, (tripped s n temp).pins.thermtrip = true ∧
    (tripped s n temp).tel.now = s.tel.now.set n temp ∧ (tripped s n temp).dmp.st ≠ 1 ∧ (tripped s n temp).jobs = s.jobs ∧
    e ∈ (tripped s n temp).host.held ∧ e.code = 0x0A06 ∧ e.payload = toLe 1 (n / 8) ++ toLe 1 temp := by
  obtain ⟨held, setAt, dmp, habandon⟩ := abandonDump_eq (tripNoted s n temp)
  have hst := abandonDump_dmp_st (tripNoted s n temp)
  rw [tripped, habandon]
  rw [habandon] at hst
  exact ⟨_, rfl, rfl, hst, rfl, List.mem_append_right _ (List.mem_singleton_self _), rfl, rfl⟩

theorem thermtripSense_cool {n temp : Nat} (hn : n < 16) (hcool : temp < 115) :
    exec (.thermtripSense n temp) s = .next { s with tel := { s.tel with now := s.tel.now.set n temp } } := by
  refine (noUnit_of (by simpa using hn) _).trans (congrArg Host.Outcome.next ?_)
  simp [hcool]

/-! ## The throttle ticks (R599) -/

section
variable {temps : List Nat} (hh : h < 2) (hhalt : s.boot.halt = .none)
include hh hhalt

/-- The readings of a half's sensors noted. -/
def sensed (s : State) (h : Nat) (temps : List Nat) : State := { s with tel := { s.tel with now := putTemps s.tel.now h temps } }

theorem exec_thermalThrottleTick : exec (.thermalThrottleTick h temps) s = .next (
    if temps.any (fun t => decide (s.pwr.tThrottle ≤ t)) then
      ((sensed s h temps).setHalf h { s.half h with therm := Nat.min 8 ((s.half h).therm + 1) }).redecide
    else if temps.all (fun t => decide (t + 5 < s.pwr.tThrottle)) then
      ((sensed s h temps).setHalf h { s.half h with therm := (s.half h).therm - 1 }).redecide
    else sensed s h temps) := by
  refine (noUnit_of (by simpa using hh) _).trans (congrArg Host.Outcome.next ?_)
  rw [if_neg (by simp [hhalt])]
  rfl

theorem thermalThrottleTick_rises (hhot : ∃ t ∈ temps, s.pwr.tThrottle ≤ t) : Answers (.thermalThrottleTick h temps) s fun t =>
    ∃ u : State, t = u.redecide ∧ (u.half h).therm = Nat.min 8 ((s.half h).therm + 1) ∧ u.half (1 - h) = s.half (1 - h) := by
  refine ⟨_, exec_thermalThrottleTick hh hhalt, _, if_pos (by simpa using hhot), ?_, half_setHalf_other _ hh _⟩
  rw [half_setHalf_same]

theorem thermalThrottleTick_falls (hcool : ∀ t ∈ temps, t + 5 < s.pwr.tThrottle) : Answers (.thermalThrottleTick h temps) s fun t =>
    ∃ u : State, t = u.redecide ∧ (u.half h).therm = (s.half h).therm - 1 ∧ u.half (1 - h) = s.half (1 - h) := by
  have hnone : ¬ temps.any (fun t => decide (s.pwr.tThrottle ≤ t)) = true := by
    simp only [List.any_eq_true, decide_eq_true_eq, not_exists, not_and]
    intro t ht
    have := hcool t ht
    omega
  refine ⟨_, exec_thermalThrottleTick hh hhalt, _, (if_neg hnone).trans (if_pos (by simpa using hcool)), ?_, half_setHalf_other _ hh _⟩
  rw [half_setHalf_same]

theorem thermalThrottleTick_holds (hbelow : ∀ t ∈ temps, t < s.pwr.tThrottle) (hnear : ∃ t ∈ temps, s.pwr.tThrottle ≤ t + 5) :
    Answers (.thermalThrottleTick h temps) s fun t => { t with tel := s.tel } = s := by
  have hnone : ¬ temps.any (fun t => decide (s.pwr.tThrottle ≤ t)) = true := by
    simpa only [List.any_eq_true, decide_eq_true_eq, not_exists, not_and, not_le] using hbelow
  have hsome : ¬ temps.all (fun t => decide (t + 5 < s.pwr.tThrottle)) = true := by
    simpa only [List.all_eq_true, decide_eq_true_eq, not_forall, not_lt, exists_prop] using hnear
  refine ⟨_, exec_thermalThrottleTick hh hhalt, ?_⟩
  rw [if_neg hnone, if_neg hsome]
  rfl

section
variable {w n : Nat} (hn : n = if s.split then 2 * w else w)
include hn

theorem exec_powerThrottleTick : exec (.powerThrottleTick h w) s = .next (
    if s.pwr.limit < n then (s.setHalf h { s.half h with power := Nat.min 8 ((s.half h).power + 1) }).redecide
    else if 100 * n < 95 * s.pwr.limit then (s.setHalf h { s.half h with power := (s.half h).power - 1 }).redecide
    else s) := by
  subst hn
  refine (noUnit_of (by simpa using hh) _).trans (congrArg Host.Outcome.next ?_)
  rw [if_neg (by simp [hhalt])]

theorem powerThrottleTick_rises (hover : s.pwr.limit < n) : Answers (.powerThrottleTick h w) s fun t =>
    ∃ u : State, t = u.redecide ∧ (u.half h).power = Nat.min 8 ((s.half h).power + 1) ∧ u.half (1 - h) = s.half (1 - h) := by
  refine ⟨_, exec_powerThrottleTick hh hhalt hn, _, if_pos hover, ?_, half_setHalf_other _ hh _⟩
  rw [half_setHalf_same]

theorem powerThrottleTick_falls (hunder : 100 * n < 95 * s.pwr.limit) : Answers (.powerThrottleTick h w) s fun t =>
    ∃ u : State, t = u.redecide ∧ (u.half h).power = (s.half h).power - 1 ∧ u.half (1 - h) = s.half (1 - h) := by
  have hnot : ¬ s.pwr.limit < n := by omega
  refine ⟨_, exec_powerThrottleTick hh hhalt hn, _, (if_neg hnot).trans (if_pos hunder), ?_, half_setHalf_other _ hh _⟩
  rw [half_setHalf_same]

theorem powerThrottleTick_holds (hlimit : n ≤ s.pwr.limit) (hnear : 95 * s.pwr.limit ≤ 100 * n) :
    exec (.powerThrottleTick h w) s = .next s := by
  rw [exec_powerThrottleTick hh hhalt hn, if_neg (by omega), if_neg (by omega)]

end

end

/-! ## THROTTLE_LEVEL_APPLY (R599, R600) -/

/-- A decided level that is due takes effect: the half holds it, and nothing of the other half or of the clock changes. -/
theorem applyLevel_of_due {l e : Nat} {rest : List (Nat × Nat)} (hnext : (s.half h).next = (l, e) :: rest) (haligned : s.boot.aligned = true)
    (hdue : e ≤ s.boot.edges) (hslot : (s.half h).slot s.boot.edges = 0) :
    ∃ (u : State) (x : Half), s.applyLevel h = u.setHalf h x ∧ x.level = l ∧ x.next = rest ∧ u.west = s.west ∧ u.east = s.east ∧
      u.boot = s.boot := by
  have hnow : (s.boot.aligned && decide (e ≤ s.boot.edges) && (s.half h).slot s.boot.edges == 0) = true := by simp [haligned, hdue, hslot]
  unfold State.applyLevel
  simp only [hnext, hnow, if_true]
  generalize hu : (if (s.half h).level = 0 ∧ 0 < l then s.raiseAlert 4 else s) = u
  have hsame : u.west = s.west ∧ u.east = s.east ∧ u.boot = s.boot := by
    rw [← hu]
    split <;> exact ⟨rfl, rfl, rfl⟩
  split
  · exact ⟨u, _, rfl, rfl, rfl, hsame⟩
  · exact ⟨u, _, rfl, rfl, rfl, hsame⟩

theorem throttleLevelApply_split {l e : Nat} {rest : List (Nat × Nat)} (hh : h < 2) (hsplit : s.split = true)
    (hnext : (s.half h).next = (l, e) :: rest) (haligned : s.boot.aligned = true) (hdue : e ≤ s.boot.edges)
    (hslot : (s.half h).slot s.boot.edges = 0) :
    Answers (.throttleLevelApply h) s fun t => (t.half h).level = l ∧ (t.half h).next = rest ∧ t.half (1 - h) = s.half (1 - h) := by
  obtain ⟨u, x, happly, hlevel, hrest, hwest, heast, -⟩ := applyLevel_of_due hnext haligned hdue hslot
  have hother : u.half (1 - h) = s.half (1 - h) := by rw [State.half, hwest, heast, State.half]
  refine ⟨_, (noUnit_of (by simpa using hh) _).trans (congrArg _ ((if_pos hsplit).trans happly)), ?_⟩
  dsimp only
  rw [half_setHalf_same, half_setHalf_other u hh]
  exact ⟨hlevel, hrest, hother⟩

theorem throttleLevelApply_joined {l e : Nat} (hh : h < 2) (hsplit : s.split = false)
    (hnext : ∀ n, n < 2 → (s.half n).next = [(l, e)] ∧ (s.half n).slot s.boot.edges = 0) (haligned : s.boot.aligned = true)
    (hdue : e ≤ s.boot.edges) :
    Answers (.throttleLevelApply h) s fun t => ∀ n, n < 2 → (t.half n).level = l ∧ (t.half n).next = [] := by
  obtain ⟨u, x, happly, hlevel, hrest, -, heast, hboot⟩ := applyLevel_of_due (hnext 0 (by decide)).1 haligned hdue (hnext 0 (by decide)).2
  have hhalf : (u.setHalf 0 x).half 1 = s.half 1 := heast
  have hclock : (u.setHalf 0 x).boot = s.boot := hboot
  obtain ⟨hnextEast, hslotEast⟩ := hnext 1 (by decide)
  rw [← hhalf] at hnextEast
  rw [← hhalf, ← hclock] at hslotEast
  obtain ⟨v, y, kapply, klevel, krest, kwest, -, -⟩ := applyLevel_of_due hnextEast (by rw [hclock, haligned]) (by rwa [hclock]) hslotEast
  have hrun : (if s.split then s.applyLevel h else (s.applyLevel 0).applyLevel 1) = v.setHalf 1 y := by
    rw [if_neg (by simp [hsplit]), happly, kapply]
  refine ⟨_, (noUnit_of (by simpa using hh) _).trans (congrArg _ hrun), fun n hn => ?_⟩
  interval_cases n
  · have hzero : (v.setHalf 1 y).half 0 = x := kwest
    rw [hzero]
    exact ⟨hlevel, hrest⟩
  · rw [half_setHalf_same]
    exact ⟨klevel, krest⟩

/-- Settles O54: each tick by where the readings lie, and a decided level by its frame boundary. -/
theorem throttleEventsComplete : Obligations.ThrottleEventsComplete := by
  intro s h hh
  refine ⟨fun n temp hn hhot hfirst hgood hhalt => ?trip, fun n temp => thermtripSense_cool, fun b hfirst => ?edge,
    fun temps hhalt => thermalThrottleTick_rises hh hhalt, fun temps hhalt _ => thermalThrottleTick_falls hh hhalt,
    fun temps hhalt => thermalThrottleTick_holds hh hhalt,
    fun w n hhalt hn => ⟨powerThrottleTick_rises hh hhalt hn, powerThrottleTick_falls hh hhalt hn, powerThrottleTick_holds hh hhalt hn⟩,
    fun l e rest => throttleLevelApply_split hh, fun l e => throttleLevelApply_joined hh, fun temps d w e hscrub hhalt => ?update,
    fun temps d w e hstops => ?keep⟩
  case trip =>
    obtain ⟨e, he⟩ := tripped_fields s n temp
    exact ⟨_, exec_thermtripSense_of_hot hn hhot hfirst hgood hhalt, tripped s n temp, e, rfl, he⟩
  case edge =>
    show execThrottleNEdge b s = _
    simp [execThrottleNEdge, hfirst]
  case update =>
    show execTelUpdate temps d w e s = _
    simp [execTelUpdate, hscrub, hhalt]
  case keep =>
    show execTelUpdate temps d w e s = _
    rcases hstops with h | h <;> simp [execTelUpdate, h]

end Sys2Proof.Slice0

/-!
PROOFS. Power domains, rejoin rounds and heartbeats (R602 to R605, R617, R628, R636): the statement O55.
-/
namespace Sys2Proof.Slice0
open Sys2Proof Sys2Proof.Machine

variable {s : State}

/-! ## A domain that reaches ON (R602, R604) -/

/-- Domain d noted as ON and reported, before its units follow. -/
def switchedOn (s : State) (d : Nat) : State :=
  State.postDomain { s with pwr := { s.pwr with on := s.pwr.on ||| 2 ^ d, rising := s.pwr.rising.filter (· != d) } } d 1

theorem switchedOn_fields (s : State) (d : Nat) :
    (switchedOn s d).pwr = { s.pwr with on := s.pwr.on ||| 2 ^ d, rising := s.pwr.rising.filter (· != d) } ∧
      (switchedOn s d).cores = s.cores ∧ (switchedOn s d).ras = s.ras ∧ (switchedOn s d).lpx = s.lpx := ⟨rfl, rfl, rfl, rfl⟩

/-- The same domains are ON and power. -/
def SamePower (s t : State) : Prop := t.pwr.on = s.pwr.on ∧ t.pwr.rising = s.pwr.rising

theorem SamePower.of_pwr {t : State} (h : t.pwr = s.pwr) : SamePower s t := ⟨congrArg Pwr.on h, congrArg Pwr.rising h⟩

theorem SamePower.trans {t u : State} (h : SamePower s t) (k : SamePower t u) : SamePower s u := ⟨k.1.trans h.1, k.2.trans h.2⟩

theorem samePower_enterRound (s : State) (us : List (Nat × Nat)) : SamePower s (s.enterRound us) := by
  unfold State.enterRound
  split <;> exact ⟨rfl, rfl⟩

/-- The cores of domain d once it is ON: STALE, or RETIRED where the sparing map excludes them. -/
def coresOn (s : State) (d : Nat) : State :=
  s.onCores (fun p => coreDomain p == d) fun p _ =>
    { Core.init with st := if s.ras.excludes 0 p then .retired else .stale, logical := s.ras.logicalOf p }

theorem domainOn_of_cores {d : Nat} (hd : 3 ≤ d ∧ d ≤ 10) : s.domainOn d = (coresOn (switchedOn s d) d).enterRound
    (((domainCores d).filter fun p => !s.ras.excludes 0 p).map fun p => (0, p)) := by
  unfold State.domainOn
  dsimp only
  rw [← switchedOn, if_pos hd]
  rfl

theorem portWork_portsUp (s : State) (d : Nat) : PortWork s (s.portsUp d) := by
  refine portWork_foldl _ (fun u i => ?_) _ s
  dsimp only
  split
  · exact portWork_startTraining ..
  · exact .refl u

/-- The controllers of PD15 or PD16 that are OFF begin to train. -/
def lpxUp (s : State) (d : Nat) : State :=
  (List.range 16).foldl (fun (s : State) i =>
    let k := 16 * (d - 15) + i
    if (s.lpxCtrl k).st = 0 then s.setLpx k { s.lpxCtrl k with st := 1 } else s) s

theorem domainOn_of_lpx {d : Nat} (hd : d = 15 ∨ d = 16) : s.domainOn d = lpxUp (switchedOn s d) d := by
  unfold State.domainOn
  dsimp only
  rw [← switchedOn, if_neg (by omega), if_neg (by omega), if_pos hd]
  rfl

theorem samePower_domainOn (s : State) (d : Nat) : SamePower (switchedOn s d) (s.domainOn d) := by
  by_cases hcores : 3 ≤ d ∧ d ≤ 10
  · rw [domainOn_of_cores hcores]
    exact (SamePower.of_pwr (State.onCores_pwr ..)).trans (samePower_enterRound (coresOn (switchedOn s d) d) _)
  · by_cases hlpx : d = 15 ∨ d = 16
    · rw [domainOn_of_lpx hlpx]
      refine .of_pwr (foldl_pwr _ _ _ fun u i => ?_)
      dsimp only
      split
      · exact State.setLpx_pwr ..
      · rfl
    · unfold State.domainOn
      dsimp only
      rw [← switchedOn, if_neg hcores, if_neg hlpx]
      split
      · exact samePower_enterRound ..
      · split
        · exact .of_pwr (portWork_portsUp ..).pwr_eq
        · exact .of_pwr rfl

theorem lpxCtrl_lpxUp (s : State) (d n k : Nat) :
    ((List.range n).foldl (fun (s : State) i =>
      let k := 16 * (d - 15) + i
      if (s.lpxCtrl k).st = 0 then s.setLpx k { s.lpxCtrl k with st := 1 } else s) s).lpxCtrl k =
      if 16 * (d - 15) ≤ k ∧ k < 16 * (d - 15) + n ∧ (s.lpxCtrl k).st = 0 then { s.lpxCtrl k with st := 1 } else s.lpxCtrl k := by
  have hstep (u : State) (n : Nat) : (if (u.lpxCtrl (16 * (d - 15) + n)).st = 0 then
        u.setLpx (16 * (d - 15) + n) { u.lpxCtrl (16 * (d - 15) + n) with st := 1 } else u).lpxCtrl k =
      if k = 16 * (d - 15) + n ∧ (u.lpxCtrl k).st = 0 then { u.lpxCtrl k with st := 1 } else u.lpxCtrl k := by
    by_cases hk : k = 16 * (d - 15) + n
    · subst hk
      split <;> simp [*]
    · split <;> simp [hk]
  induction n with
  | zero => exact (if_neg (by omega)).symm
  | succ n ih =>
    rw [List.range_succ, List.foldl_append]
    refine (hstep _ n).trans ?_
    rw [ih]
    by_cases hk : k = 16 * (d - 15) + n
    · rw [if_neg (by omega : ¬ (16 * (d - 15) ≤ k ∧ k < 16 * (d - 15) + n ∧ (s.lpxCtrl k).st = 0))]
      exact if_congr (by omega) rfl rfl
    · rw [if_neg (by simp [hk])]
      exact if_congr (by omega) rfl rfl

theorem testBit_or_two_pow (n d : Nat) : (n ||| 2 ^ d).testBit d = true := by simp [Nat.testBit_or, Nat.testBit_two_pow_self]

section
variable {d : Nat} (hd : d < 20) (hrising : d ∈ s.pwr.rising)
include hd hrising

theorem exec_domainPowerOn : exec (.domainPowerOn d) s = .next (s.domainOn d) := by
  refine (noUnit_of (by simpa using hd) _).trans (congrArg Host.Outcome.next ?_)
  rw [if_pos (by simpa using hrising)]

theorem domainPowerOn_is_on : Answers (.domainPowerOn d) s fun t => t.isOn d = true ∧ d ∉ t.pwr.rising := by
  refine ⟨_, exec_domainPowerOn hd hrising, ?_⟩
  obtain ⟨hon, hpowers⟩ := samePower_domainOn s d
  refine ⟨?_, ?_⟩
  · rw [State.isOn, hon]
    exact testBit_or_two_pow ..
  · rw [hpowers]
    simp [switchedOn_fields]

theorem domainPowerOn_cores (hcores : 3 ≤ d ∧ d ≤ 10) : Answers (.domainPowerOn d) s fun t => ∀ p, p < 544 →
    (coreDomain p = d → (t.core p).st = (if s.ras.excludes 0 p then .retired else .stale) ∧
      (s.ras.excludes 0 p = false → (0, p) ∈ t.pwr.round)) ∧ (coreDomain p ≠ d → t.core p = s.core p) := by
  refine ⟨_, exec_domainPowerOn hd hrising, fun p hp => ?_⟩
  have hcore : (s.domainOn d).core p = (coresOn (switchedOn s d) d).core p := by
    rw [domainOn_of_cores hcores]
    exact core_of_cores (enterRound_kept ..).1 p
  have hon : (coresOn (switchedOn s d) d).core p = if p < 544 ∧ (coreDomain p == d) = true then
      { Core.init with st := if s.ras.excludes 0 p then .retired else .stale, logical := s.ras.logicalOf p } else s.core p :=
    core_onCores ..
  refine ⟨fun hin => ⟨?_, fun hkept => ?_⟩, fun hout => ?_⟩
  · rw [hcore, hon, if_pos ⟨hp, by simpa using hin⟩]
  · rw [domainOn_of_cores hcores]
    refine mem_round_of_mem _ (List.mem_map.2 ⟨p, List.mem_filter.2 ⟨?_, by simp [hkept]⟩, rfl⟩)
    exact List.mem_filter.2 ⟨List.mem_range.2 hp, by simpa using hin⟩
  · rw [hcore, hon, if_neg (by simp [hout])]

theorem domainPowerOn_lpx (hlpx : d = 15 ∨ d = 16) : Answers (.domainPowerOn d) s fun t => ∀ k, k < 32 →
    (t.lpxCtrl k).st = if k / 16 = d - 15 ∧ (s.lpxCtrl k).st = 0 then 1 else (s.lpxCtrl k).st := by
  refine ⟨_, exec_domainPowerOn hd hrising, fun k hk => ?_⟩
  have hctrl : (switchedOn s d).lpxCtrl k = s.lpxCtrl k := rfl
  rw [domainOn_of_lpx hlpx, lpxUp, lpxCtrl_lpxUp, hctrl]
  by_cases hst : (s.lpxCtrl k).st = 0
  · by_cases hin : k / 16 = d - 15
    · rw [if_pos ⟨by omega, by omega, hst⟩, if_pos ⟨hin, hst⟩]
    · rw [if_neg (by omega), if_neg (by simp [hin])]
  · simp [hst]

end

/-! ## A domain that switches off idle (R602) -/

theorem postDomain_cores (s : State) (d on : Nat) : (s.postDomain d on).cores = s.cores := State.postDev_cores ..

theorem domainOff_of_cores {d : Nat} (hcores : 3 ≤ d ∧ d ≤ 10) (hon : s.isOn d = true) : s.domainOff d = State.postDomain
    (State.onCores { s with pwr := { s.pwr with on := s.pwr.on - 2 ^ d } } (fun p => coreDomain p == d) fun _ c => c.powerOff) d 0 := by
  unfold State.domainOff
  rw [hon]
  dsimp only
  rw [if_neg (by decide), if_pos hcores]

theorem idleDomain_cases {d : Nat} (hidle : s.idleDomain d = true) : s.isOn d = true ∧ (3 ≤ d ∧ d ≤ 10 ∨ d = 15 ∨ d = 16) := by
  simp only [State.idleDomain, Bool.and_eq_true] at hidle
  obtain ⟨⟨⟨-, hon⟩, -⟩, hwhich⟩ := hidle
  refine ⟨hon, ?_⟩
  by_contra hnone
  rw [not_or] at hnone
  rw [if_neg hnone.1, if_neg hnone.2] at hwhich
  exact absurd hwhich (by decide)

theorem coreDomain_le {p : Nat} (hp : p < 544) : coreDomain p ≤ 10 := by
  unfold coreDomain coreHalf
  omega

theorem domainIdleOff_switches {d : Nat} (hd : d < 20) (hidle : s.idleDomain d = true) : Answers (.domainIdleOff d) s fun t =>
    t.isOn d = false ∧ ∀ p, p < 544 → coreDomain p = d → (t.core p).st = .off ∧ (0, p) ∉ t.pwr.round := by
  refine ⟨_, noUnit_of (by simpa using hd) _, ?_⟩
  rw [if_pos hidle]
  refine ⟨isOn_domainOff s d, fun p hp hin => ⟨?_, fun hround => ?_⟩⟩
  · obtain ⟨hon, hwhich⟩ := idleDomain_cases hidle
    have hcores : 3 ≤ d ∧ d ≤ 10 := by
      have := coreDomain_le hp
      omega
    show ((s.domainOff d).core p).st = .off
    have hoff : (s.domainOff d).core p = (s.core p).powerOff := by
      rw [domainOff_of_cores hcores hon, core_of_cores (postDomain_cores ..), core_onCores, if_pos ⟨hp, by simp [hin]⟩]
      rfl
    rw [hoff]
    rfl
  · have hfilter := (List.mem_filter.1 hround).2
    simp [hin] at hfilter

/-! ## Rejoin rounds (R604, R605, R636) -/

/-- Unit u once its check has ended: the stores of a core are zero, and a unit that failed is RETIRED. -/
theorem endCheck_units (s : State) (failed : Bool) (u : Nat × Nat) :
    (s.endCheck failed u).cores = (if u.1 = 0 then s.setCore u.2 { Core.init with st := if failed then .retired else .idle } else s).cores ∧
      (s.endCheck failed u).moss = (if u.1 = 0 then s else s.setTiles [u.2] (if failed then 5 else 2)).moss := by
  have hmark (t : State) (m : Mark) (source code status : Nat) (b : List Byte) :
      ((t.mark m).postDev source code status b).cores = t.cores ∧ ((t.mark m).postDev source code status b).moss = t.moss := by
    rw [State.postDev_cores, State.postDev_moss]
    unfold State.mark
    split <;> exact ⟨rfl, rfl⟩
  unfold State.endCheck
  dsimp only
  have hplaced (x : Nat) (c : Core) :
      (if u.1 = 0 then s.setCore u.2 c else s.setTiles [u.2] x).cores = (if u.1 = 0 then s.setCore u.2 c else s).cores ∧
      (if u.1 = 0 then s.setCore u.2 c else s.setTiles [u.2] x).moss = (if u.1 = 0 then s else s.setTiles [u.2] x).moss := by
    split <;> exact ⟨rfl, rfl⟩
  cases failed
  · exact hplaced ..
  · exact ⟨(hmark ..).1.trans (hplaced ..).1, (hmark ..).2.trans (hplaced ..).2⟩

/-- The checks of a round end. -/
def checksEnded (bad : Nat × Nat → Bool) (us : List (Nat × Nat)) (s : State) : State := us.foldl (fun (s : State) u => s.endCheck (bad u) u) s

theorem core_checksEnded (bad : Nat × Nat → Bool) (us : List (Nat × Nat)) (s : State) (p : Nat) : (checksEnded bad us s).core p =
    if (0, p) ∈ us then { Core.init with st := if bad (0, p) then .retired else .idle } else s.core p := by
  induction us generalizing s with
  | nil => rfl
  | cons u us ih =>
    have hcore : (s.endCheck (bad u) u).core p =
        if (0, p) = u then { Core.init with st := if bad (0, p) then .retired else .idle } else s.core p := by
      rw [core_of_cores (endCheck_units ..).1]
      obtain ⟨kind, unit⟩ := u
      by_cases hkind : kind = 0
      · subst hkind
        by_cases hunit : p = unit <;> simp [hunit]
      · simp [hkind, Ne.symm hkind]
    refine (ih (s.endCheck (bad u) u)).trans ?_
    rw [hcore]
    by_cases hrest : (0, p) ∈ us <;> by_cases hu : (0, p) = u <;> simp [hrest, hu]

theorem tile_checksEnded (bad : Nat × Nat → Bool) (us : List (Nat × Nat)) (hkinds : ∀ x ∈ us, x.1 < 2) (s : State) (k : Nat) :
    Map.get 0 (checksEnded bad us s).moss.tiles k = if (1, k) ∈ us then (if bad (1, k) then 5 else 2) else Map.get 0 s.moss.tiles k := by
  induction us generalizing s with
  | nil => rfl
  | cons u us ih =>
    have htile : Map.get 0 (s.endCheck (bad u) u).moss.tiles k = if (1, k) = u then (if bad (1, k) then 5 else 2) else Map.get 0 s.moss.tiles k := by
      rw [(endCheck_units ..).2]
      have hkind := hkinds u (List.mem_cons_self ..)
      obtain ⟨kind, unit⟩ := u
      interval_cases kind
      · simp
      · by_cases hunit : k = unit <;> simp [State.setTiles, hunit]
    refine (ih (fun x hx => hkinds x (List.mem_cons_of_mem _ hx)) (s.endCheck (bad u) u)).trans ?_
    rw [htile]
    by_cases hrest : (1, k) ∈ us <;> by_cases hu : (1, k) = u <;> simp [hrest, hu]

/-- REJOIN_ROUND_DONE before the waiting regions are settled. -/
def roundEnded (s : State) (failed : List (Nat × Nat)) (lanes : List Nat) : State :=
  let us := s.pwr.round
  let bad := fun (u : Nat × Nat) => failed.contains u || (u.1 == 0 && lanes.contains u.2)
  let n := (us.filter bad).length
  let s := checksEnded bad us s
  let s := { s with
    pwr := { s.pwr with round := [], running := false, units := us.length % 1024, fails := n % 1024 }
    spg := { s.spg with lanes := us.foldl (fun m (u : Nat × Nat) =>
      if u.1 = 0 then Map.set 0 m u.2 (if lanes.contains u.2 then 2 else 1) else m) s.spg.lanes } }
  s.postDev s.primarySource 0x0C03 0 (toLe 2 us.length ++ toLe 2 n)

theorem exec_rejoinRoundDone {failed : List (Nat × Nat)} {lanes : List Nat} (hround : s.pwr.round ≠ [])
    (haligned : s.boot.aligned = true) :
    exec (.rejoinRoundDone failed lanes) s = .next (roundEnded s failed lanes).remap.settleRegions := by
  have hgo : ¬ (s.pwr.round.isEmpty || !s.boot.aligned) = true := by simp [hround, haligned]
  exact congrArg Host.Outcome.next (if_neg hgo)

theorem core_remap_st (s : State) (p : Nat) : (s.remap.core p).st = (s.core p).st := by
  rw [State.remap, core_onCores]
  split <;> rfl

theorem rejoinRoundDone_settles (failed : List (Nat × Nat)) (lanes : List Nat) (hround : s.pwr.round ≠ [])
    (haligned : s.boot.aligned = true) (hkinds : ∀ x ∈ s.pwr.round, x.1 < 2) :
    Answers (.rejoinRoundDone failed lanes) s fun t => ∃ (u : State) (e : Event), t = u.settleRegions ∧ u.pwr.round = [] ∧
      u.pwr.running = false ∧ e ∈ u.host.held ∧ e.code = 0x0C03 ∧
      (∀ p, (0, p) ∈ s.pwr.round → (u.core p).st = if (0, p) ∈ failed ∨ p ∈ lanes then .retired else .idle) ∧
      ∀ k, (1, k) ∈ s.pwr.round → Map.get 0 u.moss.tiles k = if (1, k) ∈ failed then 5 else 2 := by
  have hpwr : (roundEnded s failed lanes).remap.pwr.round = [] ∧ (roundEnded s failed lanes).remap.pwr.running = false := ⟨rfl, rfl⟩
  have hheld : ∃ e : Event, e ∈ (roundEnded s failed lanes).remap.host.held ∧ e.code = 0x0C03 :=
    ⟨_, List.mem_append_right _ (List.mem_singleton.2 rfl), rfl⟩
  have hcores (p : Nat) : ((roundEnded s failed lanes).remap.core p).st =
      ((checksEnded (fun u => failed.contains u || (u.1 == 0 && lanes.contains u.2)) s.pwr.round s).core p).st := by
    rw [core_remap_st]
    rfl
  have htiles : (roundEnded s failed lanes).remap.moss =
      (checksEnded (fun u => failed.contains u || (u.1 == 0 && lanes.contains u.2)) s.pwr.round s).moss := rfl
  obtain ⟨e, hposted, hcode⟩ := hheld
  refine ⟨_, exec_rejoinRoundDone hround haligned, _, e, rfl, hpwr.1, hpwr.2, hposted, hcode, fun p hp => ?_, fun k hk => ?_⟩
  · rw [hcores, core_checksEnded, if_pos hp]
    simp
  · rw [htiles, tile_checksEnded _ _ hkinds, if_pos hk]
    simp

/-! ## Heartbeats (R617, R628) -/

section
variable {h : Nat} (hh : h < 2)
include hh

theorem heartbeatSend_sends (hctl : s.boot.controllers = true) (hhalt : s.boot.halt = .none)
    (hdue : (s.half h).hbSent = 0 ∨ (s.half h).hbSent + 7500 ≤ (s.half h).nc + 1) : Answers (.heartbeatSend h) s fun t =>
      (t.half h).hbSent = (s.half h).nc + 1 ∧ (t.half h).hbMissed = 0 ∧ t.half (1 - h) = s.half (1 - h) ∧
      ((s.half (1 - h)).hbSent ≠ 0 → t.mgt.hbOk = true) := by
  refine ⟨_, noUnit_of (by simpa using hh) _, ?_⟩
  dsimp only
  rw [if_neg (by simp [hctl, hhalt]; omega)]
  have hsent := half_setHalf_same s h { s.half h with hbSent := (s.half h).nc + 1, hbMissed := 0 }
  have hother := half_setHalf_other s hh { s.half h with hbSent := (s.half h).nc + 1, hbMissed := 0 }
  generalize s.setHalf h _ = u at hsent hother ⊢
  have hfields : (u.half h).hbSent = (s.half h).nc + 1 ∧ (u.half h).hbMissed = 0 := by
    rw [hsent]
    exact ⟨rfl, rfl⟩
  split
  · exact ⟨hfields.1, hfields.2, hother, fun _ => rfl⟩
  · next hboth =>
    refine ⟨hfields.1, hfields.2, hother, fun hpeer => absurd ?_ hboth⟩
    have hmine : (u.half h).hbSent ≠ 0 := by omega
    rw [← hother] at hpeer
    interval_cases h
    · simpa using ⟨hmine, hpeer⟩
    · simpa using ⟨hpeer, hmine⟩

theorem heartbeatSend_early (hsent : (s.half h).hbSent ≠ 0) (hearly : (s.half h).nc + 1 < (s.half h).hbSent + 7500) :
    exec (.heartbeatSend h) s = .next s := by
  refine (noUnit_of (by simpa using hh) _).trans (congrArg Host.Outcome.next ?_)
  exact if_pos (by simp [hsent, hearly])

theorem heartbeatMiss_isFatal (hctl : s.boot.controllers = true) (hhalt : s.boot.halt = .none) :
    Answers (.heartbeatMiss h) s fun t => ∃ u : State, t = u.deviceFatal (halfSource (1 - h)) 0x22 0x0A05 (2 <<< h) ∧
      u.mgt.hbLost = true ∧ u.mgt.hbOk = false ∧ u.jobs = s.jobs ∧ Posts s u 0x0C06 0 (toLe 1 h) := by
  have hgo : ¬ (!s.boot.controllers || s.boot.halt != .none) = true := by simp [hctl, hhalt]
  have hset (x : Half) : (s.setHalf h x).host = s.host ∧ (s.setHalf h x).boot = s.boot ∧ (s.setHalf h x).jobs = s.jobs := by
    unfold State.setHalf
    split <;> exact ⟨rfl, rfl, rfl⟩
  obtain ⟨hhost, hboot, hjobs⟩ := hset { s.half h with hbMissed := 4 }
  refine ⟨_, (noUnit_of (by simpa using hh) _).trans (congrArg Host.Outcome.next (if_neg hgo)), _, rfl, rfl, rfl, hjobs, ?_⟩
  exact posts_postDev hhost hboot ..

end

/-- Settles O55: each of the five rows is evaluated once; a round's end is followed unit by unit (`core_checksEnded`,
`tile_checksEnded`), and a domain that switches is followed to the cores and controllers it feeds. -/
theorem domainEventsComplete : Obligations.DomainEventsComplete := by
  unfold Obligations.DomainEventsComplete
  intro s
  refine ⟨?on, ?cores, ?lpx, ?off, ?stays, ?round, ?send, ?early, ?miss⟩
  case on => exact fun d hd hrising => domainPowerOn_is_on hd hrising
  case cores => exact fun d hlow hhigh hrising => domainPowerOn_cores (by omega) hrising ⟨hlow, hhigh⟩
  case lpx => exact fun d hd hrising => domainPowerOn_lpx (by omega) hrising hd
  case off => exact fun d hd hidle => domainIdleOff_switches hd hidle
  case stays =>
    intro d hd hbusy
    refine (noUnit_of (by simpa using hd) _).trans (congrArg Host.Outcome.next (if_neg ?_))
    simp [hbusy]
  case round => exact fun failed lanes hround haligned _ hkinds => rejoinRoundDone_settles failed lanes hround haligned hkinds
  case send => exact fun h hh hctl hhalt hdue => heartbeatSend_sends hh hctl hhalt hdue
  case early => exact fun h hh hsent hearly => heartbeatSend_early hh hsent hearly
  case miss => exact fun h hh hctl hhalt => heartbeatMiss_isFatal hh hctl hhalt

end Sys2Proof.Slice0

/-!
PROOFS. The ring sets that a cause of the whole device pauses (R462, R552), and the firmware update (R549 to R553, R560, R562): the
statement O47.
-/
namespace Sys2Proof.Slice0
open Sys2Proof Sys2Proof.Machine

variable {s : State}

/-! ## Ring sets that pause together (R462, R552) -/

theorem st_setRingState (s : State) (set st q : Nat) :
    ((s.setRingState set st).ring q).st = if q = set then st else (s.ring q).st := by
  unfold State.setRingState
  dsimp only
  split
  · next hsame =>
    split
    · next hq => rw [hq, hsame]
    · rfl
  · have hring (u : State) : (if (s.ring set).irqEn then u.signal (4 * set + 3) else u).ring q = u.ring q := by
      split <;> rfl
    have hwritten (u : State) : (if st = 0 then u else u.putWriteback set).ring q = u.ring q := by
      split
      · rfl
      · exact ring_putWriteback ..
    rw [hring, hwritten, State.ring_setRing]
    split <;> rfl

/-- A scrub, a mode change or a firmware activation: the causes that pause every ring set. -/
def stopsAll (s : State) : Bool := s.sec.scrub.isSome || s.mgt.changing || s.boot.activating

theorem pauseCause_of_stopsAll (h : stopsAll s = true) (c : Nat) : s.pauseCause c = true := by
  unfold State.pauseCause
  unfold stopsAll at h
  rw [h]
  rfl

theorem Steady.stopsAll_eq {t : State} (h : Steady s t) : stopsAll t = stopsAll s := by
  unfold stopsAll
  rw [h.sec_eq, h.mgt_eq, h.boot_eq]

theorem st_pauseRing (h : stopsAll s = true) (c q : Nat) :
    ((s.pauseRing c).ring q).st = if q = c ∧ (s.ring q).st = 1 then 2 else (s.ring q).st := by
  unfold State.pauseRing
  by_cases hactive : (s.ring c).st = 1
  · rw [if_pos ⟨hactive, pauseCause_of_stopsAll h c⟩, st_setRingState]
    refine if_congr ⟨?_, And.left⟩ rfl rfl
    rintro rfl
    exact ⟨rfl, hactive⟩
  · rw [if_neg (fun hboth => hactive hboth.1), if_neg]
    rintro ⟨rfl, hq⟩
    exact hactive hq

theorem st_pauseRings (h : stopsAll s = true) {c : Nat} (hc : c < 16) :
    (s.pauseRings.ring c).st = if (s.ring c).st = 1 then 2 else (s.ring c).st := by
  have hall (l : List Nat) : ∀ u : State, stopsAll u = true → ((l.foldl (fun (u : State) c => u.pauseRing c) u).ring c).st =
      if c ∈ l ∧ (u.ring c).st = 1 then 2 else (u.ring c).st := by
    induction l with
    | nil => simp
    | cons a l ih =>
      intro u hu
      refine (ih (u.pauseRing a) ((steady_pauseRing u a).stopsAll_eq.trans hu)).trans ?_
      rw [st_pauseRing hu]
      generalize (u.ring c).st = st
      by_cases hactive : st = 1
      · by_cases ha : c = a <;> simp [hactive, ha]
      · simp [hactive]
  refine (hall (List.range 16) s h).trans ?_
  simp [hc]

/-! ## SEC_FW_CMD (R551, R562) -/

/-- An activation that begins, before the ring sets pause. -/
def activating (s : State) : State :=
  { s with
    flash := Memory.write s.flash 0x1000 (BitVec.ofNat 8 (1 - s.sec.slot))
    boot := { s.boot with activating := true }
    sec := { s.sec with fwState := 4, fwStatus := 0, prevSlot := s.sec.slot, prevNumeric := s.sec.fwNumeric, sessions := 0
                        handshakes := 0 } }

section
variable (hw : Writable s 0x60064) (hisland : s.sec.islandFail = false)
include hw hisland

theorem secFwStage_of_none (hst : s.sec.fwState = 0) : exec .secFwStage s = .next { s with sec := { s.sec with
    fwState := 1, fwStatus := 0, fwAt := (s.sec.fwSrc, s.sec.fwSize), fwDone := 0, fwTotal := ceilDiv s.sec.fwSize 1024 % 65536 } } := by
  refine congrArg Host.Outcome.next ((barWrite32_of_writable hw ..).trans ?_)
  unfold State.writeFwCmd
  dsimp only
  rw [if_neg (by simp [hisland]), if_pos ⟨by decide, hst⟩]

theorem exec_secFwActivate_of_pending (hst : s.sec.fwState = 3) : exec .secFwActivate s = .next s.activateFw := by
  refine congrArg Host.Outcome.next ((barWrite32_of_writable hw ..).trans ?_)
  unfold State.writeFwCmd
  dsimp only
  rw [if_neg (by simp [hisland]), if_neg (by simp [hst]), if_pos ⟨by decide, hst⟩]

theorem secFwAbort_of_staged (hst : s.sec.fwState = 1 ∨ s.sec.fwState = 3) :
    exec .secFwAbort s = .next { s with sec := { s.sec with fwState := 0, fwStatus := 0 } } := by
  refine congrArg Host.Outcome.next ((barWrite32_of_writable hw ..).trans ?_)
  have hcode : bits (3#32 : W32).toNat 2 0 = 3 := by decide
  unfold State.writeFwCmd
  dsimp only
  rw [hcode, if_neg (by simp [hisland]), if_neg (by omega), if_neg (by omega), if_pos ⟨rfl, hst⟩]

theorem exec_secFwCommitSvn :
    exec .secFwCommitSvn s = .next (({ s with fuses := { s.fuses with svn := Nat.max s.fuses.svn s.sec.svn } } : State).measure 5) := by
  refine congrArg Host.Outcome.next ((barWrite32_of_writable hw ..).trans ?_)
  have hcode : bits (4#32 : W32).toNat 2 0 = 4 := by decide
  unfold State.writeFwCmd
  dsimp only
  rw [hcode, if_neg (by simp [hisland]), if_neg (by omega), if_neg (by omega), if_neg (by omega), if_pos rfl]

theorem secFwActivate_begins (hst : s.sec.fwState = 3) (hjobs : s.jobs = []) : Answers .secFwActivate s fun t =>
    t.sec.fwState = 4 ∧ t.boot.activating = true ∧ t.sec.sessions = 0 ∧
      t.flash = Memory.write s.flash 0x1000 (BitVec.ofNat 8 (1 - s.sec.slot)) ∧ ∀ c, c < 16 → (s.ring c).st = 1 → (t.ring c).st = 2 := by
  have hbegins : s.activateFw = (activating s).pauseRings := if_neg (by simp [State.anyJob, hjobs])
  have hsteady := steady_pauseRings (activating s)
  have hstops : stopsAll (activating s) = true := by simp [stopsAll, activating]
  refine ⟨_, exec_secFwActivate_of_pending hw hisland hst, ?_⟩
  rw [hbegins]
  refine ⟨(congrArg Sec.fwState hsteady.sec_eq :), (congrArg Boot.activating hsteady.boot_eq :), (congrArg Sec.sessions hsteady.sec_eq :),
    (hsteady.flash_eq :), fun c hc hactive => ?_⟩
  exact (st_pauseRings hstops hc).trans (if_pos hactive)

theorem secFwActivate_of_job (hst : s.sec.fwState = 3) (hjobs : s.jobs ≠ []) :
    exec .secFwActivate s = .next { s with sec := { s.sec with fwStatus := 0x0803 } } := by
  rw [exec_secFwActivate_of_pending hw hisland hst, State.activateFw, if_pos (by simp [State.anyJob, hjobs])]

theorem secFwCommitSvn_raises : Answers .secFwCommitSvn s fun t =>
    t.fuses = { s.fuses with svn := Nat.max s.fuses.svn s.sec.svn } ∧ { t with fuses := s.fuses, sec := s.sec } = s :=
  ⟨_, exec_secFwCommitSvn hw hisland, rfl, rfl⟩

end

/-! ## The image is staged and verified (R550, R551) -/

theorem fwStagingDone_of_read {bs : List Byte} (hst : s.sec.fwState = 1) (hread : s.hostRead s.sec.fwAt.1 s.sec.fwAt.2 = some bs) :
    exec .fwStagingDone s = .next { s with
      flash := Memory.writeBytes s.flash (slotBase (1 - s.sec.slot)) (bs.take 0x1000000)
      sec := { s.sec with fwState := 2, fwDone := 0 } } := by
  show execFwStagingDone s = _
  simp only [execFwStagingDone, hst, hread]
  rfl

theorem fwStagingDone_of_fault (hst : s.sec.fwState = 1) (hread : s.hostRead s.sec.fwAt.1 s.sec.fwAt.2 = none) :
    exec .fwStagingDone s = .next { s with sec := { s.sec with fwState := 0, fwStatus := 0x0007 } } := by
  show execFwStagingDone s = _
  simp only [execFwStagingDone, hst, hread]
  rfl

theorem fwVerifyDone_passes (hst : s.sec.fwState = 2) (hcheck : s.fwCheck (1 - s.sec.slot) = 0) : Answers .fwVerifyDone s fun t =>
    t.sec = { s.sec with fwState := 3, fwStatus := 0, fwDone := s.sec.fwTotal } ∧ t.flash = s.flash ∧
      Posts s t 0x0804 0 (bytesAt (Memory.readBytes s.flash (slotBase (1 - s.sec.slot)) 64) 8 8) := by
  have hexec : exec .fwVerifyDone s = .next (({ s with sec := { s.sec with fwState := 3, fwStatus := 0, fwDone := s.sec.fwTotal } } : State).postDev
      0 0x0804 0 (bytesAt (Memory.readBytes s.flash (slotBase (1 - s.sec.slot)) 64) 8 8)) := by
    show execFwVerifyDone s = _
    unfold execFwVerifyDone
    dsimp only
    rw [if_neg (by simp [hst]), if_pos hcheck]
  exact ⟨_, hexec, State.postDev_sec .., State.postDev_flash .., posts_postDev rfl rfl ..⟩

theorem fwVerifyDone_rejects (hst : s.sec.fwState = 2) (hcheck : s.fwCheck (1 - s.sec.slot) ≠ 0) : Answers .fwVerifyDone s fun t =>
    t.sec = { s.sec with fwState := 0, fwStatus := 0x0806 } ∧ Posts s t 0x0805 0x0806 (toLe 1 (s.fwCheck (1 - s.sec.slot))) := by
  have hexec : exec .fwVerifyDone s = .next (({ s with sec := { s.sec with fwState := 0, fwStatus := 0x0806 } } : State).postDev
      0 0x0805 0x0806 (toLe 1 (s.fwCheck (1 - s.sec.slot)))) := by
    show execFwVerifyDone s = _
    unfold execFwVerifyDone
    dsimp only
    rw [if_neg (by simp [hst]), if_neg hcheck]
  exact ⟨_, hexec, State.postDev_sec .., posts_postDev rfl rfl ..⟩

/-! ## The activation ends (R551, R552) -/

theorem fwReady_runs {img : List Byte} (hst : s.sec.fwState = 4) (himg : s.slotImage (1 - s.sec.slot) = some img) :
    Answers .fwReady s fun t => ∃ u : State, t = u.endActivation ∧
      u.sec.slot = 1 - s.sec.slot ∧ u.sec.svn = leAt img 12 4 ∧ u.sec.keyIndex = leAt img 24 1 ∧ u.sec.fwNumeric = leAt img 8 4 ∧
      u.sec.fwBytes = img ∧ Posts s u 0x0806 0 (toLe 4 s.sec.prevNumeric ++ toLe 4 (leAt img 8 4)) := by
  have hexec : exec .fwReady s = .next ((((s.runImage (1 - s.sec.slot) img).postDev 0 0x0806 0
      (toLe 4 s.sec.prevNumeric ++ toLe 4 (leAt img 8 4))).measure 2).endActivation) := by
    show execFwReady s = _
    unfold execFwReady
    dsimp only
    rw [if_neg (by simp [hst]), himg]
    rfl
  exact ⟨_, hexec, _, rfl, rfl, rfl, rfl, rfl, rfl, posts_postDev rfl rfl ..⟩

theorem fwActivateTimeout_restarts (hst : s.sec.fwState = 4) : Answers .fwActivateTimeout s fun t => ∃ u : State, t = u.endActivation ∧
    u.sec = s.sec ∧ u.flash = Memory.write s.flash 0x1000 (BitVec.ofNat 8 s.sec.slot) ∧ Posts s u 0x0807 0 (toLe 4 s.sec.fwNumeric) :=
  ⟨_, congrArg Host.Outcome.next (if_neg (by simp [hst])), _, rfl, State.postDev_sec .., State.postDev_flash .., posts_postDev rfl rfl ..⟩

/-- Settles O47: each row is evaluated under its guard; the activation pauses every ACTIVE ring set because it is a cause of the whole
device (`st_pauseRings`). -/
theorem firmwareUpdateCompletes : Obligations.FirmwareUpdateCompletes := by
  unfold Obligations.FirmwareUpdateCompletes
  intro s
  refine ⟨?stage, ?staged, ?fault, ?passes, ?rejects, ?activate, ?held, ?abort, ?commit, ?ready, ?timeout⟩
  case stage => exact secFwStage_of_none
  case staged => exact fun bs => fwStagingDone_of_read
  case fault => exact fwStagingDone_of_fault
  case passes => exact fwVerifyDone_passes
  case rejects => exact fwVerifyDone_rejects
  case activate => exact secFwActivate_begins
  case held => exact secFwActivate_of_job
  case abort => exact secFwAbort_of_staged
  case commit => exact secFwCommitSvn_raises
  case ready => exact fun img => fwReady_runs
  case timeout => exact fwActivateTimeout_restarts

end Sys2Proof.Slice0

/-!
PROOFS. Contexts: registration, switches, scrubs, the zeroing of a partition, and REGROW (R429 to R440, R524 to R540): the statement O33.
-/
namespace Sys2Proof.Slice0
open Sys2Proof Sys2Proof.Machine

variable {s : State}

/-! ## Registration and destruction (R526 to R529, R532) -/

theorem ctx_setCtx_measure (s : State) (c kind q : Nat) (x : Ctx) : ((s.setCtx c x).measure kind).ctx q = if q = c then x else s.ctx q :=
  State.ctx_setCtx ..

theorem openSecret_of_fuses {t : State} (h : t.fuses = s.fuses) (c : Nat) (b : List Byte) : t.openSecret c b = s.openSecret c b := by
  unfold State.openSecret
  rw [h]

/-- A context registered under generation g. -/
def registered (s : State) (c : Nat) (b secret : List Byte) (g : Nat) : State :=
  let s := s.setCtx c ⟨1, leAt b 8 8, leAt b 16 8, g, leAt b 24 8, secret⟩
  ({ s with sec := { s.sec with nextGen := (g + 1) % 65536 } }).measure 6

theorem cmdRegister_of_free {h : Head} {c block g : Nat} {b secret : List Byte} (hread : s.hostRead block 256 = some b) (hc : 1 ≤ c ∧ c ≤ 15)
    (hform : ctxBlockOk s.split b = true) (hst : (s.ctx c).st = 0) (hpart : s.partitionTaken (leAt b 8 8) (leAt b 16 8) = false)
    (hsecret : s.openSecret c b = some secret) (hlc : s.fuses.lc ≠ 3) (hgen : nextGen s.heldGens 18 s.sec.nextGen = some g) :
    s.cmdRegister h c block = (registered s c b secret g).done h 0x70 0 g := by
  have hindex : ¬ (c = 0 ∨ 15 < c ∨ ctxBlockOk s.split b = false) := by
    rw [hform]
    simp only [Bool.true_eq_false, or_false]
    omega
  have hclash : ¬ ((s.ctx c).st ≠ 0 ∨ s.partitionTaken (leAt b 8 8) (leAt b 16 8) = true) := by simp [hst, hpart]
  unfold State.cmdRegister State.withData
  rw [hread]
  dsimp only
  rw [if_neg hindex, if_neg hclash, hsecret]
  dsimp only
  rw [if_neg hlc, hgen]
  rfl

theorem cmdDestroy_of_idle {h : Head} {c : Nat} (hc : 1 ≤ c ∧ c ≤ 15) (hst : (s.ctx c).st = 1) (hjob : s.holdsJob c = false)
    (hhalves : s.halvesOf c = 0) :
    s.cmdDestroy h c = ((s.setCtx c { s.ctx c with st := 3 }).measure 7).done h 0x71 0 0 := by
  unfold State.cmdDestroy
  dsimp only
  rw [if_neg (by omega), if_neg (by simp [hst, hjob]), if_pos hhalves]

theorem ctx_registered (s : State) (c g q : Nat) (b secret : List Byte) : (registered s c b secret g).ctx q =
    if q = c then ⟨1, leAt b 8 8, leAt b 16 8, g, leAt b 24 8, secret⟩ else s.ctx q := by
  have hctxs : (registered s c b secret g).sec.ctxs = (s.setCtx c ⟨1, leAt b 8 8, leAt b 16 8, g, leAt b 24 8, secret⟩).sec.ctxs := rfl
  exact (congrArg (fun m => Map.get Ctx.free m q) hctxs).trans (State.ctx_setCtx ..)

theorem nextGen_registered (s : State) (c g : Nat) (b secret : List Byte) :
    (registered s c b secret g).sec.nextGen = (g + 1) % 65536 := rfl

/-! ## The sparing point at a switch (R636) -/

/-- From s to t the contexts and the owners of the halves stay. -/
def SameOwners (s t : State) : Prop := t.sec = s.sec ∧ t.west.owner = s.west.owner

theorem SameOwners.trans {s t u : State} (h : SameOwners s t) (k : SameOwners t u) : SameOwners s u := ⟨k.1.trans h.1, k.2.trans h.2⟩

theorem sameOwners_of {t : State} (hsec : t.sec = s.sec) (hwest : t.west = s.west) : SameOwners s t := ⟨hsec, congrArg Half.owner hwest⟩

theorem sameOwners_foldl {α : Type} (f : State → α → State) (hf : ∀ s a, SameOwners s (f s a)) (l : List α) (s : State) :
    SameOwners s (l.foldl f s) := by
  induction l generalizing s with
  | nil => exact ⟨rfl, rfl⟩
  | cons a l ih => exact (hf s a).trans (ih (f s a))

theorem sameOwners_retireUnit (s : State) (m : Mark) : SameOwners s (s.retireUnit m) := by
  by_cases hcore : m.kind = 0
  · simp only [State.retireUnit, if_pos hcore]
    split <;> exact ⟨rfl, rfl⟩
  · simp only [State.retireUnit, if_neg hcore]
    split <;> exact ⟨rfl, rfl⟩

theorem sameOwners_enterRound (s : State) (us : List (Nat × Nat)) : SameOwners s (s.enterRound us) := by
  unfold State.enterRound
  split <;> exact ⟨rfl, rfl⟩

theorem sameOwners_restoreUnit (s : State) (m : Mark) : SameOwners s (s.restoreUnit m) := by
  unfold State.restoreUnit
  dsimp only
  split
  · exact ⟨rfl, rfl⟩
  · split
    · exact sameOwners_enterRound (State.setCore _ m.unit _) _
    · exact sameOwners_enterRound (State.setTiles _ [m.unit] 1) _

theorem sameOwners_checkDegraded (s : State) (h : Nat) : SameOwners s (s.checkDegraded h) := by
  have hset (b : Bool) : SameOwners s (s.setHalf h { s.half h with degraded := b }) := by
    unfold State.setHalf State.half
    split <;> exact ⟨rfl, rfl⟩
  unfold State.checkDegraded
  dsimp only
  split
  · exact (hset _).trans (sameOwners_of (State.postDev_sec ..) (State.postDev_west ..))
  · exact hset _

theorem sameOwners_sparingPoint (s : State) (mask : Nat) : SameOwners s (s.sparingPoint mask) := by
  have hhalf (b : Bool) (h : Nat) (u : State) : SameOwners u (if b then u.checkDegraded h else u) := by
    split
    · exact sameOwners_checkDegraded u h
    · exact ⟨rfl, rfl⟩
  have hremap (b : Bool) (u : State) : SameOwners u (if b then u else u.remap) := by
    split
    · exact ⟨rfl, rfl⟩
    · exact sameOwners_of (State.onCores_sec ..) (State.onCores_west ..)
  unfold State.sparingPoint
  dsimp only
  refine SameOwners.trans ?_ (hhalf ..)
  refine SameOwners.trans ?_ (hhalf ..)
  refine SameOwners.trans ?_ (hremap ..)
  refine SameOwners.trans ?_ (sameOwners_foldl _ sameOwners_restoreUnit _ _)
  exact sameOwners_foldl _ sameOwners_retireUnit _ { s with ras := _ }

/-! ## CTX_RUN and CTX_SWITCH (R534, R535) -/

theorem beginScrub_fields (s : State) (mask reason : Nat) :
    (s.beginScrub mask reason).sec = { s.sec with scrub := some ⟨mask, reason, 67036⟩ } ∧
      (s.beginScrub mask reason).west.owner = s.west.owner := by
  unfold State.beginScrub
  dsimp only
  refine ⟨(steady_pauseRings _).sec_eq, (congrArg Half.owner (steady_pauseRings _).west_eq).trans ?_⟩
  rw [State.onHalves]
  dsimp only
  split <;> rfl

theorem beginSwitchScrub_eq {w : Switch} (hout : s.job w.outgoing = none) (hplain : w.destroy = none) : s.beginSwitchScrub w =
    (State.sparingPoint { s with sec := { s.sec with switch := some { w with scrubbing := true } } } w.halves).beginScrub w.halves 1 := by
  have hjob : s.onJob w.outgoing (fun j => if j.st = JobSt.running then { j with st := .suspended } else j) = s := by
    unfold State.onJob
    rw [hout]
  unfold State.beginSwitchScrub
  dsimp only
  rw [hjob, hplain]
  rfl

theorem beginSwitchScrub_fields {w : Switch} (hout : s.job w.outgoing = none) (hplain : w.destroy = none) :
    (s.beginSwitchScrub w).sec = { s.sec with switch := some { w with scrubbing := true }, scrub := some ⟨w.halves, 1, 67036⟩ } ∧
      (s.beginSwitchScrub w).west.owner = s.west.owner := by
  rw [beginSwitchScrub_eq hout hplain]
  obtain ⟨hsec, howner⟩ := sameOwners_sparingPoint { s with sec := { s.sec with switch := some { w with scrubbing := true } } } w.halves
  generalize State.sparingPoint _ w.halves = u at hsec howner ⊢
  obtain ⟨ksec, kowner⟩ := beginScrub_fields u w.halves 1
  refine ⟨ksec.trans ?_, kowner.trans howner⟩
  rw [hsec]

theorem switchStep_of_no_job {w : Switch} (hswitch : s.sec.switch = some w) (hscrub : s.sec.scrub = none) (haligned : s.boot.aligned = true)
    (hbusy : s.rst.busy = none) (hbegun : w.scrubbing = false) (hout : s.job w.outgoing = none) : s.switchStep = s.beginSwitchScrub w := by
  unfold State.switchStep
  rw [hswitch]
  dsimp only
  rw [if_neg (by simp [hscrub, haligned, hbusy]), if_neg (by simp [hbegun]), hout]

section
variable {h : Head} {c : Nat} (hc : c ≤ 15) (hjoined : s.split = false)
include hc hjoined

theorem cmdCtxRun_of_other (hst : c = 0 ∨ (s.ctx c).st = 1) (hother : s.halvesOf c ≠ 3) :
    s.cmdCtxRun h c 3 = s.askSwitch h 0x72 c 3 none := by
  have hmask : ¬ (s.halvesOf c &&& 3) = 3 := by
    unfold State.halvesOf at hother ⊢
    revert hother
    cases s.west.owner == c <;> cases s.east.owner == c <;> decide
  unfold State.cmdCtxRun
  dsimp only
  rw [if_neg (by simp [hjoined]; omega), if_neg (by omega), if_neg hmask]

theorem cmdCtxRun_of_same (hst : c = 0 ∨ (s.ctx c).st = 2) (hsame : s.halvesOf c = 3) : s.cmdCtxRun h c 3 = s.done h 0x72 0 0 := by
  unfold State.cmdCtxRun
  dsimp only
  rw [if_neg (by simp [hjoined]; omega), if_neg (by omega), hsame, if_pos (by decide)]

end

theorem ctxRun_scrubs {h : Head} {c : Nat} (ht : Taken s h 0x72 h.set) (hc : c ≤ 15) (hjoined : s.split = false)
    (hst : c = 0 ∨ (s.ctx c).st = 1) (hother : s.halvesOf c ≠ 3) (hscrub : s.sec.scrub = none) (haligned : s.boot.aligned = true)
    (hbusy : s.rst.busy = none) (hout : s.job s.west.owner = none) :
    Answers (.ctxRun h c 3) s fun t => t.sec.scrub = some ⟨3, 1, 67036⟩ ∧ t.west.owner = s.west.owner ∧
      t.sec.switch = some ⟨h, 0x72, c, 3, none, s.west.owner, none, true⟩ := by
  have hasks : (taken s h 0x72).cmdCtxRun h c 3 = (taken s h 0x72).askSwitch h 0x72 c 3 none :=
    cmdCtxRun_of_other (s := taken s h 0x72) hc hjoined hst hother
  refine ⟨_, ht.next hasks, ?_⟩
  let w : Switch := ⟨h, 0x72, c, 3, none, s.west.owner, none, false⟩
  have hstep : (taken s h 0x72).askSwitch h 0x72 c 3 none =
      State.beginSwitchScrub { taken s h 0x72 with sec := { (taken s h 0x72).sec with switch := some w } } w :=
    switchStep_of_no_job (s := { taken s h 0x72 with sec := { (taken s h 0x72).sec with switch := some w } }) rfl hscrub haligned hbusy rfl hout
  obtain ⟨hsec, howner⟩ := beginSwitchScrub_fields
    (s := { taken s h 0x72 with sec := { (taken s h 0x72).sec with switch := some w } }) (w := w) hout rfl
  rw [hstep]
  exact ⟨congrArg Sec.scrub hsec, howner, congrArg Sec.switch hsec⟩

theorem ctxSwitch_scrubs {w : Switch} {half : Nat} (hhalf : half < 2) (hmask : bit w.halves half = true) (hswitch : s.sec.switch = some w)
    (hscrub : s.sec.scrub = none) (haligned : s.boot.aligned = true) (hbusy : s.rst.busy = none) (hbegun : w.scrubbing = false)
    (hout : s.job w.outgoing = none) (hplain : w.destroy = none) :
    Answers (.ctxSwitch half) s fun t => t.sec.scrub = some ⟨w.halves, 1, 67036⟩ ∧ t.sec.switch = some { w with scrubbing := true } := by
  have hexec : exec (.ctxSwitch half) s = .next (s.beginSwitchScrub w) := by
    refine (noUnit_of (by simpa using hhalf) _).trans (congrArg Host.Outcome.next ?_)
    rw [hswitch]
    dsimp only
    rw [if_pos hmask, switchStep_of_no_job hswitch hscrub haligned hbusy hbegun hout]
  obtain ⟨hsec, -⟩ := beginSwitchScrub_fields hout hplain
  exact ⟨_, hexec, congrArg Sec.scrub hsec, congrArg Sec.switch hsec⟩

/-! ## SCRUB_COMPLETE (R37, R537 to R539) -/

/-- The stores of a half are clear, of both when both are scrubbed. -/
theorem clearStores_stores (s : State) : (∀ a, a < 2 ^ 33 → Memory.read (s.clearStores 3).slices a = 0#8) ∧
    ∀ n i, n < 512 → i < 4096 → (s.clearStores 3).acc n i = ExactAcc.zero := by
  have hmask (k : Nat) (hk : k < 2) : bit 3 k = true := by
    interval_cases k <;> decide
  obtain ⟨slices, hslices⟩ : ∃ m, (s.clearStores 3).slices = Map.erase m fun k => bit 3 (k / 2 ^ 24 / 256) := ⟨_, rfl⟩
  obtain ⟨exact, hexact⟩ : ∃ m, (s.clearStores 3).exact = Map.erase m fun k => bit 3 (k / 4096 / 256) := ⟨_, rfl⟩
  refine ⟨fun a ha => ?_, fun n i hn hi => ?_⟩
  · rw [Memory.read, hslices, Map.get_erase, if_pos (hmask _ (by omega))]
  · rw [State.acc, hexact, Map.get_erase, if_pos (hmask _ (by omega))]

theorem accesses_domainOff_moss (s : State) {pd : Nat} (hpd : pd = 11 ∨ pd = 12) : (s.domainOff pd).host.accesses = s.host.accesses := by
  have hcores : ¬ (3 ≤ pd ∧ pd ≤ 10) := by omega
  simp only [State.domainOff, if_neg hcores, if_pos hpd]
  split <;> rfl

theorem accesses_mossIdle (s : State) : s.mossIdle.host.accesses = s.host.accesses := by
  have hidle (h pd : Nat) (hpd : pd = 11 ∨ pd = 12) (u : State) :
      (if u.regionIn h then u else u.domainOff pd).host.accesses = u.host.accesses := by
    split
    · rfl
    · exact accesses_domainOff_moss u hpd
  exact (hidle 1 12 (.inr rfl) _).trans (hidle 0 11 (.inl rfl) s)

theorem clearStores_kept (s : State) (mask : Nat) :
    (s.clearStores mask).sec = s.sec ∧ (s.clearStores mask).host.accesses = s.host.accesses := by
  have hsec : (s.onCores (inHalves mask) fun _ c => c.scrubbed).sec = s.sec := State.onCores_sec ..
  have hhost : (s.onCores (inHalves mask) fun _ c => c.scrubbed).host = s.host := State.onCores_host ..
  unfold State.clearStores
  dsimp only
  generalize s.onCores _ _ = u at hsec hhost ⊢
  rw [State.onHalves_sec, State.onHalves_host, accesses_mossIdle, (steady_mossIdle _).sec_eq]
  exact ⟨hsec, congrArg HostPort.accesses hhost⟩

/-- Nothing was held during the scrub, so nothing is released. -/
theorem releaseWrites_of_none (h : s.host.accesses = []) : s.releaseWrites = s := by
  unfold State.releaseWrites
  dsimp only
  rw [h]
  show { s with host := { s.host with accesses := [] } } = s
  rw [← h]

theorem foldl_setCtx_eq (x : State → Nat → Ctx) (l : List Nat) (s : State) :
    ∃ m, l.foldl (fun (s : State) c => s.setCtx c (x s c)) s = { s with sec := { s.sec with ctxs := m } } := by
  induction l generalizing s with
  | nil => exact ⟨_, rfl⟩
  | cons c l ih =>
    obtain ⟨m, hm⟩ := ih (s.setCtx c (x s c))
    exact ⟨m, hm⟩

theorem foldl_setLpx_eq (x : State → Nat → Lpx) (l : List Nat) (s : State) :
    ∃ m, l.foldl (fun (s : State) i => s.setLpx i (x s i)) s = { s with lpx := m } := by
  induction l generalizing s with
  | nil => exact ⟨_, rfl⟩
  | cons i l ih =>
    obtain ⟨m, hm⟩ := ih (s.setLpx i (x s i))
    exact ⟨m, hm⟩

/-- A mode change gives both halves to context 0, and touches nothing else but the contexts and the generations of the controllers. -/
theorem vacate_eq (s : State) : ∃ ctxs lpx, s.vacate =
    { s with sec := { s.sec with ctxs := ctxs }, west := { s.west with owner := 0 }, east := { s.east with owner := 0 }, lpx := lpx } := by
  unfold State.vacate
  dsimp only
  obtain ⟨ctxs, hctxs⟩ := foldl_setCtx_eq (fun s c => { s.ctx c with st := 1 }) ((List.range 16).filter fun c => c != 0 && s.halvesOf c != 0) s
  rw [hctxs]
  obtain ⟨lpx, hlpx⟩ := foldl_setLpx_eq (fun s i => { s.lpxCtrl i with gen := 0 }) (List.range 32)
    (State.onHalves { s with sec := { s.sec with ctxs := ctxs } } 3 fun _ x => { x with owner := 0 })
  exact ⟨ctxs, lpx, hlpx⟩

/-- The stores of both halves are clear and the scrub is counted and reported. -/
def scrubEnded (s : State) : State :=
  let s := (s.clearStores 3).onHalves 3 fun _ x => { x with flags := 0 }
  let s := State.resetSelects { s with sec := { s.sec with scrub := none, scrubs := satAdd 16 s.sec.scrubs 1 } }
  s.postDev 0 0x0802 0 (toLe 1 3 ++ toLe 1 2 ++ toLe 2 0 ++ toLe 4 67036)

theorem scrubEnded_fields (s : State) : (scrubEnded s).slices = (s.clearStores 3).slices ∧ (scrubEnded s).exact = (s.clearStores 3).exact ∧
    (scrubEnded s).sec.scrub = none ∧ (scrubEnded s).sec.scrubs = satAdd 16 s.sec.scrubs 1 ∧
    (scrubEnded s).host.accesses = s.host.accesses := by
  obtain ⟨hsec, haccesses⟩ := clearStores_kept s 3
  unfold scrubEnded
  generalize s.clearStores 3 = u at hsec haccesses ⊢
  exact ⟨rfl, rfl, rfl, congrArg (fun x : Sec => satAdd 16 x.scrubs 1) hsec, haccesses⟩

theorem afterScrub_of_mode (s : State) :
    s.afterScrub 2 = { s.vacate.releaseWrites with boot := { s.vacate.releaseWrites.boot with aligned := false } } := if_pos rfl

theorem exec_scrubComplete_of_mode {sc : Scrub} (hscrub : s.sec.scrub = some sc) (hleft : sc.left = 0) (haligned : s.boot.aligned = true)
    (hbusy : s.rst.busy = none) (hhalves : sc.halves = 3) (hreason : sc.reason = 2) :
    exec .scrubComplete s = .next ((scrubEnded s).afterScrub 2) := by
  have hends : s.scrubEnds sc = true := by simp [State.scrubEnds, hleft, haligned, hbusy]
  show execScrubComplete s = _
  unfold execScrubComplete
  rw [hscrub]
  dsimp only
  rw [hends, if_neg (by decide), hhalves, hreason]
  unfold scrubEnded
  rfl

theorem scrubComplete_of_mode {sc : Scrub} (hscrub : s.sec.scrub = some sc) (hleft : sc.left = 0) (haligned : s.boot.aligned = true)
    (hbusy : s.rst.busy = none) (hhalves : sc.halves = 3) (hreason : sc.reason = 2) (hnone : s.host.accesses = []) :
    Answers .scrubComplete s fun t => t.sec.scrub = none ∧ (∀ a, a < 2 ^ 33 → Memory.read t.slices a = 0#8) ∧
      (∀ n i, n < 512 → i < 4096 → t.acc n i = ExactAcc.zero) ∧ t.west.owner = 0 ∧ t.east.owner = 0 ∧
      t.boot.aligned = false ∧ t.sec.scrubs = satAdd 16 s.sec.scrubs 1 := by
  refine ⟨_, exec_scrubComplete_of_mode hscrub hleft haligned hbusy hhalves hreason, ?_⟩
  obtain ⟨hslices, hexact, hscrub, hscrubs, haccesses⟩ := scrubEnded_fields s
  obtain ⟨hclear, hzero⟩ := clearStores_stores s
  obtain ⟨ctxs, lpx, hvacate⟩ := vacate_eq (scrubEnded s)
  generalize scrubEnded s = u at hslices hexact hscrub hscrubs haccesses hvacate ⊢
  have hquiet : u.vacate.host.accesses = [] := by
    rw [hvacate]
    exact haccesses.trans hnone
  rw [afterScrub_of_mode, releaseWrites_of_none hquiet, hvacate]
  refine ⟨hscrub, ?_, fun n i hn hi => ?_, rfl, rfl, rfl, hscrubs⟩
  · rw [← hslices] at hclear
    exact hclear
  · rw [← hzero n i hn hi]
    exact congrArg (fun m => Map.get ExactAcc.zero m (n * 4096 + i)) hexact

/-! ## PARTITION_ZERO_DONE (R532) -/

theorem partitionZeroDone_frees {c : Nat} (hc : c < 16) (hst : (s.ctx c).st = 3) (hready : s.boot.ready = true) :
    Answers (.partitionZeroDone c) s fun t => t.lpxMem = (s.lpxZero (s.ctx c).base (s.ctx c).size).lpxMem ∧
      (∀ q, t.ctx q = if q = c then Ctx.free else s.ctx q) ∧ ∃ e, t.host.held = s.host.held ++ [e] ∧ e.code = 0x0803 ∧
      e.payload = toLe 1 c ++ toLe 1 0 ++ toLe 2 (s.ctx c).gen ++ toLe 4 0 ++ toLe 8 (s.ctx c).size := by
  have hgo : ¬ ((s.ctx c).st ≠ 3 ∨ s.boot.ready = false) := by simp [hst, hready]
  refine ⟨_, (noUnit_of (by simpa using hc) _).trans (congrArg Host.Outcome.next (if_neg hgo)), rfl, fun q => ?_, _, rfl, rfl, rfl⟩
  exact State.ctx_setCtx ..

/-! ## REGROW (R428 to R431) -/

theorem jobs_resetHalves (s : State) (mask : Nat) : (s.resetHalves mask).jobs = s.jobs := by
  obtain ⟨x, hx⟩ := resetHalves_eq s mask
  rw [hx]
  exact (halvesReset_fields s mask).1

theorem beginRegrowReset_resets {c : Nat} {j : Job} (hjob : s.job c = some j) (hdump : s.dmp.st = 0) (hbusy : s.rst.busy = none)
    (hready : s.boot.ready = true) (r : Regrow) :
    (s.beginRegrowReset c j r).rst.busy = some ⟨3, j.halves, 0, 5⟩ ∧ (s.beginRegrowReset c j r).boot.aligned = false ∧
      ((s.beginRegrowReset c j r).job c).map (fun j => j.st) = some j.st := by
  unfold State.beginRegrowReset
  rw [if_neg (by simp [hdump, hbusy, State.resetBegins, hready])]
  dsimp only
  have hkept : (((s.sparingPoint j.halves).powerOn (jobDomains j.halves)).resetHalves j.halves).jobs = s.jobs :=
    (jobs_resetHalves ..).trans (sparingPoint_fields s j.halves).1
  have haligned (u : State) : (u.resetHalves j.halves).boot.aligned = false := rfl
  generalize hu : ((s.sparingPoint j.halves).powerOn (jobDomains j.halves)).resetHalves j.halves = u at hkept
  have hsame : (u.setReset 3 j.halves 0 5).job c = some j := (job_of_jobs hkept c).trans hjob
  have hdown : u.boot.aligned = false := hu ▸ haligned _
  unfold State.onJob
  rw [hsame]
  dsimp only
  refine ⟨rfl, hdown, ?_⟩
  rw [State.job_setJob, if_pos rfl]
  rfl

theorem cmdRegrow_resets {h : Head} {c : Nat} {j : Job} (hjob : s.job c = some j) (hended : j.st = .ended) (hruns : s.halvesOf c ≠ 0)
    (hdump : s.dmp.st = 0) (hbusy : s.rst.busy = none) (hready : s.boot.ready = true) (cut source rep no a b d e : Nat) :
    (s.cmdRegrow h cut source rep c no a b d e).rst.busy = some ⟨3, s.halvesOf c, 0, 5⟩ ∧
      (s.cmdRegrow h cut source rep c no a b d e).boot.aligned = false ∧
      ((s.cmdRegrow h cut source rep c no a b d e).job c).map (fun j => j.st) = some .regrow := by
  unfold State.cmdRegrow
  rw [hjob]
  dsimp only
  rw [if_neg (by simp [hended, hruns])]
  unfold State.regrowStep
  rw [State.job_setJob, if_pos rfl]
  dsimp only
  rw [if_neg (by simp), if_pos rfl, if_pos rfl]
  exact beginRegrowReset_resets (job_setJob_same ..) hdump hbusy hready _

/-- Settles O33: each row is evaluated on the taken command; the scrub of a switch begins through `beginSwitchScrub_eq`, the end of a mode
change's scrub is followed through its clear stores and `vacate_eq`, and a REGROW through the reset that its first stage begins. -/
theorem contextCommandsComplete : Obligations.ContextCommandsComplete := by
  unfold Obligations.ContextCommandsComplete
  intro s h c
  refine ⟨?register, ?destroy, ?run, ?stays, ?switch, ?scrub, ?zero, ?regrow⟩
  case register =>
    intro block b secret g ht hread hlow hhigh hform hst hpart hsecret hlc hgen
    have heffect := cmdRegister_of_free (s := taken s h 0x70) (h := h) hread ⟨hlow, hhigh⟩ hform hst hpart
      ((openSecret_of_fuses (s := s) (t := taken s h 0x70) rfl c b).trans hsecret) hlc hgen
    exact ⟨_, ht.next heffect, fun q => ctx_registered (taken s h 0x70) c g q b secret, nextGen_registered (taken s h 0x70) c g b secret⟩
  case destroy =>
    intro ht hlow hhigh hst hjob hhalves
    exact ⟨_, ht.next (cmdDestroy_of_idle (s := taken s h 0x71) ⟨hlow, hhigh⟩ hst hjob hhalves), fun q => ctx_setCtx_measure ..⟩
  case run =>
    rintro mask ht hc hjoined rfl hst hother hscrub haligned hbusy hout
    exact ctxRun_scrubs ht hc hjoined hst hother hscrub haligned hbusy hout
  case stays =>
    intro ht hc hjoined hst hsame
    exact ⟨_, ht.next (cmdCtxRun_of_same (s := taken s h 0x72) hc hjoined hst hsame), rfl⟩
  case switch =>
    intro w half hhalf hmask hswitch hscrub haligned hbusy hbegun hout hplain
    exact ctxSwitch_scrubs hhalf hmask hswitch hscrub haligned hbusy hbegun hout hplain
  case scrub =>
    intro sc hscrub hleft haligned hbusy hhalves hreason hnone
    exact scrubComplete_of_mode hscrub hleft haligned hbusy hhalves hreason hnone
  case zero => exact fun hc hst hready => partitionZeroDone_frees hc hst hready
  case regrow =>
    intro cut source rep no a b d e j _ ht hjob hended hruns hdump hbusy hready
    exact ⟨_, ht.next rfl, cmdRegrow_resets (s := taken s h 0x61) hjob hended hruns hdump hbusy hready cut source rep no a b d e⟩

end Sys2Proof.Slice0

/-!
PROOFS. The states of the ports: training, keys, recovery and PORT_EN (R497, R511 to R521, R546, R602, R685): the statement O44.
-/
namespace Sys2Proof.Slice0
open Sys2Proof Sys2Proof.Machine

variable {s : State} {p : Nat}

/-! ## What sending and requests leave alone -/

theorem portWork_drainPort (s : State) (p : Nat) : PortWork s (s.drainPort p) := by
  unfold State.drainPort
  split
  · exact .refl s
  · exact portWork_setPort ..

theorem portWork_askIv (s : State) (p : Nat) : PortWork s (s.askIv p) := ⟨rfl⟩

theorem PortWork.link_eq {t : State} (h : PortWork s t) (c : Nat) : t.link c = s.link c :=
  congrArg (fun m => Map.find m c) (congrArg State.links h.rest :)

theorem PortWork.pins_eq {t : State} (h : PortWork s t) : t.pins = s.pins := (congrArg State.pins h.rest :)

theorem PortWork.host_eq {t : State} (h : PortWork s t) : t.host = s.host := (congrArg State.host h.rest :)

/-! ## TRAIN flits and training (R514, R516, R519) -/

/-- Only a port that is UP can join, and only a job with links. -/
theorem tryJoin_of_not_up (h : (s.port p).st ≠ 2) : s.tryJoin p = s := by
  unfold State.tryJoin
  dsimp only
  split
  · rw [if_pos (by simp [h])]
  · rfl

theorem tryJoin_of_no_link (h : s.link (s.portCtx p) = none) : s.tryJoin p = s := by
  unfold State.tryJoin
  dsimp only
  rw [h]
  split
  · next hsome => exact absurd hsome (by simp)
  · rfl

/-- The version of two masks that share one (R514). -/
theorem version_of_shared (both : Nat) (h : both % 4 ≠ 0) :
    (if bit both 1 then 2 else if bit both 0 then 1 else 0) = if bit both 1 then 2 else 1 := by
  by_cases hone : bit both 1 = true
  · simp [hone]
  · have hzero : bit both 0 = true := by
      simp only [bit, Nat.testBit_eq_decide_div_mod_eq, decide_eq_true_eq] at hone ⊢
      omega
    simp [hone, hzero]

section
variable {m : List Byte} {y : Port}

theorem trainReceive_takes {b : List Byte} {v : Nat} (hb : b = flitPayload m) (ha : Arrives s p m 4 y) (hst : y.st = 1)
    (hv : v = if bit (leAt b 0 1 &&& s.versions) 1 then 2 else 1) (hshared : (leAt b 0 1 &&& s.versions) % 4 ≠ 0) :
    Answers (.trainReceive p m) s fun t => OnlyPort s t p { y with
      peerPort := leAt b 1 1 % 16, peerSerial := leAt b 4 8, peerNonce := bytesAt b 12 32, peerTag := leAt b 44 8
      peerRank := leAt b 52 2 % 4096, peerDigest := bytesAt b 56 48, version := v } := by
  have hversion : (if bit (leAt b 0 1 &&& s.versions) 1 then 2 else if bit (leAt b 0 1 &&& s.versions) 0 then 1 else 0) = v :=
    (version_of_shared _ hshared).trans hv.symm
  have hpositive : v ≠ 0 := by
    rw [hv]
    split <;> decide
  refine ⟨_, noUnit_of (by simpa using ha.port) _, onlyPort_of_eq ?_⟩
  rw [ha.receive_unsequenced (by decide) (by decide), ← hb]
  have hversions : State.versions (s.setPort p y) = s.versions := rfl
  dsimp only
  rw [State.port_setPort, if_pos rfl, hversions, hversion, if_pos hst, if_neg (fun hnone => hpositive hnone.2), State.setPort_setPort]
  refine tryJoin_of_not_up ?_
  rw [State.port_setPort, if_pos rfl, hst]
  decide

end

section
variable {x : Port} (hp : p < 16) (hx : x = s.port p)
include hp hx

theorem linkTrainingDone_ups (hst : x.st = 1) (hversion : x.version ≠ 0) (hnonce : x.nonce ≠ []) (hclock : s.pins.lrefclk = true)
    (hon : s.isOn (17 + p / 8) = true) (hlink : s.link (s.portCtx p) = none) :
    Answers (.linkTrainingDone p) s fun t => ∃ e : Event, (∀ q, t.port q = if q = p then { x with st := 2 } else s.port q) ∧
      t.host.held = s.host.held ++ [e] ∧ e.code = 0x0B01 ∧
      e.payload = toLe 1 p ++ toLe 1 x.version ++ toLe 1 x.peerPort ++ toLe 5 0 ++ toLe 8 x.peerSerial := by
  have hgo : ¬ ((s.port p).st != 1 || (s.port p).version == 0 || (s.port p).nonce.isEmpty || !s.pins.lrefclk ||
      !s.isOn (17 + p / 8)) = true := by
    rw [← hx]
    simp [hst, hversion, hnonce, hclock, hon]
  subst hx
  obtain ⟨e, hheld, hcode, -, hpayload, -⟩ := postWith_held (s.setPort p { s.port p with st := 2 }) 0 (0x400 + p) 0x0B01 0
    (toLe 1 p ++ toLe 1 (s.port p).version ++ toLe 1 (s.port p).peerPort ++ toLe 5 0 ++ toLe 8 (s.port p).peerSerial) false
  refine ⟨_, (noUnit_of (by simpa using hp) _).trans (congrArg Host.Outcome.next ((if_neg hgo).trans (tryJoin_of_no_link hlink))), e,
    fun q => State.port_setPort .., hheld, hcode, hpayload⟩

theorem trainingAttemptTimeout_trains (hst : x.st = 1) : Answers (.trainingAttemptTimeout p) s fun t => (t.port p).st = 1 ∧
    (t.port p).trainings = x.trainings + 1 ∧ (t.port p).nonce = [] ∧
    t.ens.queue = s.ens.queue ++ [⟨.trainNonce p, 1, 32, none, false, []⟩] := by
  subst hx
  obtain ⟨y, hy, hfields⟩ : ∃ y : Port, (∀ q, (s.startTraining p).port q = if q = p then y else s.port q) ∧
      y.st = 1 ∧ y.trainings = (s.port p).trainings + 1 ∧ y.nonce = [] := ⟨_, fun q => State.port_setPort .., rfl, rfl, rfl⟩
  refine ⟨_, (noUnit_of (by simpa using hp) _).trans (congrArg Host.Outcome.next (if_pos hst)), ?_⟩
  dsimp only
  rw [hy, if_pos rfl]
  exact ⟨hfields.1, hfields.2.1, hfields.2.2, rfl⟩

end

/-! ## Locks (R497, R519, R685) -/

theorem st_startTraining (s : State) (p q : Nat) : ((s.startTraining p).port q).st = if q = p then 1 else (s.port q).st := by
  refine (congrArg Port.st (State.port_setPort ..)).trans ?_
  split <;> rfl

/-- A port that has lost its lock: an ACTIVE one enters RECOVERY, one that is UP trains again. -/
def unlockedSt (st : Nat) : Nat := if st = 4 then 5 else if st = 2 then 1 else st

theorem enterRecovery_of_active (h : (s.port p).st = 4) : s.enterRecovery p = s.setPort p { s.port p with
    st := 5, recoveries := (s.port p).recoveries + 1, since := (s.half (p / 8)).nc, nakN := (0, 0), nakU := (0, 0) } := if_pos h

theorem st_loseLock (s : State) (p q : Nat) : ((s.loseLock p).port q).st = if q = p then unlockedSt (s.port q).st else (s.port q).st := by
  by_cases hup : (s.port p).st = 2
  · rw [State.loseLock, if_pos hup, st_startTraining]
    split
    · next hq => simp [hq, hup, unlockedSt]
    · rfl
  · rw [State.loseLock, if_neg hup]
    by_cases hactive : (s.port p).st = 4
    · rw [enterRecovery_of_active hactive, State.port_setPort]
      split
      · next hq => simp [hq, hactive, unlockedSt]
      · rfl
    · rw [State.enterRecovery, if_neg hactive]
      split
      · next hq => simp [hq, hactive, hup, unlockedSt]
      · rfl

theorem portWork_loseLock (s : State) (p : Nat) : PortWork s (s.loseLock p) := by
  unfold State.loseLock State.enterRecovery
  dsimp only
  split
  · exact portWork_startTraining ..
  · split
    · exact portWork_setPort ..
    · exact .refl s

theorem st_foldl_loseLock (l : List Nat) (hnodup : l.Nodup) (s : State) (q : Nat) :
    ((l.foldl (fun (s : State) p => s.loseLock p) s).port q).st = if q ∈ l then unlockedSt (s.port q).st else (s.port q).st := by
  induction l generalizing s with
  | nil => simp
  | cons a l ih =>
    obtain ⟨hfresh, hrest⟩ := List.nodup_cons.1 hnodup
    refine (ih hrest (s.loseLock a)).trans ?_
    rw [st_loseLock]
    by_cases ha : q = a
    · subst ha
      simp [hfresh]
    · simp [ha]

theorem lrefclkLoss_unlocks (s : State) : Answers .lrefclkLoss s fun t => t.pins = { s.pins with lrefclk := false } ∧
    ∀ q, q < 16 → (t.port q).st = (if (s.port q).st = 4 then 5 else if (s.port q).st = 2 then 1 else (s.port q).st) := by
  refine ⟨_, rfl, (portWork_foldl _ portWork_loseLock _ _).pins_eq, fun q hq => ?_⟩
  refine (st_foldl_loseLock (List.range 16) (List.nodup_range) _ q).trans ?_
  rw [if_pos (List.mem_range.2 hq)]
  rfl

theorem linkRecovered_resumes {x : Port} (hp : p < 16) (hx : x = s.port p) (hst : x.st = 5) (hclock : s.pins.lrefclk = true) :
    Answers (.linkRecovered p) s fun t => ∃ e : Event, (t.port p).st = 4 ∧
      t.host.held = s.host.held ++ [e] ∧ e.code = 0x0B02 ∧ e.payload = toLe 1 p ++ toLe 3 0 ++ toLe 4 ((s.half (p / 8)).nc - x.since) ∧
      (∀ q, q ≠ p → t.port q = s.port q) := by
  have hgo : ¬ ((s.port p).st != 5 || !s.pins.lrefclk) = true := by
    rw [← hx]
    simp [hst, hclock]
  subst hx
  refine ⟨_, (noUnit_of (by simpa using hp) _).trans (congrArg Host.Outcome.next (if_neg hgo)), ?_⟩
  dsimp only
  generalize hy : Port.replay { s.port p with st := 4 } _ _ = y
  have hactive : y.st = 4 := by
    rw [← hy]
    rfl
  obtain ⟨e, hheld, hcode, -, hpayload, -⟩ := postWith_held (s.setPort p y) (s.portCtx p) (0x400 + p) 0x0B02 0
    (toLe 1 p ++ toLe 3 0 ++ toLe 4 ((s.half (p / 8)).nc - (s.port p).since)) ((s.setPort p y).replaying (s.portCtx p))
  have hports (q : Nat) : ((s.setPort p y).postWith (s.portCtx p) (0x400 + p) 0x0B02 0
      (toLe 1 p ++ toLe 3 0 ++ toLe 4 ((s.half (p / 8)).nc - (s.port p).since)) ((s.setPort p y).replaying (s.portCtx p))).port q =
      if q = p then y else s.port q := State.port_setPort ..
  generalize (s.setPort p y).postWith (s.portCtx p) _ _ _ _ _ = u at hheld hports ⊢
  have hdrain := drained_drainPort u p
  refine ⟨e, ?_, ?_, hcode, hpayload, fun q hq => ?_⟩
  · rw [hdrain.here.st_eq, hports, if_pos rfl, hactive]
  · exact (congrArg HostPort.held (portWork_drainPort u p).host_eq).trans hheld
  · rw [hdrain.others q hq, hports, if_neg hq]

theorem recoveryTimeout_fails {x : Port} (hp : p < 16) (hx : x = s.port p) (hst : x.st = 5) :
    Answers (.recoveryTimeout p) s fun t => ∃ (u : State) (e : Event),
      t = u.jobFatal (s.portCtx p) (0x400 + p) 0x16 0x0A02 0 1 ∧ (u.port p).st = 6 ∧ u.host.held = s.host.held ++ [e] ∧ e.code = 0x0B03 ∧
      e.payload = toLe 1 p ++ toLe 1 5 ++ toLe 1 1 := by
  subst hx
  let u := (s.setPort p { s.port p with st := 6, queue := [], linkKey := none }).postFailed p (s.port p).st 1
  have hfails : s.failPort p 1 = u.jobFatal (s.portCtx p) (0x400 + p) 0x16 0x0A02 0 1 := if_pos (.inr hst)
  obtain ⟨e, hheld, hcode, hpayload⟩ : ∃ e : Event, u.host.held = s.host.held ++ [e] ∧ e.code = 0x0B03 ∧
      e.payload = toLe 1 p ++ toLe 1 (s.port p).st ++ toLe 1 1 := ⟨_, rfl, rfl, rfl⟩
  have hport : (u.port p).st = 6 := by
    refine (congrArg Port.st (State.port_setPort ..)).trans ?_
    rw [if_pos rfl]
  refine ⟨_, (noUnit_of (by simpa using hp) _).trans (congrArg Host.Outcome.next ((if_pos hst).trans hfails)), u, e, rfl, hport, hheld, hcode, ?_⟩
  rw [hpayload, hst]

/-! ## Keys (R511, R513, R515, R546) -/

/-- A chain that is complete is checked. -/
def tryChain (s : State) (p : Nat) : Option (List Byte) → State
  | some chain => s.checkChain p chain
  | none => s

section
variable {m b : List Byte} {y : Port} {fs : List (Nat × List Byte)}

theorem exec_keyChainFragment (hb : b = flitPayload m) (ha : Arrives s p m 5 y) (hst : y.st = 3) (hopen : y.chainOk = false)
    (hkind : leAt b 0 1 = 1)
    (hfs : fs = y.frags.filter (fun f => f.1 != leAt b 1 1) ++ [(leAt b 1 1, bytesAt b 4 (Nat.min 112 (leAt b 2 2)))]) :
    exec (.keyChainFragment p m) s = .next ((tryChain (s.setPort p { y with frags := fs }) p (chainOf fs)).drainPort p) := by
  refine (noUnit_of (by simpa using ha.port) _).trans (congrArg Host.Outcome.next ?_)
  rw [ha.receive_sequenced (by decide) (by decide), ← hb]
  dsimp only
  rw [State.port_setPort, if_pos rfl, if_neg (by simp [hst, hopen, hkind]), State.setPort_setPort, ← hfs]
  cases chainOf fs <;> rfl

end

theorem activatePort_of_no_secret (h : ∀ l, s.link (s.portCtx p) = some l → l.secret = none) :
    s.activatePort p = s.setPort p { s.port p with st := 4 } := by
  unfold State.activatePort
  dsimp only
  split
  · next l hl => rw [if_neg (by simp [h l hl])]
  · rfl

section
variable {x : Port} {chain : List Byte} (hx : s.port p = x)
include hx

theorem checkChain_of_sound {z : List Byte} (hdigest : sha384 chain = x.peerDigest) (hsound : Config.chainVerifies s.fuses.rootDigest chain x.peerSerial = true)
    (hz : ecdhX s.fuses.identity (Config.chainKey chain) = some z) : s.checkChain p chain =
      (s.setPort p { x with chainOk := true, linkKey := some (hkdf32 z (nonceSalt x.nonce x.peerNonce) linkLabel) }).activatePort p := by
  unfold State.checkChain
  dsimp only
  rw [hx, hdigest, hsound, hz, if_neg (by simp)]

theorem checkChain_of_unsound (hsound : Config.chainVerifies s.fuses.rootDigest chain x.peerSerial = false) :
    s.checkChain p chain = s.authFail p 1 := by
  unfold State.checkChain
  dsimp only
  rw [hx, hsound, if_pos (by simp)]

end

/-- A port in no job that fails its authentication ends no job. -/
theorem authFail_of_keying {step : Nat} (hst : (s.port p).st = 3) : ∃ e : Event,
    s.authFail p step = { s.setPort p { s.port p with st := 6, queue := [], linkKey := none } with
      host := { s.host with held := s.host.held ++ [e] } } ∧ e.code = 0x0B05 ∧ e.status = 0x0805 ∧ e.payload = toLe 1 p ++ toLe 1 step := by
  have hplain : ¬ ((s.port p).st = 4 ∨ (s.port p).st = 5) := by omega
  unfold State.authFail
  dsimp only
  rw [if_neg hplain]
  exact ⟨_, rfl, rfl, rfl, rfl⟩

/-- Port x holds its whole chain, and the chain verifies: it becomes ACTIVE with the link key (R513). -/
theorem tryChain_sound {x : Port} {chain z : List Byte} (hscrub : s.sec.scrub = none) (hqueue : x.queue = [])
    (hdigest : sha384 chain = x.peerDigest) (hnew : ∀ l, s.link (s.portCtx p) = some l → l.secret = none)
    (hsound : Config.chainVerifies s.fuses.rootDigest chain x.peerSerial = true)
    (hz : ecdhX s.fuses.identity (Config.chainKey chain) = some z) :
    OnlyPort s ((tryChain (s.setPort p x) p (some chain)).drainPort p) p
      { x with st := 4, chainOk := true, linkKey := some (hkdf32 z (nonceSalt x.nonce x.peerNonce) linkLabel) } := by
  have hport : (s.setPort p x).port p = x := by rw [State.port_setPort, if_pos rfl]
  refine onlyPort_of_eq ?_
  rw [tryChain, checkChain_of_sound hport hdigest hsound hz, State.setPort_setPort]
  generalize hy : ({ x with chainOk := true, linkKey := some (hkdf32 z (nonceSalt x.nonce x.peerNonce) linkLabel) } : Port) = y
  have hactive : (s.setPort p y).activatePort p = s.setPort p { y with st := 4 } := by
    rw [activatePort_of_no_secret (s := s.setPort p y) hnew, State.port_setPort, if_pos rfl, State.setPort_setPort]
  rw [hactive, ← hy]
  exact drainPort_setPort_of_empty hscrub hqueue

/-- One whose chain does not verify fails, and says so (R521, R546). -/
theorem tryChain_unsound {x : Port} {chain : List Byte} {t : State} (hst : x.st = 3)
    (hsound : Config.chainVerifies s.fuses.rootDigest chain x.peerSerial = false)
    (ht : t = (tryChain (s.setPort p x) p (some chain)).drainPort p) :
    (t.port p).st = 6 ∧ (t.port p).linkKey = none ∧
      ∃ e : Event, t.host.held = s.host.held ++ [e] ∧ e.code = 0x0B05 ∧ e.status = 0x0805 ∧ e.payload = toLe 1 p ++ toLe 1 1 := by
  have hport : (s.setPort p x).port p = x := by rw [State.port_setPort, if_pos rfl]
  have hkeying : ((s.setPort p x).port p).st = 3 := (congrArg Port.st hport).trans hst
  rw [tryChain, checkChain_of_unsound hport hsound] at ht
  obtain ⟨e, hfail, hcode, hstatus, hpayload⟩ := authFail_of_keying (step := 1) hkeying
  generalize (s.setPort p x).authFail p 1 = u at ht hfail
  have hfailed : u.port p = { (s.setPort p x).port p with st := 6, queue := [], linkKey := none } := by
    rw [hfail]
    refine (State.port_setPort ..).trans ?_
    rw [if_pos rfl]
  have hheld : u.host.held = s.host.held ++ [e] := by
    rw [hfail]
    rfl
  have hdrain := drained_drainPort u p
  have hkey : ((u.drainPort p).port p).linkKey = (u.port p).linkKey := by
    rw [← hdrain.here]
    rfl
  subst ht
  refine ⟨?_, ?_, e, (congrArg HostPort.held (portWork_drainPort u p).host_eq).trans hheld, hcode, hstatus, hpayload⟩
  · rw [hdrain.here.st_eq, hfailed]
  · rw [hkey, hfailed]

section
variable {m b : List Byte} {y : Port} {fs : List (Nat × List Byte)} (hb : b = flitPayload m) (ha : Arrives s p m 5 y)
include hb ha

theorem keyChainFragment_collects (hst : y.st = 3) (hopen : y.chainOk = false) (hkind : leAt b 0 1 = 1) (hqueue : y.queue = [])
    (hfs : fs = y.frags.filter (fun f => f.1 != leAt b 1 1) ++ [(leAt b 1 1, bytesAt b 4 (Nat.min 112 (leAt b 2 2)))]) (hpart : chainOf fs = none) :
    Answers (.keyChainFragment p m) s fun t => OnlyPort s t p { y with frags := fs } := by
  refine ⟨_, exec_keyChainFragment hb ha hst hopen hkind hfs, onlyPort_of_eq ?_⟩
  rw [hpart]
  exact drainPort_setPort_of_empty ha.scrub hqueue

theorem keyJobSecret_keeps {j : Job} {l : JobLink} {k sec : List Byte} (hj : s.job (s.portCtx p) = some j)
    (hl : s.link (s.portCtx p) = some l) (hnew : l.secret = none) (hk : y.linkKey = some k) (hkind : leAt b 0 1 = 2)
    (hopen : gcmOpen k (bytesAt b 4 12) (b.take 4) (bytesAt b 16 48) (bytesAt b 64 16) = some sec) :
    Answers (.keyJobSecret p m) s fun t =>
      t.link (s.portCtx p) = some { l with secret := some sec, key := some (trafficKey sec j.linkNo) } := by
  have hexec : exec (.keyJobSecret p m) s = .next (((s.setPort p y).gotSecret (s.portCtx p) p sec).drainPort p) := by
    refine (noUnit_of (by simpa using ha.port) _).trans (congrArg Host.Outcome.next ?_)
    rw [ha.receive_sequenced (by decide) (by decide), ← hb]
    have hctx : (s.setPort p y).portCtx p = s.portCtx p := rfl
    have hlink : (s.setPort p y).link (s.portCtx p) = some l := hl
    dsimp only
    rw [hctx, hlink, State.port_setPort, if_pos rfl, hk]
    dsimp only
    rw [if_neg (by simp [hkind, hnew]), hopen]
  refine ⟨_, hexec, ((portWork_drainPort ..).link_eq _).trans ?_⟩
  have hjob : (s.setPort p y).job (s.portCtx p) = some j := hj
  have hlink : (s.setPort p y).link (s.portCtx p) = some l := hl
  unfold State.gotSecret
  rw [hjob, hlink]
  dsimp only
  refine ((portWork_foldl _ (fun u q => ?_) _ _).link_eq _).trans ?_
  · split
    · exact portWork_askIv u q
    · exact .refl u
  · refine (Map.find_put ..).trans (if_pos rfl)

end

/-! ## PORT_EN (R519, R523, R602, R655) -/

/-- From s to t PORT_EN and MAX_VERSION stay. -/
def SameEnables (s t : State) : Prop := t.rz.portEn = s.rz.portEn ∧ t.rz.maxVersion = s.rz.maxVersion

theorem SameEnables.refl (s : State) : SameEnables s s := ⟨rfl, rfl⟩

theorem SameEnables.trans {s t u : State} (h : SameEnables s t) (k : SameEnables t u) : SameEnables s u := ⟨k.1.trans h.1, k.2.trans h.2⟩

theorem sameEnables_of_rz {t : State} (h : t.rz = s.rz) : SameEnables s t := ⟨congrArg Rz.portEn h, congrArg Rz.maxVersion h⟩

theorem sameEnables_foldl {α : Type} (f : State → α → State) (hf : ∀ s a, SameEnables s (f s a)) (l : List α) (s : State) :
    SameEnables s (l.foldl f s) := by
  induction l generalizing s with
  | nil => exact .refl s
  | cons a l ih => exact (hf s a).trans (ih (f s a))

theorem rz_jobFatal (s : State) (c source kind status addr detail : Nat) : (s.jobFatal c source kind status addr detail).rz = s.rz := by
  unfold State.jobFatal
  dsimp only
  have hdump (u : State) (d : DumpCause) : (u.startDump d).rz = u.rz := by
    obtain ⟨x, hx⟩ := startDump_eq u d
    rw [hx]
  exact (hdump ..).trans (steady_endJob ..).rz_eq

theorem sameEnables_failPort (s : State) (p reason : Nat) : SameEnables s (s.failPort p reason) := by
  unfold State.failPort
  dsimp only
  split
  · refine SameEnables.trans ?_ (sameEnables_of_rz (rz_jobFatal _ _ _ _ _ _ _))
    exact ⟨rfl, rfl⟩
  · exact ⟨rfl, rfl⟩

theorem sameEnables_applyEnable (s : State) (p : Nat) : SameEnables s (s.applyEnable p) := by
  unfold State.applyEnable
  dsimp only
  split
  · split
    · exact ⟨rfl, rfl⟩
    · exact .refl s
  · split
    · exact .refl s
    · split
      · exact (sameEnables_failPort s p 3).trans ⟨rfl, rfl⟩
      · exact ⟨rfl, rfl⟩

theorem sameEnables_portDomain (s : State) {h : Nat} (hh : h < 2) : SameEnables s (s.portDomain h) := by
  unfold State.portDomain
  split
  · rw [domainOff_of_bare (by omega) (by omega) (by omega)]
    split <;> exact ⟨rfl, rfl⟩
  · exact ⟨rfl, rfl⟩

theorem writeRzlCtrl_sets (s : State) (v : W32) :
    (s.writeRzlCtrl v).rz.portEn = bits v.toNat 15 0 ∧ (s.writeRzlCtrl v).rz.maxVersion = bits v.toNat 17 16 := by
  have hsame : SameEnables { s with rz := { s.rz with portEn := bits v.toNat 15 0, maxVersion := bits v.toNat 17 16 } } (s.writeRzlCtrl v) :=
    (sameEnables_foldl _ sameEnables_applyEnable _ _).trans
      ((sameEnables_portDomain _ (by decide)).trans (sameEnables_portDomain _ (by decide)))
  exact hsame

theorem portEnWrite_unlocked {v : W32} (hw : Writable s 0x110004) (hlock : s.glb.lock = false) :
    exec (.portEnWrite v) s = .next (s.writeRzlCtrl v) := by
  refine congrArg Host.Outcome.next ((barWrite32_of_writable hw ..).trans ?_)
  rw [State.unlocked, hlock]
  rfl

theorem portEnWrite_locked {v : W32} (hw : Writable s 0x110004) (hlock : s.glb.lock = true) :
    exec (.portEnWrite v) s = .next { s with glb := { s.glb with denied := true, setAt := Map.put s.glb.setAt 0x28 (s.boot.edges / 8) } } := by
  refine congrArg Host.Outcome.next ((barWrite32_of_writable hw ..).trans ?_)
  rw [State.unlocked, hlock]
  rfl

/-- Settles O44: the flits of training and keys by what reception does with them, the losses of lock port by port, and PORT_EN because no
port's failure touches it (`sameEnables_applyEnable`). -/
theorem linkStatesComplete : Obligations.LinkStatesComplete := by
  unfold Obligations.LinkStatesComplete
  intro p s m b x y hx hb
  refine ⟨?train, ?part, ?chain, ?secret, ?up, ?attempt, ?active, ?idle, lrefclkLoss_unlocks s, ?recovered, ?timeout, ?enabled, ?locked⟩
  case train => exact fun v ha hst hv hshared _ => trainReceive_takes hb ha hst hv hshared
  case part => exact fun fs ha hst hopen hkind hqueue hfs hpart => keyChainFragment_collects hb ha hst hopen hkind hqueue hfs hpart
  case chain =>
    intro fs chain ha hst hopen hkind hqueue hfs hchain hdigest hnew
    have hexec := exec_keyChainFragment hb ha hst hopen hkind hfs
    rw [hchain] at hexec
    exact ⟨_, hexec, fun z hsound hz => tryChain_sound ha.scrub hqueue hdigest hnew hsound hz, fun hsound =>
      tryChain_unsound (x := { y with frags := fs }) hst hsound rfl⟩
  case secret => exact fun j l k sec ha hj hl hnew hk hkind hopen => keyJobSecret_keeps hb ha hj hl hnew hk hkind hopen
  case up => exact fun hp hst hversion hnonce hclock hon hlink => linkTrainingDone_ups hp hx hst hversion hnonce hclock hon hlink
  case attempt => exact fun hp hst => trainingAttemptTimeout_trains hp hx hst
  case active =>
    intro hp hst
    subst hx
    refine ⟨_, noUnit_of (by simpa using hp) _, onlyPort_of_eq ?_⟩
    rw [State.loseLock, if_neg (by omega), enterRecovery_of_active hst]
  case idle =>
    intro hp hst
    subst hx
    refine ⟨_, noUnit_of (by simpa using hp) _, ?_⟩
    show ((s.loseLock p).port p).st = 1
    rw [st_loseLock, if_pos rfl, hst]
    rfl
  case recovered => exact fun hp hst hclock => linkRecovered_resumes hp hx hst hclock
  case timeout => exact fun hp hst => recoveryTimeout_fails hp hx hst
  case enabled =>
    intro v hanswers hscrub hlock
    exact ⟨_, portEnWrite_unlocked ⟨hanswers, hscrub⟩ hlock, writeRzlCtrl_sets s v⟩
  case locked => exact fun v hanswers hscrub hlock => ⟨_, portEnWrite_locked ⟨hanswers, hscrub⟩ hlock, rfl⟩

end Sys2Proof.Slice0

/-!
PROOFS. The registers of the management blocks (R36 to R38, R587, R599, R623, R639 to R641, R655): the statement O48.
-/
namespace Sys2Proof.Slice0
open Sys2Proof Sys2Proof.Machine

variable {s : State} {v : W32}

/-! ## The mode and the planting plan (R36 to R38, R462, R623) -/

theorem mgtModeReqWrite_of_mode (hw : Writable s 0x10040) (hmode : bits v.toNat 1 0 ≤ 1) : exec (.mgtModeReqWrite v) s = .next
    { s with mgt := { s.mgt with modeReq := bits v.toNat 1 0, pend := bits v.toNat 1 0 != s.mgt.modeCur } } := by
  refine congrArg Host.Outcome.next ((barWrite32_of_writable hw ..).trans ?_)
  exact if_neg (by omega)

/-- A scrub leaves the management registers and pauses every ACTIVE ring set, since it is a cause of the whole device. -/
theorem beginScrub_pauses (s : State) (mask reason : Nat) : (s.beginScrub mask reason).mgt = s.mgt ∧
    ∀ c, c < 16 → (s.ring c).st = 1 → ((s.beginScrub mask reason).ring c).st = 2 := by
  unfold State.beginScrub
  dsimp only
  have hmgt := State.onHalves_mgt s mask fun _ x => { x with flags := 2 }
  have hring (c : Nat) := congrArg (fun h : HostPort => Map.get RingSet.init h.sets c) (State.onHalves_host s mask fun _ x => { x with flags := 2 })
  generalize s.onHalves mask _ = u at hmgt hring ⊢
  refine ⟨((steady_pauseRings _).mgt_eq).trans hmgt, fun c hc hactive => (st_pauseRings rfl hc).trans (if_pos ?_)⟩
  exact (congrArg RingSet.st (hring c)).trans hactive

theorem exec_modeChangeStart_of_may (hmay : s.modeMayChange = true) :
    exec .modeChangeStart s = .next (State.beginScrub { s with mgt := { s.mgt with changing := true } } 3 2) := by
  show execModeChangeStart s = _
  rw [execModeChangeStart, if_neg (by simp [hmay])]

theorem modeChangeStart_scrubs (hmay : s.modeMayChange = true) : Answers .modeChangeStart s fun t =>
    t.mgt = { s.mgt with changing := true } ∧ t.sec.scrub = some ⟨3, 2, 67036⟩ ∧
      ∀ c, c < 16 → (s.ring c).st = 1 → (t.ring c).st = 2 := by
  refine ⟨_, exec_modeChangeStart_of_may hmay, ?_⟩
  obtain ⟨hsec, -⟩ := beginScrub_fields { s with mgt := { s.mgt with changing := true } } 3 2
  obtain ⟨hmgt, hpauses⟩ := beginScrub_pauses { s with mgt := { s.mgt with changing := true } } 3 2
  generalize State.beginScrub _ 3 2 = t at hsec hmgt hpauses ⊢
  exact ⟨hmgt, congrArg Sec.scrub hsec, hpauses⟩

section
variable (hw : Writable s 0x10020) (hgo : bit v.toNat 0 = true) (hidle : s.mgt.busy = false)
include hw hgo hidle

theorem mgtPlanWrite_of_sound {b : List Byte} (hlock : s.glb.lock = false) (hjobs : s.jobs = []) (hread : s.hostRead s.mgt.src 4096 = some b)
    (hcheck : crc32c (b.take 4092) = leAt b 4092 4) :
    exec (.mgtPlanWrite v) s = .next { s with mgt := { s.mgt with busy := true, buffer := b } } := by
  refine congrArg Host.Outcome.next ((barWrite32_of_writable hw ..).trans ?_)
  unfold State.writePlanCmd
  dsimp only
  rw [if_neg (by simp [hgo, hidle]), if_neg (by simp [hlock, hjobs]), hread]
  exact if_neg (by simp [hcheck])

theorem mgtPlanWrite_of_held (hheld : s.glb.lock = true ∨ s.jobs ≠ []) :
    exec (.mgtPlanWrite v) s = .next { s with mgt := { s.mgt with status := 0x0803 } } := by
  refine congrArg Host.Outcome.next ((barWrite32_of_writable hw ..).trans ?_)
  unfold State.writePlanCmd
  dsimp only
  rw [if_neg (by simp [hgo, hidle]), if_pos (by simpa using hheld)]

end

theorem planWriteDone_of_busy (hbusy : s.mgt.busy = true) : exec .planWriteDone s = .next { s with
    flash := Memory.writeBytes s.flash 0 s.mgt.buffer
    mgt := { s.mgt with busy := false, buffer := [], status := 0, pending := true } } :=
  congrArg Host.Outcome.next (if_neg (by simp [hbusy]))

/-! ## SETUP_LOCK, the units to restore and the throttle request (R599, R639, R655) -/

theorem glbLockWrite_locks (hw : Writable s 0x28) : exec (.glbLockWrite v) s = .next { s with glb := { s.glb with
    lock := s.glb.lock || bit v.toNat 1
    denied := s.glb.denied && !(bit v.toNat 2 && Map.find s.glb.setAt 0x28 != some (s.boot.edges / 8)) } } :=
  congrArg Host.Outcome.next (barWrite32_of_writable hw ..)

theorem rasRetireCmd_of_retired {m : Mark} (hm : m = ⟨b2n (bit v.toNat 10), bits v.toNat 9 0, 0x03⟩) (hw : Writable s 0x12004C)
    (hgo : bit v.toNat 11 = true) (hretired : m ∈ s.ras.retired) (hnew : m ∉ s.ras.restore) :
    exec (.rasRetireCmd v) s = .next { s with ras := { s.ras with restore := s.ras.restore ++ [m] } } := by
  subst hm
  refine congrArg Host.Outcome.next ((barWrite32_of_writable hw ..).trans ?_)
  have hany : (s.ras.retired.any fun r => r.kind == b2n (bit v.toNat 10) && r.unit == bits v.toNat 9 0 && r.cause == 0x03) = true :=
    List.any_eq_true.mpr ⟨_, hretired, by simp⟩
  exact if_pos (by simp [hgo, hany, hnew])

theorem ckpThrReqWrite_redecides (hw : Writable s 0x20004) : exec (.ckpThrReqWrite v) s =
    .next ({ s with pwr := { s.pwr with hostReq := bits v.toNat 11 8 } } : State).redecide :=
  congrArg Host.Outcome.next (barWrite32_of_writable hw ..)

/-! ## The state dump (R640, R641, R649) -/

theorem exec_dmpGo_of_writable (hw : Writable s 0x14000C) : exec (.dmpGo v) s = .next (s.writeDmpCtrl v) :=
  congrArg Host.Outcome.next (barWrite32_of_writable hw ..)

theorem dmpGo_starts {u : State} (hu : u = { s with dmp := { s.dmp with arm := bit v.toNat 0 } }) (hw : Writable s 0x14000C)
    (hgo : bit v.toNat 1 = true) (harm : bit v.toNat 0 = true) (hidle : s.dmp.st ≠ 1) (hhalt : s.boot.halt = .none) :
    exec (.dmpGo v) s = .next
      { u with dmp := { u.dmp with st := 1, status := 0, doneBytes := 0, image := u.dumpImage ⟨1, 0, 0, 0, 0, 2 ^ 64 - 1⟩ } } := by
  subst hu
  rw [exec_dmpGo_of_writable hw, State.writeDmpCtrl, if_pos hgo]
  exact congrArg Host.Outcome.next (if_neg (by simp [harm, hidle, hhalt]))

theorem dmpGo_arms (hw : Writable s 0x14000C) (hgo : bit v.toNat 1 = false) :
    exec (.dmpGo v) s = .next { s with dmp := { s.dmp with arm := bit v.toNat 0 } } := by
  rw [exec_dmpGo_of_writable hw, State.writeDmpCtrl, if_neg (by simp [hgo])]

/-- The end of a dump, `n` bytes of which stand in the host's buffer: DONE, its status, and DUMP_DONE. -/
def dumpEnded (s : State) (status n : Nat) : State :=
  State.postWith { s.setsBit 0x140010 with
      dmp := { s.dmp with st := 2, doneBit := true, status := status, arm := false, doneBytes := n, image := [] } }
    0 s.primarySource 0x0A0A status (toLe 4 n ++ toLe 2 0) false

/-- DUMP_DONE carries the status and the bytes written. -/
theorem posts_dumpEnded (s : State) (status n : Nat) : Posts s (dumpEnded s status n) 0x0A0A status (toLe 4 n ++ toLe 2 0) :=
  ⟨_, rfl, rfl, rfl, rfl, rfl, rfl⟩

theorem dumpWriteComplete_writes (hst : s.dmp.st = 1) (hsize : 81920 ≤ s.dmp.size) (hcan : s.hostCanWrite = true) :
    exec .dumpWriteComplete s = .next (dumpEnded (s.hostWrite s.dmp.base s.dmp.image) 0 s.dmp.image.length).regrowPoll := by
  have hstatus : s.dumpStatus = 0 := by rw [State.dumpStatus, if_neg (by omega), if_pos hcan]
  show execDumpWriteComplete s = _
  unfold execDumpWriteComplete State.hostWrite
  dsimp only
  rw [if_neg (by omega), hstatus, if_pos rfl, if_pos rfl, if_pos hcan]
  rfl

theorem dumpWriteComplete_abandons (hst : s.dmp.st = 1) (hsize : s.dmp.size < 81920) :
    exec .dumpWriteComplete s = .next (dumpEnded s 0x000B 0).regrowPoll := by
  have hstatus : s.dumpStatus = 0x000B := if_pos hsize
  show execDumpWriteComplete s = _
  unfold execDumpWriteComplete
  dsimp only
  rw [if_neg (by omega), hstatus, if_neg (by decide), if_neg (by decide)]
  rfl

/-! ## Test patterns (R587) -/

theorem exec_ensTestWrite_of_writable (hw : Writable s 0x70008) : exec (.ensTestWrite v) s = .next (s.writeEnsTest v.toNat) :=
  congrArg Host.Outcome.next (barWrite32_of_writable hw ..)

/-- In FACTORY a change of the pattern restarts the source. -/
theorem ensTestWrite_restarts (hw : Writable s 0x70008) (hlc : s.fuses.lc = 0)
    (hnew : bit v.toNat 0 ≠ s.ens.testEn ∨ bits v.toNat 2 1 ≠ s.ens.pattern) :
    Answers (.ensTestWrite v) s fun t => t.ens.testEn = bit v.toNat 0 ∧ t.ens.pattern = bits v.toNat 2 1 ∧ t.ens.startup = true ∧
      t.ens.settling = true ∧ { t with ens := s.ens } = s := by
  refine ⟨_, exec_ensTestWrite_of_writable hw, ?_⟩
  unfold State.writeEnsTest
  dsimp only
  rw [if_neg (by omega), if_neg (by tauto)]
  exact ⟨rfl, rfl, rfl, rfl, rfl⟩

theorem ensTestWrite_of_fielded (hw : Writable s 0x70008) (hlc : s.fuses.lc ≠ 0) : exec (.ensTestWrite v) s = .next s := by
  rw [exec_ensTestWrite_of_writable hw, State.writeEnsTest, if_pos hlc]

/-- Settles O48: each register that takes the write has the effect of its case; a mode change pauses every ACTIVE ring set because it is a
cause of the whole device (`st_pauseRings`). -/
theorem managementWritesComplete : Obligations.ManagementWritesComplete := by
  unfold Obligations.ManagementWritesComplete
  intro s v
  refine ⟨?mode, ?change, ?plan, ?held, ?written, ?lock, ?restore, ?dump, ?arm, ?dumped, ?short, ?throttle, ?pattern, ?fielded⟩
  case mode => exact mgtModeReqWrite_of_mode
  case change => exact modeChangeStart_scrubs
  case plan => exact fun b hw hgo hidle => mgtPlanWrite_of_sound hw hgo hidle
  case held => exact mgtPlanWrite_of_held
  case written => exact planWriteDone_of_busy
  case lock => exact glbLockWrite_locks
  case restore => exact fun m => rasRetireCmd_of_retired
  case dump => exact fun u => dmpGo_starts
  case arm => exact dmpGo_arms
  case dumped =>
    intro hst hsize hcan
    refine ⟨_, dumpWriteComplete_writes hst hsize hcan, _, rfl, rfl, rfl, rfl, rfl, rfl, rfl, ?_⟩
    rw [State.hostWrite, if_pos hcan]
    exact posts_dumpEnded ..
  case short => exact fun hst hsize => ⟨_, dumpWriteComplete_abandons hst hsize, _, rfl, rfl, rfl, rfl, posts_dumpEnded ..⟩
  case throttle => exact ckpThrReqWrite_redecides
  case pattern => exact ensTestWrite_restarts
  case fielded => exact ensTestWrite_of_fielded

end Sys2Proof.Slice0

/-!
PROOFS. How a change of one job passes through the device, and what the actions of a step boundary leave of it (R290, R324, R412, R705).
-/
namespace Sys2Proof.Slice0
open Sys2Proof Sys2Proof.Machine

/-! ## Relations between the job before and the job after -/

/-- Where s holds a job of context c, t holds one that R relates to it. -/
def JobGoes (R : Job → Job → Prop) (c : Nat) (s t : State) : Prop := ∀ j, s.job c = some j → ∃ k, t.job c = some k ∧ R j k

section
variable {R : Job → Job → Prop} {c : Nat} {s t u : State}

theorem jobGoes_onJob {f : Job → Job} (hf : ∀ j, R j (f j)) : JobGoes R c s (s.onJob c f) :=
  fun j hj => ⟨f j, job_onJob hj f, hf j⟩

variable (hrefl : ∀ j, R j j)

include hrefl in
theorem jobGoes_of_jobs (h : t.jobs = s.jobs) : JobGoes R c s t := fun j hj => ⟨j, (job_of_jobs h c).trans hj, hrefl j⟩

variable (htrans : ∀ {j k l}, R j k → R k l → R j l)
include htrans

theorem JobGoes.trans (h : JobGoes R c s t) (g : JobGoes R c t u) : JobGoes R c s u := by
  intro j hj
  obtain ⟨k, hk, hjk⟩ := h j hj
  obtain ⟨l, hl, hkl⟩ := g k hk
  exact ⟨l, hl, htrans hjk hkl⟩

include hrefl in
theorem jobGoes_foldl {α : Type} (f : State → α → State) (hf : ∀ s a, JobGoes R c s (f s a)) (l : List α) (s : State) :
    JobGoes R c s (l.foldl f s) := by
  induction l generalizing s with
  | nil => exact jobGoes_of_jobs hrefl rfl
  | cons a l ih => exact (hf s a).trans htrans (ih (f s a))

end

/-- From j to k the step engine stands where it stood: the step in progress, the next step, the job's state and what waits for it. -/
structure SameEngine (j k : Job) : Prop where
  run : k.run = j.run
  stepNext : k.stepNext = j.stepNext
  st : k.st = j.st
  waiting : k.waiting = j.waiting
  closing : k.closing = j.closing

theorem SameEngine.refl (j : Job) : SameEngine j j := ⟨rfl, rfl, rfl, rfl, rfl⟩

theorem SameEngine.trans {j k l : Job} (h : SameEngine j k) (g : SameEngine k l) : SameEngine j l :=
  ⟨g.run.trans h.run, g.stepNext.trans h.stepNext, g.st.trans h.st, g.waiting.trans h.waiting, g.closing.trans h.closing⟩

/-- The engine and every entry stand where they stood: POS of a stream and SWEEP of a chain. -/
structure SamePlaces (j k : Job) : Prop where
  engine : SameEngine j k
  pos : ∀ i, (k.stream i).pos = (j.stream i).pos
  sweep : ∀ i, (k.stream i).sweep = (j.stream i).sweep

theorem SamePlaces.refl (j : Job) : SamePlaces j j := ⟨.refl j, fun _ => rfl, fun _ => rfl⟩

theorem SamePlaces.trans {j k l : Job} (h : SamePlaces j k) (g : SamePlaces k l) : SamePlaces j l :=
  ⟨h.engine.trans g.engine, fun i => (g.pos i).trans (h.pos i), fun i => (g.sweep i).trans (h.sweep i)⟩

/-- A change beside the tray. -/
theorem samePlaces_of_tray {j k : Job} (h : SameEngine j k) (htray : k.tray = j.tray) : SamePlaces j k := by
  have hstream (i : Nat) : k.stream i = j.stream i := congrArg (fun m => Map.get Stream.free m i) htray
  exact ⟨h, fun i => congrArg Stream.pos (hstream i), fun i => congrArg Stream.sweep (hstream i)⟩

theorem sameEngine_setStream (j : Job) (i : Nat) (t : Stream) : SameEngine j (j.setStream i t) := ⟨rfl, rfl, rfl, rfl, rfl⟩

theorem samePlaces_setStream {j : Job} {i : Nat} {t : Stream} (hpos : t.pos = (j.stream i).pos) (hsweep : t.sweep = (j.stream i).sweep) :
    SamePlaces j (j.setStream i t) := by
  refine ⟨sameEngine_setStream .., fun x => ?_, fun x => ?_⟩ <;> rw [stream_setStream] <;> split
  · next h => rw [hpos, h]
  · rfl
  · next h => rw [hsweep, h]
  · rfl

theorem samePlaces_setBed (j : Job) (b : Nat) (x : Bed) : SamePlaces j (j.setBed b x) := by
  unfold Job.setBed
  split <;> exact samePlaces_of_tray ⟨rfl, rfl, rfl, rfl, rfl⟩ rfl

theorem samePlaces_foldl {α : Type} (f : Job → α → Job) (hf : ∀ j a, SamePlaces j (f j a)) (l : List α) (j : Job) :
    SamePlaces j (l.foldl f j) := by
  induction l generalizing j with
  | nil => exact .refl j
  | cons a l ih => exact (hf j a).trans (ih (f j a))

/-! ## The boundary's actions (R237, R290, R324) -/

variable {s : State} {c : Nat} {j : Job}

theorem samePlaces_promptsReady (j : Job) : SamePlaces j j.promptsReady := by
  refine samePlaces_foldl _ (fun k kv => ?_) _ j
  have hready : SamePlaces k (k.setStream kv.1 { k.stream kv.1 with st := 2, readyStep := k.stepNext, fetched := false }) :=
    samePlaces_setStream rfl rfl
  exact hready.trans (samePlaces_of_tray ⟨rfl, rfl, rfl, rfl, rfl⟩ rfl)

theorem samePlaces_spareHeld (j : Job) : SamePlaces j j.spareHeld := by
  unfold Job.spareHeld
  split
  · split
    · exact .refl j
    · exact samePlaces_setBed ..
  · exact .refl j

theorem job_flipBed (s : State) (c : Nat) (j : Job) (b : Nat) : ∃ k, (s.flipBed c j b).job c = some k ∧ SamePlaces j k := by
  unfold State.flipBed
  refine ⟨_, (job_of_jobs (State.postJob_jobs ..) c).trans (job_setJob_same ..), SamePlaces.trans ?_ (samePlaces_setBed ..)⟩
  split
  · exact samePlaces_setBed ..
  · exact .refl j

theorem jobGoes_flip (s : State) (c : Nat) : JobGoes SamePlaces c s (s.flip c) := by
  intro j hj
  simp only [State.flip, hj]
  split
  · exact job_flipBed s c j 0
  · split
    · exact job_flipBed s c j 1
    · exact ⟨j, hj, .refl j⟩

/-- The chains of a run that ends are READY again, after the sweeps that they have made. -/
theorem jobGoes_endGibbsRun (s : State) (c : Nat) (r : GRun) (step : Nat) : JobGoes SamePlaces c s (s.endGibbsRun c r step) := by
  refine jobGoes_onJob fun j => ?_
  have hchains := samePlaces_foldl (fun (j : Job) i => j.setStream i { j.stream i with
    st := 2, runs := ((j.stream i).runs + 1) % 2 ^ 32, readyStep := step }) (fun k i => samePlaces_setStream rfl rfl) r.chains j
  exact hchains.trans (samePlaces_of_tray ⟨rfl, rfl, rfl, rfl, rfl⟩ rfl)

theorem jobGoes_endEmptyRun (s : State) (c : Nat) : JobGoes SamePlaces c s (s.endEmptyRun c) := by
  intro j hj
  simp only [State.endEmptyRun, hj]
  split
  · split
    · exact jobGoes_endGibbsRun s c _ _ j hj
    · exact ⟨j, hj, .refl j⟩
  · exact ⟨j, hj, .refl j⟩

/-- A boundary at which no command waits. -/
theorem jobGoes_boundaryActions (s : State) (c : Nat) : JobGoes SamePlaces c s (s.boundaryActions c []) := by
  refine JobGoes.trans .trans ?_ (jobGoes_endEmptyRun _ c)
  refine JobGoes.trans .trans ?_ (jobGoes_onJob samePlaces_spareHeld)
  exact (jobGoes_flip s c).trans .trans (jobGoes_onJob samePlaces_promptsReady)

/-! ## The capture that is due (R412, R413, R425) -/

theorem jobGoes_mirrorCapture (s : State) (c : Nat) (j : Job) (q : Nat) : JobGoes SamePlaces c s (s.mirrorCapture c j q) := by
  unfold State.mirrorCapture
  dsimp only
  split
  · exact jobGoes_of_jobs .refl rfl
  · refine JobGoes.trans .trans ?_ (jobGoes_onJob fun k => samePlaces_of_tray ⟨rfl, rfl, rfl, rfl, rfl⟩ rfl)
    refine jobGoes_of_jobs .refl (Eq.trans (foldl_jobs _ _ _ ?_) (foldl_jobs _ _ _ ?_)) <;> exact fun _ _ => rfl

theorem jobGoes_captureIfDue (s : State) (c : Nat) : JobGoes SamePlaces c s (s.captureIfDue c) := by
  intro j hj
  simp only [State.captureIfDue, hj]
  split
  · simp only [State.capture, hj]
    refine JobGoes.trans .trans (jobGoes_mirrorCapture s c j _) (jobGoes_onJob fun k => ?_) j hj
    exact samePlaces_of_tray ⟨rfl, rfl, rfl, rfl, rfl⟩ rfl
  · exact ⟨j, hj, .refl j⟩

/-! ## The end of a step (R290) -/

theorem jobGoes_postBedDenied (s : State) (c step : Nat) : JobGoes SamePlaces c s (s.postBedDenied c step) := by
  intro j hj
  simp only [State.postBedDenied, hj]
  split
  · exact ⟨j, hj, .refl j⟩
  · exact ⟨_, (job_of_jobs (State.postJob_jobs ..) c).trans (job_setJob_same ..), samePlaces_of_tray ⟨rfl, rfl, rfl, rfl, rfl⟩ rfl⟩

/-- The job once step `step` is over. -/
def stepOver (j : Job) (step : Nat) : Job :=
  { j with run := none, stepNext := step + 1
           regrow := j.regrow.map fun r => if r.stage = 8 then { r with done := r.done + 1 } else r }

/-- The job at the boundary that makes ready for the next step: the cache is refilled, and its token records are counted (R257, R461). -/
def readyForStep (j : Job) : Job := j.refill.noteNeed (j.refill.nextGibbs j.refill.formBatch.batch) j.refill.formBatch

/-- What the boundary after a step does with the commands `ws`: its actions, the snapshots, and the capture that is due. -/
def boundaryDone (s : State) (c halves : Nat) (ws : List Waiting) : State :=
  (((s.boundaryActions c ws).onJob c readyForStep).takeSnaps halves).captureIfDue c

theorem jobGoes_boundaryDone (s : State) (c halves : Nat) : JobGoes SamePlaces c s (boundaryDone s c halves []) := by
  refine JobGoes.trans .trans ?_ (jobGoes_captureIfDue _ c)
  refine JobGoes.trans .trans ?_ (jobGoes_of_jobs .refl (sameWork_takeSnaps ..).jobs)
  refine JobGoes.trans .trans (jobGoes_boundaryActions s c) (jobGoes_onJob fun k => ?_)
  exact samePlaces_of_tray ⟨rfl, rfl, rfl, rfl, rfl⟩ rfl

theorem boundary_of_running {step : Nat} (hj : (s.postBedDenied c step).job c = some j) (hst : j.st = .running) :
    s.boundary c step = (boundaryDone (((s.postBedDenied c step).setJob c (stepOver j step)).setJob c { stepOver j step with waiting := [] })
      c j.halves j.waiting).tryClose c := by
  have hopen : (stepOver j step).st ≠ .ended := by
    show j.st ≠ .ended
    rw [hst]
    decide
  unfold State.boundary
  dsimp only
  rw [onJob_of_job hj, job_setJob_same]
  exact if_neg hopen

/-- The boundary after a step of an open job for which no command waits: the next step is due, and every entry stands where it stood. -/
theorem boundary_advances (hj : s.job c = some j) (hst : j.st = .running) (hwaiting : j.waiting = []) (hclosing : j.closing = none)
    (step : Nat) : ∃ k, (s.boundary c step).job c = some k ∧ k.run = none ∧ k.stepNext = step + 1 ∧
      (∀ i, (k.stream i).pos = (j.stream i).pos) ∧ ∀ i, (k.stream i).sweep = (j.stream i).sweep := by
  obtain ⟨j', hj', hdenied⟩ := jobGoes_postBedDenied s c step j hj
  obtain ⟨k, hk, hdone⟩ := jobGoes_boundaryDone _ c j'.halves _ (job_setJob_same
    ((s.postBedDenied c step).setJob c (stepOver j' step)) c { stepOver j' step with waiting := [] })
  rw [boundary_of_running hj' (hdenied.engine.st.trans hst), hdenied.engine.waiting, hwaiting,
    tryClose_of_open hk (hdone.engine.closing.trans (hdenied.engine.closing.trans hclosing))]
  exact ⟨k, hk, hdone.engine.run, hdone.engine.stepNext, fun i => (hdone.pos i).trans (hdenied.pos i),
    fun i => (hdone.sweep i).trans (hdenied.sweep i)⟩

end Sys2Proof.Slice0

/-!
PROOFS. The end of a step: the streams of a batch, the chains of a run, and the boundary after them (R240, R246 to R256, R310, R318, R323,
R324).
-/
namespace Sys2Proof.Slice0
open Sys2Proof Sys2Proof.Machine

variable {s : State} {c step : Nat} {j : Job} {ls : Logits}

/-! ## What a stream has ingested (R246 to R253) -/

theorem pos_scoreRecords (s : State) (c : Nat) (j : Job) (step i : Nat) (ls : Logits) (t : Stream) (p : Nat) (gs : List Nat) (last : Nat) :
    (s.scoreRecords c j step i ls t p gs last).stream.pos = t.pos := by
  induction gs generalizing t p last with
  | nil => rfl
  | cons g gs ih =>
    unfold State.scoreRecords
    split
    · exact ih ..
    · exact ih ..

/-- A stream advances by what it ingests, whatever state it leaves the step in. -/
theorem pos_endEntry (s : State) (c : Nat) (j : Job) (step i n : Nat) (t : Stream) (ls : Logits) :
    (s.endEntry c j step i n t ls).stream.pos = t.pos + n := by
  unfold State.endEntry
  dsimp only
  have hscored : (if t.kind = 2 then s.scoreRecords c j step i ls { t with pos := t.pos + n, pending := t.pending.drop n } t.pos
      (t.pending.take n) 0 else ⟨{ t with pos := t.pos + n, pending := t.pending.drop n }, []⟩ : StreamEnd).stream.pos = t.pos + n := by
    split
    · exact pos_scoreRecords ..
    · rfl
  generalize (if t.kind = 2 then _ else _ : StreamEnd) = r at hscored ⊢
  split
  · exact hscored
  · split
    · exact hscored
    · split <;> exact hscored

/-! ## Chunks and sealed pages (R196, R231) -/

/-- No page of the job is SUSPECT. -/
def NoSuspect (j : Job) : Prop := ∀ p, (j.page p).st ≠ 3

/-- From j to k the engine and the entries stay, and no page becomes SUSPECT. -/
structure SameStreams (j k : Job) : Prop where
  engine : SameEngine j k
  tray : k.tray = j.tray
  sound : NoSuspect j → NoSuspect k

theorem SameStreams.refl (j : Job) : SameStreams j j := ⟨.refl j, rfl, id⟩

theorem SameStreams.trans {j k l : Job} (h : SameStreams j k) (g : SameStreams k l) : SameStreams j l :=
  ⟨h.engine.trans g.engine, g.tray.trans h.tray, g.sound ∘ h.sound⟩

theorem sameStreams_takeChunks (n : Nat) (j : Job) : SameStreams j (j.takeChunks n).2 := by
  induction n generalizing j with
  | zero => exact .refl j
  | succ n ih => exact SameStreams.trans (k := j.takeChunk.2) ⟨⟨rfl, rfl, rfl, rfl, rfl⟩, rfl, id⟩ (ih j.takeChunk.2)

theorem sameStreams_moveChunks (j : Job) (old new : Stream) : SameStreams j (j.moveChunks old new).2 := by
  unfold Job.moveChunks
  exact (sameStreams_takeChunks ..).trans ⟨⟨rfl, rfl, rfl, rfl, rfl⟩, rfl, id⟩

theorem SameStreams.stream_eq {j k : Job} (h : SameStreams j k) (i : Nat) : k.stream i = j.stream i :=
  congrArg (fun m => Map.get Stream.free m i) h.tray

/-- The job whose page p is SEALED under a tag. -/
def sealedJob (j : Job) (p : Nat) (tag : W128) : Job :=
  { j.setPage p { j.page p with st := 2, sealSeq := (j.page p).sealSeq + 1, mirrored := false, validated := false, tag := tag } with
    sealedCount := j.sealedCount + 1
    mirror := if j.params.buddy = 0xFFFF then j.mirror else j.mirror ++ [⟨1, p - j.params.pageFirst, 64, j.nextCut⟩] }

theorem page_sealedJob (j : Job) (p q : Nat) (tag : W128) : (sealedJob j p tag).page q =
    if q = p then { j.page p with st := 2, sealSeq := (j.page p).sealSeq + 1, mirrored := false, validated := false, tag := tag }
    else j.page q := by
  rw [Job.page, sealedJob, Job.setPage, Map.get_set, Job.page, Job.page]

theorem sameStreams_sealedJob (j : Job) (p : Nat) (tag : W128) : SameStreams j (sealedJob j p tag) := by
  refine ⟨⟨rfl, rfl, rfl, rfl, rfl⟩, rfl, fun hsound q => ?_⟩
  rw [page_sealedJob]
  split
  · exact (by decide : 2 ≠ 3)
  · exact hsound q

theorem jobGoes_sealPage (s : State) (c p : Nat) : JobGoes SameStreams c s (s.sealPage c p) := by
  intro j hj
  have hjobs : (s.sealPage c p).jobs =
      (s.setJob c (sealedJob j p (s.pageTag c j p ((j.page p).sealSeq + 1) (s.lpxRead (p * 0x40000) 0x40000)))).jobs := by
    simp only [State.sealPage, hj, apply_ite State.jobs, State.sendMsg_jobs, ite_self]
    rfl
  exact ⟨_, (job_of_jobs hjobs c).trans (job_setJob_same ..), sameStreams_sealedJob ..⟩

/-! ## One stream leaves the step (R240, R248) -/

theorem hostCanWrite_linkChunks (s : State) (k : Job) (cs : List Nat) : (s.linkChunks k cs).hostCanWrite = s.hostCanWrite := by
  induction cs generalizing s with
  | nil => rfl
  | cons d ds ih =>
    cases ds with
    | nil => rfl
    | cons e es => exact ih (s.lpxWrite (k.chunkDpa d) 1 (toLe 8 (k.chunkDpa e)))

theorem hostCanWrite_putEntries (s : State) (k : Job) (cs : List Nat) (base p : Nat) (vs : List Nat) :
    (s.putEntries k cs base p vs).hostCanWrite = s.hostCanWrite := by
  induction vs generalizing s p with
  | nil => rfl
  | cons x vs ih =>
    exact ih (s.lpxWrite (k.chunkDpa (cs.getD ((p - base) / chunkEntries) 0) + 8 + 4 * (p % chunkEntries)) 1 (toLe 4 x)) (p + 1)

theorem hostCanWrite_sealPage (s : State) (c p : Nat) : (s.sealPage c p).hostCanWrite = s.hostCanWrite := by
  unfold State.sealPage
  split
  · rfl
  · dsimp only
    split <;> rfl

theorem suspectPage_of_noSuspect (hsound : NoSuspect j) (ps : List Nat) : (ps.any fun p => (j.page p).st == 3) = false := by
  simpa using fun p _ => hsound p

/-- The stream advances by what it has ingested; no other entry changes, and the host port goes on as before. -/
theorem endStream_advances (hj : s.job c = some j) (hsound : NoSuspect j) (i n : Nat) :
    (∃ k, (s.endStream c step ls i n).1.job c = some k ∧ SameEngine j k ∧ NoSuspect k ∧ SameEntries j k (· = i) ∧
      (k.stream i).pos = (j.stream i).pos + n) ∧ (s.endStream c step ls i n).1.hostCanWrite = s.hostCanWrite := by
  simp only [State.endStream, hj, suspectPage_of_noSuspect hsound, Bool.false_eq_true, if_false]
  have hmoved := sameStreams_moveChunks j (j.stream i) (s.endEntry c j step i n (j.stream i) ls).stream
  have hpos := pos_endEntry s c j step i n (j.stream i) ls
  generalize s.endEntry c j step i n (j.stream i) ls = r at hmoved hpos ⊢
  generalize j.moveChunks (j.stream i) r.stream = m at hmoved ⊢
  rw [writePending_setJob]
  refine ⟨?_, (foldl_hostCanWrite _ _ _ fun u p => hostCanWrite_sealPage u c p).trans
    ((hostCanWrite_putEntries ..).trans (hostCanWrite_linkChunks ..))⟩
  obtain ⟨k, hk, hsealed⟩ := jobGoes_foldl .refl .trans _ (fun u p => jobGoes_sealPage u c p) _ _ _ (job_setJob_same ..)
  refine ⟨k, hk, (hmoved.engine.trans (sameEngine_setStream ..)).trans hsealed.engine, hsealed.sound (hmoved.sound hsound), fun x hx => ?_, ?_⟩
  · rw [hsealed.stream_eq, stream_setStream, if_neg hx, hmoved.stream_eq]
  · rw [hsealed.stream_eq, stream_setStream_same]
    exact hpos

/-- Each stream of the batch advances by what it has ingested. -/
theorem endStreams_advance (ps : List (Nat × Nat)) (hnodup : (ps.map Prod.fst).Nodup) (recs : List (List Byte)) (hj : s.job c = some j)
    (hsound : NoSuspect j) :
    (∃ k, (State.endStreams c step ls ps (s, recs)).1.job c = some k ∧ SameEngine j k ∧ SameEntries j k (· ∈ ps.map Prod.fst) ∧
      ∀ e ∈ ps, (k.stream e.1).pos = (j.stream e.1).pos + e.2) ∧
      (State.endStreams c step ls ps (s, recs)).1.hostCanWrite = s.hostCanWrite := by
  induction ps generalizing s j recs with
  | nil => exact ⟨⟨j, hj, .refl j, fun _ _ => rfl, fun e he => absurd he (by simp)⟩, rfl⟩
  | cons p ps ih =>
    obtain ⟨hnew, hrest⟩ := List.nodup_cons.mp hnodup
    obtain ⟨⟨l, hl, hengine, hpages, hothers, hpos⟩, hcan⟩ := endStream_advances (step := step) (ls := ls) hj hsound p.1 p.2
    obtain ⟨⟨k, hk, hengine', hothers', hpos'⟩, hcan'⟩ := ih hrest (recs ++ (s.endStream c step ls p.1 p.2).2) hl hpages
    refine ⟨⟨k, hk, hengine.trans hengine', fun x hx => ?_, fun e he => ?_⟩, hcan'.trans hcan⟩
    · simp only [List.map_cons, List.mem_cons, not_or] at hx
      exact (hothers' x hx.2).trans (hothers x hx.1)
    · rcases List.mem_cons.mp he with rfl | he
      · rw [hothers' _ hnew, hpos]
      · rw [hpos' e he, hothers e.1 fun h => hnew (h ▸ List.mem_map_of_mem he)]

/-! ## Token records (R255, R460) -/

theorem jobs_putTokens (recs : List (List Byte)) (hcan : s.hostCanWrite = true) : (s.putTokens c recs).jobs = s.jobs := by
  unfold State.putTokens
  split
  · rfl
  · rw [if_neg (by simp [hcan])]
    exact (State.putWriteback_jobs ..).trans (foldl_jobs _ _ _ fun u r => by simp)

/-! ## One chain sweeps (R310, R318, R324) -/

/-- A chain of sound pages with its model makes one sweep; of the job its entry alone changes. -/
theorem stepChain_sweeps (r : GRun) (acc : GStepAcc) (hj : s.job c = some j) (hsound : NoSuspect j) {i : Nat}
    (hmodel : (j.model (j.stream i).model).isSome = true) :
    ∃ t, (s.stepChain c r step acc i).1.job c = some (j.setStream i t) ∧ t.sweep = (j.stream i).sweep + 1 := by
  obtain ⟨m, hm⟩ := Option.isSome_iff_exists.mp hmodel
  simp only [State.stepChain, hj, suspectPage_of_noSuspect hsound, Bool.false_eq_true, if_false, hm, putChain_setJob]
  exact ⟨_, job_setJob_same .., rfl⟩

/-- Each chain of the run makes one sweep. -/
theorem stepChains_sweep (r : GRun) (is : List Nat) (hnodup : is.Nodup) (acc : GStepAcc) (hj : s.job c = some j) (hsound : NoSuspect j)
    (hmodels : ∀ i ∈ is, (j.model (j.stream i).model).isSome = true) :
    ∃ k, (State.stepChains c r step is (s, acc)).1.job c = some k ∧ SameEngine j k ∧ SameEntries j k (· ∈ is) ∧
      ∀ i ∈ is, (k.stream i).sweep = (j.stream i).sweep + 1 := by
  induction is generalizing s j acc with
  | nil => exact ⟨j, hj, .refl j, fun _ _ => rfl, fun i hi => absurd hi (by simp)⟩
  | cons i is ih =>
    obtain ⟨hnew, hrest⟩ := List.nodup_cons.mp hnodup
    obtain ⟨t, ht, hsweep⟩ := stepChain_sweeps (step := step) r acc hj hsound (hmodels i (by simp))
    have hothers (x : Nat) (hx : x ≠ i) : (j.setStream i t).stream x = j.stream x := by rw [stream_setStream, if_neg hx]
    have hmodels' (x : Nat) (hx : x ∈ is) : ((j.setStream i t).model ((j.setStream i t).stream x).model).isSome = true := by
      rw [hothers x fun h => hnew (h ▸ hx)]
      exact hmodels x (by simp [hx])
    obtain ⟨k, hk, hengine, hothers', hsweeps⟩ := ih hrest (s.stepChain c r step acc i).2 ht hsound hmodels'
    refine ⟨k, hk, (sameEngine_setStream ..).trans hengine, fun x hx => ?_, fun x hx => ?_⟩
    · simp only [List.mem_cons, not_or] at hx
      exact (hothers' x hx.2).trans (hothers x hx.1)
    · rcases List.mem_cons.mp hx with rfl | hx
      · rw [hothers' _ hnew, stream_setStream_same, hsweep]
      · rw [hsweeps x hx, hothers x fun h => hnew (h ▸ hx)]

/-- The state in which the records of a sample point are written. -/
def runSampled (j : Job) (r : GRun) (x : State × GStepAcc) : State :=
  if r.samplePoint (r.done + 1) then x.1.hostWrite (r.result + r.nextSeq * r.total * j.runBytes r) x.2.records else x.1

theorem jobs_runSampled (j : Job) (r : GRun) (x : State × GStepAcc) : (runSampled j r x).jobs = x.1.jobs := by
  unfold runSampled
  split
  · exact State.hostWrite_jobs ..
  · rfl

/-- The run after its step: what its chains have added, and whether the host takes writes. -/
def runAfter (r : GRun) (a : GStepAcc) (can : Bool) : GRun :=
  let point := r.samplePoint (r.done + 1)
  { r with
    chains := r.chains.filter fun i => !a.faulted.contains i
    done := r.done + 1
    nextSeq := if point then r.nextSeq + 1 else r.nextSeq
    faulted := r.faulted + a.faulted.length
    writeFault := r.writeFault || (point && !can)
    flags := r.flags ||| a.flags }

/-- The rest of a Gibbs step once its chains have swept: the run goes on as `r'`, its progress is posted, and it ends after its last sweep. -/
def runGoesOn (s : State) (c : Nat) (r r' : GRun) (step : Nat) : State :=
  let s := s.onJob c fun j => { j with grun := some r' }
  let s := if r.progressEvery != 0 && r'.done % r.progressEvery == 0 then s.postJob c 0x0501 0 (toLe 8 r'.done ++ toLe 8 r.sweeps) else s
  if r'.done = r.sweeps || r'.chains.isEmpty then s.endGibbsRun c r' step else s

theorem jobGoes_runGoesOn (s : State) (c : Nat) (r r' : GRun) (step : Nat) : JobGoes SamePlaces c s (runGoesOn s c r r' step) := by
  have hrun : JobGoes SamePlaces c s (s.onJob c fun j => { j with grun := some r' }) :=
    jobGoes_onJob fun k => samePlaces_of_tray ⟨rfl, rfl, rfl, rfl, rfl⟩ rfl
  have hposted (b : Bool) (u : State) (bs : List Byte) : JobGoes SamePlaces c u (if b then u.postJob c 0x0501 0 bs else u) := by
    split
    · exact jobGoes_of_jobs .refl (State.postJob_jobs ..)
    · exact jobGoes_of_jobs .refl rfl
  unfold runGoesOn
  dsimp only
  split
  · exact (hrun.trans .trans (hposted _ _ _)).trans .trans (jobGoes_endGibbsRun _ c _ _)
  · exact hrun.trans .trans (hposted _ _ _)

theorem gibbsStep_of_run {r : GRun} (hj : s.job c = some j) (hrun : j.grun = some r) :
    s.gibbsStep c step =
      let x := State.stepChains c r step r.chains (s, ⟨[], 0, []⟩)
      runGoesOn (runSampled j r x) c r (runAfter r x.2 (runSampled j r x).hostCanWrite) step := by
  simp only [State.gibbsStep, hj, hrun]
  rfl

/-- A Gibbs step: every chain of the run makes one sweep, whatever becomes of its records. -/
theorem gibbsStep_sweeps {r : GRun} (hj : s.job c = some j) (hrun : j.grun = some r) (hsound : NoSuspect j) (hnodup : r.chains.Nodup)
    (hmodels : ∀ i ∈ r.chains, (j.model (j.stream i).model).isSome = true) :
    ∃ k, (s.gibbsStep c step).job c = some k ∧ SameEngine j k ∧ ∀ i ∈ r.chains, (k.stream i).sweep = (j.stream i).sweep + 1 := by
  obtain ⟨k, hk, hengine, -, hsweeps⟩ := stepChains_sweep (step := step) r r.chains hnodup ⟨[], 0, []⟩ hj hsound hmodels
  rw [gibbsStep_of_run hj hrun]
  generalize State.stepChains c r step r.chains (s, ⟨[], 0, []⟩) = x at hk ⊢
  obtain ⟨l, hl, hsame⟩ := jobGoes_runGoesOn (runSampled j r x) c r (runAfter r x.2 (runSampled j r x).hostCanWrite) step k
    ((job_of_jobs (jobs_runSampled ..) c).trans hk)
  exact ⟨l, hl, hengine.trans hsame.engine, fun i hi => (hsame.sweep i).trans (hsweeps i hi)⟩

/-! ## STEP_BOUNDARY (R290) -/

theorem finishTransfers_of_none (hnone : ∀ t ∈ s.streamers, t.ctx ≠ c) : s.finishTransfers c = s := by
  have hfilter : (s.streamers.filter fun t => t.ctx == c) = [] := List.filter_eq_nil_iff.mpr (by simpa using hnone)
  rw [State.finishTransfers, hfilter]
  rfl

/-- The cores of a job stop at the end of its step (R156). -/
def coresStopped (s : State) (j : Job) : State := s.onCores (inHalves j.halves) fun _ x => x.stopped

theorem job_coresStopped (hj : s.job c = some j) : (coresStopped s j).job c = some j := (job_of_jobs (State.onCores_jobs ..) c).trans hj

/-- A step whose work is done and whose transfers are over ends by its kind, and the boundary follows. -/
theorem exec_stepBoundary_of_done {r : StepRun} (hc : c < 16) (hj : s.job c = some j) (hst : j.st = .running) (hrun : j.run = some r)
    (hdone : s.stepDone j r = true) (hnone : ∀ t ∈ s.streamers, t.ctx ≠ c) :
    exec (.stepBoundary c ls) s = .next ((if r.gibbs then (coresStopped s j).gibbsStep c r.number else
      (State.endStreams c r.number ls (r.batch.zip r.ingest) (coresStopped s j, [])).1.putTokens c
        (State.endStreams c r.number ls (r.batch.zip r.ingest) (coresStopped s j, [])).2).boundary c r.number) := by
  have hfetching : j.fetching.isEmpty = true := by
    unfold State.stepDone at hdone
    exact (Bool.and_eq_true_iff.mp hdone).2
  refine onCtx_next hc ?_
  unfold State.endStep
  rw [hj]
  dsimp only
  rw [hrun]
  dsimp only
  rw [hdone, finishTransfers_of_none hnone]
  change (match (coresStopped s j).job c with | none => _ | some j => _) = _
  rw [job_coresStopped hj]
  dsimp only
  rw [if_neg (by simp [hst, hfetching])]
  rfl

theorem nodup_map_fst_zip {as bs : List Nat} (h : as.Nodup) : ((as.zip bs).map Prod.fst).Nodup := by
  rw [List.zip_eq_zip_take_min, List.map_fst_zip (by simp)]
  exact h.sublist (List.take_sublist ..)

/-- A token step ends: every stream of its batch has advanced by what it ingested. -/
theorem stepBoundary_of_token {r : StepRun} (hc : c < 16) (hj : s.job c = some j) (hst : j.st = .running) (hrun : j.run = some r)
    (hdone : s.stepDone j r = true) (hwaiting : j.waiting = []) (hclosing : j.closing = none) (hnone : ∀ t ∈ s.streamers, t.ctx ≠ c)
    (hsound : NoSuspect j) (hcan : s.hostCanWrite = true) (hkind : r.gibbs = false) (hnodup : r.batch.Nodup) :
    Answers (.stepBoundary c ls) s fun t => ∃ k : Job, t.job c = some k ∧ k.run = none ∧ k.stepNext = r.number + 1 ∧
      ∀ e ∈ r.batch.zip r.ingest, (k.stream e.1).pos = (j.stream e.1).pos + e.2 := by
  refine ⟨_, exec_stepBoundary_of_done hc hj hst hrun hdone hnone, ?_⟩
  rw [hkind, if_neg Bool.false_ne_true]
  obtain ⟨⟨k, hk, hengine, -, hpos⟩, hstill⟩ := endStreams_advance (step := r.number) (ls := ls) (r.batch.zip r.ingest)
    (nodup_map_fst_zip hnodup) [] (job_coresStopped hj) hsound
  have hcan' : (coresStopped s j).hostCanWrite = true := (congrArg HostPort.busMaster (State.onCores_host ..)).trans hcan
  generalize State.endStreams c r.number ls (r.batch.zip r.ingest) (coresStopped s j, []) = x at hk hstill ⊢
  have hk' : (x.1.putTokens c x.2).job c = some k := (job_of_jobs (jobs_putTokens x.2 (hstill.trans hcan')) c).trans hk
  obtain ⟨l, hl, hover, hnext, hsame, -⟩ := boundary_advances hk' (hengine.st.trans hst) (hengine.waiting.trans hwaiting)
    (hengine.closing.trans hclosing) r.number
  exact ⟨l, hl, hover, hnext, fun e he => (hsame e.1).trans (hpos e he)⟩

/-- A Gibbs step ends: every chain of the run has made one sweep. -/
theorem stepBoundary_of_gibbs {r : StepRun} {g : GRun} (hc : c < 16) (hj : s.job c = some j) (hst : j.st = .running) (hrun : j.run = some r)
    (hdone : s.stepDone j r = true) (hwaiting : j.waiting = []) (hclosing : j.closing = none) (hnone : ∀ t ∈ s.streamers, t.ctx ≠ c)
    (hsound : NoSuspect j) (hkind : r.gibbs = true) (hgrun : j.grun = some g) (hnodup : g.chains.Nodup)
    (hmodels : ∀ i ∈ g.chains, (j.model (j.stream i).model).isSome = true) :
    Answers (.stepBoundary c []) s fun t => ∃ k : Job, t.job c = some k ∧ k.run = none ∧ k.stepNext = r.number + 1 ∧
      ∀ i ∈ g.chains, (k.stream i).sweep = (j.stream i).sweep + 1 := by
  refine ⟨_, exec_stepBoundary_of_done hc hj hst hrun hdone hnone, ?_⟩
  rw [hkind, if_pos rfl]
  obtain ⟨k, hk, hengine, hsweeps⟩ := gibbsStep_sweeps (step := r.number) (job_coresStopped hj) hgrun hsound hnodup hmodels
  obtain ⟨l, hl, hover, hnext, -, hsame⟩ := boundary_advances hk (hengine.st.trans hst) (hengine.waiting.trans hwaiting)
    (hengine.closing.trans hclosing) r.number
  exact ⟨l, hl, hover, hnext, fun i hi => (hsame i).trans (hsweeps i hi)⟩

end Sys2Proof.Slice0

/-!
PROOFS. The start of a step (R29, R245, R274, R323, R430, R473): the statement O39.
-/
namespace Sys2Proof.Slice0
open Sys2Proof Sys2Proof.Machine

variable {s : State} {c : Nat} {j : Job}

/-! ## A step that goes on -/

/-- From j to k the step in progress keeps its number, kind and batch, and no entry leaves RUNNING. -/
structure StepGoesOn (j k : Job) : Prop where
  run : ∀ r, j.run = some r → ∃ r', k.run = some r' ∧ r'.number = r.number ∧ r'.gibbs = r.gibbs ∧ r'.batch = r.batch
  running : ∀ i, (j.stream i).st = 3 → (k.stream i).st = 3

/-- A change beside the step in progress and the tray. -/
theorem stepGoesOn_of_same {j k : Job} (hrun : k.run = j.run) (htray : k.tray = j.tray) : StepGoesOn j k := by
  have hstream (i : Nat) : k.stream i = j.stream i := congrArg (fun m => Map.get Stream.free m i) htray
  exact ⟨fun r hr => ⟨r, hrun.trans hr, rfl, rfl, rfl⟩, fun i hi => (congrArg Stream.st (hstream i)).trans hi⟩

theorem StepGoesOn.refl (j : Job) : StepGoesOn j j := stepGoesOn_of_same rfl rfl

theorem StepGoesOn.trans {j k l : Job} (h : StepGoesOn j k) (g : StepGoesOn k l) : StepGoesOn j l := by
  refine ⟨fun r hr => ?_, fun i hi => g.running i (h.running i hi)⟩
  obtain ⟨r', hr', hnumber, hgibbs, hbatch⟩ := h.run r hr
  obtain ⟨r'', hr'', hnumber', hgibbs', hbatch'⟩ := g.run r' hr'
  exact ⟨r'', hr'', hnumber'.trans hnumber, hgibbs'.trans hgibbs, hbatch'.trans hbatch⟩

/-! ## The batch enters RUNNING (R26, R245, R254) -/

/-- An entry that is RUNNING, with the pages that it opens and the chunks of its page list. -/
def runningEntry (t : Stream) (ps cs : List Nat) : Stream := { t with st := 3, pages := t.pages ++ ps, pageChunks := t.pageChunks ++ cs }

/-- A stream of the batch takes its pages and chunks and enters RUNNING. -/
theorem job_runStream (hj : s.job c = some j) (i : Nat) : ∃ (k : Job) (ps cs : List Nat), withoutPools k = withoutPools j ∧
    (s.runStream c i).job c = some (k.setStream i (runningEntry (j.stream i) ps cs)) := by
  simp only [State.runStream, hj]
  have hpools := (withoutPools_takeChunks (chunksFor 0 ((j.stream i).pages.length + (j.takePages (j.opens (j.stream i))).1.length) -
    (j.stream i).pageChunks.length) (j.takePages (j.opens (j.stream i))).2).trans (withoutPools_takePages (j.opens (j.stream i)) j)
  generalize j.takePages (j.opens (j.stream i)) = a at hpools ⊢
  generalize a.2.takeChunks _ = b at hpools ⊢
  refine ⟨b.2, a.1, b.1, hpools, (job_of_jobs (Eq.trans (foldl_jobs _ _ _ ?_) (foldl_jobs _ _ _ ?_)) c).trans ?_⟩
  · exact fun _ _ => rfl
  · exact fun _ _ => rfl
  · split
    · exact job_setJob_same ..
    · rw [writePages_setJob]
      exact job_setJob_same ..

theorem runStream_runs (hj : s.job c = some j) (i : Nat) :
    ∃ k, (s.runStream c i).job c = some k ∧ StepGoesOn j k ∧ (k.stream i).st = 3 := by
  obtain ⟨k, ps, cs, hpools, hk⟩ := job_runStream hj i
  refine ⟨_, hk, ⟨fun r hr => ⟨r, (congrArg Job.run hpools :).trans hr, rfl, rfl, rfl⟩, fun x hx => ?_⟩, ?_⟩
  · rw [stream_setStream]
    split
    · rfl
    · exact (congrArg Stream.st (stream_of_withoutPools hpools x)).trans hx
  · rw [stream_setStream_same]
    rfl

theorem runStreams_run (batch : List Nat) (hj : s.job c = some j) :
    ∃ k, (batch.foldl (fun (s : State) i => s.runStream c i) s).job c = some k ∧ StepGoesOn j k ∧ ∀ i ∈ batch, (k.stream i).st = 3 := by
  induction batch generalizing s j with
  | nil => exact ⟨j, hj, .refl j, fun i hi => absurd hi (by simp)⟩
  | cons i is ih =>
    obtain ⟨k, hk, hfirst, hst⟩ := runStream_runs hj i
    obtain ⟨l, hl, hrest, hall⟩ := ih hk
    refine ⟨l, hl, hfirst.trans hrest, fun x hx => ?_⟩
    rcases List.mem_cons.mp hx with rfl | hx
    · exact hrest.running _ hst
    · exact hall x hx

/-! ## The experts and the first launch (R166, R273 to R275) -/

theorem jobGoes_dispatchLayer (s : State) (c layer : Nat) : JobGoes StepGoesOn c s (s.dispatchLayer c layer) := by
  intro j hj
  simp only [State.dispatchLayer, hj]
  split
  · exact ⟨j, hj, .refl j⟩
  · refine jobGoes_foldl .refl .trans _ (fun u home => ?_) _ s j hj
    split
    · exact jobGoes_onJob fun k => stepGoesOn_of_same rfl rfl
    · exact jobGoes_of_jobs .refl (foldl_jobs _ _ _ fun _ _ => rfl)

theorem jobGoes_dispatchFrom (n layer : Nat) (s : State) : JobGoes StepGoesOn c s (State.dispatchFrom c n layer s) := by
  induction n generalizing layer s with
  | zero => exact jobGoes_of_jobs .refl rfl
  | succ n ih =>
    intro j hj
    obtain ⟨k, hk, hdispatched⟩ := jobGoes_dispatchLayer s c layer j hj
    unfold State.dispatchFrom
    dsimp only
    rw [hk]
    dsimp only
    split
    · have hcounted : StepGoesOn k { k with moe := layer + 1 } := stepGoesOn_of_same rfl rfl
      obtain ⟨l, hl, hrest⟩ := ih (layer + 1) _ _ (job_setJob_same (s.dispatchLayer c layer) c { k with moe := layer + 1 })
      exact ⟨l, hl, hdispatched.trans (hcounted.trans hrest)⟩
    · exact ⟨k, hk, hdispatched⟩

theorem jobGoes_startExperts (s : State) (c : Nat) : JobGoes StepGoesOn c s (s.startExperts c) := by
  intro j hj
  simp only [State.startExperts, hj]
  have hcleared : StepGoesOn j { j with outputs := [], combined := [], moe := 0, ranLayers := [] } := stepGoesOn_of_same rfl rfl
  obtain ⟨k, hk, hgoes⟩ := jobGoes_dispatchFrom j.moeLayers 0 _ _
    (job_setJob_same s c { j with outputs := [], combined := [], moe := 0, ranLayers := [] })
  exact ⟨k, hk, hcleared.trans hgoes⟩

theorem jobs_launch (s : State) (c : Nat) (j : Job) (e : ProgEntry) : (s.launch c j e).jobs = s.jobs := by
  unfold State.launch
  split
  · rfl
  · dsimp only
    rw [State.onHalves_jobs, State.onCores_jobs]

theorem jobGoes_launchNext (s : State) (c : Nat) : JobGoes StepGoesOn c s (s.launchNext c) := by
  intro j hj
  simp only [State.launchNext, hj]
  split
  · exact ⟨j, hj, .refl j⟩
  · next r hrun =>
    split
    · split
      · exact ⟨j, hj, .refl j⟩
      · refine ⟨_, (job_of_jobs (jobs_launch ..) c).trans (job_setJob_same ..), fun x hx => ?_, fun _ => id⟩
        obtain rfl : r = x := Option.some.inj (hrun.symm.trans hx)
        exact ⟨_, rfl, rfl, rfl, rfl⟩
    · exact ⟨j, hj, .refl j⟩

/-! ## STEP_START (R29, R245, R323) -/

/-- The job once a step of the given kind has begun with its batch. -/
def begunJob (s : State) (c : Nat) (j : Job) (gibbs : Bool) (a : BatchAcc) : Job :=
  let batch := if gibbs then [] else sortNat a.batch
  { j with
    run := some ⟨gibbs, j.stepNext, batch, batch.map fun i => j.ingest (j.stream i), 0, s.xcOf c⟩, lastGibbs := gibbs, overdue := false
    stepStartNominal := j.elapsed - j.refreshStall - j.retryStall
    batchSize := if gibbs then j.batchSize else batch.length, skipped := if gibbs then j.skipped else a.skipped }

theorem beginStep_begins (s : State) (c : Nat) (j : Job) (gibbs : Bool) (a : BatchAcc) :
    ∃ (k : Job) (r : StepRun), (s.beginStep c j gibbs a).job c = some k ∧ k.run = some r ∧ r.number = j.stepNext ∧ r.gibbs = gibbs ∧
      r.batch = (if gibbs then [] else sortNat a.batch) ∧ ∀ i ∈ r.batch, (k.stream i).st = 3 := by
  obtain ⟨k, hk, hgoes, hrunning⟩ := runStreams_run (if gibbs then [] else sortNat a.batch)
    (job_setJob_same s c (begunJob s c j gibbs a))
  have hrest (u : State) (sel : Nat → Bool) : JobGoes StepGoesOn c u
      (((if gibbs then u.onCores sel fun _ x => x.stepStart else (u.onCores sel fun _ x => x.stepStart).startExperts c) : State).launchNext c) := by
    refine JobGoes.trans .trans ?_ (jobGoes_launchNext _ c)
    have hcores : JobGoes StepGoesOn c u (u.onCores sel fun _ x => x.stepStart) := jobGoes_of_jobs .refl (State.onCores_jobs ..)
    split
    · exact hcores
    · exact hcores.trans .trans (jobGoes_startExperts _ c)
  obtain ⟨l, hl, hon⟩ := hrest _ _ k hk
  obtain ⟨r, hr, hnumber, hgibbs, hbatch⟩ := (hgoes.trans hon).run _ rfl
  refine ⟨l, r, hl, hr, hnumber, hgibbs, hbatch, fun i hi => hon.running i (hrunning i ?_)⟩
  rwa [hbatch] at hi

/-- REGROW_DONE, where it is due, leaves of the job everything but the regrow. -/
theorem job_replayDone (hj : s.job c = some j) : ∃ g, (s.replayDone c).job c = some { j with regrow := g } := by
  simp only [State.replayDone, hj]
  split
  · split
    · exact ⟨_, job_onJob ((job_of_jobs (State.postJob_jobs ..) c).trans hj) _⟩
    · exact ⟨_, hj⟩
  · exact ⟨_, hj⟩

/-- A step begins with the batch that the boundary forms, once nothing holds the engine. -/
theorem stepStart_begins {v : State} {j₀ : Job} {a : BatchAcc} {gibbs : Bool} (hc : c < 16) (hj₀ : s.job c = some j₀)
    (hstands : j₀.atBoundary = true) (hruns : s.halvesOf c ≠ 0) (hv : v = (s.setJob c { j₀ with waiting := [] }).idleBoundary c j₀.waiting)
    (hj : v.job c = some j) (hmay : v.mayStart c j = true) (hlast : j.stepNext < 2 ^ 48) (ha : a = j.refill.formBatch)
    (hkind : gibbs = j.refill.nextGibbs a.batch)
    (hroom : gibbs = false → (a.batch.map j.refill.recordsOf).foldl (· + ·) 0 ≤ (v.ring c).room 1) :
    Answers (.stepStart c) s fun t => ∃ (k : Job) (r : StepRun), t.job c = some k ∧ k.run = some r ∧ r.number = j.stepNext ∧
      r.gibbs = gibbs ∧ r.batch = (if gibbs then [] else sortNat a.batch) ∧ ∀ i ∈ r.batch, (k.stream i).st = 3 := by
  obtain ⟨g, hg⟩ := job_replayDone (job_setJob_same v c j.refill)
  have hfits : ¬ (v.ring c).room 1 < (if gibbs then 0 else (a.batch.map j.refill.recordsOf).foldl (· + ·) 0) := by
    cases gibbs with
    | false => exact Nat.not_lt.mpr (hroom rfl)
    | true => exact Nat.not_lt_zero _
  have hexec : exec (.stepStart c) s =
      .next (((v.setJob c j.refill).replayDone c).beginStep c { j.refill with regrow := g } gibbs a) := by
    refine onCtx_next hc ?_
    unfold State.startStep
    rw [hj₀]
    dsimp only
    rw [if_neg (by simp [hstands, hruns]), ← hv, hj]
    dsimp only
    rw [hmay, ← ha, ← hkind, if_neg (by decide), if_neg (by omega), if_neg hfits, hg]
  exact ⟨_, hexec, beginStep_begins ..⟩

/-- Settles O39: a step begins with the batch that the boundary forms, and each stream or chain of a step that ends advances once before the
boundary, whose actions move none (`boundary_advances`). -/
theorem stepsComplete : Obligations.StepsComplete := by
  unfold Obligations.StepsComplete
  intro c s hc
  refine ⟨?start, ?token, ?gibbs⟩
  case start => exact fun j₀ j v a gibbs => stepStart_begins hc
  case token =>
    intro j r logits hj hst hrun hdone hwaiting hclosing hnone hsound hcan hkind hnodup
    exact stepBoundary_of_token hc hj hst hrun hdone hwaiting hclosing hnone hsound hcan hkind hnodup
  case gibbs =>
    intro j r g hj hst hrun hdone hwaiting hclosing hnone hsound hkind hgrun hnodup hmodels
    exact stepBoundary_of_gibbs hc hj hst hrun hdone hwaiting hclosing hnone hsound hkind hgrun hnodup hmodels

end Sys2Proof.Slice0
